-- ==== Sys2Proof/Word.lean ====
section
/-! DEFINITION. The word types of the Kwagen 8800 (R8): bytes, 32-bit registers, 64-bit ply values, and byte strings. -/
namespace Sys2Proof

/-- One byte of a frame, an entry or a memory. -/
abbrev Byte := BitVec 8

/-- One register (R8: "A register is 32 bits wide"). -/
abbrev Word := BitVec 32

/-- A value of the global ply counter (R38), or a 64-bit page counter. -/
abbrev Ply := BitVec 64

/-- A string of bytes, lowest address first. -/
abbrev Bytes := List Byte

/-- A byte from a number, modulo 256. -/
abbrev byte (n : Nat) : Byte := BitVec.ofNat 8 n

end Sys2Proof
end

