-- ==== Sys2Proof/Syntax.lean ====
section
/-! DEFINITION. The commands of the Kwagen 8800: one constructor for each row of the opcode table, in its order. `sess` is a session number, `port` and
`sub` a port and sub-port (R116), `core` a logical core, `ctx` a thread context, `die` a compute die. Operands that stand for what the physical world or
a frame brings (a frame's bytes, a sensor reading, the outcome of an error check) are given by the sender (log entry 1). -/
namespace Sys2Proof

/-- A command, or an event of the device's own engines, as one step of the block. -/
inductive Instr where
  /-- FRAME_START (R145): The parser samples the start of a frame on a line port and runs the ordered ingress checks: Selid diversion, pair mode,
  summary or recirculation recognition, parse, channel selection, quench, buffer admission and steering. -/
  | frameStart (port : Nat) (sub : Nat) (frame : Bytes)
  /-- FRAME_TAIL (R164): The last byte of a frame arrives; a failed FCS or length drops it and settles its verdict accounting. -/
  | frameTail (port : Nat) (sub : Nat)
  /-- HEADER_VECTOR (R366): A header vector steered in the pawn class reaches a core and joins its pawn queue, or waits in the network while the queue
  is full. -/
  | headerVector (packet : Nat)
  /-- BATCH_CLOSE (R29): A streamed batch closes when it is full or its earliest deadline leaves only evaluation and return time. -/
  | batchClose (core : Nat) (chan : Nat) (gen : Nat)
  /-- VERDICT_ARRIVAL (R26): A verdict reaches the port die and is applied by the deadline, or is discarded as late. -/
  | verdictArrival (packet : Nat)
  /-- DEADLINE (R26): A packet's deadline ply passes with no verdict, so the port die applies the default verdict and counts it. -/
  | deadline (packet : Nat)
  /-- EGRESS_ELIGIBLE (R164): A packet whose verdict is applied and whose last byte has arrived becomes eligible for egress, or is dropped as red. -/
  | egressEligible (packet : Nat)
  /-- VERDICT_FRAME (R166): A summary sub-port sends a verdict frame when 32 records are ready or the oldest has waited VF_HOLD plies. -/
  | verdictFrame (port : Nat) (sub : Nat)
  /-- ARP_REQUEST (R81): An ARP request for a control IPv4 address is answered. -/
  | arpRequest (port : Nat) (sub : Nat) (frame : Bytes)
  /-- NEIGHBOUR_SOLICITATION (R81): An IPv6 neighbour solicitation for a control address is answered. -/
  | neighbourSolicitation (port : Nat) (sub : Nat) (frame : Bytes)
  /-- PAUSE_FRAME (R131): A received PAUSE frame holds transmission on the sub-port for its quanta, or is dropped and counted. -/
  | pauseFrame (port : Nat) (sub : Nat) (frame : Bytes)
  /-- PFC_FRAME (R132): A received PFC frame holds transmission of frames of the named priorities. -/
  | pfcFrame (port : Nat) (sub : Nat) (frame : Bytes)
  /-- PAUSE_RESEND (R133): The XOFF pause or PFC frame is resent before half its pause time has passed. -/
  | pauseResend (port : Nat) (sub : Nat) (key : Nat)
  /-- PFC_STORM (R134): A priority stays paused for STORM_MS, which sets PFC_STORM and may release received PFC until the storm ends. -/
  | pfcStorm (port : Nat) (sub : Nat) (prio : Nat)
  /-- LINK_DOWN (R136): A sub-port's PCS loses alignment or signals a receive fault, and traffic through it and its partner is dropped. -/
  | linkDown (port : Nat) (sub : Nat)
  /-- LINK_UP (R136): A sub-port regains alignment after autonegotiation and training, and traffic resumes. -/
  | linkUp (port : Nat) (sub : Nat)
  /-- LANE_FAILURE (R138): A lane is failed after 1 ms of lost signal or three failed adaptations, and the sub-port narrows or stays down. -/
  | laneFailure (port : Nat) (lane : Nat)
  /-- REF_LOSS (R37): The reference clock is found lost; ply generators switch to internal oscillators and SerDes enter holdover. -/
  | refLoss
  /-- REF_HOLDOVER_END (R140): 10 ms of holdover expire without the reference, so every transmitter is squelched and every sub-port goes down. -/
  | refHoldoverEnd
  /-- REF_RETURN (R567): The reference clock returns, and ply generators and ports resume from it. -/
  | refReturn
  /-- HELLO (R92): A HELLO is received whole and answered with a signed OFFER or a REJECT under the setup limits. -/
  | hello (port : Nat) (sub : Nat) (frame : Bytes) (nor : Nat)
  /-- ACCEPT (R88): An ACCEPT is received whole, checked and decapsulated, and the session keys are derived and READY is sent, or REJECT is sent. -/
  | accept (port : Nat) (sub : Nat) (frame : Bytes)
  /-- SETUP_FRAGMENT_TIMEOUT (R84): A setup message whose fragments have not all arrived within 1 s is discarded. -/
  | setupFragmentTimeout
  /-- HALF_OPEN_EXPIRE (R92): A half-open session expires 1 s after its OFFER was sent. -/
  | halfOpenExpire (num : Nat)
  /-- PROTECTED (R97): A protected frame is authenticated against the SEQ window and its command is accepted for execution, or it is dropped. -/
  | protectedFrame (port : Nat) (sub : Nat) (frame : Bytes)
  /-- SESSION_IDLE_TIMEOUT (R95): IDLE seconds pass without an accepted host frame, so the session ends. -/
  | sessionIdleTimeout (sess : Nat)
  /-- ECHO (R102): The response body repeats the request body. -/
  | echo (sess : Nat)
  /-- CLOSE (R95): The session ends after the response is sent. -/
  | close (sess : Nat)
  /-- READ_BATCH (R103): A list of registers is read and returned with entry statuses. -/
  | readBatch (sess : Nat)
  /-- READ_BLOCK (R103): Consecutive registers of one page are read in one ply. -/
  | readBlock (sess : Nat)
  /-- WRITE_BATCH (R105): A list of register writes is sampled in batch order, with entry statuses. -/
  | writeBatch (sess : Nat)
  /-- REGISTER_WRITE (R47): A host write to a register field with no behaviour of its own takes effect in the ply its page's arbiter samples it. -/
  | registerWrite (sess : Nat)
  /-- EVENT_CLEAR (R63): A write to EVENT clears each flag written with 1. -/
  | eventClear (sess : Nat)
  /-- EVENT_MASK_WRITE (R64): A write to EVENT_MASK sets the mask, and unmasking a set flag triggers an event frame. -/
  | eventMaskWrite (sess : Nat)
  /-- EVENT_FORCE (R65): A write to EVENT_FORCE requests forced sets of the named EVENT bits. -/
  | eventForce (sess : Nat)
  /-- FORCED_SET (R65): In the ply after the EVENT_FORCE write, each forced bit is set as a hardware set and EVENT_COUNT advances. -/
  | forcedSet (page : Nat)
  /-- LOCK_WRITE (R69): A write to LOCK.STATE locks, unlocks or seals the page, or is refused. -/
  | lockWrite (sess : Nat)
  /-- EVENT_FRAME (R74): A page forms an event frame in the ply after an unmasked set or unmask and queues it to its sink set's sinks. -/
  | eventFrame (page : Nat)
  /-- HOLDOFF_EXPIRE (R75): The HOLDOFF spacing ends and a suppressed event frame is formed or discarded. -/
  | holdoffExpire (page : Nat)
  /-- EVENT (R112): A sink's queued event records are sent in an EVENT message. -/
  | event (set : Nat) (sess : Nat)
  /-- PORT_ENABLE (R121): PORT_EN changes from 0 to 1, and the port's configuration is taken into use or refused. -/
  | portEnable (sess : Nat)
  /-- PORT_DISABLE (R121): PORT_EN changes from 1 to 0, which squelches the transmitters and takes every sub-port down. -/
  | portDisable (sess : Nat)
  /-- COUNTER_CLEAR (R141): A write of COUNTER_CLEAR bit s clears the counters of sub-port s. -/
  | counterClear (sess : Nat)
  /-- READMIT (R144): A write of READMIT returns a failed lane to use and restarts the sub-port at its configured width. -/
  | readmit (sess : Nat)
  /-- LEARN_AGENT_SWITCH (R221): A write of LEARN_CFG.HOST hands the learn rings between the control complex and the host. -/
  | learnAgentSwitch (sess : Nat)
  /-- DEEP_EN_WRITE (R361): A write of DEEP_CFG.EN reserves or frees the state pools, or is refused. -/
  | deepEnWrite (sess : Nat)
  /-- RESYNC (R519): A write of PAIR_CTRL.RESYNC on a primary starts a resync of the mirrored state. -/
  | resync (sess : Nat)
  /-- CASTLE (R514): A write of PAIR_CTRL.CASTLE sets YIELD on a primary, or makes a standby castle. -/
  | castle (sess : Nat)
  /-- DEVICE_RESET (R556): A keyed write of RESET_CTRL.DEVICE_RESET schedules a device reset 1 ms later. -/
  | deviceReset (sess : Nat)
  /-- CONTROL_RESET (R556): A keyed write of RESET_CTRL.CONTROL_RESET schedules a control reset 1 ms later. -/
  | controlReset (sess : Nat)
  /-- CHANNEL_CREATE (R178): A channel descriptor is checked, and a channel slot and its rings are allocated in the unbound state. -/
  | channelCreate (sess : Nat)
  /-- CHANNEL_DESTROY (R181): A channel stops matching, its quenches and staging end, and it enters the draining state. -/
  | channelDestroy (sess : Nat)
  /-- CHANNEL_DRAINED (R181): A destroyed channel's draining ends, its slot, sub-slabs and rings are released, and its generations are retired. -/
  | channelDrained (chan : Nat)
  /-- TABLE_SEARCH (R230): A key is looked up without refresh and the entry is returned. -/
  | tableSearch (sess : Nat) (bad1 : Bool) (bad2 : Bool)
  /-- TABLE_NEXT (R232): Up to MAX valid entries are returned from a cursor scan. -/
  | tableNext (sess : Nat)
  /-- TABLE_FLUSH (R233): A sweep begins that removes the entries of a channel or of selected ports. -/
  | tableFlush (sess : Nat)
  /-- FLUSH_DONE (R233): The flush sweep ends, FLUSH_DONE is set and the response gives FLUSHED and DONE_PLY. -/
  | flushDone
  /-- TABLE_INSERT (R231): A host entry is checked and inserted through the owner's slice. -/
  | tableInsert (sess : Nat)
  /-- TABLE_DELETE (R230): The first hit of a key is removed. -/
  | tableDelete (sess : Nat) (bad1 : Bool) (bad2 : Bool)
  /-- RING_READ (R188): Whole items are returned from HEAD of a device-produced ring and ready items become read. -/
  | ringRead (sess : Nat)
  /-- RING_ACK (R189): Read items are freed from HEAD, oldest first. -/
  | ringAck (sess : Nat)
  /-- RING_WRITE (R197): Words are appended to a host-produced ring while room remains. -/
  | ringWrite (sess : Nat)
  /-- RING_FLUSH (R193): Every complete held item is discarded and SEQ restarts. -/
  | ringFlush (sess : Nat)
  /-- RING_RESIGN (R192): The producer's partial item is discarded or closed as a truncated item. -/
  | ringResign (sess : Nat)
  /-- RING_MARK (R194): The rewind mark is set at HEAD. -/
  | ringMark (sess : Nat)
  /-- RING_REWIND (R195): HEAD moves back to the mark, and acknowledged items return to the read state. -/
  | ringRewind (sess : Nat)
  /-- FLAG_FALL (R191): A ring holds a ready item when its flag-fall limit expires, so FLAG_FALL is set. -/
  | flagFall (ring : Nat)
  /-- PENDING_GAP (R190): In the first ply with a free word, a gap marker carrying the pending count is written. -/
  | pendingGap (ring : Nat)
  /-- STAGE_OPEN (R424): A staging operation is opened for a channel or deep-model slot. -/
  | stageOpen (sess : Nat)
  /-- STAGE_DATA (R425): Image bytes are stored at an offset of the staging operation. -/
  | stageData (sess : Nat)
  /-- STAGE_VERIFY (R426): The image is verified, checked for form and resources, and accepted with its resources reserved, or refused. -/
  | stageVerify (sess : Nat)
  /-- STAGE_SWAP (R433): The staged generation becomes current at one ply and the previous generation begins draining. -/
  | stageSwap (sess : Nat)
  /-- STAGE_DISCARD (R431): The staging operation is freed with all its reservations. -/
  | stageDiscard (sess : Nat)
  /-- GEN_RETIRE (R435): A draining generation with no packet or token still using it is retired and its resources are released. -/
  | genRetire (deep : Bool) (target : Nat) (gen : Nat)
  /-- QUENCH (R108): A quench is set on chosen line ports to drop or pass traffic before buffering. -/
  | quench (sess : Nat)
  /-- UNQUENCH (R110): A named quench, or every quench, ceases. -/
  | unquench (sess : Nat)
  /-- QUENCH_EXPIRE (R109): A quench ceases when its DURATION has passed. -/
  | quenchExpire (qid : Nat)
  /-- SCORE_START (R528): Recording starts into a newly allocated scoresheet ring, or recording ends for WHAT 0. -/
  | scoreStart (sess : Nat)
  /-- SCORE_STOP (R532): Recording ends and the totals are returned. -/
  | scoreStop (sess : Nat)
  /-- REPLAY_START (R533): Replay of a recorded range begins into a new replay ring. -/
  | replayStart (sess : Nat)
  /-- REPLAY_STOP (R535): Replay ends and the comparison totals are returned. -/
  | replayStop (sess : Nat)
  /-- REPLAY_INJECT (R534): A recorded ingress frame is injected into the replay lane and parsed and steered without effect on traffic. -/
  | replayInject (index : Nat)
  /-- REPLAY_END (R535): Replay ends after the deadline of the last injected frame, and REPLAY_DONE is set. -/
  | replayEnd
  /-- SINK_JOIN (R111): The session joins an event-sink set. -/
  | sinkJoin (sess : Nat)
  /-- SINK_LEAVE (R583): The session leaves an event-sink set. -/
  | sinkLeave (sess : Nat)
  /-- ATTEST (R489): A signed attestation quote is formed over the sampled device state. -/
  | attest (sess : Nat) (nor : Nat)
  /-- ENROL (R480): The owner root key is written to NOR and the device becomes owned, ending every open session. -/
  | enrol (sess : Nat) (fail : Bool)
  /-- REGISTERS_BUNDLE (R485): A signed REGISTERS bundle performs its register writes and seals the pages its entries name. -/
  | registersBundle (sess : Nat)
  /-- TEAM_BUNDLE (R486): A signed TEAM bundle sets the team membership, ports and key. -/
  | teamBundle (sess : Nat)
  /-- FW_MANIFEST_BUNDLE (R487): A signed FW_MANIFEST bundle opens a firmware transfer and sets the countersignature flag. -/
  | fwManifestBundle (sess : Nat)
  /-- FW_DATA_BUNDLE (R487): A FW_DATA bundle delivers image bytes, and the last one has the image checked and written to the other flash slot. -/
  | fwDataBundle (sess : Nat) (fail : Bool)
  /-- RELEASE_BUNDLE (R481): A signed RELEASE bundle puts the device into release pending. -/
  | releaseBundle (sess : Nat)
  /-- PAIR_BUNDLE (R510): A signed PAIR bundle configures the pair and puts the device in the starting role. -/
  | pairBundle (sess : Nat)
  /-- PAWN_DISPATCH (R366): The pawn dispatcher takes queued header vectors of one pinned channel, or a closed streamed batch, into a free pawn
  context as one task. -/
  | pawnDispatch (core : Nat) (ctx : Nat)
  /-- TASK_ADMIT (R451): The chess clock admits the queued class 2 or class 3 task with the earliest deadline that fits the general pool. -/
  | taskAdmit (core : Nat) (ctx : Nat)
  /-- TABLE_FETCH (R390): The task's schedule table is copied into the table area, and the task starts running or aborts. -/
  | tableFetch (core : Nat) (ctx : Nat) (stale : Bool) (fail : Bool)
  /-- END (R373): The task completes after every earlier entry, and its context becomes free. -/
  | endTask (core : Nat) (ctx : Nat)
  /-- ARRAY (R314): An array pass of a layer descriptor runs from start values through tile passes to rescale. -/
  | array (core : Nat) (ctx : Nat)
  /-- TREE (R261): The tree engine evaluates the quarters for a packet, accumulates, decides the action index and promotes the flow where the action
  allows. -/
  | tree (core : Nat) (ctx : Nat) (rows : List Nat) (comps : List Nat) (corrected : Nat)
  /-- FRONT (R246): The feature front stage produces a packet's codes. -/
  | front (core : Nat) (ctx : Nat)
  /-- LOOKUP (R210): The owner core looks up a flow entry, refreshes it on a hit, forms a learn notice or a token where due. -/
  | lookup (core : Nat) (ctx : Nat) (bad1 : Bool) (bad2 : Bool) (badState : Bool) (overflow : Bool)
  /-- RESCALE (R293): The rescale unit narrows values through a scale table. -/
  | rescale (core : Nat) (ctx : Nat)
  /-- MVEC (R351): The matrix-vector path runs a MODE 3 descriptor on one vector. -/
  | mvec (core : Nat) (ctx : Nat)
  /-- EMIT_VERDICT (R264): A verdict, merged with any override, is sent to the port die. -/
  | emitVerdict (core : Nat) (ctx : Nat)
  /-- EMIT_TOKEN (R349): A token or expert request is sent to its expert core or team member. -/
  | emitToken (core : Nat) (ctx : Nat)
  /-- EMIT_RESULT (R349): The results of an expert batch are returned to their home cores. -/
  | emitResult (core : Nat) (ctx : Nat)
  /-- EMIT_STATE (R352): A head decision is acted on: write-back, release, state and header write. -/
  | emitState (core : Nat) (ctx : Nat) (bad : Bool)
  /-- BARRIER_WAIT (R378): The context arrives at a barrier and waits for its phase to release. -/
  | barrierWait (core : Nat) (ctx : Nat)
  /-- BARRIER_ARRIVE (R378): The context arrives at a barrier without waiting, and a phase releases when arrivals reach COUNT. -/
  | barrierArrive (core : Nat) (ctx : Nat)
  /-- LOOP (R374): A loop begins, or is skipped when its count is 0. -/
  | loopBegin (core : Nat) (ctx : Nat)
  /-- NEXT (R374): A loop begins its next iteration or passes on. -/
  | loopNext (core : Nat) (ctx : Nat)
  /-- ARM (R402): A stream is armed with its ring and shape, and a read stream begins to fill. -/
  | arm (core : Nat) (ctx : Nat)
  /-- REARM (R408): An armed stream takes a new shape from the same ring. -/
  | rearm (core : Nat) (ctx : Nat)
  /-- ACQUIRE (R409): The next N full or empty slots of a stream are claimed, and a faulted slot raises an abort. -/
  | acquire (core : Nat) (ctx : Nat)
  /-- RELEASE (R402): The oldest claimed slots of a stream are freed or handed to the engine to write or send. -/
  | release (core : Nat) (ctx : Nat)
  /-- FLUSH (R411): The context waits until every released write slot is acknowledged. -/
  | flush (core : Nat) (ctx : Nat)
  /-- STREAM_CLOSE (R402): A stream discards prefetch or flushes, and then closes. -/
  | streamClose (core : Nat) (ctx : Nat)
  /-- PIECE_ISSUE (R407): The stream engine issues the next piece of the stream with the earliest run-dry ply. -/
  | pieceIssue (core : Nat)
  /-- PIECE_COMPLETE (R406): A read piece's data reaches its slot and its tag is returned. -/
  | pieceComplete (core : Nat) (tag : Nat) (err : Nat)
  /-- WRITE_ACK (R411): A vault acknowledges a write piece and its tag is returned. -/
  | writeAck (core : Nat) (tag : Nat)
  /-- PIECE_RETRY (R410): A piece to a loading page is retried after 1,024 plies. -/
  | pieceRetry (core : Nat) (tag : Nat)
  /-- LOADING_TIMEOUT (R410): A claimed slot's page is not present within 100 µs, so the fault is raised. -/
  | loadingTimeout (core : Nat) (ctx : Nat)
  /-- PEER_SEND (R414): A released peer-send slot is framed and sent on a team port when credit allows. -/
  | peerSend (core : Nat)
  /-- ADJOURNMENT (R322): An adjournment request stops an array pass after its tile pass and writes its sealed move. -/
  | adjournment (core : Nat) (ctx : Nat) (tiles : Nat)
  /-- CANCEL (R382): A cancelled task stops issuing and its issued entries complete or are discarded. -/
  | cancel (core : Nat) (ctx : Nat)
  /-- ABORT (R382): A task stops on a fault and its owner acts on the abort. -/
  | abort (core : Nat) (ctx : Nat)
  /-- WATCHDOG (R385): An issued entry overruns its watchdog, and its task aborts with kind 3. -/
  | watchdog (core : Nat) (ctx : Nat)
  /-- ISSUE_STALL (R386): A core issues nothing for 4,096 plies while it has an issuable entry, and it is reported as failed. -/
  | issueStall (core : Nat)
  /-- BARRIER_BREAK (R379): A barrier phase has not released within BARRIER_LIMIT, and its waiters abort. -/
  | barrierBreak (die : Nat) (number : Nat)
  /-- BARRIER_REOPEN (R379): BARRIER_LIMIT after a break, the barrier takes arrivals again. -/
  | barrierReopen (die : Nat) (number : Nat)
  /-- PENDING_FILTER_EXPIRE (R218): A pending filter entry is cleared 100 µs after it was set. -/
  | pendingFilterExpire (core : Nat)
  /-- LEARNING_INSERTION (R223): The learning agent takes a learn notice and inserts its entry, with relocation, stash or eviction. -/
  | learningInsertion (die : Nat)
  /-- RELOCATION_MOVE (R224): The second step of a relocation move invalidates the old slot and releases the move latch. -/
  | relocationMove (core : Nat)
  /-- STASH_MOVE (R227): In the ply after a bucket slot is freed, a stash entry that has the bucket as a candidate moves into it. -/
  | stashMove (core : Nat)
  /-- SCAN_VISIT (R228): The age scanner visits an entry and removes it when aged, failed, stale or duplicate. -/
  | scanVisit (direct : Bool) (unit : Nat) (pos : Nat)
  /-- HOST_FEATURE_ITEM (R249): The port die consumes a host feature item and forwards it to the channel's cores. -/
  | hostFeatureItem (chan : Nat)
  /-- HOST_SLOT_APPLY (R249): 4,096 plies after consumption, the item's values take effect in the host slots at every core. -/
  | hostSlotApply
  /-- FEATURE_WINDOW_END (R251): An adaptation window ends and each adaptive feature's shift is decided for the next window. -/
  | featureWindowEnd (core : Nat) (chan : Nat) (gen : Nat)
  /-- RESCALE_STEP_END (R297): An adaptation step ends and each adaptive output channel's shift is decided. -/
  | rescaleStepEnd (core : Nat) (deep : Bool) (target : Nat) (gen : Nat) (scale : Nat)
  /-- EXPERT_REQUEST (R349): An expert request arrives and joins its expert's queue. -/
  | expertRequest (index : Nat)
  /-- EXPERT_BATCH_CLOSE (R349): An expert batch closes at 32 requests, at EXPERT_HOLD or by the remote limit, and is dispatched on the arrays or the
  matrix-vector path. -/
  | expertBatchClose (dm : Nat) (gen : Nat) (layer : Nat) (expert : Nat)
  /-- EXPERT_RESULT (R356): An expert result returns and is matched to its pending request, or discarded. -/
  | expertResult (index : Nat)
  /-- EXPERT_MISSED (R358): A request's result has not returned within REMOTE_LIMIT, so it contributes 0. -/
  | expertMissed (token : Nat) (expert : Nat)
  /-- TOKEN_ABANDONED (R348): A token reaches TOKEN_LIMIT and is abandoned without state or write-back. -/
  | tokenAbandoned (token : Nat)
  /-- TEAM_DATA (R355): A TEAM_DATA frame is received, authenticated and delivered to expert queues or home cores, or dropped. -/
  | teamData (port : Nat) (frame : Bytes)
  /-- TEAM_CREDIT (R357): A TEAM_CREDIT frame updates the sender's granted credit. -/
  | teamCredit (port : Nat) (frame : Bytes)
  /-- GOVERNOR_INTERVAL (R447): At each governor interval end, VCORE, SCALE, refresh, the shedding stage and the new budget window are set. -/
  | governorInterval (die : Nat) (logic : List (Nat × Nat)) (dram : List (Nat × Nat)) (watts : Nat) (pkg : Nat) (port0 : Nat) (port1 : Nat)
  /-- SPEED_REPORT (R54): A core reports its measured step, and a broken floor is noted. -/
  | speedReport (site : Nat) (step : Nat)
  /-- THERMAL_TRIP (R446): A trip temperature is reached, so the device squelches, stops and asserts FAULT_N until power-on reset. -/
  | thermalTrip (kind : Nat) (die : Nat) (site : Nat) (reading : Nat)
  /-- RAIL_FAULT (R564): A rail stays out of range for 1 µs and the device acts as for a thermal trip. -/
  | railFault (rail : Nat)
  /-- CORE_FAILURE (R503): A core failure retires its site, starts substitution and begins mapping a spare. -/
  | coreFailure (core : Nat) (cause : Nat)
  /-- SELF_TEST (R501): A self-test of a suspect array or a spare completes, and clears SUSPECT or fails the core. -/
  | selfTest (site : Nat) (pass : Bool)
  /-- SPARE_ACTIVATION (R503): A mapped spare becomes active with the logical number, and substitution ends. -/
  | spareActivation (die : Nat)
  /-- AM_REMAP (R507): A spare leaf row or comparator entry is mapped in place of a failed one. -/
  | amRemap (core : Nat) (quarter : Nat) (kind : Nat) (index : Nat)
  /-- VAULT_REMAP (R508): A spare vault row replaces a failing row. -/
  | vaultRemap (site : Nat) (row : Nat) (pages : List (Nat × Nat))
  /-- CP_STOPPED (R500): A control processor fails its check and is stopped, and the others take over its duties. `stop` names the processor and
  the sessions it terminates. -/
  | cpStopped (stop : Nat × List Nat)
  /-- HEARTBEAT_SEND (R513): A HEARTBEAT is sent on every up pair port every 10 µs. -/
  | heartbeatSend
  /-- HEARTBEAT (R516): A received heartbeat settles the pair's roles. -/
  | heartbeat (port : Nat) (frame : Bytes)
  /-- STARTING_TIMEOUT (R511): A starting device hears no heartbeat for MISS_LIMIT intervals and becomes primary. -/
  | startingTimeout
  /-- HEARTBEAT_MISS (R514): A standby misses heartbeats for MISS_LIMIT intervals and castles. -/
  | heartbeatMiss
  /-- MIRROR (R518): A MIRROR frame's records are applied in sequence on the standby. -/
  | mirror (port : Nat) (frame : Bytes)
  /-- MIRROR_CREDIT (R519): A MIRROR_CREDIT frame grants credit and acknowledges applied records. -/
  | mirrorCredit (port : Nat) (frame : Bytes)
  /-- MIRROR_RESEND (R519): Unacknowledged records are resent when their port goes down or ACK stalls for 1 ms. -/
  | mirrorResend
  /-- CHECKPOINT (R521): Every 10 ms the primary begins a checkpoint of changed recurrent states. -/
  | checkpoint
  /-- ADOPT_EXPIRE (R522): A stored mirror entry not adopted within AGE_LIMIT is discarded. -/
  | adoptExpire (index : Nat)
  /-- DRAM_SCRUB (R538): The scrubber reads and checks a vault line. -/
  | dramScrub (site : Nat) (err : Nat) (pages : List (Nat × Nat))
  /-- AM_SCRUB (R539): The scrubber reads a comparator entry or leaf row. -/
  | amScrub (core : Nat) (quarter : Nat) (kind : Nat) (index : Nat) (result : Nat)
  /-- CALIBRATION (R541): A core's speed sensor is calibrated against the ply counter. -/
  | calibration (core : Nat) (step : Nat)
  /-- ADAPTATION (R540): A lane's 100 ms error-ratio window ends and an adaptation attempt starts, succeeds or fails. -/
  | adaptation (port : Nat) (lane : Nat) (ber : Nat)
  /-- WEAR_MOVE (R542): A wear move of the hottest core site to a spare begins. -/
  | wearMove (die : Nat)
  /-- AM_ROTATION (R542): A leaf row is rotated to a spare. -/
  | amRotation (core : Nat) (quarter : Nat) (index : Nat)
  /-- TELEMETRY (R543): A telemetry item is formed for each compute die. -/
  | telemetry
  /-- DRBG_RESEED (R493): The DRBG is reseeded after 2^20 requests or 1 s. -/
  | drbgReseed
  /-- ENTROPY_FAIL (R494): An entropy health test fails and the DRBG stops serving. -/
  | entropyFail
  /-- TREE_READY (R477): Preparation of the next bottom tree completes. -/
  | treeReady
  /-- BYPASS (R495): The test access port bypasses. -/
  | bypass (data : Bytes)
  /-- IDCODE (R495): The test access port returns IDCODE. -/
  | idcode
  /-- SAMPLE_PRELOAD (R495): Boundary scan sample or preload of the pins, while reset is held. -/
  | samplePreload (data : Bytes)
  /-- EXTEST (R495): Boundary scan test of the pins, while reset is held. -/
  | extest (data : Bytes)
  /-- SCAN (R495): Manufacturing scan on an unowned device, which clears scratch and buffers. -/
  | scan (data : Bytes)
  /-- OWNER_CLEAR (R495): One OWNER_CLEARS fuse is blown and ownership is erased. -/
  | ownerClear (data : Bytes)
  /-- POWER_ON_RESET (R547): PWR_GOOD rises after a low period and the whole device resets and boots. -/
  | powerOnReset
  /-- PIN_RESET (R547): RESET_N asserted for 10 µs resets the device and reloads firmware. -/
  | pinReset
  /-- DEVICE_RESET_DUE (R548): A requested device reset takes effect 1 ms after its write. -/
  | deviceResetDue
  /-- CONTROL_RESET_DUE (R555): A requested control reset takes effect and the control processors restart. -/
  | controlResetDue
  /-- CONTROL_WATCHDOG (R551): No control processor completes its health exchange for 1 s, so a control reset occurs. -/
  | controlWatchdog
  /-- READY (R552): Start-up phase 9 completes and READY is set. -/
  | ready (bad : List Nat) (untrained : List Nat)
  /-- CONTROL_RESTART_READY (R555): The restart after a control reset completes and READY is set. -/
  | controlRestartReady
  /-- SMB_STATUS (R569): SMBus read of STATUS, code 00h. -/
  | smbStatus
  /-- SMB_PHASE (R569): SMBus read of the start-up phase, code 01h. -/
  | smbPhase
  /-- SMB_LIFECYCLE (R569): SMBus read of LIFECYCLE, code 02h. -/
  | smbLifecycle
  /-- SMB_STAGES (R569): SMBus read of the shedding stages, code 03h. -/
  | smbStages
  /-- SMB_RAIL_FAULT (R569): SMBus read of RAIL_FAULT, code 04h. -/
  | smbRailFault
  /-- SMB_LOGIC_TEMP (R569): SMBus read of a compute die's logic temperature, codes 10h–13h. -/
  | smbLogicTemp (die : Nat)
  /-- SMB_DRAM_TEMP (R569): SMBus read of a compute die's DRAM temperature, codes 14h–17h. -/
  | smbDramTemp (die : Nat)
  /-- SMB_PORT_TEMP (R569): SMBus read of a port die's temperature, codes 18h–19h. -/
  | smbPortTemp (die : Nat)
  /-- SMB_POWER (R569): SMBus read of package power, code 1Ah. -/
  | smbPower
  /-- SMB_VCORE (R569): SMBus read of a compute die's VCORE, codes 20h–23h. -/
  | smbVcore (die : Nat)
  /-- SMB_SERIAL (R569): SMBus block read of the serial number, code F0h. -/
  | smbSerial
  /-- SMB_REFUSED (R569): An SMBus write or unknown command code is answered with a NACK. -/
  | smbRefused
  /-- SMB_ALERT_RESPONSE (R570): The device answers the SMBus alert response address while SMB_ALERT_N is asserted. -/
  | smbAlertResponse
  /-- PWR_GOOD_FALL (R565): PWR_GOOD falls, holding all logic in reset, absorbing any pin reset and losing all volatile state. -/
  | pwrGoodFall
  /-- RESET_N_RELEASE (R565): RESET_N is released, reset is released and start-up begins from phase 1 (and an owner clear takes effect). -/
  | resetNRelease
  /-- BOOT_FAILURE (R469): The ROM finds no passing firmware slot, or the book copy fails twice, so FAULT_N asserts and no port comes up. -/
  | bootFailure (kind : Nat)
  /-- FRAME_TRANSMIT (R164): A queued frame finishes transmission on its egress sub-port, freeing its packet-buffer bytes and possibly sending XON
  quanta 0. -/
  | frameTransmit (port : Nat) (sub : Nat)
  /-- PAUSE_QUANTA_EXPIRE (R131): The pause time of a received PAUSE or PFC frame runs out and held transmission of the sub-port or priority resumes.
  -/
  | pauseQuantaExpire (port : Nat) (sub : Nat)
  /-- SETUP_FRAGMENT (R84): A fragment of a setup message arrives and is kept, starting the 1 s reassembly timer on the first fragment. -/
  | setupFragment (port : Nat) (sub : Nat) (frame : Bytes)
  /-- RX_DISCARD (R125): A frame received on a host or peer port that no message step takes (non-Selid, wrong kind, bad FCS or length, MAC control on
  a peer port) is dropped and counted. -/
  | rxDiscard (port : Nat) (sub : Nat) (frame : Bytes)
  /-- VERIFICATION_END (R426): Verification of a staging operation completes, accepting it with reservations or returning it to the open state with a
  status. -/
  | verificationEnd (stage : Nat)
  /-- FLUSH_SWEEP_VISIT (R233): The TABLE_FLUSH sweep reaches a position and removes a matching valid entry. -/
  | flushSweepVisit (unit : Nat) (pos : Nat)
  /-- MIRROR_STORE_SWEEP (R522): After castling, a core's sweep of its mirror store visits a stored entry and adopts it into the matching flow entry.
  -/
  | mirrorStoreSweep (index : Nat)
  /-- ARRAY_FAULT (R325): An array detects a column-sum, parity, handshake-watchdog, twin-mismatch or seal-check fault, aborting and restarting the
  attributed pass and possibly marking SUSPECT. -/
  | arrayFault (core : Nat) (ctx : Nat) (kind : Nat) (arr : Nat) (region : Nat)
  deriving DecidableEq, Repr

end Sys2Proof
end

