-- ==== Sys2Proof/Config.lean ====
section
/-! DEFINITION. What one part fixes (serial number, manufacture spares, device keys), and the free values: the results the manual names
but does not give. Each of these is opaque: no proof can lean on a value of it (log entries 20 to 29). -/
namespace Sys2Proof.Config

/-- The 64-bit SERIAL of the endorsement (R472): fixed per part, not given by the manual. -/
opaque serial : BitVec 64

/-- Raw choices from which the eight manufacture spares of a compute die are drawn (R17, R581): "They are not fixed positions". -/
opaque spareSeed : Nat → Nat

/-- The SHA-256 digest (32 bytes are taken from it) of a byte string (R86, R88, R100). -/
opaque sha256 : Bytes → Bytes

/-- Whether a public key verifies an HSS signature over a message: key, message, signature (R87, R90, R426). -/
opaque hssVerify : Bytes → Bytes → Bytes → Bool

/-- The HSS signature of the device identity key for one one-time-key index: index, message (R86, R476). -/
opaque hssSign : Nat → Bytes → Bytes

/-- Ciphertext and tag of AES-256-GCM: key, nonce, additional data, plaintext (R96). -/
opaque gcmSeal : Bytes → Bytes → Bytes → Bytes → Bytes

/-- Plaintext of AES-256-GCM when the tag verifies: key, nonce, additional data, ciphertext with tag (R96). -/
opaque gcmOpen : Bytes → Bytes → Bytes → Bytes → Option Bytes

/-- ML-KEM-1024 key generation from DRBG draws: encapsulation key (1,568 bytes) and decapsulation key (R86). -/
opaque kemKeygen : Nat → Bytes × Bytes

/-- ML-KEM-1024 decapsulation: decapsulation key, ciphertext (R88). -/
opaque kemDecaps : Bytes → Bytes → Bytes

/-- HKDF-Extract with a salt and keying material (R88, RFC 5869). -/
opaque hkdfExtract : Bytes → Bytes → Bytes

/-- HKDF-Expand: key, info, length in bytes (R88, RFC 5869). -/
opaque hkdfExpand : Bytes → Bytes → Nat → Bytes

/-- The n-th draw of the device's DRBG (R493). Every value the manual marks as drawn from the DRBG is a value of this. -/
opaque drbg : Nat → Nat

/-- The packet-buffer reference a port die gives an inline packet (R152 gives the field, not the value). -/
opaque bufRef : Nat → BitVec 32

/-- The device identity public key (R86: DEVICE_ID is its SHA-256). -/
opaque identityKey : Bytes

/-- Zelmund's root public key hash, fused in the boot ROM. -/
opaque zelmundRoot : Bytes

/-- The remaining content of the endorsement that the manual leaves to Zelmund's signature (R472). -/
opaque endorsement : Bytes

/-- A result that the manual names without stating its value: the n-th open value of the run (log entry 29). -/
opaque freeValue : Nat → Nat

/-- The IPv4 identification field of a frame the device sends (R80 does not give it). -/
opaque ipv4Id : Nat

/-- The content of flash slots A (0) and B (1) as the board programmed them (R467): not part of the device. -/
opaque flash : Nat → Bytes

/-- The board configuration in flash (R554): not part of the device. -/
opaque boardConfig : Bytes

/-- What a byte of a core's share of ring storage reads as through an address in device region 3: logical core and offset. The manual does not lay
the rings' items out there (R398). -/
opaque ringShare : Nat → Nat → Byte

/-- What a model address that names no present page would read as (R399): the manual gives no value. -/
opaque unmapped : Nat → Byte

/-- The table index of a deep-model volume that a token task (kind 0), or an expert batch on the arrays (1) or the matrix-vector path (2), is
dispatched with: deep-model slot, kind, and for a batch its layer × 4,096 + expert (R346, R350; the manual leaves it to the model compiler). -/
opaque deepTable : Nat → Nat → Nat → Nat

/-- Base register n that tasks of a schedule table are dispatched with: schedule identifier, register (R364; the manual leaves it to the model
compiler). -/
opaque tableBase : Nat → Nat → Nat

/-- What base register n of an expert batch's table holds: 0 the expert's UP, 1 its DOWN, else a value of the table's own (R349, R364; the manual
leaves it to the model compiler). -/
opaque expertBase : Nat → Nat → Nat

/-- Format, exponent, group size and count of a RESCALE entry's codes, which its operand does not give (R373). -/
opaque rescaleA4 : Nat → Bool
opaque rescaleExp : Nat → Nat
opaque rescaleGroup : Nat → Nat
opaque rescaleCount : Nat → Nat

/-- Destination address of team and pair frames, which receivers do not check (R355, R512). -/
opaque peerMac : Bytes

/-- Units of credit a receiver grants when a link comes up (R357, R519 give no number). -/
opaque peerWindow : Nat

/-- The value strapped on SMB_ADDR1 and SMB_ADDR0 (R569): the board's choice. -/
opaque smbStrap : Nat

/-- What the physical world does to a link in a ply, which no command brings: the codewords of a sub-port that its FEC corrects and cannot correct
(R141), and whether a lane detects a signal (R143): port, sub-port or lane, ply. -/
opaque fecCorrected : Nat → Nat → Nat → Nat
opaque fecUncorrected : Nat → Nat → Nat → Nat
opaque laneSignal : Nat → Nat → Nat → Bool

/-- The row of a vault line, and the logical core whose vault holds a ring's storage: places the manual does not lay out (R394, R500). -/
opaque vaultRow : Nat → Nat
opaque ringCore : Nat → Nat

/-- The logical core whose vault holds a page of a generation, where its image leaves the place to the device: generation key, page, die (R421). -/
opaque frameCore : Nat → Nat → Nat → Nat

end Sys2Proof.Config
end

