-- ==== Sys2Proof/Machine/StateControl.lean ====
section
/-! DEFINITION. The control part of the machine's state: register pages (R55 to R77), Selid sessions and queues (R78 to R115), ports (R116 to R144)
and the reference clock (R35 to R40). Every structure's field defaults are its reset values. -/
namespace Sys2Proof.Machine

/-- Sparse data by key: keys strictly rising, and no entry equal to what an unlisted key reads as. -/
abbrev Table (α : Type) := List (Nat × α)

/-- Sparse memory, one canonical list of cells; an unlisted byte reads 0 (log entry 4). -/
abbrev Mem := List Host.Cell

/-- LOCK.STATE (R67): 00b, 01b, 10b. 11b is never held. -/
inductive LockState where
  | unlocked | locked | sealed
  deriving DecidableEq, Repr, Inhabited

/-- The kinds of reset (R547, R548). -/
inductive ResetKind where
  | powerOn | pin | device | control
  deriving DecidableEq, Repr, Inhabited

/-- The header of one register page (R59 to R68), with the arbiter's record of the current ply. -/
structure PageHdr where
  /-- EVENT (R63). -/
  event : Word := 0
  /-- EVENT_MASK (R64). -/
  mask : Word := 0xFFFFFFFF
  /-- CONTROL (R66). -/
  control : Word := 0
  /-- LOCK.STATE (R67). -/
  lock : LockState := .unlocked
  /-- LOCK.OWNER (R67). -/
  owner : Nat := 0
  /-- EVENT_COUNT (R68). -/
  count : Word := 0
  /-- STATUS.FAULTED (R62). -/
  faulted : Bool := false
  /-- Ply of the last set of an EVENT bit, and the bits set in it (R51, R68). -/
  setPly : Nat := 0
  setBits : Word := 0
  /-- Bits of EVENT_FORCE to be set in the ply after `forcePly` (R65). -/
  forcePly : Nat := 0
  forced : Word := 0
  /-- Ply of the last forced set (R65). -/
  forceDone : Option Nat := none
  /-- Ply of the last unmasked set or unmask that has formed no frame yet (R74). -/
  trigger : Option Nat := none
  /-- A frame was suppressed by HOLDOFF and waits for the spacing to end (R75). -/
  suppressed : Bool := false
  /-- Ply of the last frame formed (R74). -/
  lastFrame : Option Nat := none
  /-- Ply in which the page's trigger was last judged (R74). -/
  judged : Option Nat := none
  /-- Ply of the last host write to the page (R50). -/
  writePly : Option Nat := none
  deriving DecidableEq, Repr, Inhabited

/-- All register pages. -/
structure Regs where
  /-- Headers by page number; an unlisted page holds its reset header. -/
  hdr : Table PageHdr := []
  /-- RW registers by register address; an unlisted register holds its reset value. -/
  rw : Table Word := []
  /-- 64-bit counters by the address of their low half (R39); an unlisted counter is 0. -/
  ctr : Table (BitVec 64) := []
  /-- High halves sampled by the last read of a low half, by the address of the high half (R39). -/
  latch : Table Word := []
  /-- Ply of the last write to SELID_CFG or SHIM_ETYPE (R579). -/
  etherPly : Option Nat := none
  /-- Ply and kind of the last reset (R51). -/
  lastReset : Option (Nat × ResetKind) := none
  deriving DecidableEq, Repr, Inhabited

/-- The form of a Selid frame (R78). -/
inductive Form where
  | raw | udp4 | udp6
  deriving DecidableEq, Repr, Inhabited

/-- Where a Selid frame came from and how its answer goes back (R80). -/
structure Route where
  port : Nat := 0
  sub : Nat := 0
  form : Form := .raw
  /-- The host's MAC address, and the device's (the destination of the request). -/
  hostMac : Bytes := []
  devMac : Bytes := []
  /-- The request's tags, 4 bytes each, in order. -/
  tags : Bytes := []
  /-- Host and device IP addresses in the UDP forms, and the host's UDP port. -/
  hostIp : Bytes := []
  devIp : Bytes := []
  hostUdp : Nat := 0
  /-- The Selid EtherType, or the device's Selid UDP port, of the request. -/
  carrier : Nat := 0x88B5
  deriving DecidableEq, Repr, Inhabited

/-- One accepted command of a session that has not completed (R99). -/
structure Cmd where
  opcode : Nat := 0
  tag : Nat := 0
  body : Bytes := []
  route : Route := {}
  /-- Ply of the frame's ingress time-stamp (R109). -/
  ingress : Nat := 0
  /-- The device has begun to execute it; it completes in a later step. -/
  started : Bool := false
  /-- The session's last host frame was SEQ FFFF_FFFF_FFFF_FFFFh (R95). -/
  last : Bool := false
  deriving DecidableEq, Repr, Inhabited

/-- One kept response (R100). -/
structure Done where
  opcode : Nat := 0
  tag : Nat := 0
  hash : Bytes := []
  status : Nat := 0
  detail : Nat := 0
  body : Bytes := []
  deriving DecidableEq, Repr, Inhabited

/-- One register write of a batch that the arbiters have not all sampled yet (R105). -/
structure BatchWrite where
  addr : Nat := 0
  value : Word := 0
  /-- An entry of a REGISTERS bundle with SEAL 1 (R485). -/
  seals : Bool := false
  deriving DecidableEq, Repr, Inhabited

/-- One open session (R85 to R100). -/
structure Session where
  num : Nat := 0
  /-- The route recorded at ACCEPT (R113), and that of the most recent accepted frame (R112). -/
  source : Route := {}
  latest : Route := {}
  restricted : Bool := false
  maxFrame : Nat := 1518
  /-- Granted idle timeout in seconds (R86). -/
  idle : Nat := 1
  openPly : Nat := 0
  /-- Ply of the last accepted protected frame (R95). -/
  lastAccept : Nat := 0
  h2d : Bytes := []
  d2h : Bytes := []
  /-- Highest SEQ accepted, and the SEQs accepted within 64 below it (R97). -/
  seqHigh : Nat := 0
  seqSeen : List Nat := []
  /-- Next device-to-host SEQ (R97). -/
  seqTx : Nat := 1
  cmds : List Cmd := []
  done : List Done := []
  /-- Writes of the WRITE_BATCH in progress that are still to be sampled, and the entry statuses of those sampled. -/
  writes : List BatchWrite := []
  estats : List Nat := []
  /-- Set when the session ends in the ply after this one (R95). -/
  ending : Option Nat := none
  deriving DecidableEq, Repr, Inhabited

/-- One half-open session (R92). -/
structure HalfOpen where
  num : Nat := 0
  hello : Bytes := []
  offer : Bytes := []
  dk : Bytes := []
  offerPly : Nat := 0
  route : Route := {}
  deriving DecidableEq, Repr, Inhabited

/-- Fragments of a setup message being joined (R84). -/
structure Frags where
  route : Route := {}
  kind : Nat := 0
  session : Nat := 0
  /-- FRAG_COUNT: number of fragments minus 1. -/
  last : Nat := 0
  firstPly : Nat := 0
  parts : Table Bytes := []
  deriving DecidableEq, Repr, Inhabited

/-- What a frame of the control lane was recognised as when its start was sampled (R78, R81). -/
inductive LaneKind where
  | selid | arp | solicit
  deriving DecidableEq, Repr, Inhabited

/-- One frame waiting in a control-lane queue (R113), with what its recognition found: its route back, and the offset of its Selid header, of
its ARP body or of its IPv6 header. -/
structure LaneFrame where
  port : Nat := 0
  sub : Nat := 0
  ply : Nat := 0
  frame : Bytes := []
  kind : LaneKind := .selid
  route : Route := {}
  off : Nat := 0
  deriving DecidableEq, Repr, Inhabited

/-- One port die's control lane (R113). -/
structure Lane where
  session : List LaneFrame := []
  setup : List LaneFrame := []
  /-- Plies of the setup frames admitted in the last 1 s (R113). -/
  recent : List Nat := []
  deriving DecidableEq, Repr, Inhabited

/-- One quench (R107 to R110). -/
structure Quench where
  ports : Nat := 0
  /-- Channel slot, or none for all traffic. -/
  chan : Option Nat := none
  pass : Bool := false
  effect : Nat := 0
  /-- Ply in which it ceases, if it has a DURATION. -/
  until_ : Option Nat := none
  deriving DecidableEq, Repr, Inhabited

/-- A pool of numbered slots (R110, R174): the one free longest is taken, and among those never used the lowest. -/
structure Pool where
  /-- First number of those never allocated since reset and never passed over, and the lower ones passed over, ascending. -/
  fresh : Nat := 0
  skipped : List Nat := []
  /-- Released numbers, the one free longest first. -/
  freed : List Nat := []
  deriving DecidableEq, Repr, Inhabited

/-- One queued event record (R112). -/
structure EventRecord where
  page : Nat := 0
  set : Nat := 0
  status : Word := 0
  event : Word := 0
  mask : Word := 0
  count : Word := 0
  ply : Nat := 0
  deriving DecidableEq, Repr, Inhabited

/-- One sink: a session's place in a sink set, with its queue (R111). -/
structure Sink where
  sess : Nat := 0
  queue : List EventRecord := []
  /-- Number of the next record queued or dropped, and of the first record in the queue (R112). -/
  next : Nat := 0
  /-- Per-sink numbers of the queued records. -/
  nums : List Nat := []
  deriving DecidableEq, Repr, Inhabited

/-- What has left the device (the model's own record of transmissions and of the SMBus and test-access answers; log entry 6). -/
inductive Out where
  /-- A Selid frame: route, KIND, SESSION, SEQ, and the payload before protection; the wire bytes are `wire`. -/
  | selid (route : Route) (kind session seq : Nat) (plain wire : Bytes)
  /-- Any other frame sent on a line, host or peer port. -/
  | frame (port sub : Nat) (bytes : Bytes)
  /-- A frame that LOOPBACK returned to the sub-port's own receiver, while idles left (R143). -/
  | looped (port sub : Nat) (bytes : Bytes)
  /-- An answer on the SMBus, or `none` for a NACK. -/
  | smbus (bytes : Option Bytes)
  /-- A value shifted out of the test access port. -/
  | tap (bytes : Bytes)
  deriving DecidableEq, Repr, Inhabited

/-- Selid: sessions, setup, lanes, sinks, quenches. -/
structure Selid where
  sessions : List Session := []
  /-- Writes that batches of ended sessions have still to make (R95), by session number. -/
  orphans : List (Nat × List BatchWrite) := []
  /-- Writes of per-core pages performed in the present ply, by session number and page: what follows them in their batch waits for the ply's end,
  since a site reset of the ply aborts them (R51, R105). -/
  siteWrites : List (Nat × Nat) := []
  halfOpen : List HalfOpen := []
  frags : List Frags := []
  /-- Session number last assigned (R93). -/
  lastNum : Nat := 0
  /-- Plies of the OFFERs sent in the last 1 s (R92). -/
  offers : List Nat := []
  /-- Control lanes of port dies 0 and 1. -/
  lane0 : Lane := {}
  lane1 : Lane := {}
  /-- Members of each of the 16 sink sets, in order of joining (R111, R583); an unlisted set is empty. -/
  sinks : Table (List Sink) := []
  /-- Quenches by QID (R107). -/
  quench : Table Quench := []
  qids : Pool := {}
  deriving DecidableEq, Repr, Inhabited

/-- State of one lane of a port (R138). -/
structure PortLane where
  failed : Bool := false
  /-- Failed adaptation attempts in succession (R138, R540). -/
  attempts : Nat := 0
  /-- An adaptation attempt waits for the next window (R540). -/
  tuning : Bool := false
  /-- Bit error ratio, in 10⁻⁶, of a window that ends in the present ply (R540, R544). -/
  window : Option Nat := none
  deriving DecidableEq, Repr, Inhabited

/-- What Clause 73 autonegotiation advertises (R122): the technology ability, as a SPEED of R144 on a number of lanes, the RS(544,514) FEC
ability, and the pause abilities. -/
structure Advert where
  speed : Nat := 0
  lanes : Nat := 0
  rsFec : Bool := true
  c0 : Bool := false
  c1 : Bool := false
  deriving DecidableEq, Repr, Inhabited

/-- One sub-port's link and flow-control state (R131 to R141). -/
structure SubPort where
  up : Bool := false
  lanes : Nat := 0
  anDone : Bool := false
  /-- SPEED of R144: 0 down, 1 100GbE, 2 200GbE, 3 400GbE, 4 800GbE. -/
  speed : Nat := 0
  /-- Ply until which each priority is held by a received PFC or PAUSE frame (R131, R132); an unlisted priority is not held. -/
  hold : Table Nat := []
  /-- Ply from which each priority has been held without a break (R134). -/
  since : Table Nat := []
  /-- Priorities whose received PFC is being ignored, with the ply of the last PFC frame for each (R134). -/
  storm : Table Nat := []
  /-- Priorities for which XOFF is in force, with the ply of its last frame (R133). Key 8 stands for PAUSE. -/
  xoff : Table Nat := []
  /-- Packet-buffer bytes held by priority (R133). -/
  held : Table Nat := []
  /-- Next verdict-frame SEQ (R165). -/
  vfSeq : Nat := 0
  /-- Ply of the last LINK_UP (R137). -/
  upPly : Nat := 0
  /-- What autonegotiation advertises, and whether the links were trained (R122, R139). -/
  advert : Option Advert := none
  trained : Bool := false
  /-- Frames that LOOPBACK has returned and the receiver has not taken, oldest first (R143). -/
  loop : List Bytes := []
  deriving DecidableEq, Repr, Inhabited

/-- One port (R116 to R144): what was taken into use at enable, and its sub-ports. -/
structure Port where
  enabled : Bool := false
  attach : Nat := 0
  media : Nat := 0
  anEn : Bool := false
  /-- Configured and running breakout codes (R120). -/
  breakout : Nat := 0
  runCfg : Nat := 0
  laneMap : Nat := 0xE4
  /-- LIMIT and RESERVE in use, in 64 KiB units (R135). -/
  limit : Nat := 0
  reserve : Nat := 0
  subs : Table SubPort := []
  lanes : Table PortLane := []
  /-- The transmitters are squelched (R121, R140, R446). -/
  squelched : Bool := true
  /-- Ply in which PORT_EN returns to 0 after a refused enable (R121). -/
  refuse : Option Nat := none
  deriving DecidableEq, Repr, Inhabited

/-- The reference clock (R37, R140). -/
structure RefClock where
  lost : Bool := false
  lostPly : Nat := 0
  /-- Holdover is in force, and its 10 ms have expired (R140). -/
  holdover : Bool := false
  expired : Bool := false
  deriving DecidableEq, Repr, Inhabited

end Sys2Proof.Machine
end

