-- ==== Sys2Proof/Machine/StateTraffic.lean ====
section
/-! DEFINITION. The traffic part of the machine's state: frames in reception and packets (R145 to R169), channels and rings (R172 to R202),
flow tables (R203 to R237), generations and staging operations (R420 to R441). Field defaults are reset values. -/
namespace Sys2Proof.Machine

/-- A verdict (R162, R265): class value, colour 0 to 3, queue, and the bits that go with it. -/
structure Verdict where
  cls : Nat := 0
  colour : Nat := 0
  queue : Nat := 0
  report : Bool := false
  deflt : Bool := false
  override : Bool := false
  deriving DecidableEq, Repr, Inhabited

/-- What one frame in reception on a sub-port turned out to be at its start (R145). -/
inductive RxKind where
  /-- Left the traffic path at some step; nothing is settled at the tail but its counters. -/
  | dropped
  /-- Taken to the control lane. -/
  | selid
  /-- A MAC control, ARP or neighbour-discovery frame that a message step answers. -/
  | control
  /-- A packet of the traffic path, by packet number. -/
  | packet (id : Nat)
  deriving DecidableEq, Repr, Inhabited

/-- A frame whose tail has not arrived (R145, R164). -/
structure RxFrame where
  kind : RxKind := .dropped
  frame : Bytes := []
  start : Nat := 0
  /-- MAX_FRAME as it stood in the ply that sampled the frame's start (R144). -/
  maxFrame : Nat := 9216
  deriving DecidableEq, Repr, Inhabited

/-- Where a packet's evaluation stands. -/
inductive PacketStage where
  /-- The header vector is on the die network, on its way to the core. -/
  | vector
  /-- In the core's pawn queue, waiting batch or open batch (R366). -/
  | queued
  /-- Taken by a pawn context. -/
  | running
  /-- The verdict has left the core and has not reached the port die. -/
  | verdict
  /-- Nothing of it is left at a core. -/
  | none
  deriving DecidableEq, Repr, Inhabited

/-- One packet (a frame or summary assigned to a channel, or unmatched) until its egress or verdict record. -/
structure Packet where
  port : Nat := 0
  sub : Nat := 0
  inline : Bool := true
  /-- The frame as buffered, without FCS; a Kwagen shim of a second pass has been removed. -/
  frame : Bytes := []
  /-- Ply in which its start was sampled, and the full ply of its first time-stamp (R165). -/
  start : Nat := 0
  firstPly : Nat := 0
  /-- Channel slot and handle generation; none for an unmatched packet. -/
  chan : Option (Nat × Nat) := none
  gen : Nat := 0
  /-- Deadline D, modulo 2^48 (R41). -/
  deadline : Nat := 0
  vector : Bytes := []
  /-- Logical core chosen by steering (R158), and the channel's core set from its entry on when the start was sampled (R159, R505). -/
  core : Nat := 0
  order : List Nat := []
  stage : PacketStage := .none
  flight : Option Verdict := none
  /-- The verdict or default applied, with its ply. -/
  applied : Option (Nat × Verdict) := none
  tail : Option Nat := none
  /-- FCS or length failed at the tail (R164). -/
  failed : Bool := false
  /-- Bytes set aside in the packet buffer (R135), and the ingress priority they count under (R133). -/
  buffered : Nat := 0
  prio : Nat := 0
  recirc : Bool := false
  genMoved : Bool := false
  /-- Default verdict applied at the start, or unmatched: no core takes part. -/
  bypass : Bool := false
  /-- SHIM_ETYPE as it stood when its start was sampled (R171). -/
  shim : Nat := 0x88B6
  /-- Priority after rewriting (R164). -/
  outPrio : Nat := 0
  /-- Egress queue it has joined. -/
  queuedTo : Option Nat := none
  /-- It has left the device, or was dropped; only an outstanding verdict keeps its record. -/
  gone : Bool := false
  pktRef : Nat := 0
  serviceTag : Nat := 0
  srcMac : Bytes := []
  tags : Bytes := []
  /-- The flow entry as it stood before the refresh, when the lookup hit (R213). -/
  entry : Option Bytes := none
  /-- The packet is one of a replay (R534). -/
  replay : Bool := false
  /-- Its header vector has waited for a full pawn queue (R366). -/
  held : Bool := false
  deriving DecidableEq, Repr, Inhabited

/-- One ready verdict record of a summary sub-port (R165, R166). -/
structure VRecord where
  body : Bytes := []
  srcMac : Bytes := []
  tags : Bytes := []
  /-- SHIM_ETYPE as it stood when the summary was sampled (R171). -/
  shim : Nat := 0x88B6
  ready : Nat := 0
  deriving DecidableEq, Repr, Inhabited

/-- A channel slot's state (CH_STATE.STATE, R200). -/
inductive ChanState where
  | free | unbound | bound | draining
  deriving DecidableEq, Repr, Inhabited

/-- One channel slot (R175 to R200). -/
structure Channel where
  state : ChanState := .free
  /-- The slot's 12-bit handle generation (R173). -/
  hgen : Nat := 0
  desc : Bytes := []
  /-- The core set in force, ascending (R176). -/
  cores : List Nat := []
  result : Option Nat := none
  log : Option Nat := none
  input : Option Nat := none
  /-- Current model generation, 0 while unbound; the draining one (R434). -/
  gen : Nat := 0
  drainGen : Option Nat := none
  bound : Nat := 0
  rate : Nat := 0
  degraded : Bool := false
  /-- Ply in which the selector entries begin to match: they match for frames sampled after it (R179). -/
  boundPly : Nat := 0
  /-- Ply of the destroy (R181). -/
  destroyed : Option Nat := none
  deriving DecidableEq, Repr, Inhabited

/-- Slot states of a held item (R187). -/
inductive ItemState where
  | empty | ready | read | acked
  deriving DecidableEq, Repr, Inhabited

/-- One item of a ring (R184). -/
structure Item where
  /-- Word position of its header. -/
  pos : Nat := 0
  len : Nat := 1
  kind : Nat := 0
  state : ItemState := .ready
  origKind : Nat := 0
  seq : Nat := 0
  info : Nat := 0
  /-- The bytes after the header word. -/
  body : Bytes := []
  /-- Ply in which its header was written, and the logical core it comes from: result items of one ply leave in ascending core order (R198). -/
  made : Nat := 0
  core : Nat := 0
  /-- Words that a device producer has written of an item in the empty state (R187). -/
  written : Nat := 0
  deriving DecidableEq, Repr, Inhabited

/-- RING_CFG.USE (R202). -/
inductive RingUse where
  | free | result | log | feature | learn | token | score | telemetry
  deriving DecidableEq, Repr, Inhabited

/-- One hardware ring (R182 to R202). -/
structure Ring where
  use : RingUse := .free
  hgen : Nat := 0
  size : Nat := 0
  hostProduced : Bool := false
  /-- Items from the oldest whose words are intact: acknowledged ones between mark and HEAD first, then the held ones. -/
  items : List Item := []
  head : Nat := 0
  tail : Nat := 0
  mark : Option Nat := none
  markLost : Bool := false
  /-- Items acknowledged since the mark that have been overwritten, and the SEQ of the first of them (R195). -/
  lostCount : Nat := 0
  lostSeq : Nat := 0
  /-- A rewind-lost item begins each RING_READ until the next RING_ACK: its SEQ and count (R195). -/
  rewindLost : Option (Nat × Nat) := none
  seq : Nat := 0
  pendingGap : Nat := 0
  dropped : Nat := 0
  /-- Item being written: its declared LEN and the words written so far, as bytes (R192, R197). -/
  partialLen : Nat := 0
  partialBytes : Bytes := []
  /-- Words of a resigned or flushed item that the host has still to discard (R192, R193). -/
  skip : Nat := 0
  timer : Nat := 0
  /-- FLAG_FALL has been set since the last RING_READ, and the limit has ended without a ready item since the timer last restarted (R191). -/
  flagged : Bool := false
  lapsed : Bool := false
  /-- Ply and number of the words last freed; they serve from the next ply (R190). -/
  freedPly : Nat := 0
  freedWords : Nat := 0
  /-- Ply of the last host command (R196). -/
  cmdPly : Option Nat := none
  /-- Ply in which the port die last consumed an item of it (R249). -/
  tookPly : Option Nat := none
  /-- Ply of the last RING_FLUSH: what the producer completes in it is discarded (R196). -/
  flushPly : Option Nat := none
  /-- Session whose RING_REWIND of the ply waits for what the producer does in it (R196). -/
  rewindBy : Option Nat := none
  deriving DecidableEq, Repr, Inhabited

/-- One pending-filter entry (R218): channel slot, h1 or tag, ply set. -/
structure FilterEntry where
  slot : Nat := 0
  hash : Nat := 0
  ply : Nat := 0
  deriving DecidableEq, Repr, Inhabited

/-- Who asked for an insertion. -/
inductive Inserter where
  | agent | host (sess : Nat) | adopt
  deriving DecidableEq, Repr, Inhabited

/-- An insertion waiting in, or running on, a slice (R204, R223). -/
structure Insertion where
  who : Inserter := .agent
  slot : Nat := 0
  hgen : Nat := 0
  key : Bytes := []
  entry : Bytes := []
  /-- Moves still to execute, the next first: from position, to position, key bytes 0 to 43 of the entry to be moved (R224). -/
  path : List (Nat × Nat × Bytes) := []
  /-- Where the new entry goes when the path is done. -/
  target : Nat := 0
  /-- Moves executed so far, out of 32 (R223, R224). -/
  moves : Nat := 0
  deriving DecidableEq, Repr, Inhabited

/-- The slice of one logical core (R203 to R205, R218, R225). -/
structure Slice where
  waiting : List Insertion := []
  running : Option Insertion := none
  /-- The move latch: from A to B, with the ply of the first step (R225). -/
  latch : Option (Nat × Nat × Nat) := none
  filter : List FilterEntry := []
  /-- Positions of bucket slots that an entry left, with the ply (R227). -/
  left : List (Nat × Nat) := []
  deriving DecidableEq, Repr, Inhabited

/-- A flow-table event of the present ply that waits for those of higher precedence (R49): a visit of the scanner, an insertion, a step of the
moves that belong to insertions, a promotion (R336), a head decision with its write-back (R229, R352), or a token that forms (R342, R353). -/
inductive FlowOp where
  | visit (direct : Bool) (unit pos : Nat)
  | agent (die : Nat)
  | insert (core : Nat) (direct : Bool) (i : Insertion)
  | move (core : Nat)
  | stash (core : Nat)
  | promote (core slot hgen : Nat) (key : Bytes) (dm : Nat)
  | head (token : Nat) (bad : Bool)
  | form (token : Nat) (stale bad : Bool)
  deriving DecidableEq, Repr, Inhabited

/-- A TABLE_FLUSH sweep in progress (R233). -/
structure Flush where
  table : Nat := 0
  byChannel : Bool := false
  ports : Nat := 0
  slot : Nat := 0
  sess : Nat := 0
  start : Nat := 0
  removed : Nat := 0
  /-- First position not yet swept, by slice or by die copy. -/
  swept : Table Nat := []
  deriving DecidableEq, Repr, Inhabited

/-- Flow tables: entries by (core × 2^19 + position), direct entries by (die × 2^20 + tag). -/
structure Flow where
  exact : Table Bytes := []
  direct : Table Bytes := []
  slices : Table Slice := []
  flush : Option Flush := none
  /-- The last TABLE_FLUSH sampled, with its ply (R51, R233). -/
  lastFlush : Option Flush := none
  /-- Events of the ply that wait for those of higher precedence, in the order they came (R49). -/
  due : List FlowOp := []
  /-- Owner core of the state slot of a promoted direct entry, by die × 2^20 + tag (R30, R228). -/
  owners : Table Nat := []
  /-- The four learn rings, in die order (R220). -/
  learnRings : List Nat := []
  /-- State-slot pools by logical core (R335), and state memory by (core × 2^15 + slot) × 8,192 + byte (R339). -/
  statePools : Table Pool := []
  stateMem : Mem := []
  deriving DecidableEq, Repr, Inhabited

/-- State of a model generation (R433, R435). -/
inductive GenState where
  | current | draining
  deriving DecidableEq, Repr, Inhabited

/-- One generation of a channel or deep-model slot. Its image is kept by byte offset; PAGES content is reached by model address (R398). -/
structure Generation where
  state : GenState := .current
  /-- 1 channel image, 2 deep-model image (R420). -/
  kind : Nat := 1
  target : Nat := 0
  gen : Nat := 0
  serial : Nat := 0
  image : Mem := []
  /-- Working pages: bytes written by model address since the swap (R399), and PLACE 1 copies by die × 2^48 + address. -/
  work : Mem := []
  bound : Nat := 0
  rate : Nat := 0
  degraded : Bool := false
  /-- Quarters held: (logical core, quarter) pairs (R270). -/
  quarters : List (Nat × Nat) := []
  /-- Ply of the swap that began its draining (R435). -/
  drainFrom : Nat := 0
  /-- Core set it was swapped in with: empty for a deep model (R390). -/
  cores : List Nat := []
  deriving DecidableEq, Repr, Inhabited

/-- STAGE_k.STATE (R441). -/
inductive StageState where
  | free | open_ | verifying | accepted
  deriving DecidableEq, Repr, Inhabited

/-- One staging slot (R424 to R431). -/
structure StageOp where
  state : StageState := .free
  hgen : Nat := 0
  sess : Nat := 0
  /-- Channel slot, or none for a deep-model image. -/
  chan : Option Nat := none
  len : Nat := 0
  image : Mem := []
  /-- Offsets received, as disjoint ascending ranges (start, end). -/
  got : List (Nat × Nat) := []
  degraded : Bool := false
  /-- A STAGE_DISCARD waits for verification to end (R431). -/
  discard : Bool := false
  bound : Nat := 0
  rate : Nat := 0
  degradedRate : Bool := false
  quarters : List (Nat × Nat) := []
  /-- Session whose STAGE_VERIFY runs, and sessions whose STAGE_DISCARD waits for it (R431); 0 is the standby's own staging (R518). -/
  verifier : Nat := 0
  waiters : List Nat := []
  deriving DecidableEq, Repr, Inhabited

/-- A frame that waits to be sent on a sub-port: held by received PAUSE or PFC (R131, R132, R134). -/
structure Waiting where
  port : Nat := 0
  sub : Nat := 0
  /-- Verdict frames are sent after Selid responses and event frames (R166). -/
  verdict : Bool := false
  len : Nat := 0
  out : Out := .tap []
  /-- The core whose tag it holds until it is sent (R406). -/
  core : Option Nat := none
  deriving DecidableEq, Repr, Inhabited

/-- What crosses the links between the dies (R15, R19). -/
inductive Cargo where
  /-- A header vector or a verdict, by packet number. -/
  | vector (k : Nat) | verdict (k : Nat)
  /-- A frame of port die 1's control lane on its way to the control complex, and a frame of the control complex on its way to that die. -/
  | lane (lf : LaneFrame) | send (w : Waiting)
  /-- A piece of a core's stream engine to a vault on another die and back, by core and tag. -/
  | piece (core tag : Nat)
  /-- A deep-tier request or result, or a host feature item, by number. -/
  | parcel (n : Nat)
  deriving DecidableEq, Repr, Inhabited

/-- One transfer between dies: its class and its order within the class (R19), where it stands, the dies still to be reached, and the ply from
which it may go on. Dies 0 to 3 are the compute dies, 4 and 5 the port dies. -/
structure Flit where
  cls : Nat := 1
  order : Nat := 0
  die : Nat := 4
  route : List Nat := []
  ready : Nat := 0
  bytes : Nat := 0
  cargo : Cargo := .vector 0
  deriving DecidableEq, Repr, Inhabited

/-- The links (R14, R15, R19, R20): the transfers under way, by link the bytes promised beyond the present ply (control's under link + 64), and the
parcels numbered so far. -/
structure Net where
  flits : List Flit := []
  owed : Table Nat := []
  parcels : Nat := 0
  deriving DecidableEq, Repr, Inhabited

/-- Frames, packets, egress queues, verdict records and channels. -/
structure Traffic where
  /-- Frame in reception, by port × 4 + sub-port. -/
  rx : Table RxFrame := []
  packets : Table Packet := []
  nextPacket : Nat := 0
  /-- Packets in each egress queue, by (port × 4 + sub) × 8 + queue, oldest first (R164). -/
  egress : Table (List Nat) := []
  /-- Ready verdict records by port × 4 + sub (R166). -/
  records : Table (List VRecord) := []
  /-- Frames that wait to be sent, oldest first. -/
  waiting : List Waiting := []
  deriving DecidableEq, Repr, Inhabited

/-- Channels and rings with their slot pools. -/
structure Objects where
  channels : Table Channel := []
  chanPool : Pool := {}
  rings : Table Ring := []
  /-- Ring pools of port dies 0 and 1 (R576). -/
  ringPool0 : Pool := {}
  ringPool1 : Pool := { fresh := 32768 }
  /-- Words that a device producer writes of an item in a ply; 0 stands for a whole item (the model's own free value; log entry 9). -/
  ringPace : Nat := 0
  /-- Generations by key: channel slot × 256 + gen, deep-model slot × 256 + gen + 2^20. -/
  gens : Table Generation := []
  /-- Generations that have been retired: their pages read as retired, and pieces issued to them complete against their frames (R399, R413). -/
  gone : Table Generation := []
  /-- Uncorrectable lines of ring storage: ring × 2^32 + first word in the ring (R396); a free value of the model's own (log entry 167). -/
  ringBad : List Nat := []
  stages : Table StageOp := []
  stagePool : Pool := {}
  /-- RETIRED_LAST (R441), and the ply it was written in. -/
  retiredLast : Word := 0
  retiredPly : Nat := 0
  /-- Quarters of generations retired in the present ply: they return to the window in the next one (R270). -/
  leaving : List (Nat × Nat) := []
  /-- Physical site of each logical core where it differs from the manufacture assignment; `none` for a vacant core (R17, R506). -/
  siteMap : Table (Option Nat) := []
  deriving DecidableEq, Repr, Inhabited

end Sys2Proof.Machine
end

