-- ==== Sys2Proof/Machine/StateCompute.lean ====
section
/-! DEFINITION. The compute part of the machine's state: thread contexts and tasks (R362 to R367), arrays (R299 to R330), streams (R400 to R417),
barriers (R378, R379), host slots and adaptation (R249 to R252, R296 to R298), tokens and expert queues (R342 to R358). Field defaults are reset
values. -/
namespace Sys2Proof.Machine

/-- State of a thread context (R363). -/
inductive CtxState where
  | free | fetching | running | barrier | adjourned | stopping
  deriving DecidableEq, Repr, Inhabited

/-- A vector between layers: wide values (OFMT 2, ISRC 1), or codes with one exponent for each group (ISRC 0). -/
structure Vec where
  raw : List Int := []
  codes : List Int := []
  exps : List Int := []
  /-- Format of the codes as they were written: A4, else A8 (R282). -/
  a4 : Bool := false
  deriving DecidableEq, Repr, Inhabited

/-- A sealed move (R323): the fields of its header, and its body. -/
structure SealedMove where
  mode : Nat := 0
  regions : Nat := 0
  array : Nat := 0
  region : Nat := 0
  slots : Nat := 0
  nextTile : Nat := 0
  colTile : Nat := 0
  cols : Nat := 0
  thread : Nat := 0
  layer : Nat := 0
  sealPly : Nat := 0
  /-- CHECK over the header and the body. -/
  check : Nat := 0
  /-- Body: accumulators by slot, then unmasked column. -/
  acc : List (List Int) := []
  deriving DecidableEq, Repr, Inhabited

/-- What a task has worked out for one packet of its batch (R241 to R264). -/
structure Work where
  looked : Bool := false
  /-- The entry as it stood before the hit's refresh. -/
  entry : Option Bytes := none
  codes : List Nat := []
  shifts : List Nat := []
  acc : List Int := []
  /-- Segments evaluated so far (R271). -/
  next : Nat := 0
  /-- The action index (R264). -/
  index : Option Nat := none
  emitted : Bool := false
  deriving DecidableEq, Repr, Inhabited

/-- One expert request, or the result that answers it (R349, R356). -/
structure ExpertReq where
  dm : Nat := 0
  gen : Nat := 0
  layer : Nat := 0
  expert : Nat := 0
  homeMember : Nat := 0
  homeCore : Nat := 0
  stateSlot : Nat := 0
  tenancy : Nat := 0
  token : Nat := 0
  x : Vec := {}
  /-- The result's values, in a result. -/
  y : List Int := []
  /-- Ply in which it was sent; ply in which it joined its queue. -/
  sent : Nat := 0
  joined : Nat := 0
  /-- Its parcel on the links (R15); 0 for none. -/
  parcel : Nat := 0
  deriving DecidableEq, Repr, Inhabited

/-- A queued task descriptor (R364), with what the dispatching block keeps of it. -/
structure TaskDesc where
  sched : Nat := 0
  gen : Nat := 0
  owner : Nat := 0
  cls : Nat := 2
  lc : List Nat := []
  masks : List Nat := []
  deadline : Nat := 0
  ba : List Nat := []
  /-- Packet numbers (pawn) or token numbers (deep token) of the batch, and the requests of an expert batch. -/
  items : List Nat := []
  reqs : List ExpertReq := []
  /-- Successive window starts at which it failed the admission test as the die's earliest (R452). -/
  fails : Nat := 0
  /-- To be dispatched again once this loading page is present (R383). -/
  page : Option Nat := none
  deriving DecidableEq, Repr, Inhabited

/-- One thread context (R363). -/
structure Ctx where
  state : CtxState := .free
  task : TaskDesc := {}
  /-- Index of the next entry, iteration indices of LC0 to LC3, and the ply in which the entry became the next. -/
  idx : Nat := 0
  iter : List Nat := []
  since : Nat := 0
  /-- MULT and SLACK for the entry, as WD_CFG holds them (R385, R392). -/
  watch : Nat := 0x408
  /-- STREAM entries from there on that have issued ahead of it (R370). -/
  ahead : Nat := 0
  /-- Energy charged so far (R377), and the window in which a wait for a grant was last counted (R450). -/
  energy : Nat := 0
  waitWin : Option Nat := none
  works : Table Work := []
  /-- By slot: model address of the layer last run, its outputs, and its inputs (the outputs of the layer before it). -/
  layers : Table Nat := []
  vecs : Table Vec := []
  inputs : Table Vec := []
  /-- Results of an expert batch, by slot. -/
  results : Table (List Int) := []
  move : Option SealedMove := none
  /-- Faults of the pass of the current entry (R327). -/
  restarts : Nat := 0
  /-- Rate r counted in the die's committed rate (R451). -/
  rate : Nat := 0
  /-- An abort of this kind, or a cancel, has been sampled (R381). -/
  fault : Option Nat := none
  cancel : Bool := false
  /-- END has issued: the task completes with the ply, unless an abort of the ply takes it (R384). -/
  ended : Bool := false
  /-- Address of the page of an abort of kind 2 (R383, R409). -/
  page : Option Nat := none
  deriving DecidableEq, Repr, Inhabited

/-- State of one ring slot of a stream (R404 to R412). -/
inductive SlotState where
  /-- Read: being filled. Write: handed to the engine. -/
  | busy
  | full | claimed | empty
  deriving DecidableEq, Repr, Inhabited

/-- One ring slot. -/
structure Slot where
  state : SlotState := .empty
  /-- Number of the slot in the shape's byte sequence. -/
  seq : Nat := 0
  /-- Bytes of it completed or acknowledged. -/
  doneBytes : Nat := 0
  /-- State of the page that faulted it, as FAULT_LAST codes it, with SPACE and page (R409). -/
  fault : Option (Nat × Nat × Nat) := none
  deriving DecidableEq, Repr, Inhabited

/-- One piece that holds a tag (R405, R406). -/
structure Piece where
  /-- Stream, offset in the shape's byte sequence, length, memory address. -/
  stream : Nat := 0
  off : Nat := 0
  len : Nat := 0
  addr : Nat := 0
  write : Bool := false
  /-- Schedule and generation of its task, and the core whose vault it goes to. -/
  sched : Nat := 0
  gen : Nat := 0
  owner : Nat := 0
  /-- Ply of its issue, and the run-dry ply it carries (R407). -/
  issued : Nat := 0
  runDry : Nat := 0
  /-- Held for a loading page: ply of its last try (R410). -/
  retry : Option Nat := none
  /-- Its slots were discarded by a cancel, abort or close (R412). -/
  discarded : Bool := false
  deriving DecidableEq, Repr, Inhabited

/-- A shape's base, innermost run, counts and strides (R404). -/
structure Shape where
  base : Nat := 0
  len0 : Nat := 0
  counts : List Nat := []
  strides : List Int := []
  deriving DecidableEq, Repr, Inhabited

/-- One stream (R400 to R408). -/
structure Stream where
  armed : Bool := false
  /-- TYPE: 0 read, 1 write, 2 peer send. -/
  ty : Nat := 0
  slotBytes : Nat := 256
  ring : Nat := 0
  member : Nat := 0
  base : Nat := 0
  len0 : Nat := 0
  counts : List Nat := []
  strides : List Int := []
  period : Nat := 1
  slots : List Slot := []
  /-- Bytes of the shape issued, and slots of it handed over (write and peer). -/
  issued : Nat := 0
  handed : Nat := 0
  /-- Slot numbers of the oldest claimed slot, and of the next slot to claim. -/
  oldest : Nat := 0
  claimNext : Nat := 0
  /-- Ply of the latest ACQUIRE (read) or RELEASE (write), or of ARM (R407); ply at which the present ACQUIRE began to wait (R410). -/
  lastUse : Nat := 0
  claimPly : Option Nat := none
  /-- A fault has stopped it (R409). -/
  stopped : Bool := false
  /-- Re-armed: shapes that wait, each until every slot of the one before it is empty (R408). -/
  next : List Shape := []
  /-- The ply in which a read piece of it last completed, and how many did (R415). -/
  came : Nat × Nat := (0, 0)
  deriving DecidableEq, Repr, Inhabited

/-- One peer-send slot released to the engine, or remote requests sent by EMIT (R414). -/
structure PeerSlot where
  member : Nat := 0
  homeCore : Nat := 0
  plain : Bytes := []
  /-- Stream and ring slot to free when sent. -/
  stream : Option (Nat × Nat) := none
  /-- Its order among requests that no stream carries: the ply it was formed in. -/
  order : Nat := 0
  deriving DecidableEq, Repr, Inhabited

/-- The registers of one region of an array (R299, R300, R309): the active and the shadow weights, as the packed planes of each row, the most
significant first, and the accumulator files, by batch slot and then column. Passes in normal and twin mode use region 0. -/
structure Block where
  active : List (List (List Byte)) := []
  shadow : List (List (List Byte)) := []
  acc : Table (List Int) := []
  deriving DecidableEq, Repr, Inhabited

/-- One array of a core (R299, R308, R309, R330). -/
structure ArrayState where
  /-- Registers by region. -/
  blocks : Table Block := []
  /-- REGIONS code in simul mode. -/
  regions : Nat := 0
  suspect : Bool := false
  deriving DecidableEq, Repr, Inhabited

/-- An array pass (R314), or a matrix-vector request (R321), under way for the ARRAY or MVEC entry that its context stands at. Times are in
sixteenths of a ply (R54). -/
structure ArrayRun where
  ctx : Nat := 0
  mvec : Bool := false
  /-- Array and region it runs in, with MODE and REGIONS of its descriptor. In normal and twin mode it holds both arrays. -/
  arr : Nat := 0
  region : Nat := 0
  mode : Nat := 0
  regions : Nat := 0
  /-- Ply of its issue, and its steps before the first tile: a change of the arrays' shape (R310), and the reading back of a sealed move (R324). -/
  began : Nat := 0
  lead : Nat := 0
  /-- The vault that a matrix-vector request streams its rows from; 800 for none. -/
  vault : Nat := 800
  /-- When it is ready for the rescale unit; when it ends, once the unit has taken it or it is being sealed (R319, R322). -/
  ready : Nat := 0
  ends : Option Nat := none
  /-- The sealed move that is being written (R322). -/
  sealing : Option SealedMove := none
  deriving DecidableEq, Repr, Inhabited

/-- One feature's adaptation state (R250). -/
structure Adapt where
  shift : Nat := 0
  seen : Bool := false
  sat : Bool := false
  head : Bool := true
  varied : Bool := false
  first : Nat := 0
  deriving DecidableEq, Repr, Inhabited

/-- A core's working copy of one output channel's scale entry (R305): multiplier, limits, the adaptation step of its layer, and the shift in force
with the bits of R296. -/
structure ScaleCopy where
  m : Nat := 0
  adapt : Bool := false
  lo : Nat := 0
  hi : Nat := 0
  log : Nat := 0
  bits : Adapt := {}
  deriving DecidableEq, Repr, Inhabited

/-- A closed streamed batch (R29, R366). -/
structure Batch where
  chan : Nat := 0
  gen : Nat := 0
  items : List Nat := []
  deriving DecidableEq, Repr, Inhabited

/-- A load of the window for one streamed batch (R271): its context and generation, its segments, the window quarters they go to, the ply in which
it began, and the one in which its last row was written. -/
structure WindowLoad where
  ctx : Nat := 2
  key : Nat := 0
  first : Nat := 0
  quarters : List Nat := []
  began : Nat := 0
  ended : Option Nat := none
  deriving DecidableEq, Repr, Inhabited

/-- One logical core. -/
structure CoreState where
  ctxs : Table Ctx := []
  /-- Pawn queue: packet numbers in order of arrival (R366). -/
  pawn : List Nat := []
  /-- Open batches by channel slot × 256 + generation, and closed ones. -/
  open_ : Table (List Nat) := []
  closed : List Batch := []
  /-- Task queue (R367). -/
  tasks : List TaskDesc := []
  /-- MODE of ARRAY_STATE (R330): 0 simul, 1 normal, 2 twin. -/
  mode : Nat := 0
  array0 : ArrayState := {}
  array1 : ArrayState := {}
  /-- Array passes and matrix-vector requests under way, and when the rescale unit is free again, in sixteenths of a ply (R319). -/
  running : List ArrayRun := []
  rescaleFree : Nat := 0
  streams : Table Stream := []
  pieces : List Piece := []
  peer : List PeerSlot := []
  scratch : Mem := []
  /-- Tables held in the table area, the least recently used first (R390). -/
  area : List (Nat × Nat) := []
  /-- Adaptation of features by generation key × 256 + feature, and of output channels by (generation key × 2^47 + scale address) × 2^24 + channel. -/
  feat : Table Adapt := []
  scale : Table ScaleCopy := []
  /-- Ply of its last issue, and when the step of that issue is over, in sixteenths of a ply (R54, R368). -/
  lastIssue : Option Nat := none
  nextStep : Nat := 0
  /-- The context whose array pass the governor has asked to adjourn (R454). -/
  adjourn : Option Nat := none
  /-- Ply in which the stream engine last issued a piece, or waited for a tag (R406, R407). -/
  lastPiece : Option Nat := none
  lastPromo : Option Nat := none
  lastWatchdog : Option Nat := none
  /-- Plies in succession in which nothing issued though a running context had an issuable entry and the floor held (R386). -/
  stall : Nat := 0
  /-- Contexts whose watchdog expires in the ply unless their entry completes (R384, R385). -/
  dogs : List Nat := []
  /-- Reported as failed (R386, R500): the cause. -/
  failed : Option Nat := none
  /-- Energy of the pawn pool spent by this core in the window, and the window in which its share was released (R450). -/
  pawnSpent : Nat := 0
  pawnWin : Nat := 0
  released : Option Nat := none
  /-- Flow-slice demand exceeds its reservation since this ply (R458). -/
  overDemand : Option Nat := none
  /-- Window quarters that hold a streamed segment: quarter to generation key (R274). -/
  loaded : Table Nat := []
  /-- The window load under way or in use (R271). -/
  window : Option WindowLoad := none
  deriving DecidableEq, Repr, Inhabited

/-- One barrier of a compute die (R378, R379). -/
structure Barrier where
  count : Nat := 0
  first : Nat := 0
  limit : Nat := 0
  need : Nat := 0
  waiting : List (Nat × Nat) := []
  broken : Option Nat := none
  /-- Cores that the break has been counted for (R391). -/
  hit : List Nat := []
  /-- Ply in which the present phase released (R378). -/
  released : Option Nat := none
  deriving DecidableEq, Repr, Inhabited

/-- A pending expert request of a token (R349, R358). -/
structure PendReq where
  expert : Nat := 0
  layer : Nat := 0
  member : Nat := 0
  sent : Nat := 0
  result : Option (List Int) := none
  missed : Bool := false
  /-- Ply in which the result came. -/
  came : Nat := 0
  deriving DecidableEq, Repr, Inhabited

/-- One token (R342 to R348). -/
structure Token where
  core : Nat := 0
  chan : Nat := 0
  hgen : Nat := 0
  stateSlot : Nat := 0
  tenancy : Nat := 0
  key : Bytes := []
  dm : Nat := 0
  gen : Nat := 0
  codes : List Nat := []
  shifts : List Nat := []
  formed : Nat := 0
  number : Nat := 0
  fresh : Bool := false
  /-- Index of the layer it has reached (R345). -/
  cur : Nat := 0
  r : List Int := []
  u : List Int := []
  scores : List Int := []
  /-- New layer states by layer index (R341). -/
  h : Table (List Int) := []
  reqs : List PendReq := []
  /-- Deep action entry decided (R345). -/
  decided : Option Nat := none
  deriving DecidableEq, Repr, Inhabited

/-- A host feature item on its way to the cores (R249). -/
structure HostItem where
  chan : Nat := 0
  hgen : Nat := 0
  due : Nat := 0
  first : Nat := 0
  values : List Nat := []
  deriving DecidableEq, Repr, Inhabited

/-- Cores and what they share. -/
structure Compute where
  cores : Table CoreState := []
  /-- Barriers by die × 1,024 + number. -/
  barriers : Table Barrier := []
  tokens : Table Token := []
  nextToken : Nat := 0
  /-- Requests and results on the die network (R349). -/
  reqFlight : List ExpertReq := []
  resFlight : List ExpertReq := []
  /-- Expert queues by ((deep slot × 256 + generation) × 64 + layer) × 4,096 + expert. -/
  expertQ : Table (List ExpertReq) := []
  /-- Host slots by channel slot × 64 + slot; an unlisted one has not been written. -/
  hostSlots : Table Nat := []
  hostItems : List HostItem := []
  /-- Feature windows whose last ply is the present one: logical core, channel slot, generation (R250). -/
  windows : List (Nat × Nat × Nat) := []
  /-- Adaptation steps that a command ends with the present ply: logical core, first key and number of its channels (R297, R298). -/
  steps : List (Nat × Nat × Nat) := []
  /-- Pages whose frame is being copied (loading) or retired under R396: (generation key, page). -/
  loading : List (Nat × Nat) := []
  retired : List (Nat × Nat) := []
  /-- State slots in use by logical core × 2^15 + slot (R335). -/
  promoted : List Nat := []
  /-- By logical core: what its vault owes beyond the present ply, in hundredths of a byte (R21, R394). -/
  vaults : Table Nat := []
  /-- Export rings of the deep-model slots (R344). -/
  exports : Table Nat := []
  deriving DecidableEq, Repr, Inhabited

end Sys2Proof.Machine
end

