-- ==== Sys2Proof/Machine/StateSystem.lean ====
section
/-! DEFINITION. The system part of the machine's state: tempo governor and budget windows (R443 to R463), security (R464 to R499), sites and repair
(R500 to R525), teams and pairs (R354 to R358, R510 to R527), scoresheet and background work (R528 to R546), reset, start-up and pins (R547 to R570).
Field defaults are reset values. -/
namespace Sys2Proof.Machine

/-- One compute die's tempo governor and chess clock (R447 to R456). -/
structure Tempo where
  /-- VCORE in 5 mV units (reset by hardware: DESIGN CHOICE 120, log entry 41). -/
  vcore : Nat := 120
  scale : Nat := 128
  stage : Nat := 0
  clears : Nat := 0
  /-- Pools of the window, and what has been drawn from each (R449, R450). -/
  pawn : Nat := 601600
  bg : Nat := 75200
  general : Nat := 1729600
  pawnSpent : Nat := 0
  relSpent : Nat := 0
  genSpent : Nat := 0
  bgSpent : Nat := 0
  debt : Nat := 0
  /-- Number of the window, counted from 0 at the last reset, the ply in which it began, and the die power given for the interval before it. -/
  window : Nat := 0
  interval : Option Nat := none
  watts : Nat := 0
  /-- Reported steps by local site, logic readings by local site, DRAM readings by local site (R443); temperatures in 12 bits. -/
  steps : Table Nat := []
  logic : Table Nat := []
  dram : Table Nat := []
  /-- Local sites whose floor is broken, with the ply it broke (R54), and vaults at doubled refresh (R445). -/
  broken : Table Nat := []
  hot : List Nat := []
  logicHigh : Bool := false
  dramHigh : Bool := false
  /-- Successive intervals at stage 3 (R513). -/
  stage3 : Nat := 0
  /-- ENERGY_GRANTED at the last telemetry item (R543). -/
  markEnergy : Nat := 0
  /-- Corrected vault lines since the last telemetry item (R543). -/
  lines : Nat := 0
  deriving DecidableEq, Repr, Inhabited

/-- Heat and power of the package (R446, R463, R564, R566). -/
structure Power where
  dies : Table Tempo := []
  /-- Package power, and the port dies' readings: 800h before a value (R463, R569). -/
  watts : Nat := 0
  port0 : Nat := 0x800
  port1 : Nat := 0x800
  tripped : Bool := false
  /-- RAIL_FAULT (R564, R569). -/
  rails : Nat := 0
  /-- Boot failure causes that hold FAULT_N: no slot passes; the book copy failed twice (R566). -/
  noSlot : Bool := false
  bookFailed : Bool := false
  deriving DecidableEq, Repr, Inhabited

/-- One record of a counter log (R474). -/
structure LogRec where
  kind : Nat := 1
  seq : Nat := 0
  value : Nat := 0
  deriving DecidableEq, Repr, Inhabited

/-- A firmware transfer (R487). -/
structure FwTransfer where
  sess : Nat := 0
  manifest : Bytes := []
  svn : Nat := 0
  build : Nat := 0
  len : Nat := 0
  headerHash : Bytes := []
  data : Mem := []
  got : List (Nat × Nat) := []
  deriving DecidableEq, Repr, Inhabited

/-- Non-volatile state: fuses, on-package NOR, flash (R464, R467). -/
structure Nvm where
  /-- LIFECYCLE: 0 unowned, 1 owned, 2 release pending (R479). -/
  lifecycle : Nat := 0
  ownerKey : Bytes := []
  /-- Bundle serials by KIND (R484), and the countersignature flag (R488). -/
  serials : Table Nat := []
  countersign : Bool := false
  floor : Nat := 0
  ownerClears : Nat := 0
  /-- Counter logs A and B (R474). -/
  logA : List LogRec := [{ value := 0 }]
  logB : List LogRec := [{ value := 0 }]
  /-- Spare blocks that logs have moved to, of 4 (R474). -/
  logSpares : Nat := 0
  /-- Flash slots A and B: none as the board programmed them (Config.flash). -/
  slotA : Option Bytes := none
  slotB : Option Bytes := none
  /-- Team and pair membership as last applied, keys left out (R548, R549). -/
  team : Bytes := []
  pair : Bytes := []
  deriving DecidableEq, Repr, Inhabited

/-- The control complex's security state (R465 to R499). -/
structure Security where
  nvm : Nvm := {}
  /-- Slot booted (R469). -/
  slot : Nat := 0
  signNext : Nat := 0
  signLimit : Nat := 0
  signLocked : Bool := false
  /-- Bottom tree being prepared, and its record written (R477); greatest tree prepared. -/
  preparing : Option Nat := none
  prepared : Nat := 0
  entropyOk : Bool := false
  /-- Health test failed: successive reseeds passed since (R494). -/
  failing : Option Nat := none
  /-- DRBG requests served at the last reseed, and its ply (R493). -/
  requests : Nat := 0
  reseeded : Nat := 0
  tapUsed : Bool := false
  /-- In SCAN: left only by a power-on reset (R495). -/
  scanning : Bool := false
  configHash : Bytes := []
  transfer : Option FwTransfer := none
  /-- Plies of the quotes of the last 1 s (R478). -/
  quotes : List Nat := []
  /-- Seeds that reset would draw wait for the DRBG (R494). -/
  seedsDue : Bool := false
  /-- Boundary-scan cells preloaded through the test access port, and whether EXTEST drives the pins from them (R495). -/
  cells : Bytes := []
  extest : Bool := false
  deriving DecidableEq, Repr, Inhabited

/-- A receive window of SEQ on one port (R97, R355, R512). -/
structure SeqWin where
  high : Nat := 0
  seen : List Nat := []
  deriving DecidableEq, Repr, Inhabited

/-- Team membership and links (R354 to R358). -/
structure Team where
  id : Nat := 0
  /-- 0 outside a team. -/
  members : Nat := 0
  self : Nat := 0
  key : Bytes := []
  salt : Bytes := []
  ports : List Nat := []
  /-- Frames sent by port, and the receive windows by port. -/
  tx : Table Nat := []
  rx : Table SeqWin := []
  /-- Units sent, the latest GRANT received, and the units granted to senders, by port × 16 + member (R357). -/
  sent : Table Nat := []
  grant : Table Nat := []
  granted : Table Nat := []
  /-- A new membership, whose ports have not been granted their first credit: its key is in force from the next ply (R357, R486). -/
  greet : Bool := false
  deriving DecidableEq, Repr, Inhabited

/-- A pair's role (R511, R527). -/
inductive Role where
  | unpaired | primary | standby | starting
  deriving DecidableEq, Repr, Inhabited

/-- One mirror record (R518). -/
structure MirrorRec where
  seq : Nat := 0
  ty : Nat := 0
  whr : Nat := 0
  body : Bytes := []
  /-- Port that carried it, and the ply; none before it is sent (R519). -/
  sentOn : Option (Nat × Nat) := none
  /-- A resend avoids the port that carried it before, if another is up (R519). -/
  avoid : Option Nat := none
  deriving DecidableEq, Repr, Inhabited

/-- One stored mirror entry (R518, R522). -/
structure MirrorEntry where
  direct : Bool := false
  core : Nat := 0
  entry : Bytes := []
  ply : Nat := 0
  deriving DecidableEq, Repr, Inhabited

/-- The pair (R510 to R523). -/
structure Pair where
  id : Nat := 0
  priority : Nat := 0
  standbyLines : Bool := false
  autoYield : Bool := false
  ports : Nat := 0
  missLimit : Nat := 16
  salt : Nat := 0
  key : Bytes := []
  partner : Bytes := []
  role : Role := .unpaired
  epoch : Nat := 0
  synced : Bool := false
  yield_ : Bool := false
  /-- Ply in which the starting role was entered; of the last valid heartbeat; of a heartbeat with YIELD; of a CASTLE write. -/
  startPly : Nat := 0
  lastHb : Option Nat := none
  yieldPly : Option Nat := none
  castlePly : Option Nat := none
  /-- Ply in which the missed heartbeats reached the limit (R511, R514); of the last checkpoint begun (R521). -/
  missPly : Option Nat := none
  ckptPly : Option Nat := none
  /-- Ports of a new pair grant their first credit in the following ply (R511, R519). -/
  greet : Bool := false
  /-- PARTNER and LAST_HB fields (R527). -/
  pRole : Nat := 0
  pSynced : Bool := false
  pYield : Bool := false
  pCores : Nat := 0
  pPriority : Nat := 0
  hbPly : Nat := 0
  tx : Table Nat := []
  rx : Table SeqWin := []
  sent : Table Nat := []
  grant : Table Nat := []
  granted : Table Nat := []
  /-- Primary: records not acknowledged, oldest first; next sequence number; last ACK and the ply it advanced; last checkpoint. -/
  records : List MirrorRec := []
  nextSeq : Nat := 1
  ack : Nat := 0
  ackPly : Nat := 0
  ckpt : Nat := 0
  /-- TOKENS at each promoted flow's last STATE record, by core × 2^15 + slot (R521). -/
  stateSent : Table Nat := []
  /-- Flows of the checkpoint in progress that are still to be sent (R521). -/
  ckptFlows : List Nat := []
  ckptOpen : Bool := false
  /-- Ply of the last heartbeat sent. -/
  hbSent : Option Nat := none
  /-- A resync is due, because the replay buffer would overflow or the host asked for it; last record of the latest resync (R519). -/
  resyncDue : Bool := false
  resyncEnd : Nat := 0
  /-- Standby: RESYNC_DONE has been applied and nothing has been lost since (R518). -/
  resynced : Bool := false
  /-- Standby: highest record applied; last checkpoint completed; the mirror store; staging slots by WHERE. -/
  applied : Nat := 0
  ckptDone : Nat := 0
  store : List MirrorEntry := []
  images : Table Nat := []
  /-- Swaps applied whose image is not accepted yet, or that wait for a retirement (R518): WHERE and GEN, with the record's number. -/
  swaps : List (Nat × Nat × Nat) := []
  /-- Ply of castling, from which entries are adopted (R522). -/
  adoptFrom : Option Nat := none
  deriving DecidableEq, Repr, Inhabited

/-- A site's role (R525). -/
inductive SiteState where
  | active | spare | retired | mapping
  deriving DecidableEq, Repr, Inhabited

/-- A site as NOR records it (R503 to R506, R542). -/
structure Site where
  state : SiteState := .active
  cause : Nat := 0
  deriving DecidableEq, Repr, Inhabited

/-- A mapping or wear move in progress on a die (R503, R506). -/
structure Mapping where
  from_ : Nat := 0
  to_ : Nat := 0
  logical : Nat := 0
  wear : Bool := false
  /-- The vault failed: step 4 copies nothing (R504). -/
  vault : Bool := false
  start : Nat := 0
  /-- 0 self-test; 1 copy; 2 load; 3 activation pending (R525). -/
  step : Nat := 0
  /-- The spare is activated in the present ply, at whose end it takes effect (R503, R509). -/
  active : Bool := false
  deriving DecidableEq, Repr, Inhabited

/-- Sites and spare rows (R500 to R508). -/
structure Reliab where
  /-- Sites whose role differs from manufacture (R17, R525). -/
  sites : Table Site := []
  mapping : Table Mapping := []
  /-- Failures that wait for the die's mapping to end (R503): site and cause. -/
  waiting : List (Nat × Nat) := []
  /-- Spare leaf rows and comparator entries used by site × 4 + quarter (R507); spare rows used by vault site (R508). -/
  rowsUsed : Table Nat := []
  compsUsed : Table Nat := []
  vaultUsed : Table Nat := []
  /-- Corrected errors in a row within the present scrub pass, by site × 2^32 + row (R500). -/
  rowErrors : Table Nat := []
  /-- Rows and entries whose failure waits for a spare: site × 4 + quarter, kind (0 leaf row, 1 comparator entry), index, ply. -/
  amFailed : List (Nat × Nat × Nat × Nat) := []
  /-- Rows that wait for a spare: site, row, ply. -/
  vaultFailed : List (Nat × Nat × Nat) := []
  /-- Uncorrectable lines of the vaults: site, line, and the ply in which the error was last found (R396). -/
  badLines : List (Nat × Nat × Nat) := []
  /-- Lines that each lookup or table command reads corrected, beyond those its command tells of: a free value of the model's own (log entry 167). -/
  eccReads : Nat := 0
  /-- Rows being moved to a spare row, with the pages they hold (generation key, page): site, row, pages. -/
  moving : List (Nat × Nat × List (Nat × Nat)) := []
  /-- Time at 85 °C or more by site, in governor intervals (R542). -/
  wear : Table Nat := []
  /-- Control processors stopped, one bit for each of the eight (R500, R578). -/
  stopped : Nat := 0
  /-- Ply of the last activation of each logical core (R503, R509). -/
  activated : Table Nat := []
  /-- Ply of the last site reset of each site (R547). -/
  resetPly : Table Nat := []
  deriving DecidableEq, Repr, Inhabited

/-- A recorded frame of a replay range that waits for its injection, or has been injected (R533 to R535). -/
structure ReplayItem where
  due : Nat := 0
  body : Bytes := []
  packet : Option Nat := none
  deriving DecidableEq, Repr, Inhabited

/-- One scoresheet item of the present ply (R529, R530), with what orders it within the ply. -/
structure ScoreItem where
  kind : Nat := 1
  port : Nat := 0
  sess : Nat := 0
  die : Nat := 0
  /-- INFO, the ply recorded; LEN in words; the body from byte 16 on. -/
  info : Nat := 0
  len : Nat := 1
  body : Bytes := []
  deriving DecidableEq, Repr, Inhabited

/-- One event of the present ply that touched an object, for the arbiter records (R529): object kind of R530, its identifier, its die, and the
precedence of R49. -/
structure Touch where
  obj : Nat := 1
  id : Nat := 0
  die : Nat := 0
  prec : Nat := 0
  deriving DecidableEq, Repr, Inhabited

/-- Scoresheet and replay (R528 to R535). -/
structure Score where
  /-- MODE: 0 idle, 1 recording, 2 replaying. -/
  mode : Nat := 0
  what : Nat := 0
  capture : Nat := 8
  startPly : Nat := 0
  ring : Option Nat := none
  replayRing : Option Nat := none
  items : List ReplayItem := []
  lastDeadline : Nat := 0
  /-- Items formed in the present ply, and the events that touched objects in it. -/
  buf : List ScoreItem := []
  touched : List Touch := []
  /-- Totals of the replay since the last SCORE_START; none before one ran. -/
  ran : Bool := false
  compared : Nat := 0
  mismatched : Nat := 0
  deriving DecidableEq, Repr, Inhabited

/-- Background work (R537 to R543). -/
structure Background where
  telem : Option Nat := none
  /-- Next vault line of a site's scrub pass, and the ply by which the pass must end (R538). -/
  line : Table Nat := []
  pass : Table Nat := []
  /-- Plies of each die's last wear move, and of each quarter's last leaf-row rotation, by site × 4 + quarter (R542). -/
  moved : Table Nat := []
  rotated : Table Nat := []
  /-- Ply of the last telemetry items (R543). -/
  told : Option Nat := none
  deriving DecidableEq, Repr, Inhabited

/-- Reset and start-up (R547 to R559). -/
structure StartUp where
  powerGood : Bool := true
  /-- RESET_N is asserted. -/
  resetN : Bool := false
  /-- Ply of the last fall of PWR_GOOD (R565), and ply from which the SMBus port answers, 1 ms after its rise (R569). -/
  fallPly : Nat := 0
  smbFrom : Nat := 1562500
  /-- Reset has been released; its ply (R565). -/
  released : Bool := true
  releasePly : Nat := 0
  phase : Nat := 0
  ready : Bool := false
  readyPly : Nat := 0
  /-- The base book has been copied to the book regions (R389, R393). -/
  bookLoaded : Bool := false
  /-- RESET_CAUSE (R559): KIND, FAULT, FAULT_DIE, RESETS. -/
  kind : Nat := 1
  fault : Bool := false
  faultDie : Nat := 0
  resets : Nat := 0
  /-- Resets requested and not yet due: ply and whether of the whole device (R556). -/
  due : List (Nat × Bool) := []
  /-- A control restart runs since this ply (R555). -/
  restart : Option Nat := none
  /-- Owner cleared through the test access port: unowned from the release of reset (R495). -/
  cleared : Bool := false
  deriving DecidableEq, Repr, Inhabited

end Sys2Proof.Machine
end

