-- ==== Sys2Proof/Machine/State.lean ====
section
/-! DEFINITION. The machine's state, its faults and refusals, and the state after a power-on reset. -/
namespace Sys2Proof.Machine

/-- The device: everything the manual gives the Kwagen 8800. -/
structure Dev where
  regs : Regs := {}
  selid : Selid := {}
  ports : Table Port := []
  ref : RefClock := {}
  traffic : Traffic := {}
  net : Net := {}
  objects : Objects := {}
  flow : Flow := {}
  compute : Compute := {}
  power : Power := {}
  sec : Security := {}
  team : Team := {}
  pair : Pair := {}
  reliab : Reliab := {}
  score : Score := {}
  back : Background := {}
  startUp : StartUp := {}
  /-- What has left the device (the model's own record; log entry 6). -/
  out : List Out := []
  /-- Draws taken from the DRBG, and open values taken (the model's own counters; log entries 22 and 29). -/
  draws : Nat := 0
  /-- Ply in which the signals of the lanes were last sampled (R143; log entry 140). -/
  sampled : Nat := 0
  opens : Nat := 0
  deriving DecidableEq, Repr, Inhabited

/-- The state: the ply counter (R38), the device, the device at the start of the current ply (R46, R48), and the commands waiting. -/
structure State where
  ply : Ply := 0
  dev : Dev := {}
  /-- The device as it stood at the start of the current ply; every read of that ply sees this (R48). -/
  start : Dev := {}
  pending : List Instr := []
  deriving DecidableEq, Repr, Inhabited

/-- Faults. No command of this hardware stops the machine: an uncorrectable fault is a flag of a page (R62), so no meaning answers with one. -/
inductive Fault where
  /-- Never raised; the manual gives every command an effect (safe). -/
  | unreachable
  deriving DecidableEq, Repr

/-- Refusals. -/
inductive Refusal where
  /-- Raised by an arm of `exec` whose row has no meaning yet (safe: the run stops). -/
  | notModelled (mnemonic : String)
  deriving DecidableEq, Repr

/-- The machine right after a power-on reset: every field at its reset value, no command waiting. -/
def State.reset : State := {}

end Sys2Proof.Machine
end

