-- ==== Sys2Proof/Machine/Ops.lean ====
section
/-! DEFINITION. The named operations every meaning is built from: sparse tables and memory, byte strings, slot pools, page headers with the
event and lock rules (R46 to R76), registers and counters (R9, R39), the DRBG and free-value counters. -/
namespace Sys2Proof.Machine

/-! ### Sparse tables -/

/-- The entry listed under a key. -/
def Table.get? {α : Type} (t : Table α) (k : Nat) : Option α :=
  match t with
  | [] => none
  | (k', v) :: r => if k' = k then some v else Table.get? r k

/-- What a key reads as: its listed entry, or the default. -/
def Table.get {α : Type} (d : α) (t : Table α) (k : Nat) : α := (Table.get? t k).getD d

/-- The table without the key. -/
def Table.erase {α : Type} (t : Table α) (k : Nat) : Table α :=
  match t with
  | [] => []
  | (k', v) :: r => if k' = k then r else if k < k' then (k', v) :: r else (k', v) :: Table.erase r k

/-- The table with the key listed, in rising order of keys. -/
def Table.put {α : Type} (t : Table α) (k : Nat) (v : α) : Table α :=
  match t with
  | [] => [(k, v)]
  | (k', v') :: r =>
    if k' = k then (k, v) :: r else if k < k' then (k, v) :: (k', v') :: r else (k', v') :: Table.put r k v

/-- Write a key; writing the default removes the entry, so that equal tables are equal data. -/
def Table.set {α : Type} [DecidableEq α] (d : α) (t : Table α) (k : Nat) (v : α) : Table α :=
  if v = d then Table.erase t k else Table.put t k v

/-- Change what a key holds. -/
def Table.modify {α : Type} [DecidableEq α] (d : α) (t : Table α) (k : Nat) (f : α → α) : Table α :=
  Table.set d t k (f (Table.get d t k))

/-- Keys strictly rising from a bound. -/
def Table.risingFrom {α : Type} (t : Table α) (k : Nat) : Bool :=
  match t with
  | [] => true
  | (k', _) :: r => decide (k ≤ k') && Table.risingFrom r (k' + 1)

/-- The canonical form of a table with a default: strictly rising keys, no entry equal to the default. -/
def Table.wf {α : Type} [DecidableEq α] (d : α) (t : Table α) : Bool :=
  Table.risingFrom t 0 && t.all (fun e => decide (e.2 ≠ d))

/-- The canonical form of a table whose default depends on the key, as it does for page headers and registers. -/
def Table.canon {α : Type} [DecidableEq α] (d : Nat → α) (t : Table α) : Bool :=
  Table.risingFrom t 0 && t.all (fun e => decide (e.2 ≠ d e.1))

/-! ### Memory -/

/-- One byte of sparse memory. -/
def Mem.read (m : Mem) (a : Nat) : Byte := Table.get 0 m a

/-- Write one byte, keeping the canonical form. -/
def Mem.write (m : Mem) (a : Nat) (b : Byte) : Mem := Table.set 0 m a b

/-- Write a byte string from an address. -/
def Mem.writeBytes (m : Mem) (a : Nat) (bs : Bytes) : Mem :=
  match bs with
  | [] => m
  | b :: r => Mem.writeBytes (Mem.write m a b) (a + 1) r

/-- Read `n` bytes from an address. -/
def Mem.readBytes (m : Mem) (a : Nat) (n : Nat) : Bytes := (List.range n).map (fun i => Mem.read m (a + i))

/-- The canonical form of memory. -/
def Memory.wf (m : Mem) : Bool := Table.wf 0 m

/-- A little-endian number of `n` bytes in memory (R5). -/
def Mem.le (m : Mem) (a : Nat) (n : Nat) : Nat :=
  match n with
  | 0 => 0
  | k + 1 => (Mem.read m a).toNat + 256 * Mem.le m (a + 1) k

/-! ### Byte strings -/

/-- The byte at an offset, 0 beyond the end. -/
def Bytes.at (b : Bytes) (i : Nat) : Nat := (b.getD i 0).toNat

/-- A little-endian number of `n` bytes at an offset (R5). -/
def Bytes.le (b : Bytes) (i : Nat) (n : Nat) : Nat :=
  match n with
  | 0 => 0
  | k + 1 => Bytes.at b i + 256 * Bytes.le b (i + 1) k

/-- A number of `n` bytes at an offset in network byte order (R5). -/
def Bytes.be (b : Bytes) (i : Nat) (n : Nat) : Nat :=
  match n with
  | 0 => 0
  | k + 1 => Bytes.at b i * 256 ^ k + Bytes.be b (i + 1) k

/-- `n` bytes of a number, little-endian. -/
def toLE (n : Nat) (v : Nat) : Bytes :=
  match n with
  | 0 => []
  | k + 1 => byte (v % 256) :: toLE k (v / 256)

/-- `n` bytes of a number, in network byte order. -/
def toBE (n : Nat) (v : Nat) : Bytes := (toLE n v).reverse

/-- `n` zero bytes. -/
def zeros (n : Nat) : Bytes := List.replicate n 0

/-- A slice of a byte string, padded with zeros to its length. -/
def Bytes.slice (b : Bytes) (i n : Nat) : Bytes :=
  let r := (b.drop i).take n
  r ++ zeros (n - r.length)

/-- Replace `v.length` bytes from an offset. -/
def Bytes.patch (b : Bytes) (i : Nat) (v : Bytes) : Bytes := b.take i ++ v ++ b.drop (i + v.length)

/-- Bits high:low of a number. -/
def bits (v hi lo : Nat) : Nat := v / 2 ^ lo % 2 ^ (hi + 1 - lo)

/-- Bit `i` of a number. -/
def bit (v i : Nat) : Bool := v / 2 ^ i % 2 = 1

/-- 1 for true, 0 for false. -/
def b2n (b : Bool) : Nat := if b then 1 else 0

/-- Read a two's complement number of `w` bits. -/
def sext (w v : Nat) : Int := if v % 2 ^ w < 2 ^ (w - 1) then ((v % 2 ^ w : Nat) : Int) else ((v % 2 ^ w : Nat) : Int) - ((2 ^ w : Nat) : Int)

/-- Two's complement bits of an integer, `w` wide. -/
def toTwos (w : Nat) (v : Int) : Nat := (v % ((2 ^ w : Nat) : Int)).toNat

/-- Are all of these bytes 0? -/
def allZero (b : Bytes) : Bool := b.all (fun x => decide (x = 0))

/-! ### Checks -/

/-- One step of a reflected CRC. -/
def crcBit (poly : BitVec 32) (c : BitVec 32) : BitVec 32 :=
  if c &&& 1 = 1 then (c >>> 1) ^^^ poly else c >>> 1

/-- One byte of a reflected CRC; `poly` is the reflected polynomial. -/
def crcByte (poly : BitVec 32) (c : BitVec 32) (b : Byte) : BitVec 32 :=
  let f := crcBit poly
  f (f (f (f (f (f (f (f (c ^^^ b.setWidth 32))))))))

/-- A reflected CRC-32 with initial value and final XOR FFFF_FFFFh. -/
def crc32 (poly : BitVec 32) (bs : Bytes) : BitVec 32 :=
  bs.foldl (crcByte poly) 0xFFFFFFFF ^^^ 0xFFFFFFFF

/-- CRC-32C of RFC 3720 (polynomial 1EDC_6F41h; R158, R207, R208). -/
def crc32c (bs : Bytes) : BitVec 32 := crc32 0x82F63B78 bs

/-- CRC-32K (polynomial 741B_8CD7h; R208). -/
def crc32k (bs : Bytes) : BitVec 32 := crc32 0xEB31D82E bs

/-- The Ethernet FCS (polynomial 04C1_1DB7h of IEEE 802.3; R79, R123). -/
def crc32e (bs : Bytes) : BitVec 32 := crc32 0xEDB88320 bs

/-- A frame with its FCS, the least significant byte first. -/
def withFcs (bs : Bytes) : Bytes := bs ++ toLE 4 (crc32e bs).toNat

/-- The ones'-complement sum of 16-bit words in network order (IPv4 and UDP checksums). -/
def onesSum (bs : Bytes) : Nat :=
  match bs with
  | [] => 0
  | [a] => a.toNat * 256
  | a :: b :: r => a.toNat * 256 + b.toNat + onesSum r

/-- Fold a sum into 16 bits with end-around carry. -/
def foldSum (n : Nat) : Nat := let a := n / 65536 + n % 65536; let b := a / 65536 + a % 65536; b / 65536 + b % 65536

/-! ### Wrapping comparisons -/

/-- The half-range rule (R43): is `a` later than `b`, in `n` bits? -/
def laterThan (n a b : Nat) : Bool :=
  let d := (a + 2 ^ n - b % 2 ^ n) % 2 ^ n
  decide (1 ≤ d ∧ d ≤ 2 ^ (n - 1))

/-- The unsigned age of a 24-bit time-stamp (R45). -/
def age24 (now stamp : Nat) : Nat := (now + 2 ^ 24 - stamp % 2 ^ 24) % 2 ^ 24

/-! ### Slot pools -/

/-- Take a slot: the lowest never used, and otherwise the one free longest (R110, R174). `last` is one past the highest number. -/
def Pool.take (p : Pool) (last : Nat) : Option (Nat × Pool) :=
  match p.skipped with
  | n :: r => some (n, { p with skipped := r })
  | [] =>
    if p.fresh < last then some (p.fresh, { p with fresh := p.fresh + 1 })
    else match p.freed with
      | [] => none
      | n :: r => some (n, { p with freed := r })

/-- Release a slot: it becomes the one free for the shortest time. -/
def Pool.release (p : Pool) (n : Nat) : Pool := { p with freed := p.freed ++ [n] }

/-- Take one named slot into use (R522); the lower ones it passes over stay never allocated. -/
def Pool.claim (p : Pool) (n : Nat) : Pool :=
  if n < p.fresh then { p with skipped := p.skipped.filter fun k => decide (k ≠ n), freed := p.freed.filter fun k => decide (k ≠ n) }
  else { p with fresh := n + 1, skipped := p.skipped ++ (List.range (n - p.fresh)).map (· + p.fresh) }

/-- Is any slot free? -/
def Pool.room (p : Pool) (last : Nat) : Nat := (last - p.fresh) + p.skipped.length + p.freed.length

/-! ### The state's parts -/

/-- The current ply as a number. -/
def State.now (s : State) : Nat := s.ply.toNat

def State.onDev (f : Dev → Dev) (s : State) : State := { s with dev := f s.dev }
def State.onRegs (f : Regs → Regs) (s : State) : State := s.onDev fun d => { d with regs := f d.regs }
def State.onSelid (f : Selid → Selid) (s : State) : State := s.onDev fun d => { d with selid := f d.selid }
def State.onPorts (f : Table Port → Table Port) (s : State) : State := s.onDev fun d => { d with ports := f d.ports }
def State.onRef (f : RefClock → RefClock) (s : State) : State := s.onDev fun d => { d with ref := f d.ref }
def State.onTraffic (f : Traffic → Traffic) (s : State) : State := s.onDev fun d => { d with traffic := f d.traffic }
def State.onNet (f : Net → Net) (s : State) : State := s.onDev fun d => { d with net := f d.net }
def State.onObjects (f : Objects → Objects) (s : State) : State := s.onDev fun d => { d with objects := f d.objects }
def State.onFlow (f : Flow → Flow) (s : State) : State := s.onDev fun d => { d with flow := f d.flow }

def State.onCompute (f : Compute → Compute) (s : State) : State := s.onDev fun d => { d with compute := f d.compute }
def State.onPower (f : Power → Power) (s : State) : State := s.onDev fun d => { d with power := f d.power }
def State.onSec (f : Security → Security) (s : State) : State := s.onDev fun d => { d with sec := f d.sec }
def State.onTeam (f : Team → Team) (s : State) : State := s.onDev fun d => { d with team := f d.team }
def State.onPair (f : Pair → Pair) (s : State) : State := s.onDev fun d => { d with pair := f d.pair }
def State.onReliab (f : Reliab → Reliab) (s : State) : State := s.onDev fun d => { d with reliab := f d.reliab }
def State.onScore (f : Score → Score) (s : State) : State := s.onDev fun d => { d with score := f d.score }
def State.onBack (f : Background → Background) (s : State) : State := s.onDev fun d => { d with back := f d.back }
def State.onStart (f : StartUp → StartUp) (s : State) : State := s.onDev fun d => { d with startUp := f d.startUp }

/-- Units issue nothing while the device is tripped (R446) or held in reset (R565). -/
def Dev.halted (d : Dev) : Bool := d.power.tripped || decide (d.power.rails ≠ 0) || d.startUp.resetN || !d.startUp.released || !d.startUp.powerGood

/-- Record a transmission (log entry 6). -/
def State.emit (o : Out) (s : State) : State := s.onDev fun d => { d with out := d.out ++ [o] }

/-- Draw from the DRBG: the value, and the state that has drawn it (R493). -/
def State.draw (s : State) : Nat × State := (Config.drbg s.dev.draws, s.onDev fun d => { d with draws := d.draws + 1 })

/-- A drbg choice: a draw while the DRBG serves, and the first option otherwise (R494). -/
def State.choice (s : State) : Nat × State := if s.dev.sec.entropyOk then s.draw else (0, s)

/-- A free value: a result the manual names without stating (log entry 29). -/
def State.free (s : State) : Nat × State := (Config.freeValue s.dev.opens, s.onDev fun d => { d with opens := d.opens + 1 })

/-! ### Page numbers (R55, R56, R574) -/

/-- Page number of a type code and instance. -/
def pageOf (type inst : Nat) : Nat := type * 1024 + inst

/-- Register address of a page and offset. -/
def addrOf (page off : Nat) : Nat := page * 65536 + off

/-- Page-type codes of R574. -/
abbrev tGlobal := 0
abbrev tIdent := 1
abbrev tRouting := 2
abbrev tPort := 3
abbrev tParser := 4
abbrev tDie := 5
abbrev tFlowCtl := 6
abbrev tFlowStat := 7
abbrev tFeature := 8
abbrev tTree := 9
abbrev tArray := 10
abbrev tSeq := 11
abbrev tStream := 12
abbrev tBook := 13
abbrev tPageMap := 14
abbrev tDeep := 15
abbrev tStaging := 16
abbrev tTempo := 17
abbrev tThermal := 18
abbrev tSecurity := 19
abbrev tEndorse := 20
abbrev tReliab := 21
abbrev tPair := 22
abbrev tScore := 23
abbrev tBackground := 24
abbrev tReset := 25
abbrev tChannel := 32
abbrev tRing := 40

abbrev pgGlobal := pageOf tGlobal 0
abbrev pgRouting := pageOf tRouting 0
abbrev pgFlowCtl := pageOf tFlowCtl 0
abbrev pgFeature := pageOf tFeature 0
abbrev pgBook := pageOf tBook 0
abbrev pgPageMap := pageOf tPageMap 0
abbrev pgDeep := pageOf tDeep 0
abbrev pgStaging := pageOf tStaging 0
abbrev pgThermal := pageOf tThermal 0
abbrev pgSecurity := pageOf tSecurity 0
abbrev pgEndorse := pageOf tEndorse 0
abbrev pgPair := pageOf tPair 0
abbrev pgScore := pageOf tScore 0
abbrev pgBackground := pageOf tBackground 0
abbrev pgReset := pageOf tReset 0

/-- Number of instances of the type a type code belongs to, with the code's first instance; none where no type has the code (R574). -/
def typeSpan (code : Nat) : Option (Nat × Nat) :=
  if code ≤ 2 then some (0, 1)
  else if code = 3 then some (0, 66)
  else if code = 4 then some (0, 2)
  else if code = 5 then some (0, 6)
  else if code = 6 then some (0, 1)
  else if code = 7 then some (0, 4)
  else if code = 8 then some (0, 1)
  else if 9 ≤ code ∧ code ≤ 12 then some (0, 832)
  else if 13 ≤ code ∧ code ≤ 16 then some (0, 1)
  else if code = 17 then some (0, 4)
  else if 18 ≤ code ∧ code ≤ 20 then some (0, 1)
  else if code = 21 then some (0, 4)
  else if 22 ≤ code ∧ code ≤ 25 then some (0, 1)
  else if 32 ≤ code ∧ code ≤ 35 then some ((code - 32) * 1024, 4096)
  else if 40 ≤ code ∧ code ≤ 47 then some ((code - 40) * 1024, 8192)
  else none

/-- Type code (the first of the type's codes) and instance of a page, if it exists (R57, R574). -/
def pageKind (page : Nat) : Option (Nat × Nat) :=
  let code := page / 1024
  let inst := page % 1024
  match typeSpan code with
  | none => none
  | some (base, count) =>
    if base + inst < count then some (if 32 ≤ code ∧ code ≤ 35 then 32 else if 40 ≤ code then 40 else code, base + inst) else none

/-- Page of channel slot `n` and of the ring group of ring `n` (R574). -/
def channelPage (n : Nat) : Nat := 32 * 1024 + n
def ringPage (n : Nat) : Nat := 40 * 1024 + n / 8

/-- Is it a page of one core site: its tree, array, sequencer or stream page (R574)? -/
def perCorePage (page : Nat) : Bool := decide (tTree ≤ page / 1024 ∧ page / 1024 ≤ tStream)

/-- Port die, 0 or 1, of a port instance (R13). -/
def portDie (p : Nat) : Nat := if p < 64 then p % 32 / 16 else p - 64

def isLine (p : Nat) : Bool := decide (p < 32)
def isPeer (p : Nat) : Bool := decide (32 ≤ p ∧ p < 64)
def isHost (p : Nat) : Bool := decide (64 ≤ p ∧ p < 66)

/-! ### Page headers -/

/-- The reset header of a page: CONTROL is 0 but for port pages (R59, R143). -/
def PageHdr.reset (page : Nat) : PageHdr :=
  match pageKind page with
  | some (3, inst) => { control := if inst < 64 then 0x18 else 0x1A }
  | _ => {}

/-- The header of a page. -/
def Dev.hdr (d : Dev) (page : Nat) : PageHdr := Table.get (PageHdr.reset page) d.regs.hdr page

def State.hdr (s : State) (page : Nat) : PageHdr := s.dev.hdr page

/-- Change a page's header. -/
def State.setHdr (page : Nat) (h : PageHdr) (s : State) : State :=
  s.onRegs fun r => { r with hdr := Table.set (PageHdr.reset page) r.hdr page h }

/-- A page's CONTROL as a reader of this ply sees it (R48). -/
def State.ctl (page : Nat) (s : State) : Word := (s.start.hdr page).control

def State.onHdr (page : Nat) (f : PageHdr → PageHdr) (s : State) : State := s.setHdr page (f (s.hdr page))

/-- A word with one bit set. -/
def oneBit (n : Nat) : Word := (1 : Word) <<< n

/-- Set EVENT bits in a header in ply `p` (R63, R68): sets of one bit in one ply count once, and an unmasked set triggers a frame (R74). A host
write of the mask in the same ply comes after the set (R49), so the mask `m` at the start of the ply tells too. -/
def PageHdr.setBitsIn (p : Nat) (m v : Word) (h : PageHdr) : PageHdr :=
  let before := if h.setPly = p then h.setBits else 0
  let new := v &&& ~~~before
  { h with
    event := h.event ||| v
    count := h.count + BitVec.ofNat 32 ((List.range 32).countP fun i => new.getLsbD i)
    setPly := p
    setBits := before ||| v
    trigger := if v &&& ~~~(m &&& h.mask) = 0 then h.trigger else some p }

/-- Pages that a control reset clears (R548); of the reset page it clears EVENT (R558). -/
def controlPages : List Nat := [pgStaging, pgRouting, pgSecurity, pgReset]

/-- Did a reset that clears every page but the control complex's take place in this ply (R51)? -/
def State.resetNow (s : State) : Bool :=
  match s.dev.regs.lastReset with
  | some (p, k) => decide (p = s.now ∧ k ≠ .control)
  | none => false

/-- Has a site reset cleared the page in this ply (R51, R547)? -/
def State.siteResetNow (page : Nat) (s : State) : Bool :=
  match pageKind page with
  | some (_, i) => perCorePage page && decide (Table.get? s.dev.reliab.resetPly i = some s.now)
  | none => false

/-- Did a reset clear this page in this ply? Sets in it are discarded (R51). -/
def State.clearedNow (page : Nat) (s : State) : Bool :=
  s.siteResetNow page || match s.dev.regs.lastReset with
    | some (p, k) => decide (p = s.now) && (decide (k ≠ .control) || controlPages.contains page)
    | none => false

/-- Does recording select what a bit of WHAT names in this ply (R529)? -/
def State.records (s : State) (what : Nat) : Bool := decide (s.start.score.mode = 1) && bit s.start.score.what what

/-- Note that an event touched an object in this ply, for the arbiter records (R529). -/
def State.touch (obj id die prec : Nat) (s : State) : State :=
  if s.records 2 then s.onScore fun x => { x with touched := x.touched ++ [{ obj, id, die, prec }] } else s

/-- Put an item among those of the ply (R529). -/
def State.scoreItem (i : ScoreItem) (s : State) : State := s.onScore fun x => { x with buf := x.buf ++ [i] }

/-- Per-die instance (R56) of the die that holds a page; global pages lie with the control complex, which is told as port die 0. -/
def pageDie (page : Nat) : Nat :=
  match pageKind page with
  | some (3, i) => 4 + (if i < 64 then i % 32 / 16 else i - 64)
  | some (4, i) => 4 + i
  | some (5, i) => i
  | some (7, i) => i
  | some (9, i) => i / 208
  | some (10, i) => i / 208
  | some (11, i) => i / 208
  | some (12, i) => i / 208
  | some (17, i) => i
  | some (21, i) => i
  | some (40, i) => 4 + i / 4096
  | _ => 4

/-- A page is touched by an event of a precedence. -/
def State.touchPage (page prec : Nat) (s : State) : State := s.touch 1 page (pageDie page) prec

/-- A hardware set of EVENT bits of a page (R49 precedence 3). A set in the ply of a reset of the page is discarded (R51). -/
def State.setEvents (page : Nat) (v : Word) (s : State) : State :=
  let s := if v = 0 then s else s.touchPage page 3
  if s.clearedNow page then s else s.onHdr page (PageHdr.setBitsIn s.now (s.start.hdr page).mask v)

/-- A hardware set of one EVENT bit. -/
def State.setEvent (page bitNo : Nat) (s : State) : State := s.setEvents page (oneBit bitNo)

/-- A page shows an uncorrectable fault (R62). -/
def State.markFaulted (page : Nat) (s : State) : State := (s.touchPage page 2).onHdr page fun h => { h with faulted := true }

/-- Set or clear STATUS.FAULTED of a page (R62). A fault in the ply of a reset of the page leaves the reset value (R51). -/
def State.setFaulted (page : Nat) (f : Bool) (s : State) : State :=
  if f then (if s.clearedNow page then s else s.markFaulted page) else s.onHdr page fun h => { h with faulted := false }

/-! ### Registers and counters -/

/-- Reset value of an RW register, by type code, instance and offset (the Reset columns of the page tables). -/
def rwReset (type inst off : Nat) : Word :=
  match type, off with
  | 0, 0x48 => 0xC0A088B5
  | 0, 0x50 => BitVec.ofNat 32 (0x4B02 + Config.serial.toNat / 65536 % 256 * 65536 + Config.serial.toNat / 256 % 256 * 16777216)
  | 0, 0x54 => BitVec.ofNat 32 (Config.serial.toNat % 256)
  | 0, 0x70 => BitVec.ofNat 32 (0x4B02 + Config.serial.toNat / 65536 % 256 * 65536 + Config.serial.toNat / 256 % 256 * 16777216)
  | 0, 0x74 => BitVec.ofNat 32 (Config.serial.toNat % 256 + 256)
  | 3, 0x40 => if inst < 64 then 0x24000100 else 0x24000110
  | 3, 0x44 => 0x64000000
  | 3, 0x48 => 0x00C00100
  | 3, 0x4C => if inst < 32 then 0x01800040 else 0
  | 3, 0x50 => 0x0000E400
  | 4, 0x40 => 0x000088B6
  | 4, 0x44 => 0x17C112B5
  | 4, 0x48 => 0x00000868
  | 4, _ => if 0x80 ≤ off ∧ off < 0xA0 then 0x00003040 else 0
  | 6, 0x48 => 0x800AE9F8
  | 6, 0x4C => 0x000AE9F8
  | 6, 0x50 => 0x00001000
  | 10, 0x4C => 0x00000003
  | 11, 0x50 => 0x00000408
  | 17, 0x48 => 0x00EB4008
  | 17, 0x4C => 0x695F5F55
  | 17, 0x50 => 0x00401E19
  | 23, 0x40 => 0x0000081E
  | 23, 0x44 => 0xFFFFFFFF
  | 24, 0x40 => 0x0810C418
  | 24, 0x44 => 0x00640258
  | 24, 0x48 => 0x0000011E
  | 24, 0x4C => 0x0000011B
  | _, _ => 0

/-- The reset value at a register address. -/
def regReset (addr : Nat) : Word :=
  match pageKind (addr / 65536) with
  | some (t, i) => rwReset t i (addr % 65536)
  | none => 0

/-- An RW register's held value. -/
def Dev.reg (d : Dev) (addr : Nat) : Word := Table.get (regReset addr) d.regs.rw addr

/-- An RW register of a page, as a number. -/
def Dev.rg (d : Dev) (page off : Nat) : Nat := (d.reg (addrOf page off)).toNat

/-- An RW register of a page as a reader of this ply sees it: as it stood at the start of the ply (R48). -/
def State.rg (s : State) (page off : Nat) : Nat := s.start.rg page off

/-- Set an RW register. -/
def State.setReg (addr : Nat) (v : Word) (s : State) : State :=
  s.onRegs fun r => { r with rw := Table.set (regReset addr) r.rw addr v }

/-- A 64-bit counter of a page. -/
def Dev.ctr (d : Dev) (page off : Nat) : BitVec 64 := Table.get 0 d.regs.ctr (addrOf page off)

/-- Advance a counter by `n` (it wraps at 2^64). -/
def State.bump (page off n : Nat) (s : State) : State :=
  s.onRegs fun r => { r with ctr := Table.modify 0 r.ctr (addrOf page off) fun c => c + BitVec.ofNat 64 n }

/-- Set a counter. -/
def State.setCtr (page off : Nat) (v : BitVec 64) (s : State) : State :=
  s.onRegs fun r => { r with ctr := Table.set 0 r.ctr (addrOf page off) v }

/-- Fold an operation over a list. -/
def State.each {α : Type} (l : List α) (f : α → State → State) (s : State) : State :=
  match l with
  | [] => s
  | a :: r => State.each r f (f a s)

/-- Carry out a command's effect where it is due without one. -/
def State.force (f : State → Host.Outcome State Fault Refusal) (s : State) : State := match f s with
  | .next t => t
  | _ => s

end Sys2Proof.Machine
end

