-- ==== Sys2Proof/Machine/Net.lean ====
section
/-! DEFINITION. The links between the dies (R13 to R15), their arbitration by class with the share reserved for control (R19, R20), and what
crosses them. Dies 0 to 3 are the compute dies and 4 and 5 port dies 0 and 1. A transfer is one flit here, with the bytes it carries (log entry 126). -/
namespace Sys2Proof.Machine

/-- Classes of the die network, by precedence (R19). -/
abbrev clsControl := 1
abbrev clsPawn := 2
abbrev clsStream := 3
abbrev clsBackground := 4

/-- Is it a port die? -/
def isPortDie (d : Nat) : Bool := decide (4 ≤ d)

/-- Compute die adjacent to a port die, or in its column, in the row of a compute die (R13, R15). -/
def rowDie (port c : Nat) : Nat := c / 2 * 2 + (port - 4)

/-- Dies that a transfer still crosses on its fixed way from one die to another, the last its destination (R15). -/
def dieRoute (a b : Nat) : List Nat :=
  if a = b then []
  else match isPortDie a, isPortDie b with
    | true, true => if a = 5 then [1, 0, 4] else [2, 3, 5]
    | true, false => if rowDie a b = b then [b] else [rowDie a b, b]
    | false, true => if rowDie b a = a then [b] else [rowDie b a, b]
    | false, false => let c := b / 2 * 2 + a % 2; if c = a ∨ c = b then [b] else [c, b]

/-- Crossing latency of a link, in plies (R14). -/
def linkLatency (a b : Nat) : Nat := if isPortDie a || isPortDie b then 12 else 10

/-- Bytes that a link carries each way in one ply (R14): 3.2 TB/s or 4.0 TB/s at 640 ps. -/
def linkBytes (a b : Nat) : Nat := if isPortDie a || isPortDie b then 2048 else 2560

/-- The directed links (R14). -/
def dieLinks : List (Nat × Nat) :=
  [(4, 0), (4, 2), (5, 1), (5, 3), (0, 4), (2, 4), (1, 5), (3, 5), (0, 1), (1, 0), (0, 2), (2, 0), (1, 3), (3, 1), (2, 3), (3, 2)]

/-- Does one transfer come before another at a link (R19): the higher class; then control by arrival, pawn by the earlier packet deadline (R44),
stream by the earlier run-dry ply? -/
def Flit.before (a b : Flit) : Bool :=
  if a.cls ≠ b.cls then decide (a.cls < b.cls)
  else if a.cls = clsPawn then laterThan 48 b.order a.order
  else if a.cls = clsStream then decide (a.order < b.order)
  else decide (a.ready < b.ready)

/-- Put a transfer in its place among those that wait at a link. DESIGN CHOICE: of two of one class with equal keys the one launched first is served
first, which R19 leaves open (log entry 163). -/
def insertFlit (f : Flit) (l : List Flit) : List Flit :=
  match l with
  | [] => [f]
  | g :: r => if f.before g then f :: g :: r else g :: insertFlit f r

/-- Those that wait for the link from `a` to `b`, in the order of service. -/
def Net.waitingAt (now a b : Nat) (n : Net) : List Flit :=
  (n.flits.filter fun f => decide (f.die = a ∧ f.route.head? = some b ∧ f.ready ≤ now)).foldl (fun l f => insertFlit f l) []

/-- The transfers that begin at a link in one ply, in turn while fewer than `room` bytes are used, with the bytes used. -/
def serveFlits (room used : Nat) (l : List Flit) : List Flit × Nat :=
  match l with
  | [] => ([], used)
  | f :: r =>
    if used < room then
      let ans := serveFlits room (used + f.bytes) r
      (f :: ans.1, ans.2)
    else ([], used)

/-- Bytes of a link's ply that the classes other than control may use when control uses `n` of them: one slot in 64 is never theirs (R20). -/
def othersRoom (room n : Nat) : Nat := min (room - room / 64) (room - n)

/-- A transfer has taken the link to `b`. -/
def Flit.cross (now a b : Nat) (f : Flit) : Flit := { f with die := b, route := f.route.drop 1, ready := now + linkLatency a b }

/-- One link serves one ply. -/
def Net.serve (now : Nat) (n : Net) (e : Nat × Nat) : Net :=
  let k := e.1 * 8 + e.2
  let room := linkBytes e.1 e.2
  let l := n.waitingAt now e.1 e.2
  let a := serveFlits room (Table.get 0 n.owed (k + 64)) (l.filter fun f => decide (f.cls = clsControl))
  let left := othersRoom room a.2
  let b := serveFlits left (Table.get 0 n.owed k) (l.filter fun f => decide (f.cls ≠ clsControl))
  { n with
    flits := n.flits.map fun f => if a.1.contains f || b.1.contains f then f.cross now e.1 e.2 else f
    owed := Table.set 0 (Table.set 0 n.owed (k + 64) (a.2 - room)) k (b.2 - left) }

/-- Every link serves one ply. -/
def Net.step (now : Nat) (n : Net) : Net := if n.flits.isEmpty ∧ n.owed.isEmpty then n else dieLinks.foldl (Net.serve now) n

/-- Has a transfer reached its destination? -/
def Flit.there (now : Nat) (f : Flit) : Bool := f.route.isEmpty && decide (f.ready ≤ now)

/-- Has this cargo reached its destination? -/
def Dev.arrived (d : Dev) (now : Nat) (c : Cargo) : Bool := d.net.flits.any fun f => decide (f.cargo = c) && f.there now

/-- Is this cargo on its way, and not there yet? -/
def Dev.underWay (d : Dev) (now : Nat) (c : Cargo) : Bool := d.net.flits.any fun f => decide (f.cargo = c) && !f.there now

/-- Take a cargo off the network. -/
def State.landed (c : Cargo) (s : State) : State := s.onNet fun n => { n with flits := n.flits.filter fun f => decide (f.cargo ≠ c) }

/-- Send a cargo from die to die, by the ways listed one after the other. -/
def State.launch (cls order bytes : Nat) (ways : List Nat) (die : Nat) (c : Cargo) (s : State) : State :=
  s.onNet fun n => { n with flits := n.flits ++ [{ cls, order, die, route := ways, ready := s.now, bytes, cargo := c }] }

/-- The number of the next parcel from die `a` to die `b`: 0, which never is under way, where it crosses no link. -/
def Dev.parcelNo (d : Dev) (a b : Nat) : Nat := if a = b then 0 else d.net.parcels + 1

/-- Send a parcel from die `a` to die `b` (R15, R19). -/
def State.sendParcel (cls order bytes a b : Nat) (s : State) : State :=
  if a = b then s
  else (s.onNet fun n => { n with parcels := n.parcels + 1 }).launch cls order bytes (dieRoute a b) a (.parcel (s.dev.net.parcels + 1))

/-- Parcels that have reached their die are off the links. -/
def Net.unload (now : Nat) (n : Net) : Net :=
  { n with flits := n.flits.filter fun f => !(f.there now && match f.cargo with
      | .parcel _ => true
      | _ => false) }

/-- The die of a logical core (R17), and the number here of a port die. -/
def coreDie (core : Nat) : Nat := core / 200
def portDieNo (port : Nat) : Nat := 4 + portDie port

/-- Bytes of a verdict on the die network, and of a header vector (R152; log entry 126). -/
abbrev verdictBytes := 16
abbrev vectorBytes := 128

/-- Does a packet's vector or verdict stand where its next step takes it? One that was never launched crosses no link: it is there. -/
def Dev.reached (d : Dev) (now : Nat) (c : Cargo) : Bool := !d.underWay now c

end Sys2Proof.Machine
end

