-- ==== Sys2Proof/Machine/SelidOps.lean ====
section
/-! DEFINITION. Selid operations shared by every command: sessions and their command queues (R95 to R100), status codes (R101), the frames that
carry responses (R80, R82, R96, R98), the end of a session (R95), and the counters of ports and of the global control page. -/
namespace Sys2Proof.Machine

/-! ### Status codes (R101) -/

abbrev stOK := 0x0000
abbrev stPartial := 0x0001
abbrev stAborted := 0x0002
abbrev stNotReady := 0x0003
abbrev stNotFound := 0x0004
abbrev stExists := 0x0005
abbrev stRewindLost := 0x0006
abbrev stBadOpcode := 0x0010
abbrev stBadLength := 0x0011
abbrev stBadField := 0x0012
abbrev stTooLarge := 0x0013
abbrev stNotOwned := 0x0014
abbrev stBusy := 0x0015
abbrev stMisaligned := 0x0020
abbrev stAbsentPage := 0x0021
abbrev stBadHandle := 0x0030
abbrev stNoRoom := 0x0031
abbrev stFault := 0x0032
abbrev stSigInvalid := 0x0040
abbrev stRollback := 0x0041
abbrev stShort := 0x0042
abbrev stGenDraining := 0x0043
abbrev stStageState := 0x0044
abbrev stSignRefused := 0x0050
abbrev stSetupBusy := 0x0051
abbrev stSetupAuth := 0x0052
abbrev stSetupFormat := 0x0053
abbrev stSessionsFull := 0x0054

/-! ### Durations in plies -/

/-- 1 s, 1 ms and 100 µs at 640 ps a ply (R7, R35). -/
abbrev plies1s := 1562500000
abbrev plies1ms := 1562500
abbrev plies100us := 156250

/-! ### Ports -/

def Dev.port (d : Dev) (p : Nat) : Port := Table.get {} d.ports p
def State.port (s : State) (p : Nat) : Port := s.dev.port p
def State.onPort (p : Nat) (f : Port → Port) (s : State) : State := s.onPorts fun t => Table.modify {} t p f
def Port.subp (p : Port) (i : Nat) : SubPort := Table.get {} p.subs i
def Port.onSub (i : Nat) (f : SubPort → SubPort) (p : Port) : Port := { p with subs := Table.modify {} p.subs i f }
def Port.lane (p : Port) (i : Nat) : PortLane := Table.get {} p.lanes i
def Port.onLane (i : Nat) (f : PortLane → PortLane) (p : Port) : Port := { p with lanes := Table.modify {} p.lanes i f }
def State.subUp (s : State) (p i : Nat) : Bool := ((s.port p).subp i).up

/-- Advance counter `k` of a sub-port (R141). -/
def State.portCount (port sub k n : Nat) (s : State) : State := s.bump (pageOf tPort port) (0x100 + 0x80 * sub + 8 * k) n

/-- Offset after at most `n` tags of the kinds the parser knows (R146, R161). -/
def skipParserTags (f : Bytes) (off n : Nat) : Nat :=
  match n with
  | 0 => off
  | k + 1 => if Bytes.be f off 2 = 0x8100 ∨ Bytes.be f off 2 = 0x88A8 ∨ Bytes.be f off 2 = 0x9100 then skipParserTags f (off + 4) k else off

/-- PCP of the outermost tag of a frame, 0 when untagged (R132). -/
def framePrio (f : Bytes) : Nat := if skipParserTags f 12 1 = 12 then 0 else Bytes.at f 14 / 32

/-- The bytes of a frame that is sent. -/
def Out.wire (o : Out) : Bytes :=
  match o with
  | .selid _ _ _ _ _ w => w
  | .frame _ _ b => b
  | .looped _ _ b => b
  | .smbus _ => []
  | .tap _ => []

/-- Is transmission of a priority held by received PAUSE or PFC (R131, R132)? PAUSE holds every priority. -/
def SubPort.holds (now prio : Nat) (x : SubPort) : Bool :=
  match Table.get? x.hold prio with
  | some u => decide (now < u)
  | none => false

/-- Does a port return what it sends to its own receiver (R143)? -/
def State.loops (port : Nat) (s : State) : Bool := (s.ctl (pageOf tPort port)).getLsbD 2

/-- What a sub-port sends leaves the device, or with LOOPBACK returns to its own receiver while idles leave (R143). -/
def State.leave (port sub : Nat) (o : Out) (s : State) : State :=
  if s.loops port then
    (s.emit (.looped port sub o.wire)).onPort port fun q => q.onSub sub fun x => { x with loop := x.loop ++ [o.wire] }
  else s.emit o

/-- Does a frame reach the receiver of a sub-port: from the link partner, or with LOOPBACK the next that it has sent itself (R143)? -/
def State.hears (port sub : Nat) (f : Bytes) (s : State) : Bool :=
  !s.loops port || decide (((s.port port).subp sub).loop.head? = some f)

/-- The receiver has taken a frame. -/
def State.heard (port sub : Nat) (s : State) : State :=
  if s.loops port then s.onPort port fun q => q.onSub sub fun x => { x with loop := x.loop.drop 1 } else s

/-- Send a frame now: it is counted in TX_FRAMES and TX_BYTES (R141), or discarded and counted in TX_DISCARD on a down sub-port (R136). -/
def State.sendNow (port sub : Nat) (o : Out) (len : Nat) (s : State) : State :=
  if s.subUp port sub then ((s.leave port sub o).portCount port sub 10 1).portCount port sub 11 len
  else s.portCount port sub 13 1

/-- Send a frame that has waited, or has not had to: a verdict frame that is sent is counted (R170). -/
def State.sendOut (w : Waiting) (s : State) : State :=
  let t := s.sendNow w.port w.sub w.out w.len
  if w.verdict && s.subUp w.port w.sub then t.bump (pageOf tParser (portDie w.port)) (0x100 + 8 * 18) 1 else t

/-- Does a frame wait behind received PAUSE or PFC, or behind frames of its priority that do (R131, R132, R134)? -/
def State.mustWait (port sub : Nat) (o : Out) (s : State) : Bool :=
  s.subUp port sub && (((s.port port).subp sub).holds s.now (framePrio o.wire) ||
    s.dev.traffic.waiting.any fun w => decide (w.port = port ∧ w.sub = sub ∧ framePrio w.out.wire = framePrio o.wire))

/-- Send a frame, or keep it while its transmission is held. -/
def State.sendWaiting (w : Waiting) (s : State) : State :=
  if s.mustWait w.port w.sub w.out then s.onTraffic fun t => { t with waiting := t.waiting ++ [w] }
  else s.sendOut w

/-- Send a frame that is no verdict frame. -/
def State.transmit (port sub : Nat) (o : Out) (len : Nat) (s : State) : State := s.sendWaiting { port, sub, len, out := o }

/-- Send a frame that is formed on die `die` on a port: it crosses the links to the port's die first (R15, R19). -/
def State.sendCross (die cls order : Nat) (w : Waiting) (s : State) : State :=
  if die = portDieNo w.port then s.transmit w.port w.sub w.out w.len
  else s.launch cls order w.len (dieRoute die (portDieNo w.port)) die (.send w)

def State.sendFrom (die cls order port sub : Nat) (o : Out) (len : Nat) (s : State) : State :=
  s.sendCross die cls order { port, sub, len, out := o }

/-- Frames that wait are sent once nothing holds them, Selid frames ahead of verdict frames (R166). -/
def State.flushOne (w : Waiting) (s : State) : State :=
  if s.subUp w.port w.sub && ((s.port w.port).subp w.sub).holds s.now (framePrio w.out.wire) then
    s.onTraffic fun t => { t with waiting := t.waiting ++ [w] }
  else s.sendOut w

def State.flushWaiting (s : State) : State :=
  let l := s.dev.traffic.waiting
  if l.isEmpty then s
  else State.each ((l.filter fun w => !w.verdict) ++ l.filter (·.verdict)) State.flushOne (s.onTraffic fun t => { t with waiting := [] })

/-! ### Rendering Selid frames -/

/-- The Selid header (R82) of a frame the device sends. -/
def selidHeader (kind session len fragIndex fragLast seq : Nat) : Bytes :=
  [byte (1 + 16 * kind), byte session] ++ toLE 2 len ++ [byte (fragIndex + 16 * fragLast), 1, 0, 0] ++ toLE 8 seq

/-- Bytes of a Selid frame around its payload, FCS included (R79, R80). -/
def Route.overhead (r : Route) : Nat :=
  14 + r.tags.length + 16 + 4 + (match r.form with | .raw => 0 | .udp4 => 28 | .udp6 => 48)

/-- The UDP checksum of R80: never 0. -/
def udpChecksum (src dst udp : Bytes) : Nat :=
  let c := 65535 - foldSum (onesSum (src ++ dst ++ toBE 4 udp.length ++ [0, 0, 0, 17]) + onesSum udp)
  if c = 0 then 65535 else c

/-- A UDP datagram from the device (R80). -/
def udpDatagram (r : Route) (payload : Bytes) : Bytes :=
  let len := 8 + payload.length
  let head := toBE 2 r.carrier ++ toBE 2 r.hostUdp ++ toBE 2 len
  head ++ toBE 2 (udpChecksum r.devIp r.hostIp (head ++ [0, 0] ++ payload)) ++ payload

/-- The IPv4 header of R80: TTL 64 and DSCP 48; ECN, DF and the other flags are 0 (log entry 148). -/
def ipv4Header (r : Route) (len : Nat) : Bytes :=
  let a := [0x45, 0xC0] ++ toBE 2 (20 + len) ++ toBE 2 Config.ipv4Id ++ [0, 0, 64, 17]
  let b := r.devIp ++ r.hostIp
  a ++ toBE 2 (65535 - foldSum (onesSum (a ++ [0, 0] ++ b))) ++ b

/-- The IPv6 header of R80: hop limit 64 and DSCP 48; ECN and the flow label are 0 (log entry 148). -/
def ipv6Header (r : Route) (len : Nat) : Bytes :=
  [0x6C, 0, 0, 0] ++ toBE 2 len ++ [17, 64] ++ r.devIp ++ r.hostIp

/-- The whole Ethernet frame that carries a Selid header and payload back along a route (R80). -/
def Route.frame (r : Route) (sel : Bytes) : Bytes :=
  let l2 := r.hostMac ++ r.devMac ++ r.tags
  let f := match r.form with
    | .raw => l2 ++ toBE 2 r.carrier ++ sel
    | .udp4 => let u := udpDatagram r sel; l2 ++ [0x08, 0x00] ++ ipv4Header r u.length ++ u
    | .udp6 => let u := udpDatagram r sel; l2 ++ [0x86, 0xDD] ++ ipv6Header r u.length ++ u
  withFcs (f ++ zeros (60 - f.length))

/-- Send a Selid frame along a route: from the control complex on port die 0, in the control class (R15, R19, R113). -/
def State.sendSelid (r : Route) (kind session seq fragIndex fragLast : Nat) (plain payload : Bytes) (s : State) : State :=
  let wire := r.frame (selidHeader kind session payload.length fragIndex fragLast seq ++ payload)
  s.sendFrom 4 clsControl 0 r.port r.sub (.selid r kind session seq plain wire) wire.length

/-- REJECT (R94): status and the HELLO's nonce. -/
def State.sendReject (r : Route) (status : Nat) (nonce : Bytes) (s : State) : State :=
  let p := toLE 2 status ++ [0, 0] ++ Bytes.slice nonce 0 32
  s.sendSelid r 4 0 0 0 0 p p

/-! ### Sessions -/

def Dev.session? (d : Dev) (n : Nat) : Option Session := d.selid.sessions.find? (fun x => decide (x.num = n))
def State.session? (s : State) (n : Nat) : Option Session := s.dev.session? n

/-- Change one session. -/
def State.onSession (n : Nat) (f : Session → Session) (s : State) : State :=
  s.onSelid fun x => { x with sessions := x.sessions.map fun y => if y.num = n then f y else y }

/-- A request's opcode with bit 15 set, as its response carries it (R98). -/
def respOp (opcode : Nat) : Nat := opcode % 32768 + 32768

/-- The command envelope (R98). -/
def envelope (opcode tag status detail : Nat) (body : Bytes) : Bytes :=
  toLE 2 opcode ++ toLE 2 tag ++ toLE 4 body.length ++ toLE 2 status ++ toLE 2 detail ++ body

/-- The protected payload of a plaintext (R96). -/
def protect (key salt : Bytes) (session seq : Nat) (plain : Bytes) : Bytes :=
  Config.gcmSeal key (salt ++ toLE 8 seq) (selidHeader 3 session (plain.length + 16) 0 0 seq) plain

/-- Send a protected message in a session (R96 to R98). A frame that would need a SEQ beyond the last is not sent (R95). -/
def State.sendProtected (n : Nat) (r : Route) (plain : Bytes) (s : State) : State :=
  match s.session? n with
  | none => s
  | some x =>
    if 2 ^ 64 ≤ x.seqTx then s
    else
      let cipher := protect (x.d2h.take 32) (x.d2h.drop 32) n x.seqTx plain
      let s := s.onSession n fun y =>
        { y with seqTx := y.seqTx + 1, ending := if y.seqTx = 2 ^ 64 - 1 then some (s.now + 1) else y.ending }
      s.sendSelid r 3 n x.seqTx 0 0 plain cipher

/-- Discard a staging operation's slot (R431, R173): the slot is released and its handle generation advances. A discard while verification
runs takes effect when it ends. -/
def StageOp.release (g : StageOp) : StageOp := { hgen := (g.hgen + 1) % 4096 }

def State.discardStage (k : Nat) (s : State) : State :=
  let g := Table.get {} s.dev.objects.stages k
  match g.state with
  | .free => s
  | .verifying => s.onObjects fun o => { o with stages := Table.modify {} o.stages k fun g => { g with discard := true } }
  | _ =>
    (s.onObjects fun o => { o with stages := Table.set {} o.stages k g.release, stagePool := o.stagePool.release k }).bump
      pgStaging (0xC0 + 8 * 6) 1

/-- Release the locks a session holds: a page in state 01b returns to 00b (R72). -/
def PageHdr.unlockOf (n : Nat) (h : PageHdr) : PageHdr :=
  if h.lock = .locked ∧ h.owner = n then { h with lock := .unlocked, owner := 0 } else h

/-- End a session (R95, R72, R487, R583): its locks, sinks, staging operations, firmware transfer and retry cache go with it.
Writes that its batch has still to make are kept, since commands still executing complete. -/
def State.endSession (n : Nat) (s : State) : State :=
  match s.session? n with
  | none => s
  | some x =>
    let s := State.each (s.dev.regs.hdr.map (·.1)) (fun pg => State.onHdr pg (PageHdr.unlockOf n)) s
    let s := State.each ((s.dev.objects.stages.filter fun e => decide (e.2.sess = n ∧ e.2.state ≠ .free)).map (·.1)) State.discardStage s
    let s := s.onSec fun x => { x with transfer := x.transfer.filter fun t => decide (t.sess ≠ n) }
    let s := s.onSelid fun y =>
      { y with
        sessions := y.sessions.filter fun z => decide (z.num ≠ n)
        orphans := if x.writes.isEmpty then y.orphans else y.orphans ++ [(n, x.writes)]
        sinks := (y.sinks.map fun e => (e.1, e.2.filter fun k => decide (k.sess ≠ n))).filter fun e => !e.2.isEmpty }
    s.bump pgGlobal (0x100 + 8 * 3) 1

/-- QUENCH and UNQUENCH opcodes, which are taken ahead of every command not yet started (R99). -/
def isQuenchOp (op : Nat) : Bool := decide (op = 0x60 ∨ op = 0x61)

/-- The command a session may execute now with this opcode (R99): its first, unless that has started or a QUENCH or UNQUENCH of any session
waits; a QUENCH or UNQUENCH waits for nothing (R109; log entry 35). With every control processor stopped no command runs (R23). -/
def State.ready (s : State) (n opcode : Nat) : Option (Session × Cmd) :=
  match s.session? n with
  | none => none
  | some x =>
    if s.dev.reliab.stopped = 255 then none
    else if isQuenchOp opcode then
      match x.cmds.find? fun c => isQuenchOp c.opcode with
      | some q => if q.opcode = opcode then some (x, q) else none
      | none => none
    else match x.cmds with
      | [] => none
      | c :: _ =>
        if c.opcode = opcode ∧ !c.started ∧ (s.dev.selid.sessions.all fun y => y.cmds.all fun q => !isQuenchOp q.opcode) then some (x, c)
        else none

/-- Remove the first command with an opcode. -/
def dropCmd (opcode : Nat) (l : List Cmd) : List Cmd :=
  match l with
  | [] => []
  | c :: r => if c.opcode = opcode then r else c :: dropCmd opcode r

/-- The command record of a command that completes (R529, R530): BUNDLE_APPLY without its body. -/
def State.recordCmd (n : Nat) (c : Cmd) (status : Nat) (s : State) : State :=
  if !s.records 1 then s
  else
    let b := if c.opcode = 0x92 then [] else c.body.take 464
    s.scoreItem
      { kind := 3, port := c.route.port, sess := n, info := s.now, len := 2 + (b.length + 15) / 16
        body := [3, byte c.route.port, byte n, 0] ++ toLE 2 c.opcode ++ toLE 2 c.tag ++ toLE 4 c.body.length ++ toLE 2 status ++ [0, 0] ++ b }

/-- Complete the session's command with this opcode: its response is kept for retries and sent (R98 to R100). After a command that came in the
host's last SEQ, the session ends in the next ply (R95). -/
def State.complete (n opcode status detail : Nat) (body : Bytes) (s : State) : State :=
  match s.session? n with
  | none => s
  | some x =>
    match x.cmds.find? fun c => decide (c.opcode = opcode) with
    | none => s
    | some c =>
      let d : Done := { opcode, tag := c.tag, hash := Config.sha256 c.body, status, detail, body }
      let s := s.onSession n fun y =>
        { y with
          cmds := dropCmd opcode y.cmds
          done := (d :: y.done).take 64
          ending := if c.last then some (s.now + 1) else y.ending }
      (s.recordCmd n c status).sendProtected n c.route (envelope (respOp opcode) c.tag status detail body)

/-- Mark the session's command as started; its response comes in a later step. -/
def State.startCmd (n opcode : Nat) (s : State) : State :=
  s.onSession n fun y => { y with cmds := match y.cmds with
    | [] => []
    | c :: r => if c.opcode = opcode then { c with started := true } :: r else c :: r }

/-- The largest response body, in bytes, that fits the session's MAX_FRAME on a route (R100). -/
def bodyRoom (x : Session) (r : Route) : Nat := x.maxFrame - (r.overhead + 28)

/-- Execute a session's command, if it may run now. -/
def State.command (n opcode : Nat) (run : Session → Cmd → State → State) (s : State) : State :=
  match s.ready n opcode with
  | none => s
  | some (x, c) => run x c s

/-- A command whose checks passed is refused with TOO_LARGE when its largest response would not fit (R100). -/
def State.sized (x : Session) (c : Cmd) (largest : Nat) (run : State → State) (s : State) : State :=
  if bodyRoom x c.route < largest then s.complete x.num c.opcode stTooLarge (bodyRoom x c.route) [] else run s

/-- First reserved field that is not 0, by its offset: pairs of offset and length, in ascending order (R584). -/
def badReserved (b : Bytes) (l : List (Nat × Nat)) : Option Nat :=
  (l.find? fun e => !allZero (Bytes.slice b e.1 e.2)).map (·.1)

/-- The first check that fails, by its offset. -/
def firstBad (l : List (Bool × Nat)) : Option Nat := (l.find? (·.1)).map (·.2)

/-! ### The writes of a batch (R103 to R105) -/

/-- Length of the response body of a WRITE_BATCH. -/
def writeBody (n : Nat) : Nat := (n + 5) / 4 * 4

/-- The next write of a session's batch, or of the batch of a session that has ended (R95). -/
def State.headWrite (n : Nat) (s : State) : Option BatchWrite :=
  match s.session? n with
  | some x => x.writes.head?
  | none => ((s.dev.selid.orphans.find? fun e => decide (e.1 = n)).map (·.2)).bind List.head?

/-- Drop the first write of the first batch under a number. -/
def dropOrphan (n : Nat) (l : List (Nat × List BatchWrite)) : List (Nat × List BatchWrite) :=
  match l with
  | [] => []
  | (k, w) :: r => if k = n then (if w.length ≤ 1 then r else (k, w.drop 1) :: r) else (k, w) :: dropOrphan n r

/-- Drop the first batch under a number: a reset has aborted one of its writes (R105). -/
def cutOrphan (n : Nat) (l : List (Nat × List BatchWrite)) : List (Nat × List BatchWrite) :=
  match l with
  | [] => []
  | (k, w) :: r => if k = n then r else (k, w) :: cutOrphan n r

/-- Does a session's batch wait for the end of the ply (R51)? -/
def State.batchWaits (n : Nat) (s : State) : Bool := s.dev.selid.siteWrites.any fun e => decide (e.1 = n)

/-- Answer a batch whose writes have all been sampled. -/
def State.answerWrites (n : Nat) (s : State) : State :=
  match s.session? n with
  | none => s
  | some x =>
    if !x.writes.isEmpty || s.batchWaits n then s
    else
      let bad := x.estats.countP fun e => decide (e ≠ 0)
      let st := if bad = 0 then stOK else stPartial
      match x.cmds.find? fun c => c.started && decide (c.opcode = 0x12 ∨ c.opcode = 0x92) with
      | none => s
      | some c =>
        if c.opcode = 0x92 then s.complete n 0x92 st bad []
        else
          let k := x.estats.length
          s.complete n 0x12 st bad (toLE 2 k ++ x.estats.map byte ++ zeros (writeBody k - 2 - k))

/-- Note an entry's status. A write aborted by a reset takes the rest of its batch with it (R105). -/
def State.noteEntry (n st : Nat) (s : State) : State :=
  match s.session? n with
  | none => s.onSelid fun x => { x with orphans := if st = 5 then cutOrphan n x.orphans else dropOrphan n x.orphans }
  | some _ =>
    (s.onSession n fun y =>
      if st = 5 then { y with writes := [], estats := y.estats ++ y.writes.map fun _ => 5 }
      else { y with writes := y.writes.drop 1, estats := y.estats ++ [st] }).answerWrites n

/-- A site reset aborts the writes of the site's pages that this ply has performed, and with each the rest of its batch (R51, R105). -/
def State.abortWrites (x : Nat) (s : State) : State :=
  State.each ((s.dev.selid.siteWrites.filter fun e => decide (e.2 % 1024 = x)).map (·.1)) (fun n s =>
    match s.session? n with
    | none => s.onSelid fun y => { y with orphans := cutOrphan n y.orphans }
    | some _ => s.onSession n fun y => { y with writes := [], estats := y.estats.dropLast ++ [5] ++ y.writes.map fun _ => 5 }) s

/-- The batches that have waited for the end of the ply go on. -/
def State.settleWrites (s : State) : State :=
  let l := s.dev.selid.siteWrites.map (·.1)
  if l.isEmpty then s else State.each l State.answerWrites (s.onSelid fun y => { y with siteWrites := [] })

/-- A batch's next write that is held for a site whose mapping is abandoned is discarded, as to a site that is not active (R77). -/
def State.discardHeld (x : Nat) (s : State) : State :=
  State.each (s.dev.selid.sessions.map (·.num) ++ s.dev.selid.orphans.map (·.1)) (fun n s =>
    match s.headWrite n with
    | none => s
    | some w =>
      if perCorePage (w.addr / 65536) && decide (w.addr / 65536 % 1024 = x ∧ 0x40 ≤ w.addr % 65536 ∧ w.addr % 4 = 0) then s.noteEntry n 4 else s) s

end Sys2Proof.Machine
end

