-- ==== Sys2Proof/Machine/PeerFrames.lean ====
section
/-! DEFINITION. Frames between devices: the framing of team and pair frames (R355, R512), their credit (R357), and the primary's mirror records
(R517 to R519). -/
namespace Sys2Proof.Machine

/-- A control MAC address of port die `die` (R578). -/
def Dev.dieMac (d : Dev) (die : Nat) : Bytes := toLE 4 (d.rg pgGlobal (0x50 + 0x20 * die)) ++ toLE 2 (d.rg pgGlobal (0x54 + 0x20 * die))

/-- The Selid header of a team or pair frame: DIR 0, no fragments (R355, R512). -/
def peerHeader (kind session len seq : Nat) : Bytes :=
  [byte (1 + 16 * kind), byte session] ++ toLE 2 len ++ [0, 0, 0, 0] ++ toLE 8 seq

/-- A whole team or pair frame in the raw form, untagged (R78, R96). -/
def Dev.peerFrame (d : Dev) (port kind session seq : Nat) (key salt plain : Bytes) : Bytes :=
  let h := peerHeader kind session (plain.length + 16) seq
  let etype := (d.rg pgGlobal 0x48) % 65536
  let f := Bytes.slice Config.peerMac 0 6 ++ d.dieMac (portDie port) ++ toBE 2 etype ++ h ++ Config.gcmSeal key (salt ++ toLE 8 seq) h plain
  withFcs (f ++ zeros (60 - f.length))

/-- Units of 256 bytes of a frame length (R357). -/
def units (n : Nat) : Nat := (n + 255) / 256

/-- Is the sender's count plus a frame's units no later than the latest GRANT (R357, R43)? -/
def creditOk (sent grant n : Nat) : Bool := !laterThan 32 ((sent + n) % 2 ^ 32) grant

/-! ### Receive windows of SEQ (R97, R355, R512) -/

def SeqWin.ok (w : SeqWin) (q : Nat) : Bool := decide (1 ≤ q) && (decide (w.high < q) || (decide (w.high ≤ q + 64) && !w.seen.contains q))
def SeqWin.note (q : Nat) (w : SeqWin) : SeqWin :=
  let hi := max w.high q
  { high := hi, seen := (q :: w.seen).filter fun y => decide (hi ≤ y + 64) }

/-! ### Team ports (R354, R357, R358) -/

/-- Port instances that reach a member, ascending. -/
def Team.portsOf (t : Team) (m : Nat) : List Nat := ((List.range 32).filter fun n => bit (t.ports.getD m 0) n).map (· + 32)

/-- Is a peer port in use in a role (R126): 1 team, 2 pair? -/
def Dev.inRole (d : Dev) (role port : Nat) : Bool := decide ((d.port port).attach = role)

/-- Those of them that are up, in the team role (R126). -/
def Dev.teamUp (d : Dev) (m : Nat) : List Nat := (d.team.portsOf m).filter fun p => ((d.port p).subp 0).up && d.inRole 1 p

/-- Send a team frame that a die forms on a port, under the key in force (R355, R486): it crosses to the port's die in the stream class (R34). -/
def State.sendTeamAs (core : Option Nat) (order die port kind : Nat) (plain : Bytes) (s : State) : State :=
  let t := s.start.team
  let n := Table.get 0 s.dev.team.tx port + 1
  let f := s.dev.peerFrame port kind (t.self + 1) n t.key t.salt plain
  (s.onTeam fun t => { t with tx := Table.put t.tx port n }).sendCross die clsStream order { port, len := f.length, out := .frame port 0 f, core }

/-- A frame of a team channel that no core's tag waits for. -/
def State.sendTeam (die port kind : Nat) (plain : Bytes) (s : State) : State := s.sendTeamAs none s.now die port kind plain

/-- Key of the credit counts of a port and member. -/
def teamKey (port m : Nat) : Nat := port * 16 + m

/-- Grant a member credit on a port, as a cumulative count, and tell it (R357). -/
def State.grantTeam (port m n : Nat) (s : State) : State :=
  let g := (Table.get 0 s.dev.team.granted (teamKey port m) + n) % 2 ^ 32
  (s.onTeam fun t => { t with granted := Table.put t.granted (teamKey port m) g }).sendTeam (portDieNo port) port 9 (toLE 2 s.dev.team.id ++ [0, 0] ++ toLE 4 g)

/-- Members reached by a port. -/
def Team.membersOn (t : Team) (port : Nat) : List Nat :=
  (List.range t.members).filter fun m => decide (m ≠ t.self) && (t.portsOf m).contains port

/-! ### Pair ports -/

/-- Port instances of the pair, ascending (R510). -/
def Pair.portList (p : Pair) : List Nat := ((List.range 32).filter fun n => bit p.ports n).map (· + 32)

/-- The pair ports that are up, in the pair role (R126). -/
def Dev.pairUp (d : Dev) : List Nat := d.pair.portList.filter fun p => ((d.port p).subp 0).up && d.inRole 2 p

/-- DEVICE_ID (R86, R471). -/
def deviceId : Bytes := Bytes.slice (Config.sha256 Config.identityKey) 0 32

/-- Nonce salt of frames a device sends: SALT XOR bytes 0 to 3 of its DEVICE_ID (R512). -/
def Pair.saltOf (p : Pair) (id : Bytes) : Bytes := toLE 4 (p.salt ^^^ Bytes.le id 0 4)

/-- Send a pair frame on a port: SEQ holds the port's number and counts the frames sent on it from 1 (R512). It leaves the control complex, a
heartbeat in the control class (R19, R34), anything else in the stream class. The pair in force at the start of the ply keys it (R48, R523). -/
def State.sendPair (port kind : Nat) (plain : Bytes) (s : State) : State :=
  let p := s.start.pair
  let n := Table.get 0 s.dev.pair.tx port + 1
  let f := s.dev.peerFrame port kind 1 ((port - 32) * 2 ^ 58 + n) p.key (p.saltOf deviceId) plain
  (s.onPair fun p => { p with tx := Table.put p.tx port n }).sendFrom 4 (if kind = 0xA then clsControl else clsStream) s.now port 0 (.frame port 0 f) f.length

/-- Grant the partner credit on a port and acknowledge what has been applied (R519). -/
def State.grantPair (port n : Nat) (s : State) : State :=
  let p := s.dev.pair
  let g := (Table.get 0 p.granted port + n) % 2 ^ 32
  if s.start.pair.key.isEmpty then s
  else (s.onPair fun p => { p with granted := Table.put p.granted port g }).sendPair port 0xC
    (toLE 2 p.id ++ [0, 0] ++ toLE 4 g ++ toLE 8 p.applied)

/-- A peer port's link has come up: its counts restart at 0 and it grants its first credit (R357, R512, R519). -/
def State.peerUp (port : Nat) (s : State) : State :=
  let ms := s.dev.team.membersOn port
  let s := s.onTeam fun t =>
    { t with sent := t.sent.filter fun e => decide (e.1 / 16 ≠ port), grant := t.grant.filter fun e => decide (e.1 / 16 ≠ port)
             granted := t.granted.filter fun e => decide (e.1 / 16 ≠ port) }
  let s := if s.dev.inRole 1 port then State.each ms (fun m s => s.grantTeam port m Config.peerWindow) s else s
  if s.dev.pair.portList.contains port && s.dev.inRole 2 port then
    let s := s.onPair fun p =>
      { p with tx := Table.erase p.tx port, rx := Table.erase p.rx port, sent := Table.erase p.sent port, grant := Table.erase p.grant port
               granted := Table.erase p.granted port }
    s.grantPair port Config.peerWindow
  else s

/-- Members that have had no credit on their port since its link came up get their first once a new membership's key is in force (R357, R486). -/
def State.greetTeam (s : State) : State :=
  if !s.start.team.greet then s
  else
    let up := ((List.range 32).map (· + 32)).filter fun q => ((s.dev.port q).subp 0).up && s.dev.inRole 1 q
    (State.each up (fun q s => State.each (s.dev.team.membersOn q) (fun m s =>
      if (Table.get? s.dev.team.granted (teamKey q m)).isNone then s.grantTeam q m Config.peerWindow else s) s) s).onTeam
      fun t => { t with greet := false }

/-- Ports of a new pair grant their first credit once its key is in force (R511, R519). -/
def State.greetPair (s : State) : State :=
  if !s.start.pair.greet then s
  else (State.each s.dev.pairUp (fun q s => if (Table.get? s.dev.pair.granted q).isNone then s.grantPair q Config.peerWindow else s) s).onPair
    fun p => { p with greet := false }

/-- A peer port's link has gone down: members without a port left are lost (R358), and a pair port's fall is reported (R527). -/
def State.peerDown (port : Nat) (s : State) : State :=
  let lost := (s.dev.team.membersOn port).any fun m => (s.dev.teamUp m).isEmpty
  let s := if lost ∧ s.dev.inRole 1 port then s.setEvent pgDeep 4 else s
  if s.dev.pair.id ≠ 0 ∧ s.dev.pair.portList.contains port ∧ s.dev.inRole 2 port then s.setEvent pgPair 5 else s

/-! ### Mirroring (R517 to R519) -/

/-- Does the device mirror: a primary of a pair that holds its key? -/
def Pair.mirrors (p : Pair) : Bool := decide (p.role = .primary ∧ p.id ≠ 0) && !p.key.isEmpty

/-- A record's bytes (R518). -/
def MirrorRec.bytes (r : MirrorRec) : Bytes :=
  let pad := zeros ((8 - r.body.length % 8) % 8)
  [byte r.ty, 0] ++ toLE 2 (8 + r.body.length + pad.length) ++ toLE 2 r.whr ++ [0, 0] ++ r.body ++ pad

/-- The plaintext of a MIRROR frame that carries one record. -/
def Pair.mirrorPlain (p : Pair) (r : MirrorRec) : Bytes := toLE 2 p.id ++ [0, 0] ++ toLE 4 p.epoch ++ toLE 8 r.seq ++ r.bytes

/-- Bytes of a MIRROR frame around its plaintext: MAC addresses, type, header, tag, FCS. -/
def mirrorLen (n : Nat) : Nat := max 64 (14 + 16 + n + 16 + 4)

/-- The pair port that a frame of `n` plaintext bytes may leave on now: up, with credit, and another than `avoid` if another is up (R519). -/
def Dev.pairRoom (d : Dev) (avoid : Option Nat) (n : Nat) : Option Nat :=
  let u := units (mirrorLen n)
  let others := d.pairUp.filter fun p => decide (some p ≠ avoid)
  (if others.isEmpty then d.pairUp else others).find? fun p => creditOk (Table.get 0 d.pair.sent p) (Table.get 0 d.pair.grant p) u

/-- Send a record on a pair port that is up and has credit; a record sent again advances RESENT. -/
def State.sendRecord (r : MirrorRec) (s : State) : State × Bool :=
  let plain := s.dev.pair.mirrorPlain r
  match s.dev.pairRoom r.avoid plain.length with
  | none => (s, false)
  | some p =>
    let u := units (mirrorLen plain.length)
    let s := s.onPair fun x =>
      { x with
        sent := Table.put x.sent p ((Table.get 0 x.sent p + u) % 2 ^ 32)
        records := x.records.map fun q => if q.seq = r.seq then { q with sentOn := some (p, s.now) } else q }
    (((s.sendPair p 0xB plain).bump pgPair (0x80 + 8 * 4) 1).bump pgPair (0x80 + 8 * 6) (b2n r.avoid.isSome), true)

/-- Send the records that wait, in sequence, while credit lasts. -/
def State.sendRecords (l : List MirrorRec) (s : State) : State :=
  match l with
  | [] => s
  | r :: rest => if r.sentOn.isSome then s.sendRecords rest else
    let ans := s.sendRecord r
    let s' := ans.1
    let ok := ans.2
    if ok then s'.sendRecords rest else s

/-- The replay buffer's room (R519). -/
abbrev replayBuffer := 268435456

/-- Number a record and queue it for sending (R518). -/
def State.queueRecord (ty whr : Nat) (body : Bytes) (s : State) : State :=
  s.onPair fun x => { x with records := x.records ++ [{ seq := x.nextSeq, ty, whr, body }], nextSeq := x.nextSeq + 1 }

/-- Would the replay buffer overflow with this record? Records of a resync are formed as they can be sent, so they do not count. -/
def Pair.overflow (p : Pair) (n : Nat) : Bool :=
  decide (replayBuffer < ((p.records.filter fun r => decide (p.resyncEnd < r.seq)).map fun r => r.bytes.length).sum + n + 8)

/-- Mirror one change: a numbered record that stays until it is acknowledged (R517, R519). When the buffer would overflow, a resync is due
instead, which sends the change with the whole of the state. -/
def State.mirror (ty whr : Nat) (body : Bytes) (s : State) : State :=
  let p := s.dev.pair
  if !p.mirrors then s
  else if p.overflow body.length then s.onPair fun x => { x with resyncDue := true }
  else
    let s := s.queueRecord ty whr body
    s.sendRecords s.dev.pair.records

/-- Is the device a standby that holds its line transmitters (R510, R527)? -/
def Dev.linesHeld (d : Dev) : Bool := decide (d.pair.role = .standby) && d.pair.standbyLines

end Sys2Proof.Machine
end

