-- ==== Sys2Proof/Machine/Ports.lean ====
section
/-! DEFINITION. Ports (R116 to R144), loss of the reference clock (R37, R140), recognition of Selid, ARP and neighbour discovery (R78 to R81),
and the control lane (R113, R114). -/
namespace Sys2Proof.Machine

/-! ### Control addresses and recognition -/

/-- The control MAC address of port die `d` (R578). -/
def Dev.ctrlMac (d : Dev) (die : Nat) : Bytes := d.dieMac die

def Dev.ctrlIp4 (d : Dev) (die : Nat) : Bytes := toLE 4 (d.rg pgGlobal (0x58 + 0x20 * die))

def Dev.ctrlIp6 (d : Dev) (die : Nat) : Bytes :=
  (List.range 4).flatMap fun k => toLE 4 (d.rg pgGlobal (0x5C + 0x20 * die + 4 * k))

/-- Offset of the EtherType after at most `n` 802.1Q or 802.1ad tags (R78). -/
def skipTags (f : Bytes) (off n : Nat) : Nat :=
  match n with
  | 0 => off
  | k + 1 => if Bytes.be f off 2 = 0x8100 ∨ Bytes.be f off 2 = 0x88A8 then skipTags f (off + 4) k else off

/-- Is the frame, FCS included, of good FCS? -/
def fcsGood (f : Bytes) : Bool :=
  decide (4 ≤ f.length ∧ f.drop (f.length - 4) = toLE 4 (crc32e (f.take (f.length - 4))).toNat)

/-- Recognise a received frame as Selid: its route back and the offset of its Selid header (R78, R79). -/
def Dev.recognise (d : Dev) (port sub : Nat) (f : Bytes) : Option (Route × Nat) :=
  let die := portDie port
  let e := skipTags f 12 4
  let ty := Bytes.be f e 2
  let r : Route := { port, sub, hostMac := Bytes.slice f 6 6, devMac := Bytes.slice f 0 6, tags := Bytes.slice f 12 (e - 12) }
  let cfg := d.rg pgGlobal 0x48
  if f.length < 64 ∨ 9216 < f.length ∨ Bytes.slice f 0 6 ≠ d.ctrlMac die then none
  else if ty = cfg % 65536 then some ({ r with carrier := ty }, e + 2)
  else if ty = 0x0800 then
    let ip := e + 2
    if Bytes.at f ip = 0x45 ∧ Bytes.be f (ip + 6) 2 % 0x4000 = 0 ∧ Bytes.at f (ip + 9) = 17 ∧ !allZero (d.ctrlIp4 die) ∧
        Bytes.slice f (ip + 16) 4 = d.ctrlIp4 die ∧ Bytes.be f (ip + 22) 2 = cfg / 65536 then
      some ({ r with form := .udp4, hostIp := Bytes.slice f (ip + 12) 4, devIp := Bytes.slice f (ip + 16) 4,
                     hostUdp := Bytes.be f (ip + 20) 2, carrier := cfg / 65536 }, ip + 28)
    else none
  else if ty = 0x86DD then
    let ip := e + 2
    if Bytes.at f ip / 16 = 6 ∧ Bytes.at f (ip + 6) = 17 ∧ !allZero (d.ctrlIp6 die) ∧
        Bytes.slice f (ip + 24) 16 = d.ctrlIp6 die ∧ Bytes.be f (ip + 42) 2 = cfg / 65536 then
      some ({ r with form := .udp6, hostIp := Bytes.slice f (ip + 8) 16, devIp := Bytes.slice f (ip + 24) 16,
                     hostUdp := Bytes.be f (ip + 40) 2, carrier := cfg / 65536 }, ip + 48)
    else none
  else none

/-- Does the UDP checksum of a recognised frame hold? It is checked whenever it is non-zero (R80). -/
def udpGood (r : Route) (f : Bytes) (sel : Nat) : Bool :=
  match r.form with
  | .raw => true
  | _ =>
    let u := sel - 8
    let len := Bytes.be f (u + 4) 2
    decide (Bytes.be f (u + 6) 2 = 0 ∨
      foldSum (onesSum (r.hostIp ++ r.devIp ++ toBE 4 len ++ [0, 0, 0, 17]) + onesSum (Bytes.slice f u len)) = 65535)

/-- The fields of a received Selid header (R82) and its payload. -/
structure SelidHead where
  version : Nat
  kind : Nat
  session : Nat
  length : Nat
  fragIndex : Nat
  fragLast : Nat
  dir : Nat
  seq : Nat
  header : Bytes
  payload : Bytes
  deriving DecidableEq, Repr

/-- Read the Selid header at an offset (R82). Of a LENGTH beyond the frame, the payload is what the frame holds (log entry 149). -/
def selidHead (f : Bytes) (o : Nat) : SelidHead :=
  { version := Bytes.at f o % 16, kind := Bytes.at f o / 16, session := Bytes.at f (o + 1), length := Bytes.le f (o + 2) 2,
    fragIndex := Bytes.at f (o + 4) % 16, fragLast := Bytes.at f (o + 4) / 16, dir := Bytes.at f (o + 5) % 2,
    seq := Bytes.le f (o + 8) 8, header := Bytes.slice f o 16,
    payload := ((f.take (f.length - 4)).drop (o + 16)).take (Bytes.le f (o + 2) 2) }

/-- Do two routes name one source: the MAC address in the raw form, or the IP address and UDP port in the UDP form (R113)? -/
def sameSource (a b : Route) : Bool :=
  decide (a.form = b.form) && (match a.form with
    | .raw => decide (a.hostMac = b.hostMac)
    | _ => decide (a.hostIp = b.hostIp ∧ a.hostUdp = b.hostUdp))

/-- An ARP request for a control IPv4 address of the die (R81): offset of the ARP body. -/
def Dev.arpFor (d : Dev) (die : Nat) (f : Bytes) : Option Nat :=
  let e := skipTags f 12 4
  let o := e + 2
  if Bytes.be f e 2 = 0x0806 ∧ Bytes.be f o 2 = 1 ∧ Bytes.be f (o + 2) 2 = 0x0800 ∧ Bytes.be f (o + 4) 2 = 0x0604 ∧
      Bytes.be f (o + 6) 2 = 1 ∧ !allZero (d.ctrlIp4 die) ∧ Bytes.slice f (o + 24) 4 = d.ctrlIp4 die then some o else none

/-- A neighbour solicitation for a control IPv6 address of the die (R81): offset of the IPv6 header. -/
def Dev.solicitFor (d : Dev) (die : Nat) (f : Bytes) : Option Nat :=
  let e := skipTags f 12 4
  let ip := e + 2
  if Bytes.be f e 2 = 0x86DD ∧ Bytes.at f (ip + 6) = 58 ∧ Bytes.at f (ip + 7) = 255 ∧ Bytes.at f (ip + 40) = 135 ∧
      Bytes.at f (ip + 41) = 0 ∧ !allZero (d.ctrlIp6 die) ∧ Bytes.slice f (ip + 48) 16 = d.ctrlIp6 die then some ip else none

/-! ### The control lane -/

def Selid.lane (x : Selid) (die : Nat) : Lane := if die = 0 then x.lane0 else x.lane1

def State.onLane (die : Nat) (f : Lane → Lane) (s : State) : State :=
  s.onSelid fun x => if die = 0 then { x with lane0 := f x.lane0 } else { x with lane1 := f x.lane1 }

def laneBytes (l : List LaneFrame) : Nat := (l.map fun f => f.frame.length).sum

/-- Counter `k` of port die `die`'s control lane on the global control page (R577). -/
def State.laneCount (die k : Nat) (s : State) : State := s.bump pgGlobal (0x100 + 8 * (4 + 4 * die + k)) 1

/-- The queue a recognised frame is sorted into (R113, R114): some true for the session queue, some false for the setup queue, none for a
frame naming an open session from another source. -/
def Dev.laneQueue (d : Dev) (r : Route) (f : Bytes) (sel : Nat) : Option Bool :=
  let h := selidHead f sel
  if h.kind = 3 then
    match d.session? h.session with
    | some x => if sameSource x.source r then some true else none
    | none => some false
  else some false

/-- Admit a frame to a queue of the die's control lane, or drop and count it (R113, R114). -/
def State.laneAdmit (die : Nat) (toSession : Bool) (lf : LaneFrame) (s : State) : State × Bool :=
  let l := s.dev.selid.lane die
  if toSession then
    if 262144 < laneBytes l.session + lf.frame.length then (s.laneCount die 0, false)
    else ((s.onLane die fun l => { l with session := l.session ++ [lf] }).laneCount die 3, true)
  else
    let recent := l.recent.filter fun t => decide (s.now < t + plies1s)
    if 65536 < laneBytes l.setup + lf.frame.length ∨ 10000 ≤ recent.length then (s.laneCount die 1, false)
    else ((s.onLane die fun l => { l with setup := l.setup ++ [lf], recent := recent ++ [s.now] }).laneCount die 3, true)

/-- Admit a recognised Selid frame (R113, R114). -/
def State.admitSelid (lf : LaneFrame) (s : State) : State × Bool :=
  let die := portDie lf.port
  match lf.kind, s.start.laneQueue lf.route lf.frame lf.off with
  | .selid, none => (s.laneCount die 2, false)
  | .selid, some q => s.laneAdmit die q lf
  | _, _ => s.laneAdmit die false lf

/-- What the control lane takes a received frame for, by the registers of the start of the ply (R48, R78, R81). -/
def State.laneFrame? (port sub : Nat) (f : Bytes) (s : State) : Option LaneFrame :=
  let base : LaneFrame := { port, sub, ply := s.now, frame := f }
  match s.start.recognise port sub f with
  | some (r, o) => some { base with route := r, off := o }
  | none =>
    let die := portDie port
    match s.start.arpFor die f, s.start.solicitFor die f with
    | some o, _ => some { base with kind := .arp, off := o }
    | none, some o => some { base with kind := .solicit, off := o }
    | none, none => none

/-- MAX_FRAME as the ply reads it (R144). -/
def State.maxFrame (port : Nat) (s : State) : Nat := bits (s.start.rg (pageOf tPort port) 0x40) 29 16

/-- Count a frame's end, settling FCS and length against the MAX_FRAME its start was sampled under (R123, R144): true when it goes on. -/
def State.rxJudge (max port sub : Nat) (f : Bytes) (s : State) : State × Bool :=
  if !fcsGood f then (s.portCount port sub 2 1, false)
  else if f.length < 64 then (s.portCount port sub 3 1, false)
  else if max < f.length then (s.portCount port sub 4 1, false)
  else ((s.portCount port sub 0 1).portCount port sub 1 f.length, true)

/-- Count the arrival of a frame on a host or peer port, which one command brings whole (R123): true when it goes on. -/
def State.rxCheck (port sub : Nat) (f : Bytes) (s : State) : State × Bool :=
  if !s.hears port sub f then (s, false) else (s.heard port sub).rxJudge (s.maxFrame port) port sub f

/-- The frames of port die 1 that have reached the control complex, in order of arrival (R15, R23). -/
def Dev.landed (d : Dev) (now : Nat) : List LaneFrame :=
  d.net.flits.filterMap fun f => match f.cargo with
    | .lane lf => if f.there now then some lf else none
    | _ => none

/-- The next frame of a port die's lane at the control complex: the first of the session queue, or of the setup queue while the session queue
is empty (R113); from port die 1, the first that has crossed. With every control processor stopped it takes none (R23). -/
def State.laneHead (die : Nat) (s : State) : Option LaneFrame :=
  if s.dev.reliab.stopped = 255 then none
  else if die = 0 then (match s.dev.selid.lane0.session, s.dev.selid.lane0.setup with
    | lf :: _, _ => some lf
    | [], lf :: _ => some lf
    | [], [] => none)
  else (s.dev.landed s.now).head?

/-- Take the first frame of a queue. -/
def Lane.takeHead (l : Lane) : Lane :=
  if l.session.isEmpty then { l with setup := l.setup.drop 1 } else { l with session := l.session.drop 1 }

/-- Take the head of a die's lane if it is this frame. -/
def State.takeHead (port sub : Nat) (f : Bytes) (s : State) : State × Option LaneFrame :=
  match s.laneHead (portDie port) with
  | none => (s, none)
  | some lf =>
    if lf.port = port ∧ lf.sub = sub ∧ lf.frame = f then
      (if portDie port = 0 then s.onLane 0 Lane.takeHead else s.landed (.lane lf), some lf)
    else (s, none)

/-- Is a host port in use for control (R125, R144)? -/
def State.hostOn (port : Nat) (s : State) : Bool := decide ((s.start.port port).attach = 1)

/-- A frame arrives on a host port (R115, R125): the control lane takes it, or it is dropped and counted. -/
def State.hostArrival (port sub : Nat) (f : Bytes) (s : State) : State :=
  let ans := s.rxCheck port sub f
  let s := ans.1
  if !ans.2 then s
  else match s.laneFrame? port sub f with
    | none => s.portCount port sub 9 1
    | some lf => if s.hostOn port ∧ lf.kind = .selid then ((s.portCount port sub 5 1).admitSelid lf).1 else s.portCount port sub 9 1

/-- Take a frame that a message step names from the die's lane. A host port's frame that does not stand at the head of the lane arrives in this
step, and is taken in it when nothing of the lane stands before it (log entry 127). -/
def State.takeFrame (port sub : Nat) (f : Bytes) (s : State) : State × Option LaneFrame :=
  let ans := s.takeHead port sub f
  if ans.2.isSome ∨ !isHost port then ans
  else (s.hostArrival port sub f).takeHead port sub f

/-- Take an ARP request or a neighbour solicitation for the die: from the control lane of a line port, or as it arrives on a host port (R81); the
offset that recognition found. -/
def State.takeProbe (kind : LaneKind) (port sub : Nat) (f : Bytes) (s : State) : State × Option Nat :=
  if isHost port then
    match s.laneFrame? port sub f with
    | some lf =>
      if s.hostOn port ∧ lf.kind = kind then
        let ans := s.rxCheck port sub f
        (ans.1, if ans.2 then some lf.off else none)
      else (s, none)
    | none => (s, none)
  else
    let ans := s.takeHead port sub f
    match ans.2 with
    | some lf => if lf.kind = kind then (ans.1, some lf.off) else (s, none)
    | none => (s, none)

/-- The answer to an ARP request whose body stands at offset `o` of `f` (R81), without its padding: from the control addresses to the sender. -/
def arpReply (mac ip4 f : Bytes) (o : Nat) : Bytes :=
  Bytes.slice f 6 6 ++ mac ++ Bytes.slice f 12 (skipTags f 12 4 - 12) ++ [8, 6, 0, 1, 8, 0, 6, 4, 0, 2] ++ mac ++ ip4 ++ Bytes.slice f (o + 8) 6 ++
    Bytes.slice f (o + 14) 4

/-- The advertisement that answers a solicitation whose IPv6 header stands at offset `ip` of `f` (R81), without its padding: to all nodes when its
source is unspecified. -/
def neighbourReply (mac me f : Bytes) (ip : Nat) : Bytes :=
  let src := Bytes.slice f (ip + 8) 16
  let anon := allZero src
  let dst : Bytes := if anon then [0xFF, 2] ++ zeros 13 ++ [1] else src
  let dmac : Bytes := if anon then [0x33, 0x33, 0, 0, 0, 1] else Bytes.slice f 6 6
  let icmp : Bytes := [if anon then 0x20 else 0x60, 0, 0, 0] ++ me ++ [2, 1] ++ mac
  let ck := 65535 - foldSum (onesSum (me ++ dst ++ toBE 4 32 ++ [0, 0, 0, 58] ++ ([136, 0, 0, 0] ++ icmp)))
  dmac ++ mac ++ Bytes.slice f 12 (skipTags f 12 4 - 12) ++ [0x86, 0xDD, 0x60, 0, 0, 0] ++ toBE 2 32 ++ [58, 255] ++ me ++ dst ++ [136, 0] ++
    toBE 2 ck ++ icmp

/-- A frame padded to the least length, with its FCS (R123). -/
def padded (f : Bytes) : Bytes := withFcs (f ++ zeros (60 - f.length))

/-- ARP_REQUEST (R81): answered with the die's control MAC address. -/
def execArpRequest (port sub : Nat) (f : Bytes) (s : State) : Host.Outcome State Fault Refusal :=
  let die := portDie port
  let ans := s.takeProbe .arp port sub f
  match ans.2 with
  | none => .next ans.1
  | some o =>
      let s := ans.1
      let fr := padded (arpReply (s.dev.ctrlMac die) (s.dev.ctrlIp4 die) f o)
      .next (s.sendFrom 4 clsControl 0 port sub (.frame port sub fr) fr.length)

/-- NEIGHBOUR_SOLICITATION (R81): answered with a neighbour advertisement. -/
def execNeighbourSolicitation (port sub : Nat) (f : Bytes) (s : State) : Host.Outcome State Fault Refusal :=
  let die := portDie port
  let ans := s.takeProbe .solicit port sub f
  match ans.2 with
  | none => .next ans.1
  | some ip =>
      let s := ans.1
      let fr := padded (neighbourReply (s.dev.ctrlMac die) (s.dev.ctrlIp6 die) f ip)
      .next (s.sendFrom 4 clsControl 0 port sub (.frame port sub fr) fr.length)

/-! ### Configurations (R120) -/

/-- Sub-ports of a breakout code: number and lanes as a mask. -/
def breakoutSubs (code : Nat) : List (Nat × Nat) :=
  match code with
  | 0 => [(0, 15)]
  | 1 => [(0, 3)]
  | 2 => [(0, 12)]
  | 3 => [(0, 3), (1, 12)]
  | 4 => [(0, 1), (1, 2), (2, 4), (3, 8)]
  | 5 => [(0, 1), (1, 2), (2, 4), (3, 8)]
  | _ => []

/-- Lanes set in a 4-bit mask. -/
def laneList (m : Nat) : List Nat := (List.range 4).filter fun i => bit m i

/-- SPEED of a sub-port (R144) on a set of lanes under a breakout code. -/
def speedOf (code lanes : Nat) : Nat :=
  if code = 5 then 1 else match (laneList lanes).length with
    | 4 => 4
    | 2 => 3
    | 1 => 2
    | _ => 0

/-- ATTACH as a read shows it: the odd port of a pair shows the even port's (R128). -/
def Dev.attachReg (d : Dev) (p : Nat) : Nat :=
  bits (d.rg (pageOf tPort (if p < 32 then p / 2 * 2 else p)) 0x40) 5 4

/-- The mode of the inline pair a line port belongs to, as in use (R128): 0 off, 1 inline, 2 summary. -/
def Dev.pairMode (d : Dev) (p : Nat) : Nat := (d.port (p / 2 * 2)).attach

/-- The partner of a line port (R128). -/
def partner (p : Nat) : Nat := if p % 2 = 0 then p + 1 else p - 1

/-- The four entries of a lane map. -/
def laneMapList (m : Nat) : List Nat := (List.range 4).map fun i => bits m (2 * i + 1) (2 * i)

/-- Enabled peer ports of the pair role. -/
def Dev.pairPorts (d : Dev) : List Nat :=
  ((List.range 32).map (· + 32)).filter fun p => (d.port p).enabled && decide ((d.port p).attach = 2)

/-- Does a port's configuration stand at enable (R120, R121, R126, R144)? -/
def Dev.configOk (d : Dev) (p : Nat) : Bool :=
  let cfg := d.rg (pageOf tPort p) 0x40
  let br := cfg % 8
  let media := bits cfg 7 6
  let att := d.attachReg p
  let map := bits (d.rg (pageOf tPort p) 0x50) 15 8
  decide (br ≤ 5 ∧ (isPeer p = true → br ≤ 2) ∧ media ≠ 3 ∧ att ≠ 3 ∧ (isHost p = true → att ≠ 2) ∧
    (isPeer p = true ∧ att = 2 → (d.pairPorts.filter fun q => decide (q ≠ p)).length < 4) ∧ (laneMapList map).Nodup)

/-- The lanes a sub-port restarts on after losing a lane, with the running code afterwards (R139); none where it stays down. -/
def narrowed (q : Port) (lanes : Nat) : Option (Nat × Nat) :=
  let ok (i : Nat) : Bool := !(q.lane i).failed
  match laneList lanes with
  | [_, _, _, _] => if ok 0 && ok 1 then some (3, 1) else if ok 2 && ok 3 then some (12, 2) else none
  | [a, b] =>
    let code := if q.breakout = 3 then q.runCfg else 6
    if ok a then some (2 ^ a, code) else if ok b then some (2 ^ b, code) else none
  | _ => none

/-- The lanes a sub-port of these configured lanes starts on, and the running code: a failed lane stays out of use until READMIT (R138, R139). -/
def Port.widthOf (auto : Bool) (q : Port) (lanes : Nat) : Nat × Nat :=
  if (laneList lanes).all fun i => !(q.lane i).failed then (lanes, q.runCfg)
  else match (if auto then narrowed q lanes else none) with
    | some w => w
    | none => (0, q.runCfg)

/-- What a sub-port on these lanes advertises (R122, R139): nothing without autonegotiation; C0 and C1 as PAUSE_RX and PAUSE_TX. -/
def Port.advertOf (q : Port) (pauses : Bool × Bool) (lanes : Nat) : Option Advert :=
  if !q.anEn || decide (q.media = 2) then none
  else some { speed := speedOf q.breakout lanes, lanes := (laneList lanes).length, c0 := pauses.1, c1 := pauses.2 }

/-- The sub-ports of the port's configuration, down, on the lanes that have not failed. What frames of them still hold of the packet buffer, and the
XOFF in force, go on (R133). -/
def Port.configure (auto : Bool) (pauses : Bool × Bool) (q : Port) : Port :=
  [0, 1, 2, 3].foldl (fun (q : Port) i =>
    let old := q.subp i
    let keep : SubPort := { held := old.held, xoff := old.xoff }
    match (breakoutSubs q.breakout).find? fun e => decide (e.1 = i) with
    | none => { q with subs := Table.set {} q.subs i keep }
    | some e =>
      let w := q.widthOf auto e.2
      { q with subs := Table.set {} q.subs i { keep with lanes := w.1, advert := q.advertOf pauses w.1 }, runCfg := w.2 }) q

/-- PAUSE_RX and PAUSE_TX of a port as its sub-ports advertise them: 0 on a peer port (R122). -/
def State.pauses (p : Nat) (s : State) : Bool × Bool :=
  let cfg := s.rg (pageOf tPort p) 0x44
  (bit cfg 16 && !isPeer p, bit cfg 17 && !isPeer p)

/-- Autonegotiation of a port's sub-ports begins again: they advertise anew, and nothing while the transmitters are squelched (R121, R122, R140). -/
def State.advertise (p : Nat) (s : State) : State :=
  let pauses := s.pauses p
  s.onPort p fun q => [0, 1, 2, 3].foldl (fun q i =>
    q.onSub i fun x => { x with advert := if q.squelched || decide (x.lanes = 0) then none else q.advertOf pauses x.lanes }) q

/-- PORT_EN 0 to 1 (R121): the configuration is taken into use, or the enable is refused in the following ply. -/
def State.enablePort (p : Nat) (s : State) : State :=
  if !s.dev.configOk p then s.onPort p fun q => { q with refuse := some (s.now + 1) }
  else
    let cfg := s.dev.rg (pageOf tPort p) 0x40
    let buf := s.dev.rg (pageOf tPort p) 0x4C
    let br := cfg % 8
    s.onPort p fun q =>
      let auto := (s.hdr (pageOf tPort p)).control.getLsbD 4
      let q := { q with breakout := br, runCfg := br, media := bits cfg 7 6, anEn := bit cfg 8 }
      { q.configure auto (s.pauses p) with
        enabled := true, attach := s.dev.attachReg p
        laneMap := bits (s.dev.rg (pageOf tPort p) 0x50) 15 8, limit := buf / 65536, reserve := buf % 65536
        squelched := s.dev.ref.expired || s.dev.halted || (isLine p && s.dev.linesHeld), refuse := none }

/-- A sub-port goes down: LINK_DOWN is set when it was up (R136, R143). -/
def State.subDown (p i : Nat) (s : State) : State :=
  if s.subUp p i then
    let s := (s.onPort p fun q => q.onSub i fun x => { x with up := false, anDone := false, trained := false, speed := 0 }).setEvent (pageOf tPort p) i
    if isPeer p then s.peerDown p else s
  else s

/-- Every sub-port of a port goes down. -/
def State.portDown (p : Nat) (s : State) : State := State.each [0, 1, 2, 3] (fun i => State.subDown p i) s

/-- PORT_EN 1 to 0 (R121): the transmitters are squelched and every sub-port goes down. DESIGN CHOICE (log entry 151): LANES, LANE_OK and RUN_CFG
stay as last configured. -/
def State.disablePort (p : Nat) (s : State) : State :=
  ((s.portDown p).onPort p fun q => { q with enabled := false, squelched := true, refuse := none }).advertise p

/-! ### The port page -/

def maskOf (l : List Nat) : Nat := (l.map fun i => 2 ^ i).sum

/-- Lanes in use by the port's sub-ports. -/
def Port.lanesUsed (q : Port) : Nat := maskOf ((List.range 4).filter fun i => (List.range 4).any fun k => bit (q.subp k).lanes i)

/-- Is any sub-port running narrower than configured (R143)? -/
def Port.narrow (q : Port) : Bool := (breakoutSubs q.breakout).any fun e => decide ((q.subp e.1).lanes ≠ e.2) && (q.subp e.1).up

/-- STATUS.BLOCK of a port page (R143). -/
def Dev.portStatus (d : Dev) (p : Nat) : Nat :=
  let q := d.port p
  let l := List.range 4
  maskOf (l.filter fun i => l.any (fun k => (q.subp k).up && bit (q.subp k).lanes i) || Config.laneSignal p i d.sampled) * 2 ^ 20 + b2n d.ref.holdover * 2 ^ 16 + b2n q.narrow * 2 ^ 15 + q.runCfg * 2 ^ 12 +
    maskOf (l.filter fun i => bit q.lanesUsed i && !(q.lane i).failed) * 2 ^ 8 +
    maskOf (l.filter fun i => !(q.subp i).hold.isEmpty) * 2 ^ 4 + maskOf (l.filter fun i => (q.subp i).up)

/-- LINK_STATUS (R144). -/
def Dev.linkStatus (d : Dev) (p : Nat) : Nat :=
  ((List.range 4).map fun i =>
    let x := (d.port p).subp i
    2 ^ (8 * i) * (x.lanes * 16 + b2n x.anDone * 8 + x.speed)).sum

/-- Read of a block register of a port page (R142, R144). Counters of sub-ports that the breakout does not use read 0 (R141). -/
def Dev.portRead (d : Dev) (p off : Nat) : Word :=
  let r := d.reg (addrOf (pageOf tPort p) off)
  if off = 0x40 then
    if p < 32 ∧ p % 2 = 1 then BitVec.ofNat 32 (r.toNat - bits r.toNat 5 4 * 16 + d.attachReg p * 16) else r
  else if off = 0x54 then BitVec.ofNat 32 (d.linkStatus p)
  else if 0x40 ≤ off ∧ off < 0x54 then r
  else if 0x100 ≤ off ∧ off < 0x300 then
    let c := d.ctr (pageOf tPort p) (off / 8 * 8)
    if (breakoutSubs (d.port p).breakout).all fun e => decide (e.1 ≠ (off - 0x100) / 0x80) then 0
    else if off % 8 = 0 then c.setWidth 32 else (c >>> 32).setWidth 32
  else 0

/-- COUNTER_CLEAR of one sub-port (R141): each counter becomes what it recorded in the ply of the clear. -/
def State.clearCounters (p i : Nat) (s : State) : State :=
  State.each (List.range 16) (fun k s =>
    let off := 0x100 + 0x80 * i + 8 * k
    s.setCtr (pageOf tPort p) off (s.dev.ctr (pageOf tPort p) off - s.start.ctr (pageOf tPort p) off)) s

/-- A sub-port restarts on the healthy ones of its configured lanes (R138, R139). -/
def State.restartSub (p k lanes : Nat) (s : State) : State :=
  let auto := (s.ctl (pageOf tPort p)).getLsbD 4
  let pauses := s.pauses p
  s.onPort p fun q =>
    let q := if q.breakout = 3 then q else { q with runCfg := q.breakout }
    let w := q.widthOf auto lanes
    { q.onSub k (fun x => { x with lanes := w.1, advert := q.advertOf pauses w.1 }) with runCfg := w.2 }

/-- READMIT of one lane (R138, R144): it returns to use and its sub-port restarts at its configured width, without the lanes that still are
failed. -/
def State.readmit (p i : Nat) (s : State) : State :=
  if !((s.port p).lane i).failed then s
  else
    let s := s.onPort p fun q => q.onLane i fun l => { l with failed := false, attempts := 0 }
    let s := s.setFaulted (pageOf tPort p) ((List.range 4).any fun j => ((s.port p).lane j).failed)
    match (breakoutSubs (s.port p).breakout).find? fun e => bit e.2 i with
    | none => s
    | some (k, lanes) => (s.subDown p k).restartSub p k lanes

/-- Write of a block register of a port page (R144). -/
def State.portWrite (p off : Nat) (v : Word) (s : State) : State :=
  let pg := pageOf tPort p
  let old := s.dev.rg pg off
  let n := v.toNat
  if off = 0x40 then
    let mf := bits n 29 16
    let mf := if 1518 ≤ mf ∧ mf ≤ 9216 then mf else bits old 29 16
    let att := if p < 32 ∧ p % 2 = 1 then bits old 5 4 else bits n 5 4
    s.setReg (addrOf pg off) (BitVec.ofNat 32 (mf * 65536 + b2n (bit n 8) * 256 + bits n 7 6 * 64 + att * 16 + n % 8))
  else if off = 0x44 then
    s.setReg (addrOf pg off) (v &&& (if isLine p then 0xFF03FFFF else 0xFF030000))
  else if off = 0x48 then s.setReg (addrOf pg off) v
  else if off = 0x4C then if isLine p then s.setReg (addrOf pg off) v else s
  else if off = 0x50 then
    State.each ((List.range 4).filter fun i => bit n (16 + i)) (fun i => State.readmit p i) (s.setReg (addrOf pg off) (v &&& 0xFFFF))
  else if off = 0x58 then State.each ((List.range 4).filter fun i => bit n i) (fun i => State.clearCounters p i) s
  else s

/-! ### Links and lanes -/

/-- LINK_DOWN (R136): the sub-port's PCS loses alignment or signals a receive fault, and autonegotiation begins again (R122). -/
def execLinkDown (port sub : Nat) (s : State) : Host.Outcome State Fault Refusal := .next ((s.subDown port sub).advertise port)

/-- A port whose sub-port `i` has come up on a set of lanes (R122, R136, R144). -/
def Port.comeUp (now i lanes : Nat) (q : Port) : Port :=
  q.onSub i fun x =>
    { x with up := true, anDone := q.anEn && decide (q.media ≠ 2), trained := decide (q.media ≠ 2), upPly := now
             speed := speedOf q.breakout lanes }

/-- LINK_UP (R136, R122, R139): the sub-port regains alignment; it sets WIDTH_DROP when it comes up narrower than configured. -/
def execLinkUp (port sub : Nat) (s : State) : Host.Outcome State Fault Refusal :=
  let q := s.port port
  let x := q.subp sub
  if !q.enabled || q.squelched || x.up || (laneList x.lanes).isEmpty then .next s
  else
    let narrow := (breakoutSubs q.breakout).any fun e => decide (e.1 = sub ∧ e.2 ≠ x.lanes)
    let s := (s.advertise port).onPort port (Port.comeUp s.now sub x.lanes)
    let s := s.setEvents (pageOf tPort port) (oneBit (4 + sub) ||| (if narrow then oneBit 12 else 0))
    .next (if isPeer port then s.peerUp port else s)

/-- A lane fails (R138, R139): it is taken out of use, and its sub-port narrows or stays down. -/
def State.laneFail (port lane : Nat) (s : State) : State :=
  if ((s.port port).lane lane).failed || decide (4 ≤ lane) then s
  else
    let pg := pageOf tPort port
    let s := (s.onPort port fun q => q.onLane lane fun l => { l with failed := true, tuning := false }).setEvent pg (8 + lane)
    let s := s.setFaulted pg true
    match (List.range 4).find? fun i => bit ((s.port port).subp i).lanes lane with
    | none => s
    | some i =>
      let s := s.subDown port i
      let q := s.port port
      let auto := (s.ctl pg).getLsbD 4
      let pauses := s.pauses port
      match (if auto then narrowed q (q.subp i).lanes else none) with
      | some (lanes, code) => s.onPort port fun q => { q.onSub i (fun x => { x with lanes, advert := q.advertOf pauses lanes }) with runCfg := code }
      | none => s.onPort port fun q => q.onSub i fun x => { x with lanes := 0, advert := none }

/-- LANE_FAILURE (R138, R139). -/
def execLaneFailure (port lane : Nat) (s : State) : Host.Outcome State Fault Refusal := .next (s.laneFail port lane)

/-! ### Pause and priority flow control -/

/-- Plies in one pause quantum of 512 bit times, by SPEED (R131). -/
def quantumPlies (speed : Nat) : Nat := 2 ^ (4 - speed)

/-- Is any PFC bit set, so that PAUSE is ignored (R132)? -/
def pfcOn (cfg : Nat) : Bool := decide (cfg % 65536 ≠ 0)

/-- Hold or resume one priority (R131, R132). -/
def SubPort.holdPrio (now plies p : Nat) (x : SubPort) : SubPort :=
  if plies = 0 then { x with hold := Table.erase x.hold p, since := Table.erase x.since p }
  else { x with hold := Table.put x.hold p (now + plies), since := if (Table.get? x.hold p).isSome then x.since else Table.put x.since p now }

/-- PAUSE_FRAME (R131): honoured with PAUSE_RX 1 while no PFC bit is set, and otherwise dropped without effect; counted in RX_PAUSE. DESIGN CHOICE
(log entry 152): any destination address does, and tags before the EtherType are skipped. -/
def execPauseFrame (port sub : Nat) (f : Bytes) (s : State) : Host.Outcome State Fault Refusal :=
  let e := skipTags f 12 4
  if isPeer port || decide (Bytes.be f e 2 ≠ 0x8808 ∨ Bytes.be f (e + 2) 2 ≠ 1) then .next s
  else
    let ans := s.rxCheck port sub f
    let s := ans.1
    let ok := ans.2
    if !ok then .next s
    else
      let s := s.portCount port sub 6 1
      let cfg := s.start.rg (pageOf tPort port) 0x44
      if pfcOn cfg || !bit cfg 16 then .next s
      else
        let q := Bytes.be f (e + 4) 2
        .next (s.onPort port fun pt => pt.onSub sub fun x =>
          (List.range 8).foldl (fun x p => SubPort.holdPrio s.now (q * quantumPlies x.speed) p x) x)

/-- Is received PFC for a priority being ignored after a storm (R134)? -/
def SubPort.ignoring (now stormPlies p : Nat) (x : SubPort) : Bool :=
  match Table.get? x.storm p with
  | some last => decide (now < last + stormPlies)
  | none => false

/-- What a received PFC frame with these enable bits and quanta does to one priority of a sub-port whose PFC_RX is `cfg` (R132, R134). -/
def SubPort.pfc (now storm cfg enable : Nat) (quanta : Nat → Nat) (x : SubPort) (p : Nat) : SubPort :=
  if !bit enable p || !bit cfg p then x
  else if x.ignoring now storm p then { x with storm := Table.put x.storm p now }
  else SubPort.holdPrio now (quanta p * quantumPlies x.speed) p { x with storm := Table.erase x.storm p }

/-- PFC_FRAME (R132, R134): holds or resumes the priorities it names whose PFC_RX bit is set. -/
def execPfcFrame (port sub : Nat) (f : Bytes) (s : State) : Host.Outcome State Fault Refusal :=
  let e := skipTags f 12 4
  if !isLine port || decide (Bytes.be f e 2 ≠ 0x8808 ∨ Bytes.be f (e + 2) 2 ≠ 0x0101) then .next s
  else
    let ans := s.rxCheck port sub f
    let s := ans.1
    let ok := ans.2
    if !ok then .next s
    else
      let s := s.portCount port sub 6 1
      let cfg := s.start.rg (pageOf tPort port) 0x44
      .next (s.onPort port fun pt => pt.onSub sub fun x =>
        (List.range 8).foldl (SubPort.pfc s.now (cfg / 16777216 * plies1ms) cfg (Bytes.be f (e + 4) 2) fun p => Bytes.be f (e + 6 + 2 * p) 2) x)

/-- PAUSE_QUANTA_EXPIRE (R131, R132): pause times that have run out end their holds. -/
def execPauseQuantaExpire (port sub : Nat) (s : State) : Host.Outcome State Fault Refusal :=
  let now := s.now
  .next (s.onPort port fun q => q.onSub sub fun x =>
    { x with
      hold := x.hold.filter fun e => decide (now < e.2)
      since := x.since.filter fun e => x.hold.any fun h => decide (h.1 = e.1 ∧ now < h.2) })

/-- PFC_STORM (R134): a priority held for STORM_MS without a break sets PFC_STORM, and with STORM_RELEASE its PFC is then ignored. -/
def execPfcStorm (port sub prio : Nat) (s : State) : Host.Outcome State Fault Refusal :=
  let pg := pageOf tPort port
  let ms := s.rg pg 0x44 / 16777216
  let x := (s.port port).subp sub
  match Table.get? x.since prio with
  | none => .next s
  | some t =>
    if ms = 0 ∨ s.now < t + ms * plies1ms ∨ pfcOn (s.rg pg 0x44) = false ∨ 8 ≤ prio then .next s
    else
      let s' := s.setEvent pg 13
      if (s.ctl pg).getLsbD 3 then
        .next (s'.onPort port fun q => q.onSub sub fun x =>
          { SubPort.holdPrio s.now 0 prio x with storm := Table.put x.storm prio s.now })
      else .next (s'.onPort port fun q => q.onSub sub fun x => { x with since := Table.put x.since prio s.now })

/-- A PAUSE frame, or a PFC frame for one priority, with its quanta (R133). Key 8 stands for PAUSE. -/
def pauseFrame (mac : Bytes) (key quanta : Nat) : Bytes :=
  let head : Bytes := [0x01, 0x80, 0xC2, 0, 0, 1] ++ mac ++ [0x88, 0x08]
  let body := if key = 8 then [0, 1] ++ toBE 2 quanta
    else [1, 1] ++ toBE 2 (2 ^ key) ++ (List.range 8).flatMap fun p => toBE 2 (if p = key then quanta else 0)
  withFcs (head ++ body ++ zeros (60 - head.length - body.length))

/-- Send a PAUSE or PFC frame, counted in TX_PAUSE (R141). -/
def State.sendPause (port sub key quanta : Nat) (s : State) : State :=
  let f := pauseFrame (s.dev.ctrlMac (portDie port)) key quanta
  if s.subUp port sub then (s.sendNow port sub (.frame port sub f) f.length).portCount port sub 12 1 else s

/-- Does a PFC_CFG let the device send XOFF for a key: PFC of a priority, or PAUSE, key 8, while no PFC bit is set (R131, R132)? -/
def pauseOn (cfg key : Nat) : Bool := if key = 8 then !pfcOn cfg && bit cfg 17 else bit cfg (8 + key)

/-- Bytes that count under a key: those of a priority, or for PAUSE all (R131, R133). -/
def SubPort.heldFor (x : SubPort) (key : Nat) : Nat := if key = 8 then (x.held.map (·.2)).sum else Table.get 0 x.held key

/-- Send XOFF or XON for one key where a threshold is crossed; an XOFF in force ends with its count, whatever PFC_CFG then says (R133). DESIGN CHOICE
(log entry 153): with XOFF 0, for which XOFF − 1 does not exist, XON is 0. -/
def State.checkKey (port sub key : Nat) (s : State) : State :=
  let pg := pageOf tPort port
  let th := s.rg pg 0x48
  let xoff := th % 65536
  let xon := if th / 65536 < xoff then th / 65536 else xoff - 1
  let x := (s.port port).subp sub
  let n := x.heldFor key
  let mark (t : Table Nat → Table Nat) (s : State) : State := s.onPort port fun q => q.onSub sub fun x => { x with xoff := t x.xoff }
  if (Table.get? x.xoff key).isSome then
    if n ≤ xon * 4096 then mark (fun t => Table.erase t key) (s.sendPause port sub key 0) else s
  else if pauseOn (s.rg pg 0x44) key ∧ xoff * 4096 ≤ n then mark (fun t => Table.put t key s.now) (s.sendPause port sub key 0xFFFF)
  else s

/-- After a change in the bytes held of a priority, send XOFF or XON where a threshold is crossed (R133). -/
def State.checkPause (port sub prio : Nat) (s : State) : State := (s.checkKey port sub prio).checkKey port sub 8

/-- Change the bytes held by frames of a priority (R133). -/
def State.holdBytes (port sub prio : Nat) (f : Nat → Nat) (s : State) : State :=
  (s.onPort port fun q => q.onSub sub fun x => { x with held := Table.modify 0 x.held prio f }).checkPause port sub prio

/-- PAUSE_RESEND (R133): the XOFF frame in force is sent again, while PFC_CFG still lets the device send it (R131, R132). `key` is the priority, or
8 for PAUSE. -/
def execPauseResend (port sub key : Nat) (s : State) : Host.Outcome State Fault Refusal :=
  match Table.get? ((s.port port).subp sub).xoff key with
  | none => .next s
  | some _ =>
    if !pauseOn (s.rg (pageOf tPort port) 0x44) key then .next s
    else .next ((s.sendPause port sub key 0xFFFF).onPort port fun q => q.onSub sub fun x => { x with xoff := Table.put x.xoff key s.now })

/-! ### The reference clock -/

def allPorts : List Nat := List.range 66

/-- REF_LOSS (R37, R140): the reference is found lost, the ply generators run from their oscillators, and holdover begins. -/
def execRefLoss (s : State) : Host.Outcome State Fault Refusal :=
  if s.dev.ref.lost then .next s
  else
    let s := s.onRef fun _ => { lost := true, lostPly := s.now, holdover := true, expired := false }
    let s := (s.setEvent pgGlobal 0).setFaulted pgGlobal true
    .next (State.each allPorts (fun p => State.setEvent (pageOf tPort p) 17) s)

/-- REF_HOLDOVER_END (R140): 10 ms have expired, so every transmitter is squelched and every sub-port goes down. -/
def execRefHoldoverEnd (s : State) : Host.Outcome State Fault Refusal :=
  let r := s.dev.ref
  if !r.lost || r.expired || decide (s.now < r.lostPly + 10 * plies1ms) then .next s
  else
    let s := s.onRef fun r => { r with expired := true }
    .next (State.each allPorts (fun p s => ((s.portDown p).onPort p fun q => { q with squelched := true }).advertise p) s)

/-- REF_RETURN (R37, R140): generators and ports return to the reference; ports squelched at the end of holdover restart. -/
def execRefReturn (s : State) : Host.Outcome State Fault Refusal :=
  if !s.dev.ref.lost then .next s
  else
    let was := s.dev.ref.expired
    let s := s.onRef fun _ => {}
    let s := (s.setEvent pgGlobal 1).setFaulted pgGlobal (decide (s.dev.reliab.stopped ≠ 0))
    .next (State.each allPorts (fun p s => if was then (s.onPort p fun q => { q with squelched := !q.enabled || s.dev.halted || (isLine p && s.dev.linesHeld) }).advertise p else s) s)

/-! ### Frames that nothing takes -/

/-- Does a peer port of this role take frames of a kind (R126, R355, R512): KIND 8h and 9h on a team port, Ah to Fh on a pair port? -/
def peerTakes (role kind : Nat) : Bool := if kind = 8 ∨ kind = 9 then decide (role = 1) else decide (0xA ≤ kind ∧ role = 2)

/-- Is it a frame of the peer transport that the port's role takes: untagged, in the raw form, whatever its destination address (R126, R355, R512)? -/
def Dev.takesPeer (d : Dev) (port : Nat) (f : Bytes) : Bool :=
  let h := selidHead f 14
  isPeer port && decide (Bytes.be f 12 2 = d.rg pgGlobal 0x48 % 65536 ∧ h.version = 1) && peerTakes (d.port port).attach h.kind

/-- RX_DISCARD (R125 to R127, R83): a frame on a host or peer port that no message step takes is dropped and counted. A recognised Selid frame of a
kind that a host port does not take passes through the control lane first (R115). DESIGN CHOICE (log entry 154): a PAUSE or PFC frame of a peer
port, and a PFC frame of a host port, are counted here and not in RX_PAUSE. -/
def execRxDiscard (port sub : Nat) (f : Bytes) (s : State) : Host.Outcome State Fault Refusal :=
  if isLine port || decide (66 ≤ port) then .next s
  else
    let ans := s.rxCheck port sub f
    let s' := ans.1
    if !ans.2 then .next s'
    else if isHost port then
      match s.laneFrame? port sub f with
      | some lf =>
        if !s.hostOn port then .next (s'.portCount port sub 9 1)
        else if lf.kind ≠ .selid then .next s
        else
          let h := selidHead f lf.off
          if h.version = 1 ∧ (h.kind = 0 ∨ h.kind = 2 ∨ h.kind = 3) then .next s
          else
            let ans := s.takeFrame port sub f
            .next (if ans.2.isSome then ans.1.bump pgGlobal 0x108 1 else ans.1)
      | none =>
        let e := skipTags f 12 4
        if s.hostOn port && decide (Bytes.be f e 2 = 0x8808 ∧ Bytes.be f (e + 2) 2 = 1) then .next s else .next (s'.portCount port sub 9 1)
    else if s.start.takesPeer port f then .next s
    else .next (s'.portCount port sub 9 1)

end Sys2Proof.Machine
end

