-- ==== Sys2Proof/Machine/Vaults.lean ====
section
/-! DEFINITION. The frames of the vaults (R394): what images, rings and the state pools take of them (R182, R361, R421, R425, R528). -/
namespace Sys2Proof.Machine

/-! ### Bandwidth (R21, R22, R394) -/

/-- What a vault gives in one ply (R18): 64 GB/s at 640 ps, in hundredths of a byte. -/
abbrev vaultPly := 4096

/-- Use a vault for `n` bytes. A flow-slice lookup or update comes first and waits for nothing; what it takes is missing to those that come after
it, so that an excess demand is taken from the scrub first and then from the streams (R21, R22; log entry 133). -/
def State.useVault (core n : Nat) (s : State) : State :=
  s.onCompute fun x => { x with vaults := Table.modify 0 x.vaults core fun v => v + 100 * n }

/-- Has a vault bandwidth left in the ply for its stream requesters, and for the scrub, which comes last (R21)? -/
def Dev.vaultFree (d : Dev) (core : Nat) : Bool := decide (Table.get 0 d.compute.vaults core < vaultPly)
def Dev.vaultIdle (d : Dev) (core : Nat) : Bool := decide (Table.get 0 d.compute.vaults core = 0)

/-- What flow-slice accesses beyond the reservation take of a vault is missing to the matrix-vector requests that stream from it (R22). -/
def State.slowRequests (vault n : Nat) (s : State) : State :=
  let late (r : ArrayRun) : ArrayRun := if r.mvec ∧ r.vault = vault ∧ r.ends.isNone then { r with ready := r.ready + 1600 * n / vaultPly } else r
  s.onCompute fun x => { x with cores := (x.cores.map fun e => (e.1, { e.2 with running := e.2.running.map late })).filter fun e => decide (e.2 ≠ {}) }

/-- Every vault works for one ply. -/
def State.settleVaults (s : State) : State :=
  if s.dev.compute.vaults.isEmpty then s
  else s.onCompute fun x =>
    { x with vaults := x.vaults.filterMap fun e => if e.2 ≤ vaultPly then none else some (e.1, e.2 - vaultPly) }

/-- A little-endian number in an image. -/
abbrev img (m : Mem) (a n : Nat) : Nat := Mem.le m a n

/-- Number of directory entries (R420). -/
def imgSections (m : Mem) : Nat := img m 12 2

abbrev secBinding := 1
abbrev secFeatures := 2
abbrev secEnsemble := 3
abbrev secVolume := 4
abbrev secPages := 5
abbrev secDeep := 6

/-- One PAGES section (R421). -/
structure PagesSec where
  writable : Bool := false
  place : Nat := 0
  member : Nat := 0
  core : Nat := 0
  offset : Nat := 0
  length : Nat := 0
  addr : Nat := 0
  deriving DecidableEq, Repr

/-- The PAGES sections of an image. -/
def pagesOf (m : Mem) : List PagesSec :=
  ((List.range (imgSections m)).filter fun i => decide (img m (64 + 32 * i) 2 = secPages)).map fun i =>
    let a := 64 + 32 * i
    { writable := bit (img m (a + 2) 1) 0, place := img m (a + 2) 1 / 2 % 4, member := img m (a + 3) 1 % 16, core := img m (a + 4) 2,
      offset := img m (a + 8) 8, length := img m (a + 16) 8, addr := img m (a + 24) 8 }

def imgDirEnd (m : Mem) : Nat := 64 + 32 * imgSections m

/-- Bytes held without gaps from offset 0. -/
def prefixLen (l : List (Nat × Nat)) : Nat := match l with
  | (0, b) :: _ => b
  | _ => 0

/-- Is the state pool reserved (R361)? -/
def Dev.deepEn (d : Dev) : Bool := bit (d.rg pgDeep 0x40) 0


/-- Frames of one vault that are free of fixed regions. -/
def Dev.framesEach (d : Dev) : Nat := 1310 - 13 - (if d.deepEn then 82 else 0)

/-- Frames that the pages of a section take: one for each page, or one on each die. -/
def PagesSec.frames (p : PagesSec) (pages : Nat) : Nat := if p.place = 1 then 4 * pages else pages

/-- Is a PAGES section stored by this member (R425)? -/
def Dev.storesPages (d : Dev) (deep : Bool) (p : PagesSec) : Bool := !deep || decide (d.team.members = 0 ∨ p.member = d.team.self)

/-- Frames of a generation. -/
def Dev.genFrames (d : Dev) (g : Generation) : Nat :=
  ((pagesOf g.image).map fun p => if d.storesPages (decide (g.kind = 2)) p then p.frames ((p.length + 2097151) / 2097152) else 0).sum

/-- Pages of a section of a staged image that hold a byte. -/
def StageOp.pagesHeld (g : StageOp) (p : PagesSec) : Nat :=
  (List.range ((p.length + 2097151) / 2097152)).countP fun j =>
    let a := p.offset + j * 2097152
    let b := min (p.offset + p.length) (a + 2097152)
    g.got.any fun r => decide (r.1 < b ∧ a < r.2)

/-- Frames of a staging operation: those its stored pages have been given. -/
def Dev.stageFrames (d : Dev) (g : StageOp) : Nat :=
  if prefixLen g.got < imgDirEnd g.image ∨ 64 < imgSections g.image then 0
  else ((pagesOf g.image).map fun p => if d.storesPages g.chan.isNone p then p.frames (g.pagesHeld p) else 0).sum

/-- Frames of a ring of 2^v words (R528). -/
def ringFramesOf (v : Nat) : Nat := (16 * 2 ^ v + 2097151) / 2097152

/-- Frames of the rings (R394): whole frames for each ring. -/
def Dev.ringFrames (d : Dev) : Nat := (d.objects.rings.map fun e => if e.2.use = .free then 0 else ringFramesOf e.2.size).sum

/-- Frames in use when staging slot `k` holds `g`. -/
def Dev.framesUsed (d : Dev) (k : Nat) (g : StageOp) : Nat :=
  (d.objects.gens.map fun e => d.genFrames e.2).sum + ((d.objects.stages.filter fun e => decide (e.1 ≠ k)).map fun e => d.stageFrames e.2).sum +
    d.stageFrames g + d.ringFrames

/-- Pages of the PLACE 2 sections of an operation that lie in the vault of logical core `c` (R421). -/
def Dev.stagePlaced (d : Dev) (c : Nat) (g : StageOp) : Nat :=
  if prefixLen g.got < imgDirEnd g.image ∨ 64 < imgSections g.image then 0
  else ((pagesOf g.image).map fun p => if p.place = 2 ∧ p.core = c ∧ d.storesPages g.chan.isNone p then g.pagesHeld p else 0).sum

/-- Pages that PLACE 2 sections keep in the vault of logical core `c` when staging slot `k` holds `g`. -/
def Dev.framesPlaced (d : Dev) (k : Nat) (g : StageOp) (c : Nat) : Nat :=
  (d.objects.gens.map fun e => ((pagesOf e.2.image).map fun p =>
      if p.place = 2 ∧ p.core = c ∧ d.storesPages (decide (e.2.kind = 2)) p then (p.length + 2097151) / 2097152 else 0).sum).sum +
    ((d.objects.stages.filter fun e => decide (e.1 ≠ k)).map fun e => d.stagePlaced c e.2).sum + d.stagePlaced c g

/-- Is there no frame for what the operation holds? -/
def Dev.framesShort (d : Dev) (k : Nat) (g : StageOp) : Bool :=
  decide (800 * d.framesEach < d.framesUsed k g) ||
    (pagesOf g.image).any fun p => decide (p.place = 2) && d.storesPages g.chan.isNone p && decide (d.framesEach < d.framesPlaced k g p.core)

/-- Is there no storage for rings that take `n` frames (R178, R182)? -/
def Dev.ringShort (d : Dev) (n : Nat) : Bool := decide (800 * d.framesEach < d.framesUsed 16 {} + n)

/-- Does any vault lack the 82 frames of the state pool (R361, R394)? Pages that an image leaves to the device go where there is room. -/
def Dev.poolShort (d : Dev) : Bool :=
  decide (800 * 1215 < d.framesUsed 16 {}) || (List.range 800).any fun c => decide (1215 < d.framesPlaced 16 {} c)

end Sys2Proof.Machine
end

