-- ==== Sys2Proof/Machine/Rings.lean ====
section
/-! DEFINITION. Handles and hardware rings (R172 to R174, R182 to R202): the producer's operations, the host's ring commands, the ring page. -/
namespace Sys2Proof.Machine

def Dev.ring (d : Dev) (n : Nat) : Ring := Table.get {} d.objects.rings n
def State.ring (s : State) (n : Nat) : Ring := s.dev.ring n
def State.onRing (n : Nat) (f : Ring → Ring) (s : State) : State :=
  s.onObjects fun o => { o with rings := Table.modify {} o.rings n f }

/-- A handle from its fields (R172). -/
def handleOf (kind gen slot : Nat) : Nat := kind * 16777216 + gen * 4096 + slot

/-- The handle of a ring (R172). -/
def Dev.ringHandle (d : Dev) (n : Nat) : Nat := handleOf (0x10 + n / 4096) (d.ring n).hgen (n % 4096)

/-- The ring a handle names, if the handle is current (R173). -/
def Dev.ringOf (d : Dev) (h : Nat) : Option Nat :=
  let n := (h / 16777216 - 0x10) * 4096 + h % 4096
  if 0x10 ≤ h / 16777216 ∧ h / 16777216 ≤ 0x1F ∧ (d.ring n).use ≠ .free ∧ h / 4096 % 4096 = (d.ring n).hgen then some n else none

/-- Items not acknowledged, oldest first. -/
def Ring.held (r : Ring) : List Item := r.items.filter fun i => decide (i.state ≠ .acked)

def wordsOf (l : List Item) : Nat := (l.map (·.len)).sum

/-- Words written of the item being written. -/
def Ring.partialWords (r : Ring) : Nat := r.partialBytes.length / 16

/-- F of R190: words not held by an item in the empty, ready or read state. -/
def Ring.free (r : Ring) : Nat := 2 ^ r.size - wordsOf r.held - r.partialWords

/-- F as judged in ply `p`: words freed in the same ply do not serve yet (R190). -/
def Ring.freeAt (p : Nat) (r : Ring) : Nat := r.free - (if r.freedPly = p then r.freedWords else 0)

/-- Words of the item's header (R184) and body. -/
def Item.words (i : Item) (shown : Nat) : Bytes :=
  [byte i.len, byte i.kind, byte shown, byte i.origKind] ++ toLE 4 i.seq ++ toLE 8 i.info ++ Bytes.slice i.body 0 (16 * (i.len - 1))

def ItemState.code (i : ItemState) : Nat :=
  match i with
  | .empty => 0 | .ready => 1 | .read => 2 | .acked => 3

/-- Drop acknowledged items that `n` new words overwrite (R194). -/
def Ring.overwrite (n : Nat) (r : Ring) : Ring :=
  let rec go (fuel : Nat) (r : Ring) : Ring :=
    match fuel with
    | 0 => r
    | k + 1 =>
      match r.items with
      | i :: rest =>
        if i.state = .acked ∧ 2 ^ r.size < wordsOf r.items + r.partialWords + n then
          go k { r with
            items := rest, markLost := true
            lostCount := r.lostCount + 1, lostSeq := if r.lostCount = 0 then i.seq else r.lostSeq }
        else r
      | [] => r
  go r.items.length r

/-- Does the ring hold no item in the ready or read state (R191)? -/
def Ring.quiet (r : Ring) : Bool := r.held.all fun j => decide (j.state = .empty)

/-- Hold an item at TAIL in ply `p` (R186, R191, R194). -/
def Ring.hold (p : Nat) (i : Item) (r : Ring) : Ring :=
  let r := r.overwrite i.len
  { r with
    items := r.items ++ [{ i with pos := r.tail, seq := r.seq, made := p }]
    tail := (r.tail + i.len) % 2 ^ r.size
    seq := (r.seq + 1) % 2 ^ 32
    timer := if i.state ≠ .empty ∧ r.quiet then p else r.timer
    lapsed := r.lapsed && !(decide (i.state ≠ .empty) && r.quiet) }

/-- The item that a device producer is writing (R187). -/
def Ring.writing (r : Ring) : Option Item := match r.items.getLast? with
  | some i => if i.state = .empty then some i else none
  | none => none

/-- The item being written becomes ready (R187, R191). -/
def Ring.finish (p : Nat) (r : Ring) : Ring :=
  match r.writing with
  | none => r
  | some i =>
    { r with
      items := r.items.dropLast ++ [{ i with state := .ready, written := 0 }]
      timer := if r.quiet then p else r.timer, lapsed := r.lapsed && !r.quiet }

/-- What a device producer writes in a ply of the item that it is writing. -/
def Ring.writeOn (p pace : Nat) (r : Ring) : Ring :=
  match r.writing with
  | none => r
  | some i =>
    if pace = 0 ∨ i.len ≤ i.written + pace then r.finish p
    else { r with items := r.items.dropLast ++ [{ i with written := i.written + pace }] }

/-- An item of which `k` words were written, as a truncated item (R185, R192). -/
def Item.cut (k : Nat) (i : Item) : Item := { i with len := k, kind := 2, origKind := i.kind, info := i.len, state := .ready, written := 0 }

/-- The newest held item, if it is a gap marker in the ready state (R190). -/
def Ring.openGap (r : Ring) : Bool :=
  match r.items.getLast? with
  | some i => decide (i.kind = 1 ∧ i.state = .ready)
  | none => false

/-- Add 1 to the count of the newest item, saturating (R185, R190). -/
def Ring.countGap (r : Ring) : Ring :=
  match r.items.getLast? with
  | some i => { r with items := r.items.dropLast ++ [{ i with info := if i.info < 2 ^ 32 - 1 then i.info + 1 else i.info }] }
  | none => r

/-- Refuse an item (R190). -/
def Ring.refuse (p : Nat) (r : Ring) : Ring :=
  let r := { r with dropped := (r.dropped + 1) % 2 ^ 32 }
  if r.openGap then r.countGap
  else if 1 ≤ r.freeAt p then r.hold p { kind := 1, info := 1 }
  else { r with pendingGap := r.pendingGap + 1 }

/-- After a change, report a mark that has been lost (R194). -/
def State.ringMark (n : Nat) (before : Bool) (s : State) : State :=
  if !before && (s.ring n).markLost then s.setEvent (ringPage n) (16 + n % 8) else s

/-- A ring is touched by its producer (a hardware set) or by a host command (R196, R529). -/
def State.touchRing (n prec : Nat) (s : State) : State := s.touch 4 n (4 + n / 32768) prec

/-- Is an item of `len` words written whole in the ply of its header? -/
def State.writesWhole (len : Nat) (s : State) : Bool := decide (s.dev.objects.ringPace = 0 ∨ len ≤ s.dev.objects.ringPace)

/-- A device producer offers an item (R190): true when it is admitted. It first finishes the item it is writing. An item that becomes ready in the
ply of a RING_FLUSH is discarded with the others, also where the flush was taken first, and one that does not stays truncated (R193, R196). -/
def State.ringPut (n : Nat) (i : Item) (s : State) : State × Bool :=
  let s := (s.touchRing n 3).onRing n fun r => r.finish s.now
  let r := s.ring n
  let whole := s.writesWhole i.len
  if r.use = .free then (s, false)
  else if r.flushPly = some s.now then
    (if whole then s else s.onRing n fun r => r.hold s.now (i.cut s.dev.objects.ringPace), true)
  else if i.len + 1 ≤ r.freeAt s.now then
    ((s.onRing n fun r => r.hold s.now (if whole then i else { i with state := .empty })).ringMark n r.markLost, true)
  else (((s.onRing n fun r => r.refuse s.now).ringMark n r.markLost).setEvent (ringPage n) (8 + n % 8), false)

/-- Allocate a ring of 2^v words for a port die (R174, R576). -/
def State.allocRing (die : Nat) (use : RingUse) (v : Nat) (host : Bool) (s : State) : State × Option Nat :=
  let pool := if die = 0 then s.dev.objects.ringPool0 else s.dev.objects.ringPool1
  match pool.take (if die = 0 then 32768 else 65536) with
  | none => (s, none)
  | some (n, pool) =>
    let s := s.onObjects fun o =>
      { o with
        ringPool0 := if die = 0 then pool else o.ringPool0
        ringPool1 := if die = 0 then o.ringPool1 else pool
        rings := Table.modify {} o.rings n fun r => { use, size := v, hostProduced := host, hgen := r.hgen, timer := s.now } }
    (s.setReg (addrOf (ringPage n) (0x44 + 0x20 * (n % 8))) 0, some n)

/-- Release a ring: its handle generation advances (R173). -/
def State.freeRing (n : Nat) (s : State) : State :=
  (s.onObjects fun o =>
    { o with
      ringPool0 := if n < 32768 then o.ringPool0.release n else o.ringPool0
      ringPool1 := if n < 32768 then o.ringPool1 else o.ringPool1.release n
      rings := Table.modify {} o.rings n fun r => { hgen := (r.hgen + 1) % 4096 } }).setReg
    (addrOf (ringPage n) (0x44 + 0x20 * (n % 8))) 0

/-- Free `got` from HEAD (R189): with a mark they stay, acknowledged. -/
def Ring.ack (p : Nat) (got : List Item) (r : Ring) : Ring :=
  match got.getLast? with
  | none => { r with rewindLost := none }
  | some l =>
    let acked := r.items.filter fun i => decide (i.state = .acked)
    let rest := r.held.drop got.length
    { r with
      items := if r.mark.isSome then acked ++ (got.map fun i => { i with state := .acked }) ++ rest else rest
      head := (l.pos + l.len) % 2 ^ r.size
      freedWords := wordsOf got + (if r.freedPly = p then r.freedWords else 0), freedPly := p
      rewindLost := none }

/-- Take the oldest complete item of a ring, as the ply found it (R48): its words are freed (R197), and where the host has set a mark in a learn ring
it stays behind the mark (R194, R221). -/
def State.ringConsume (n : Nat) (s : State) : State × Option Item :=
  match (s.ring n).held with
  | [] => (s, none)
  | i :: _ => if i.state = .empty ∨ i.made = s.now then (s, none) else (s.onRing n (Ring.ack s.now [i]), some i)

/-! ### Host ring commands -/

/-- Is a learn ring in the hands of the control complex's agent (R221)? -/
def Dev.learnBusy (d : Dev) (n : Nat) : Bool :=
  decide ((d.ring n).use = .learn) && decide (d.rg pgFlowCtl 0x54 % 2 = 0)

/-- The frame of a host ring command: reserved fields, handle, side, one command a ply (R173, R183, R196, R584). `side` is some true for a
device-produced ring only, some false for a host-produced one only; `cursor` marks the commands a learn ring refuses with BUSY (R221). -/
def State.ringCommand (sess op len : Nat) (resv : List (Nat × Nat)) (side : Option Bool) (cursor : Bool)
    (run : Session → Cmd → Nat → State → State) (s : State) : State :=
  s.command sess op fun x c s =>
    match badReserved c.body resv with
    | some o => s.complete sess op stBadField o []
    | none =>
      if c.body.length < len ∨ (len = 8 ∧ op ≠ 0x42 ∧ c.body.length ≠ 8) ∨ (len = 4 ∧ c.body.length ≠ 4) then
        s.complete sess op stBadLength 0 []
      else
        match s.dev.ringOf (Bytes.le c.body 0 4) with
        | none => s.complete sess op stBadHandle 0 []
        | some n =>
          let r := s.ring n
          if side = some r.hostProduced then s.complete sess op stBadHandle 0 []
          else if cursor && s.dev.learnBusy n then s.complete sess op stBusy 0 []
          else if r.cmdPly = some s.now then s
          else run x c n ((s.touchRing n 5).onRing n fun r => { r with cmdPly := some s.now })

/-- The items a RING_READ returns (R188): the longest prefix that fits, before an item in the empty state. -/
def takeItems (room : Nat) (l : List Item) : List Item :=
  match l with
  | [] => []
  | i :: r => if i.state = .empty ∨ room < i.len then [] else i :: takeItems (room - i.len) r

/-- An item as a read returns it: one with an uncorrectable line of ring storage is a truncated item of the words before that line (R396); its
header, in the first word, is formed anew. -/
def Dev.itemRead (d : Dev) (n : Nat) (r : Ring) (i : Item) : Item :=
  let before := ((List.range i.len).filter fun k => d.objects.ringBad.contains (n * 2 ^ 32 + (i.pos + k) % 2 ^ r.size))
  match before with
  | [] => i
  | k :: _ => if i.state = .ready then i.cut (max 1 k) else i

/-- RING_READ (R188, R195): a read that is refused or not ready changes nothing, the flag-fall timer included. -/
def execRingRead (sess : Nat) (s : State) : Host.Outcome State Fault Refusal :=
  .next (s.ringCommand sess 0x40 8 [(6, 2)] (some true) true fun x c n s =>
    let max := Bytes.le c.body 4 2
    if max < 1 ∨ 512 < max then s.complete sess 0x40 stBadField 4 []
    else s.sized x c (8 + 16 * max) fun s =>
      let r := s.start.ring n
      let held := r.held.map (s.start.itemRead n r)
      let lost : List Bytes := match r.rewindLost with
        | some (q, k) => [({ kind := 3, seq := q, info := k : Item }).words 0]
        | none => []
      match held with
      | [] =>
        if 0 < r.partialLen then s.complete sess 0x40 stNotReady 0 []
        else
          let s := s.onRing n fun r => { r with timer := s.now, flagged := false, lapsed := false }
          let idle := ({ kind := 0, seq := r.seq, info := s.now : Item }).words 0
          let ws := lost ++ (if lost.length < max then [idle] else [])
          s.complete sess 0x40 stOK 0 (toLE 2 ws.length ++ toLE 2 ws.length ++ zeros 4 ++ ws.flatten)
      | i :: _ =>
        if i.state = .empty ∧ lost.isEmpty then s.complete sess 0x40 stNotReady 0 []
        else if max < i.len then s.complete sess 0x40 stBadField 4 []
        else
          let got := takeItems (max - lost.length) held
          let s := s.onRing n fun r =>
            { r with timer := s.now, flagged := false, lapsed := false, items := r.items.map fun j =>
                if j.state = .ready ∧ got.any (fun g => decide (g.pos = j.pos ∧ g.seq = j.seq)) then { j with state := .read } else j }
          let words := lost.length + wordsOf got
          s.complete sess 0x40 stOK 0 (toLE 2 words ++ toLE 2 (lost.length + got.length) ++ zeros 4 ++ lost.flatten ++
            (got.map fun g => g.words g.state.code).flatten))

/-- Leading items in the read state, at most `k`. -/
def readPrefix (k : Nat) (l : List Item) : List Item :=
  match k, l with
  | k + 1, i :: r => if i.state = .read then i :: readPrefix k r else []
  | _, _ => []

/-- RING_ACK (R189). -/
def execRingAck (sess : Nat) (s : State) : Host.Outcome State Fault Refusal :=
  .next (s.ringCommand sess 0x41 8 [(6, 2)] (some true) true fun x c n s =>
    s.sized x c 4 fun s =>
      let got := readPrefix (Bytes.le c.body 4 2) (s.ring n).held
      (s.onRing n (Ring.ack s.now got)).complete sess 0x41 stOK 0 (toLE 2 got.length ++ [0, 0]))

/-- Append one word to a host-produced ring (R197): none when no room is left or the header is refused. -/
def Ring.pushWord (p : Nat) (w : Bytes) (r : Ring) : Option Ring :=
  if 0 < r.skip then some { r with skip := r.skip - 1 }
  else
    let bs := r.partialBytes ++ w
    let len := if r.partialLen = 0 then Bytes.at w 0 else r.partialLen
    if len * 16 ≤ bs.length then
      let i : Item := { len, kind := 0x15, info := Bytes.le bs 8 8, body := bs.drop 16 }
      some (Ring.hold p i { r with partialLen := 0, partialBytes := [], tail := (r.tail + 2 ^ r.size - r.partialWords % 2 ^ r.size) % 2 ^ r.size })
    else some { r with partialLen := len, partialBytes := bs, tail := (r.tail + 1) % 2 ^ r.size }

/-- Is a word refused as an item's header (R197)? -/
def badHeaderWord (r : Ring) (w : Bytes) : Bool :=
  decide (r.skip = 0 ∧ r.partialLen = 0 ∧ (Bytes.at w 0 = 0 ∨ 32 < Bytes.at w 0 ∨ Bytes.at w 1 ≠ 0x15))

/-- Append words while F is at least 2: the ring, the words taken, and the index of a refused header (R197). -/
def pushWords (p : Nat) (ws : List Bytes) (i : Nat) (r : Ring) : Ring × Nat × Option Nat :=
  match ws with
  | [] => (r, i, none)
  | w :: rest =>
    if r.freeAt p < 2 then (r, i, none)
    else if badHeaderWord r w then (r, i, some i)
    else match r.pushWord p w with
      | some r => pushWords p rest (i + 1) r
      | none => (r, i, none)

/-- RING_WRITE (R197). -/
def execRingWrite (sess : Nat) (s : State) : Host.Outcome State Fault Refusal :=
  .next (s.ringCommand sess 0x42 8 [(6, 2)] (some false) false fun x c n s =>
    let k := Bytes.le c.body 4 2
    if k < 1 ∨ 512 < k then s.complete sess 0x42 stBadField 4 []
    else if c.body.length ≠ 8 + 16 * k then s.complete sess 0x42 stBadLength 0 []
    else s.sized x c 4 fun s =>
      let ws := (List.range k).map fun i => Bytes.slice c.body (8 + 16 * i) 16
      let ans := pushWords s.now ws 0 (s.ring n)
      let r := ans.1
      let took := ans.2.1
      let bad := ans.2.2
      let s := s.onRing n fun _ => r
      let body := toLE 2 took ++ [0, 0]
      match bad with
      | some i => s.complete sess 0x42 stBadField (8 + 16 * i) body
      | none => s.complete sess 0x42 stOK 0 body)

/-- The partial item as a truncated item (R185, R192). -/
def Ring.truncated (r : Ring) : Item :=
  { len := r.partialWords, kind := 2, origKind := Bytes.at r.partialBytes 1, info := r.partialLen, body := r.partialBytes.drop 16 }

/-- TAIL as it was before the partial item's words. -/
def Ring.tailBack (r : Ring) : Ring :=
  { r with tail := (r.tail + 2 ^ r.size - r.partialWords % 2 ^ r.size) % 2 ^ r.size, partialLen := 0, partialBytes := [] }

/-- TAIL as it is when the item being written ends after `k` words. -/
def Ring.tailCut (i : Item) (k : Nat) (r : Ring) : Ring := { r with tail := (r.tail + 2 ^ r.size - (i.len - k) % 2 ^ r.size) % 2 ^ r.size }

/-- RING_RESIGN (R192): what the producer writes in the ply comes first (R196). -/
def Ring.resign (p pace : Nat) (r : Ring) : Ring :=
  if r.hostProduced then (if r.partialLen = 0 then r else r.tailBack)
  else
    let r := r.writeOn p pace
    match r.writing with
    | none => r
    | some i =>
      { r.tailCut i i.written with
        items := r.items.dropLast ++ [i.cut i.written], timer := if r.quiet then p else r.timer, lapsed := r.lapsed && !r.quiet }

/-- RING_FLUSH (R193): what the producer writes in the ply comes first (R196). -/
def Ring.flush (p pace : Nat) (r : Ring) : Ring :=
  let r := if r.hostProduced then r else r.writeOn p pace
  let freed := wordsOf r.held
  let last := r.writing
  let r := { r with
    items := [], mark := none, markLost := false, lostCount := 0, rewindLost := none, pendingGap := 0, seq := 0
    freedWords := freed + (if r.freedPly = p then r.freedWords else 0), freedPly := p }
  match last with
  | some i =>
    let b := r.tailCut i 0
    Ring.hold p (i.cut i.written) { b with head := b.tail, freedWords := r.freedWords - i.written }
  | none =>
    if r.partialLen = 0 then { r with head := r.tail }
    else
      let b := r.tailBack
      Ring.hold p r.truncated { b with head := b.tail, skip := r.partialLen - r.partialWords }

/-- RING_FLUSH (R193). -/
def execRingFlush (sess : Nat) (s : State) : Host.Outcome State Fault Refusal :=
  .next (s.ringCommand sess 0x43 4 [] none false fun _ _ n s =>
    (s.onRing n fun r => { Ring.flush s.now s.dev.objects.ringPace r with flushPly := some s.now }).complete sess 0x43 stOK 0 [])

/-- RING_RESIGN (R192). -/
def execRingResign (sess : Nat) (s : State) : Host.Outcome State Fault Refusal :=
  .next (s.ringCommand sess 0x44 4 [] none false fun _ _ n s =>
    (s.onRing n (Ring.resign s.now s.dev.objects.ringPace)).complete sess 0x44 stOK 0 [])

/-- RING_MARK (R194). -/
def Ring.setMark (r : Ring) : Ring := { r with items := r.held, mark := some r.head, markLost := false, lostCount := 0 }

def execRingMark (sess : Nat) (s : State) : Host.Outcome State Fault Refusal :=
  .next (s.ringCommand sess 0x45 4 [] (some true) true fun _ _ n s => (s.onRing n Ring.setMark).complete sess 0x45 stOK 0 [])

/-- RING_REWIND (R195): HEAD moves back to the mark, or to the oldest acknowledged item that is intact. -/
def Ring.rewind (r : Ring) : Ring :=
  let acked := r.items.filter fun i => decide (i.state = .acked)
  let head := if r.markLost then (match acked with | i :: _ => i.pos | [] => r.head) else r.mark.getD r.head
  { r with
    items := r.items.map fun i => if i.state = .acked then { i with state := .read } else i
    head, mark := some head
    rewindLost := if r.markLost then some (r.lostSeq, r.lostCount) else r.rewindLost
    markLost := false, lostCount := 0 }

/-- RING_REWIND (R195): it takes place at the end of the ply, after what the producer writes in it (R196). -/
def execRingRewind (sess : Nat) (s : State) : Host.Outcome State Fault Refusal :=
  .next (s.ringCommand sess 0x46 4 [] (some true) true fun _ _ n s =>
    (s.startCmd sess 0x46).onRing n fun r => { r with rewindBy := some sess })

/-- The RING_REWIND of a ply takes place and is answered. -/
def State.rewindRing (n : Nat) (s : State) : State :=
  let r := s.ring n
  match r.rewindBy with
  | none => s
  | some sess =>
    let s := s.onRing n fun r => { r with rewindBy := none }
    if r.mark.isNone then s.complete sess 0x46 stNotFound 0 []
    else (s.onRing n Ring.rewind).complete sess 0x46 (if r.markLost then stRewindLost else stOK) 0 []

/-- The rewinds of a ply (R196). -/
def State.settleRewinds (s : State) : State := State.each (s.dev.objects.rings.map (·.1)) State.rewindRing s

/-- Flag-fall limit of a ring in plies, as this ply reads it (R191, R202). -/
def State.flagLimit (n : Nat) (s : State) : Nat := s.rg (ringPage n) (0x44 + 0x20 * (n % 8)) % 65536 * 1024

/-- Does a ring's flag-fall limit end in this ply, judged on the ring as it stood at the start of it (R48, R191, R196)? -/
def State.flagDue (n : Nat) (s : State) : Bool :=
  let r := s.start.ring n
  decide (s.flagLimit n ≠ 0 ∧ r.use ≠ .free ∧ (s.ring n).use ≠ .free ∧ r.timer + s.flagLimit n ≤ s.now) && !r.flagged && !r.lapsed &&
    !(s.ring n).flagged && !(s.ring n).lapsed

/-- FLAG_FALL (R191): at the end of the limit the flag is set if a ready item is held, and then not again until a RING_READ; a limit that ends without
one does not end again until the timer restarts. A RING_READ of the same ply restarts the timer from it (R196). -/
def execFlagFall (n : Nat) (s : State) : Host.Outcome State Fault Refusal :=
  if !s.flagDue n then .next s
  else
    let r := s.start.ring n
    let ready := r.held.any fun i => decide (i.state = .ready)
    let s := s.onRing n fun x => if x.timer = r.timer then { x with flagged := ready, lapsed := !ready } else x
    .next (if ready then s.setEvent (ringPage n) (n % 8) else s)

/-- PENDING_GAP (R190): in the first ply with a free word, a gap marker carries the pending count. -/
def execPendingGap (n : Nat) (s : State) : Host.Outcome State Fault Refusal :=
  let r := s.ring n
  if r.pendingGap = 0 ∨ r.freeAt s.now < 1 then .next s
  else .next ((s.onRing n fun r => Ring.hold s.now { kind := 1, info := min r.pendingGap (2 ^ 32 - 1) } { r with pendingGap := 0 }).ringMark
    n r.markLost)

/-! ### The ring page -/

def RingUse.code (u : RingUse) : Nat :=
  match u with
  | .free => 0 | .result => 1 | .log => 2 | .feature => 3 | .learn => 4 | .token => 5 | .score => 6 | .telemetry => 7

/-- Read of a block register of ring page instance `g` (R201, R202). FREE of a ring of 2^32 words reads modulo 2^32 (log entry 145). -/
def Dev.ringRead (d : Dev) (g off : Nat) : Word :=
  let n := 8 * g + (off - 0x40) / 0x20
  let r := d.ring n
  if off < 0x40 ∨ 0x140 ≤ off ∨ r.use = .free then 0
  else BitVec.ofNat 32 (match (off - 0x40) % 0x20 / 4 with
    | 0 => b2n r.markLost * 2 ^ 18 + b2n r.mark.isSome * 2 ^ 17 + b2n r.hostProduced * 2 ^ 16 + r.use.code * 256 + r.size
    | 1 => d.rg (ringPage n) off
    | 2 => r.head
    | 3 => (match r.writing with
      | some i => r.tailCut i i.written
      | none => r).tail
    | 4 => r.mark.getD 0
    | 5 => if r.hostProduced then r.free - 1 else r.free - (if 0 < r.pendingGap then 1 else 0)
    | 6 => r.dropped
    | _ => d.ringHandle n)

/-- Write of a block register of a ring page (R202): FLAG_TIME, without effect while the ring is free. -/
def State.ringPageWrite (g off : Nat) (v : Word) (s : State) : State :=
  let n := 8 * g + (off - 0x40) / 0x20
  if off < 0x40 ∨ 0x140 ≤ off ∨ (off - 0x40) % 0x20 ≠ 4 ∨ (s.ring n).use = .free then s
  else s.setReg (addrOf (ringPage n) off) (v &&& 0xFFFF)

end Sys2Proof.Machine
end

