-- ==== Sys2Proof/Machine/Channels.lean ====
section
/-! DEFINITION. Sites and logical cores (R13, R16, R17, R176), channels (R175 to R181, R199, R200), and the retirement of generations (R435). -/
namespace Sys2Proof.Machine

/-! ### Dies, sites and logical cores -/

/-- Remove and return the `k`-th of a list. -/
def pick (k : Nat) (l : List Nat) : Option Nat × List Nat := (l[k]?, l.eraseIdx k)

/-- The eight manufacture spares of compute die `d`, as local site numbers (R17, R581): eight distinct numbers below 208. -/
def mfgSpares (d : Nat) : List Nat :=
  ((List.range 8).foldl (fun (acc : List Nat × List Nat) j =>
    let k := Config.spareSeed (8 * d + j) % (208 - j)
    match pick k acc.2 with
    | (some x, r) => (acc.1 ++ [x], r)
    | (none, r) => (acc.1, r)) ([], List.range 208)).1

/-- The site of logical core `c` as first assigned: the die's active sites in ascending order (R17). -/
def firstSite (c : Nat) : Nat :=
  let d := c / 200
  let free := (List.range 208).filter fun x => !(mfgSpares d).contains x
  d * 208 + free.getD (c % 200) 0

/-- The physical site of a logical core; none when the core is vacant (R17, R506). -/
def Dev.siteOf (d : Dev) (c : Nat) : Option Nat :=
  match Table.get? d.objects.siteMap c with
  | some x => x
  | none => some (firstSite c)

def Dev.vacant (d : Dev) (c : Nat) : Bool := (d.siteOf c).isNone

/-- The logical core at a physical site, if any. -/
def Dev.coreAt (d : Dev) (site : Nat) : Option Nat :=
  ((List.range 200).map (· + 200 * (site / 208))).find? fun c => decide (d.siteOf c = some site)

/-- Compute die of a site. -/
def siteDie (x : Nat) : Nat := x / 208

/-- Page of a per-core type for a logical core's site; a vacant core has none. -/
def Dev.corePage (d : Dev) (type c : Nat) : Option Nat := (d.siteOf c).map (pageOf type)

/-- Set an event, or advance a counter, on the page of a logical core's site. -/
def State.coreEvent (type c bitNo : Nat) (s : State) : State :=
  match s.dev.corePage type c with
  | some p => s.setEvent p bitNo
  | none => s

def State.coreBump (type c off n : Nat) (s : State) : State :=
  match s.dev.corePage type c with
  | some p => s.bump p off n
  | none => s

/-! ### Sites -/

/-- A site's role: as recorded, or as manufactured (R17). -/
def Dev.site (d : Dev) (x : Nat) : Site :=
  match Table.get? d.reliab.sites x with
  | some v => v
  | none => { state := if (mfgSpares (x / 208)).contains (x % 208) then .spare else .active }

/-- Is a logical core active: it has a site, and that site is active (R503, R505)? -/
def Dev.coreActive (d : Dev) (c : Nat) : Bool :=
  match d.siteOf c with
  | some x => decide ((d.site x).state = .active)
  | none => false

/-- Active cores of a die. -/
def Dev.activeCores (d : Dev) (die : Nat) : List Nat := ((List.range 200).map (· + 200 * die)).filter d.coreActive

/-! ### Vault lines (R396, R500) -/

/-- Lines of a frame, and the first lines of the direct region and of the state pool, which follow the 11 frames of the flow slice and, past the
book share, each other (R394). -/
abbrev frameLines := 32768
abbrev directBase := 11 * frameLines
abbrev poolBase := 13 * frameLines

/-- The line of the vault in which a state slot begins (R339). -/
def poolLine (slot : Nat) : Nat := poolBase + 128 * slot

/-- The lines of a model page, which the device places in frames of its choice, are numbered past every line of the fixed regions. -/
abbrev pageLine (addr : Nat) : Nat := 2 ^ 41 + addr / 64

/-- The ply in which an uncorrectable error of a core's vault line was last found, if it has one. -/
def Dev.badLine (d : Dev) (core line : Nat) : Option Nat :=
  match d.siteOf core with
  | some x => (d.reliab.badLines.find? fun f => decide (f.1 = x ∧ f.2.1 = line)).map (·.2.2)
  | none => none

/-- Note an error of a line in the vault of a site, whoever reads it: the site's stream page counts it, an uncorrectable one once a ply (R396, R415,
R416). The fourth corrected error of a row in a scrub pass, or an uncorrectable line, makes the row wait for a spare, and the site's stream page is
FAULTED until then (R62). -/
def State.siteLineErr (x line err : Nat) (s : State) : State :=
  let pg := pageOf tStream x
  let again : Bool := s.dev.reliab.badLines.any fun f => decide (f = (x, line, s.now))
  let s := if err = 1 then s.bump pg (0x80 + 8 * 9) 1 else if err = 2 ∧ !again then (s.bump pg (0x80 + 8 * 10) 1).setEvent pg 1 else s
  let row := Config.vaultRow line
  let known := s.dev.reliab.vaultFailed.any fun f => decide (f.1 = x ∧ f.2.1 = row)
  let n := Table.get 0 s.dev.reliab.rowErrors (x * 2 ^ 32 + row) + 1
  let s := if err = 1 then s.onPower fun p => { p with dies := Table.modify {} p.dies (x / 208) fun t => { t with lines := t.lines + 1 } } else s
  let fails := decide (!known ∧ (err = 2 ∨ (err = 1 ∧ 4 ≤ n)))
  let s := if fails || decide (err = 2) then s.setFaulted (pageOf tStream x) true else s
  s.onReliab fun r =>
    { r with
      rowErrors := if err = 1 then Table.put r.rowErrors (x * 2 ^ 32 + row) n else r.rowErrors
      badLines := if err = 2 then (r.badLines.filter fun f => decide (f.1 ≠ x ∨ f.2.1 ≠ line)) ++ [(x, line, s.now)] else r.badLines
      vaultFailed := if fails then r.vaultFailed ++ [(x, row, s.now)] else r.vaultFailed }

def State.lineErr (core line err : Nat) (s : State) : State :=
  if err = 0 then s else match s.dev.siteOf core with
    | some x => s.siteLineErr x line err
    | none => s

/-! ### Channels -/

def Dev.chan (d : Dev) (n : Nat) : Channel := Table.get {} d.objects.channels n
def State.chan (s : State) (n : Nat) : Channel := s.dev.chan n
def State.onChan (n : Nat) (f : Channel → Channel) (s : State) : State :=
  s.onObjects fun o => { o with channels := Table.modify {} o.channels n f }

def Dev.chanHandle (d : Dev) (n : Nat) : Nat := handleOf 1 (d.chan n).hgen n

/-- Is a channel slot's handle current: allocated and not draining (R173, R181)? -/
def Channel.live (c : Channel) : Bool := decide (c.state = .unbound ∨ c.state = .bound)

/-- The channel slot a handle names, if the handle is current (R173). -/
def Dev.chanOf (d : Dev) (h : Nat) : Option Nat :=
  let n := h % 4096
  if h / 16777216 = 1 ∧ (d.chan n).live ∧ h / 4096 % 4096 = (d.chan n).hgen then some n else none

/-- The channel a host command's handle names: a handle goes stale in the ply after the destroy (R48, R181). -/
def State.chanOf (h : Nat) (s : State) : Option Nat := s.start.chanOf h

/-- Fields of the descriptor (R175). -/
def Channel.flag (c : Channel) (i : Nat) : Bool := bit (Bytes.at c.desc 4) i
def Channel.pinned (c : Channel) : Bool := c.flag 0
def Channel.symmetric (c : Channel) : Bool := c.flag 1
def Channel.redDrop (c : Channel) : Bool := c.flag 2
def Channel.rwDscp (c : Channel) : Bool := c.flag 3
def Channel.rwPcp (c : Channel) : Bool := c.flag 4
def Channel.rwShim (c : Channel) : Bool := c.flag 5
def Channel.flowPath (c : Channel) : Bool := c.flag 6
def Channel.keyKind (c : Channel) : Nat := Bytes.at c.desc 5 % 4
def Channel.keyLevel (c : Channel) : Nat := Bytes.at c.desc 5 / 4 % 4
def Channel.ctxSrc (c : Channel) : Nat := Bytes.at c.desc 5 / 16 % 4
def Channel.priority (c : Channel) : Nat := Bytes.le c.desc 6 2 % 4096
def Channel.seed (c : Channel) : Nat := Bytes.le c.desc 8 4
def Channel.ports (c : Channel) : Nat := Bytes.le c.desc 12 4
def Channel.selValue (c : Channel) : Nat := Bytes.le c.desc 16 10
def Channel.selMask (c : Channel) : Nat := Bytes.le c.desc 26 10

/-- Port die that owns the channel's rings: that of its lowest port (R182). -/
def Channel.die (c : Channel) : Nat := match (List.range 32).find? fun i => bit c.ports i with
  | some i => i / 16
  | none => 0

/-- Set bits of a core set, ascending (R176). -/
def coreList (b : Bytes) : List Nat := (List.range 800).filter fun i => bit (Bytes.at b (i / 8)) (i % 8)

/-- Advance counter `e` of a channel page (R199). -/
def State.chanCount (n e k : Nat) (s : State) : State := s.bump (channelPage n) (0x80 + 8 * e) k

/-- The slots that are allocated, draining ones included. -/
def Dev.usedChans (d : Dev) : List (Nat × Channel) := d.objects.channels.filter fun e => decide (e.2.state ≠ .free)

/-- Checks of a descriptor's fields, in ascending order of offset (R175, R176); `o` is the descriptor's offset in the body. -/
def Dev.descBad (d : Dev) (b : Bytes) : Option Nat :=
  let size (v : Nat) : Bool := decide (v ≠ 0 ∧ (v < 6 ∨ 24 < v))
  let cores := coreList (b.drop 40)
  (firstBad
    [(decide (Bytes.le b 0 2 ≠ 1), 0), (decide (Bytes.le b 2 2 ≠ 0), 2), (bit (Bytes.at b 4) 7, 4),
     (decide (Bytes.at b 5 % 4 = 3), 5), (decide (Bytes.at b 5 / 16 % 4 = 3), 5), (decide (64 ≤ Bytes.at b 5), 5),
     (decide (4096 ≤ Bytes.le b 6 2), 7), (decide (Bytes.le b 12 4 = 0), 12),
     (size (Bytes.at b 36), 36), (size (Bytes.at b 37), 37), (size (Bytes.at b 38), 38), (decide (Bytes.at b 39 ≠ 0), 39),
     (cores.isEmpty || cores.any d.vacant, 40), (decide (Bytes.le b 140 4 ≠ 0), 140)]).map (· + 4)

/-- Is there room for a pinned channel on its cores (R178)? -/
def Dev.pinnedRoom (d : Dev) (cores : List Nat) : Bool :=
  let pinned := d.usedChans.filter fun e => e.2.pinned
  decide (pinned.length < 64) && cores.all fun c => decide ((pinned.filter fun e => e.2.cores.contains c).length < 4)

/-- Allocate one of a channel's rings; size 0 asks for none. -/
def State.chanRing (die : Nat) (use : RingUse) (v : Nat) (host : Bool) (s : State) : State × Option Nat :=
  if v = 0 then (s, none) else s.allocRing die use v host

/-- Set a channel page's counters to 0 (R199). -/
def State.zeroChan (n : Nat) (s : State) : State := State.each (List.range 8) (fun e s => s.setCtr (channelPage n) (0x80 + 8 * e) 0) s

/-- Rings that a descriptor asks for. -/
def ringsWanted (b : Bytes) : Nat := ([Bytes.at b 36, Bytes.at b 37, Bytes.at b 38].filter fun v => decide (v ≠ 0)).length

/-- Frames that the rings of a descriptor take (R182). -/
def framesWanted (b : Bytes) : Nat := (([Bytes.at b 36, Bytes.at b 37, Bytes.at b 38].filter fun v => decide (v ≠ 0)).map ringFramesOf).sum

/-- Ring slots free on a port die. -/
def Dev.ringRoom (d : Dev) (die : Nat) : Nat := if die = 0 then d.objects.ringPool0.room 32768 else d.objects.ringPool1.room 65536

/-- The channel that a descriptor describes. -/
def newChannel (b : Bytes) : Channel := { state := .unbound, desc := b, cores := coreList (b.drop 40) }

/-- Is there no room for a channel: the pinned limit, the slots of the rings it asks for, or their storage (R178)? -/
def Dev.noRoom (d : Dev) (b : Bytes) : Bool :=
  let new := newChannel b
  (new.pinned && !d.pinnedRoom new.cores) || decide (d.ringRoom new.die < ringsWanted b) || d.ringShort (framesWanted b)

/-- Set up a channel in a slot taken from the pool: its rings, its counters at 0, and its host slots empty (R178, R199). -/
def State.setupChan (n : Nat) (b : Bytes) (s : State) : State :=
  let new := newChannel b
  let ans := s.chanRing new.die .result (Bytes.at b 36) false
  let s := ans.1
  let a := ans.2
  let ans := s.chanRing new.die .log (Bytes.at b 37) false
  let s := ans.1
  let l := ans.2
  let ans := s.chanRing new.die .feature (Bytes.at b 38) true
  let s := ans.1
  let i := ans.2
  let s := (s.onChan n fun q => { new with hgen := q.hgen, result := a, log := l, input := i }).zeroChan n
  s.onCompute fun y => { y with hostSlots := y.hostSlots.filter fun e => decide (e.1 / 64 ≠ n) }

/-- CHANNEL_CREATE (R178, R179). A standby refuses it with BUSY (R520). -/
def execChannelCreate (sess : Nat) (s : State) : Host.Outcome State Fault Refusal :=
  .next (s.command sess 0x20 fun x c s =>
    if s.dev.pair.role = .standby then s.complete sess 0x20 stBusy 0 [] else
    if Bytes.le c.body 0 4 ≠ 144 ∨ c.body.length ≠ 148 then s.complete sess 0x20 stBadLength 0 []
    else
      let b := c.body.drop 4
      match s.dev.descBad b with
      | some o => s.complete sess 0x20 stBadField o []
      | none => s.sized x c 4 fun s =>
        match s.dev.objects.chanPool.take 4096 with
        | none => s.complete sess 0x20 stNoRoom 0 []
        | some (n, pool) =>
          if s.dev.noRoom b then s.complete sess 0x20 stNoRoom 0 []
          else
            let s := (s.onObjects fun o => { o with chanPool := pool }).setupChan n b
            let s := s.mirror 1 0 (toLE 4 (s.dev.chanHandle n) ++ zeros 4 ++ b)
            s.complete sess 0x20 stOK 0 (toLE 4 (s.dev.chanHandle n)))

/-- A quench ceases: its QID becomes free (R109, R110). -/
def State.endQuench (q : Nat) (s : State) : State :=
  s.onSelid fun x => { x with quench := Table.erase x.quench q, qids := x.qids.release q }

/-- Destroy a channel: it drains, and its quenches and staging operations end (R181). -/
def State.destroyChan (n : Nat) (s : State) : State :=
  let s := s.onChan n fun q => { q with state := .draining, destroyed := some s.now }
  let s := State.each ((s.dev.selid.quench.filter fun e => decide (e.2.chan = some n)).map (·.1)) State.endQuench s
  State.each ((s.dev.objects.stages.filter fun e => decide (e.2.chan = some n ∧ e.2.state ≠ .free)).map (·.1)) State.discardStage s

/-- CHANNEL_DESTROY (R181). A standby refuses it with BUSY (R520). -/
def execChannelDestroy (sess : Nat) (s : State) : Host.Outcome State Fault Refusal :=
  .next (s.command sess 0x21 fun _ c s =>
    if s.dev.pair.role = .standby then s.complete sess 0x21 stBusy 0 [] else
    if c.body.length ≠ 4 then s.complete sess 0x21 stBadLength 0 []
    else match s.chanOf (Bytes.le c.body 0 4) with
      | none => s.complete sess 0x21 stBadHandle 0 []
      | some n =>
        if !(s.chan n).live then s.complete sess 0x21 stOK 0 [] else
        let s := s.mirror 2 0 (toLE 4 (s.dev.chanHandle n) ++ zeros 4)
        (s.destroyChan n).complete sess 0x21 stOK 0 [])

/-! ### Generations -/

/-- Key of a generation in the table of generations. -/
def genKey (deep : Bool) (target gen : Nat) : Nat := (if deep then 1048576 else 0) + target * 256 + gen

def Dev.gen? (d : Dev) (deep : Bool) (target gen : Nat) : Option Generation := Table.get? d.objects.gens (genKey deep target gen)

/-- Retire a generation (R435, R441): its resources go with its record; RETIRED is set and RETIREMENTS advances. When several are retired
in one ply, RETIRED_LAST names the channel generation of the lowest slot, or the deep-model one. -/
def State.retireGen (deep : Bool) (target gen : Nat) (s : State) : State :=
  let w := BitVec.ofNat 32 ((if deep then 2 else 1) * 2 ^ 30 + gen * 4096 + target)
  let o := s.dev.objects
  let better : Bool := decide (o.retiredPly ≠ s.now) || decide (w.toNat / 2 ^ 30 < o.retiredLast.toNat / 2 ^ 30) ||
    (decide (w.toNat / 2 ^ 30 = o.retiredLast.toNat / 2 ^ 30) && decide (w.toNat % 4096 < o.retiredLast.toNat % 4096))
  let s := s.onObjects fun o =>
    { o with
      gens := Table.erase o.gens (genKey deep target gen)
      gone := match Table.get? o.gens (genKey deep target gen) with
        | some g => Table.put o.gone (genKey deep target gen) g
        | none => o.gone
      leaving := o.leaving ++ (match Table.get? o.gens (genKey deep target gen) with
        | some g => g.quarters
        | none => [])
      retiredLast := if better then w else o.retiredLast
      retiredPly := s.now }
  let s := s.onCompute fun c => 
    { c with retired := c.retired.filter fun e => decide (e.1 ≠ genKey deep target gen)
             loading := c.loading.filter fun e => decide (e.1 ≠ genKey deep target gen) }
  (s.bump pgStaging (0xC0 + 8 * 5) 1).setEvent pgStaging 2

/-- Does any packet still refer to the channel (R181)? -/
def Dev.chanBusy (d : Dev) (n hgen : Nat) : Bool := d.traffic.packets.any fun e => decide (e.2.chan = some (n, hgen)) && !e.2.gone

/-- Generations a channel holds. -/
def Dev.chanGens (d : Dev) (n : Nat) : List Generation := (d.objects.gens.filter fun e => decide (e.2.kind = 1 ∧ e.2.target = n)).map (·.2)

/-- The draining of a channel ends (R181), in the first ply from p + 1 in which no packet refers to it, and at the latest at p + 1 + B + 156,250. -/
def State.drainEnds (n : Nat) (s : State) : State :=
  let c := s.chan n
  match c.destroyed with
  | none => s
  | some p =>
    let b := ((s.dev.chanGens n).map (·.bound)).foldl max 0
    if c.state ≠ .draining ∨ s.now ≤ p ∨ (s.dev.chanBusy n c.hgen ∧ s.now < p + 1 + b + plies100us) then s
    else
      let s := State.each (s.dev.chanGens n) (fun g s => s.retireGen false n g.gen) s
      let s := State.each [c.result, c.log, c.input] (fun r s => match r with | some k => s.freeRing k | none => s) s
      let s := s.onObjects fun o =>
        { o with channels := Table.set {} o.channels n { hgen := (c.hgen + 1) % 4096 }, chanPool := o.chanPool.release n }
      (s.zeroChan n).setEvent (channelPage n) 2

/-- CHANNEL_DRAINED (R181). -/
def execChannelDrained (n : Nat) (s : State) : Host.Outcome State Fault Refusal := .next (s.drainEnds n)

/-- Channels whose draining may end in the ply end it, commanded or not (R181). -/
def State.settleDrains (s : State) : State :=
  State.each (s.dev.objects.channels.filter fun e => e.2.destroyed.isSome) (fun e s => s.drainEnds e.1) s

/-! ### The channel page -/

def ChanState.code (c : ChanState) : Nat :=
  match c with
  | .free => 0 | .unbound => 1 | .bound => 2 | .draining => 3

/-- Read of a block register of a channel page (R199, R200). While the slot is free they read 0. -/
def Dev.chanRead (d : Dev) (n off : Nat) : Word :=
  let c := d.chan n
  let ringHandle (r : Option Nat) : Nat := match r with
    | some k => d.ringHandle k
    | none => 0
  if c.state = .free then 0
  else if 0x80 ≤ off ∧ off < 0xC0 then
    let v := d.ctr (channelPage n) (off / 8 * 8)
    if off % 8 = 0 then v.setWidth 32 else (v >>> 32).setWidth 32
  else BitVec.ofNat 32 (match off with
    | 0x40 => c.gen * 256 + b2n c.degraded * 8 + b2n c.pinned * 4 + c.state.code
    | 0x44 => d.chanHandle n
    | 0x48 => ringHandle c.result
    | 0x4C => ringHandle c.log
    | 0x50 => ringHandle c.input
    | 0x54 => c.bound
    | 0x58 => if c.degraded then c.rate else 0
    | 0x5C => c.cores.length
    | _ => 0)

end Sys2Proof.Machine
end

