-- ==== Sys2Proof/Machine/Parser.lean ====
section
/-! DEFINITION. The parser (R146 to R154), the selector key (R155), the header vector (R152), flow keys (R153, R154) and the parser page
(R170, R171). -/
namespace Sys2Proof.Machine

/-- What the parser knows of one level (R147). -/
structure Level where
  eth : Option Nat := none
  ip : Option Nat := none
  /-- IP version, 4 or 6; 0 when no network header was parsed. -/
  ver : Nat := 0
  proto : Nat := 0
  l4 : Option Nat := none
  /-- A TCP or UDP header was parsed. -/
  ported : Bool := false
  sport : Nat := 0
  dport : Nat := 0
  src : Bytes := zeros 16
  dst : Bytes := zeros 16
  tos : Nat := 0
  ttl : Nat := 0
  ipLen : Nat := 0
  tcpFlags : Nat := 0
  icmpType : Nat := 0
  window : Nat := 0
  ipId : Nat := 0
  flowLabel : Nat := 0
  /-- Tunnel ID of the header that opens the level, when it carries one. -/
  tid : Option Nat := none
  spi : Option Nat := none
  deriving DecidableEq, Repr, Inhabited

/-- What the parser has gathered of a frame. -/
structure Parse where
  off : Nat := 0
  exc : Nat := 0
  present : Nat := 0
  /-- Levels opened, outermost first; the last is the one being parsed. -/
  levels : List Level := [{}]
  tags0 : Nat := 0
  outerTci : Option Nat := none
  labels : Nat := 0
  topLabel : Nat := 0
  firstIp : Option Nat := none
  firstL4 : Option Nat := none
  firstTunnel : Option Nat := none
  esp : Option Nat := none
  limitTid : Nat := 0
  deriving DecidableEq, Repr, Inhabited

/-- The pair's configuration and the frame's bounds (R148, R170). -/
structure ParseCfg where
  bytes : Bytes
  /-- One past the last byte that may be parsed. -/
  last : Nat
  depth : Nat
  tunnels : Nat
  vxlan : Nat
  geneve : Nat
  gtpu : Nat
  deriving DecidableEq, Repr

/-- Exception flags (R152). -/
abbrev xTruncated := 0
abbrev xDepth := 1
abbrev xTunnel := 2
abbrev xTag := 3
abbrev xMpls := 4
abbrev xUnknown := 5
abbrev xBadL3 := 6
abbrev xFragment := 7
abbrev xFirstFragment := 8
abbrev xEsp := 9
abbrev xKeyPartial := 10
abbrev xRecirc := 11
abbrev xGenMoved := 12
abbrev xCaptureShort := 13

def setBitNat (v i : Nat) : Nat := if bit v i then v else v + 2 ^ i

def Parse.flag (i : Nat) (p : Parse) : Parse := { p with exc := setBitNat p.exc i }
def Parse.has (i : Nat) (p : Parse) : Parse := { p with present := setBitNat p.present i }
def Parse.level (p : Parse) : Level := p.levels.getLast?.getD {}
def Parse.onLevel (f : Level → Level) (p : Parse) : Parse := { p with levels := p.levels.dropLast ++ [f p.level] }

/-- What the parser looks for next. -/
inductive Next where
  | eth
  | etype (ty tags : Nat)
  | mpls (n : Nat)
  /-- IP by its first nibble, after MPLS or GTP-U. -/
  | nibble
  | ip4 (opens : Bool)
  | ip6 (opens : Bool)
  | proto (p : Nat)
  | udpPayload
  | done
  deriving DecidableEq, Repr

/-- A header of `len` bytes at the current offset that does not end within the frame or DEPTH sets the flags (R148). -/
def Parse.short (c : ParseCfg) (len : Nat) (p : Parse) : Option Parse :=
  let e := p.off + len
  if e ≤ c.last ∧ e ≤ c.depth then none
  else
    let p := if c.last < e then p.flag xTruncated else p
    some (if c.depth < e then p.flag xDepth else p)

/-- Is the byte at an offset within the frame and DEPTH? -/
def Parse.peek (c : ParseCfg) (o : Nat) (_ : Parse) : Bool := decide (o < c.last ∧ o < c.depth)

/-- A level-opening header at the current offset (R147): the parser stops at it when TUNNELS have been passed. -/
def Parse.limited (c : ParseCfg) (len : Nat) (tid : Option Nat) (p : Parse) : Option Parse :=
  if p.levels.length ≤ c.tunnels then none
  else some { p.flag xTunnel with
    limitTid := if p.off + len ≤ c.last ∧ p.off + len ≤ c.depth then tid.getD 0 else 0 }

/-- Open a level with a header of `len` bytes (R147). -/
def Parse.openLevel (len : Nat) (tid : Option Nat) (p : Parse) : Parse :=
  { p with levels := p.levels ++ [{ tid }], firstTunnel := some (p.firstTunnel.getD p.off), off := p.off + len }

/-- Meet a tunnel header: limit, length, then the level and what follows. -/
def Parse.tunnel (c : ParseCfg) (len : Nat) (tid : Option Nat) (present : Nat) (next : Next) (p : Parse) : Parse × Next :=
  match p.limited c len tid with
  | some p => (p, .done)
  | none => match p.short c len with
    | some p => (p, .done)
    | none => ((p.openLevel len tid).has present, next)

/-- What a GENEVE or GRE protocol field names (R146); none sets UNKNOWN_NEXT. -/
def innerProto (ty : Nat) (mpls : Bool) : Option Next :=
  if ty = 0x6558 then some .eth
  else if ty = 0x0800 then some (.ip4 false)
  else if ty = 0x86DD then some (.ip6 false)
  else if mpls ∧ ty = 0x8847 then some (.mpls 0)
  else none

/-- After a tunnel header whose protocol field names nothing known. -/
def Parse.follow (n : Option Next) (r : Parse × Next) : Parse × Next :=
  match n, r.2 with
  | some _, _ => r
  | none, .eth => (r.1.flag xUnknown, .done)
  | none, _ => r

/-- Length of a GTP-U header with its optional fields and extension headers (R146); `o` is where the next extension would be, and `fuel` the bytes
there are, of which each extension takes four or more. An extension that begins at the end of the frame or beyond takes the header past it (R148).
DESIGN CHOICE (log entry 158): an extension header of length 0 ends the chain. -/
def gtpuLen (b : Bytes) (last start : Nat) (fuel ty o : Nat) : Nat :=
  match fuel with
  | 0 => o - start
  | k + 1 => if ty = 0 then o - start else if last ≤ o then o + 4 - start else
    let n := 4 * Bytes.at b o
    if n = 0 then o - start else gtpuLen b last start k (Bytes.at b (o + n - 1)) (o + n)

/-- One header. -/
def parseStep (c : ParseCfg) (n : Next) (p : Parse) : Parse × Next :=
  let b := c.bytes
  let o := p.off
  match n with
  | .done => (p, .done)
  | .eth =>
    match p.short c 14 with
    | some p => (p, .done)
    | none => ({ ((p.has 0).onLevel fun l => { l with eth := some o }) with off := o + 12 }, .etype (Bytes.be b (o + 12) 2) 0)
  | .etype ty tags =>
    -- `off` stands at the EtherType
    if ty = 0x8100 ∨ ty = 0x88A8 ∨ ty = 0x9100 then
      -- a tag's header starts at the EtherType that names it, and the next EtherType follows its four bytes (the example under R159)
      if tags = 4 then (p.flag xTag, .done)
      else match p.short c 4 with
        | some p => (p, .done)
        | none =>
          let tci := Bytes.be b (o + 2) 2
          let first := p.levels.length = 1
          let q := { p.has 1 with
             off := o + 4
             tags0 := if first then p.tags0 + 1 else p.tags0
             outerTci := if first ∧ tags = 0 then some tci else p.outerTci }
          match q.short c 2 with
          | some q => (q, .done)
          | none => (q, .etype (Bytes.be b (o + 4) 2) (tags + 1))
    else
      let q := { p with off := o + 2 }
      if ty = 0x8847 ∨ ty = 0x8848 then (q, .mpls 0)
      else if ty = 0x0800 then (q, .ip4 false)
      else if ty = 0x86DD then (q, .ip6 false)
      else (q.flag xUnknown, .done)
  | .mpls k =>
    if p.labels = 8 then (p.flag xMpls, .done)
    else match p.short c 4 with
      | some p => (p, .done)
      | none =>
        let w := Bytes.be b o 4
        let q := { p.has 2 with off := o + 4, labels := p.labels + 1, topLabel := if p.labels = 0 then w else p.topLabel }
        if bit w 8 then (q, .nibble) else (q, .mpls (k + 1))
  | .nibble =>
    match p.short c 1 with
    | some p => (p, .done)
    | none =>
      if Bytes.at b o / 16 = 4 then (p, .ip4 false)
      else if Bytes.at b o / 16 = 6 then (p, .ip6 false)
      else (p, .done)
  | .ip4 opens =>
    match (if opens then p.limited c (Bytes.at b o % 16 * 4) none else none) with
    | some p => (p, .done)
    | none => match p.short c 20 with
      | some p => (p, .done)
      | none =>
        let ihl := Bytes.at b o % 16
        if Bytes.at b o / 16 ≠ 4 ∨ ihl < 5 then (p.flag xBadL3, .done)
        else match p.short c (4 * ihl) with
          | some p => (p, .done)
          | none =>
            let q := if opens then p.openLevel 0 none else p
            let fr := Bytes.be b (o + 6) 2
            let q := (q.has 3).onLevel fun l =>
              { l with ip := some o, ver := 4, proto := Bytes.at b (o + 9), src := zeros 12 ++ Bytes.slice b (o + 12) 4,
                       dst := zeros 12 ++ Bytes.slice b (o + 16) 4, tos := Bytes.at b (o + 1), ttl := Bytes.at b (o + 8),
                       ipLen := Bytes.be b (o + 2) 2, ipId := Bytes.be b (o + 4) 2 }
            let q := { q with off := o + 4 * ihl, firstIp := some (q.firstIp.getD o) }
            if fr % 8192 ≠ 0 then (q.flag xFragment, .done)
            else ((if bit fr 13 then q.flag xFirstFragment else q), .proto (Bytes.at b (o + 9)))
  | .ip6 opens =>
    match (if opens then p.limited c 40 none else none) with
    | some p => (p, .done)
    | none => match p.short c 40 with
      | some p => (p, .done)
      | none =>
        if Bytes.at b o / 16 ≠ 6 then (p.flag xBadL3, .done)
        else
          let q := if opens then p.openLevel 0 none else p
          let w := Bytes.be b o 4
          let q := (q.has 4).onLevel fun l =>
            { l with ip := some o, ver := 6, proto := Bytes.at b (o + 6), src := Bytes.slice b (o + 8) 16, dst := Bytes.slice b (o + 24) 16,
                     tos := bits w 27 20, ttl := Bytes.at b (o + 7), ipLen := min 65535 (Bytes.be b (o + 4) 2 + 40), flowLabel := w % 1048576 }
          ({ q with off := o + 40, firstIp := some (q.firstIp.getD o) }, .proto (Bytes.at b (o + 6)))
  | .proto pr =>
    let v6 := p.level.ver = 6
    let q := p.onLevel fun l => { l with proto := pr }
    if v6 ∧ (pr = 0 ∨ pr = 43 ∨ pr = 60 ∨ pr = 51 ∨ pr = 44) then
      match q.short c 8 with
      | some p => (p, .done)
      | none =>
        let len := if pr = 44 then 8 else if pr = 51 then (Bytes.at b (o + 1) + 2) * 4 else (Bytes.at b (o + 1) + 1) * 8
        match q.short c len with
        | some p => (p, .done)
        | none =>
          let q := { q.has 5 with off := o + len }
          let nh := Bytes.at b o
          if pr = 44 then
            if Bytes.be b (o + 2) 2 / 8 ≠ 0 then ((q.onLevel fun l => { l with proto := nh }).flag xFragment, .done)
            else (q.flag xFirstFragment, .proto nh)
          else (q, .proto nh)
    else if pr = 17 then
      match q.short c 8 with
      | some p => (p, .done)
      | none =>
        let q := (q.has 6).onLevel fun l => { l with l4 := some o, ported := true, sport := Bytes.be b o 2, dport := Bytes.be b (o + 2) 2 }
        ({ q with off := o + 8, firstL4 := some (q.firstL4.getD o) }, .udpPayload)
    else if pr = 6 then
      match q.short c 20 with
      | some p => (p, .done)
      | none => match q.short c (4 * (Bytes.at b (o + 12) / 16)) with
        | some p => (p, .done)
        | none =>
          let q := (q.has 7).onLevel fun l =>
            { l with l4 := some o, ported := true, sport := Bytes.be b o 2, dport := Bytes.be b (o + 2) 2,
                     tcpFlags := Bytes.at b (o + 13), window := Bytes.be b (o + 14) 2 }
          ({ q with off := o + max 20 (4 * (Bytes.at b (o + 12) / 16)), firstL4 := some (q.firstL4.getD o) }, .done)
    else if pr = 1 ∨ pr = 58 then
      match q.short c 4 with
      | some p => (p, .done)
      | none =>
        let q := (q.has (if pr = 1 then 8 else 9)).onLevel fun l => { l with l4 := some o, icmpType := Bytes.at b o }
        ({ q with off := o + 4, firstL4 := some (q.firstL4.getD o) }, .done)
    else if pr = 4 then (q, .ip4 true)
    else if pr = 41 then (q, .ip6 true)
    else if pr = 47 then
      match q.short c 4 with
      | some r =>
        if q.peek c (o + 1) ∧ Bytes.at b (o + 1) % 8 ≠ 0 then (q.flag xUnknown, .done)
        else match q.limited c 4 none with
          | some l => (l, .done)
          | none => (r, .done)
      | none =>
        let fl := Bytes.at b o
        if Bytes.at b (o + 1) % 8 ≠ 0 then (q.flag xUnknown, .done)
        else
          let ty := Bytes.be b (o + 2) 2
          let ko := o + 4 + 4 * b2n (bit fl 7)
          let len := 4 + 4 * b2n (bit fl 7) + 4 * b2n (bit fl 5) + 4 * b2n (bit fl 4)
          let nv := bit fl 5 && decide (ty = 0x6558)
          let tid := if nv then some (Bytes.be b ko 3) else if bit fl 5 then some (Bytes.be b ko 4) else none
          let nx := innerProto ty true
          Parse.follow nx (q.tunnel c len tid (if nv then 13 else 12) (nx.getD .eth))
    else if pr = 50 then
      -- DEDUCED (log entry 159): the ESP header ends after its 8 bytes of SPI and sequence number (RFC 4303)
      match q.short c 8 with
      | some p => (p, .done)
      | none =>
        let q := ((q.has 15).flag xEsp).onLevel fun l => { l with spi := some (l.spi.getD (Bytes.be b o 4)) }
        ({ q with off := o + 8, esp := some (q.esp.getD o) }, .done)
    else (q.flag xUnknown, .done)
  | .udpPayload =>
    let dp := p.level.dport
    if dp = c.vxlan then p.tunnel c 8 (some (Bytes.be b (o + 4) 3)) 10 .eth
    else if dp = c.geneve then
      if p.peek c o ∧ Bytes.at b o / 64 ≠ 0 then (p, .done)
      else match p.short c 8 with
      | some q => match p.limited c 8 none with
        | some l => (l, .done)
        | none => (q, .done)
      | none =>
        let nx := innerProto (Bytes.be b (o + 2) 2) false
        Parse.follow nx (p.tunnel c (8 + 4 * (Bytes.at b o % 64)) (some (Bytes.be b (o + 4) 3)) 11 (nx.getD .eth))
    else if dp = c.gtpu then
      if (p.peek c o ∧ Bytes.at b o / 32 ≠ 1) ∨ (p.peek c (o + 1) ∧ Bytes.at b (o + 1) ≠ 0xFF) then (p, .done)
      else match p.short c 8 with
      | some q => match p.limited c 8 none with
        | some l => (l, .done)
        | none => (q, .done)
      | none =>
        let opt := Bytes.at b o % 8 ≠ 0
        let len := if opt then gtpuLen b c.last o b.length (if bit (Bytes.at b o) 2 then Bytes.at b (o + 11) else 0) (o + 12) else 8
        p.tunnel c len (some (Bytes.be b (o + 4) 4)) 14 .nibble
    else (p, .done)

/-- Parse until nothing follows. -/
def parseLoop (c : ParseCfg) (fuel : Nat) (n : Next) (p : Parse) : Parse :=
  match fuel with
  | 0 => p
  | k + 1 => match parseStep c n p with
    | (p, .done) => p
    | (p, n) => parseLoop c k n p

def parseFrame (c : ParseCfg) : Parse := parseLoop c 160 .eth {}

/-- The innermost level: the deepest whose network header was parsed (R147). -/
def Parse.innermost (p : Parse) : Nat :=
  ((List.range p.levels.length).filter fun i => (p.levels.getD i {}).ip.isSome).foldl max 0

def Parse.at (p : Parse) (i : Nat) : Level := p.levels.getD i {}

/-! ### Selector key and flow keys -/

/-- The 80-bit selector key (R155). -/
def Parse.selectorKey (p : Parse) (serviceTag : Nat) : Nat :=
  let l := p.at p.innermost
  let tci := p.outerTci.getD 0
  tci % 4096 + tci / 8192 * 2 ^ 12 + b2n p.outerTci.isSome * 2 ^ 15 + l.tos / 4 * 2 ^ 16 +
    (if l.ver = 4 then 1 else if l.ver = 6 then 2 else 0) * 2 ^ 22 + (if l.ip.isSome then l.proto else 0) * 2 ^ 24 +
    (if l.ported then l.dport else 0) * 2 ^ 32 + p.innermost * 2 ^ 48 + serviceTag * 2 ^ 60

/-- Compare two byte strings as unsigned octet strings from the lowest offset (R154). -/
def octetsGt (a b : Bytes) : Bool :=
  match a, b with
  | x :: xs, y :: ys => if x = y then octetsGt xs ys else decide (y.toNat < x.toNat)
  | _, _ => false

/-- TUNNEL_ID at a level (R152). -/
def Level.tunnelId (l : Level) : Nat := match l.tid with
  | some t => t
  | none => l.spi.getD 0

/-- Is a service-tag frame's KEY_PARTIAL set (R154): its innermost level is shallower than the key level, or it is a later fragment (log entry 33)? -/
def Parse.tagPartial (p : Parse) (c : Channel) : Bool := decide (p.innermost < c.keyLevel) || bit p.exc xFragment

/-- The flow key (R153, R154), with the level used and KEY_PARTIAL. -/
def Parse.flowKey (p : Parse) (c : Channel) : Bytes × Nat × Bool :=
  let lv := min p.innermost c.keyLevel
  let l := p.at lv
  let short := decide (p.innermost < c.keyLevel)
  let three := decide (c.keyKind = 1)
  let partial_ := short || bit p.exc xFragment || (!three && l.l4.isNone)
  let sp := if three then 0 else if l.ported then l.sport else 0
  let dp := if three then 0 else if l.ported then l.dport else 0
  let swap := c.symmetric && (octetsGt l.src l.dst || (decide (l.src = l.dst) && decide (dp < sp)))
  let ctx := match c.ctxSrc with
    | 1 => (p.outerTci.getD 0) % 4096
    | 2 => l.tunnelId
    | _ => 0
  let a := if swap then l.dst else l.src
  let z := if swap then l.src else l.dst
  let s := if swap then dp else sp
  let d := if swap then sp else dp
  ([byte (b2n three), byte (if l.ip.isSome then l.proto else 0)] ++ toLE 2 s ++ toLE 2 d ++ [byte l.ver, byte (b2n swap + 2 * b2n partial_)] ++
    toLE 4 ctx ++ zeros 4 ++ a ++ z, lv, partial_)

/-- A service-tag key in 48 bytes (R153). -/
def tagKey (tag : Nat) : Bytes := toLE 48 (tag % 1048576)

/-- The steering hash over the seed and key (R158): for a service tag, the 4-byte tag. -/
def steerHash (seed : Nat) (direct : Bool) (key : Bytes) : Nat :=
  (crc32c (toLE 4 seed ++ (if direct then key.take 4 else key))).toNat

/-- Logical core that steering chooses (R158): entry (h × n) >> 32 of the core set. -/
def Channel.steer (c : Channel) (key : Bytes) : Nat :=
  c.cores.getD (steerHash c.seed (decide (c.keyKind = 2)) key * c.cores.length / 2 ^ 32) 0

/-- The cores of the set from the entry that steering names on, modulo its length (R158, R505). -/
def Channel.steerOrder (c : Channel) (key : Bytes) : List Nat :=
  let n := c.cores.length
  let i := steerHash c.seed (decide (c.keyKind = 2)) key * n / 2 ^ 32
  (List.range n).map fun k => c.cores.getD ((i + k) % n) 0

/-! ### The header vector -/

/-- What the vector takes from outside the parse (R152). -/
structure VectorIn where
  timestamp : Nat
  gen : Nat
  port : Nat
  sub : Nat
  handle : Nat
  bufRef : Nat
  exc : Nat
  frameLen : Nat
  serviceTag : Nat
  key : Bytes
  keyLevel : Nat
  deriving DecidableEq, Repr

/-- The 128-byte header vector (R152). -/
def Parse.vector (p : Parse) (v : VectorIn) : Bytes :=
  let l := p.at v.keyLevel
  let off (x : Option Nat) : Bytes := toLE 2 (x.getD 0)
  toLE 6 v.timestamp ++ [byte v.gen, byte (v.port + 64 * v.sub)] ++ toLE 4 v.handle ++ toLE 4 v.bufRef ++ toLE 4 v.exc ++
    toLE 2 v.frameLen ++ toLE 2 p.present ++
    [byte (p.tags0 + 8 * p.innermost + 32 * v.keyLevel), byte p.labels, 0, 0] ++ toLE 4 v.serviceTag ++
    off p.firstIp ++ off p.firstL4 ++ off p.firstTunnel ++ off l.eth ++ off l.ip ++ off l.l4 ++ off p.esp ++ toLE 2 p.off ++
    v.key ++ toLE 2 (p.outerTci.getD 0) ++ [byte l.tos, byte l.ttl] ++ toLE 2 l.ipLen ++ [byte l.tcpFlags, byte l.icmpType] ++
    toLE 4 l.tunnelId ++ toLE 4 p.topLabel ++ toLE 2 l.window ++ toLE 2 l.ipId ++ toLE 4 l.flowLabel ++ toLE 4 p.limitTid ++ zeros 4

/-! ### The parser page -/

abbrev parserPage (die : Nat) : Nat := pageOf tParser die

/-- Read of a block register of a parser page (R170). -/
def Dev.parserRead (d : Dev) (die off : Nat) : Word :=
  if 0x100 ≤ off ∧ off < 0x100 + 8 * 19 then
    let v := d.ctr (parserPage die) (off / 8 * 8)
    if off % 8 = 0 then v.setWidth 32 else (v >>> 32).setWidth 32
  else if (0x40 ≤ off ∧ off < 0x50) ∨ (0x80 ≤ off ∧ off < 0xA0) then d.reg (addrOf (parserPage die) off)
  else 0

/-- Write of a block register of a parser page (R171). -/
def State.parserWrite (die off : Nat) (v : Word) (s : State) : State :=
  let a := addrOf (parserPage die) off
  let n := v.toNat
  if off = 0x40 then
    if n % 65536 = s.rg pgGlobal 0x48 % 65536 ∨ n % 65536 < 0x600 then s else s.setReg a (v &&& 0xFFFF)
  else if off = 0x44 then s.setReg a v
  else if off = 0x48 then s.setReg a (v &&& 0xFFFF)
  else if off = 0x4C then s.setReg a (v &&& 0xFF)
  else if 0x80 ≤ off ∧ off < 0xA0 then
    let old := s.dev.reg a
    let depth := if 8 ≤ n % 128 ∧ n % 128 ≤ 64 then v &&& 0x7F else old &&& 0x7F
    s.setReg a ((v &&& 0xFFFF3C00) ||| depth)
  else s

/-- PAIR_CFG of the pair a line port belongs to (R170). -/
def Dev.pairCfg (d : Dev) (port : Nat) : Nat := d.rg (parserPage (portDie port)) (0x80 + 4 * (port % 16 / 2))

def Dev.shimEtype (d : Dev) (port : Nat) : Nat := d.rg (parserPage (portDie port)) 0x40 % 65536

end Sys2Proof.Machine
end

