-- ==== Sys2Proof/Machine/Images.lean ====
section
/-! DEFINITION. Reading a model image (R420 to R423, R265, R266): sections, the channel binding, the ensemble header and the action table. -/
namespace Sys2Proof.Machine

/-- Offset and length of the first section of a type (R421). -/
def sectionOf? (m : Mem) (ty : Nat) : Option (Nat × Nat) :=
  ((List.range (imgSections m)).find? fun i => decide (img m (64 + 32 * i) 2 = ty)).map fun i =>
    (img m (64 + 32 * i + 8) 8, img m (64 + 32 * i + 16) 8)

/-- Offset of the section of a type, 0 where there is none. -/
def secAt (m : Mem) (ty : Nat) : Nat := match sectionOf? m ty with
  | some (o, _) => o
  | none => 0

/-- A field of a section of a generation's image. -/
def Generation.rd (g : Generation) (ty off n : Nat) : Nat := img g.image (secAt g.image ty + off) n

/-- Fields of the channel binding (R423). -/
def Generation.learn (g : Generation) : Bool := bit (g.rd secBinding 2 1) 1
def Generation.evictRandom (g : Generation) : Bool := bit (g.rd secBinding 2 1) 2
def Generation.usesDeep (g : Generation) : Bool := bit (g.rd secBinding 2 1) 3
def Generation.dm (g : Generation) : Nat := g.rd secBinding 3 1 % 16
def Generation.drain (g : Generation) : Nat := let d := g.rd secBinding 12 4; if d = 0 then plies100us else d
def Generation.pawnTable (g : Generation) : Nat := g.rd secBinding 16 2
def Generation.tokenCount (g : Generation) : Nat := g.rd secBinding 20 1
def Generation.tokenMap (g : Generation) (j : Nat) : Nat := g.rd secBinding (24 + j) 1

/-- Fields of the ensemble header (R266). -/
def Generation.segments (g : Generation) : Nat := g.rd secEnsemble 2 2
def Generation.classes (g : Generation) : Nat := g.rd secEnsemble 4 1 % 32
def Generation.decideThresh (g : Generation) : Bool := bit (g.rd secEnsemble 4 1) 5
def Generation.threshClass (g : Generation) : Nat := g.rd secEnsemble 5 1 % 16
def Generation.defaultAction (g : Generation) : Nat := g.rd secEnsemble 7 1
def Generation.thresh (g : Generation) : Int := sext 32 (g.rd secEnsemble 8 4)
def Generation.bias (g : Generation) (c : Nat) : Int := sext 32 (g.rd secEnsemble (16 + 4 * c) 4)

/-- Action entry `i` (R265), with its PROMOTE bit. -/
def Generation.action (g : Generation) (i : Nat) : Verdict × Bool :=
  let w := g.rd secEnsemble (80 + 4 * i) 4
  ({ cls := w % 65536, queue := bits w 23 16, colour := bits w 25 24, report := bit w 27 }, bit w 26)

/-- The default verdict of a generation (R169, R264). -/
def Generation.default (g : Generation) : Verdict := { (g.action g.defaultAction).1 with deflt := true }

end Sys2Proof.Machine
end

