-- ==== Sys2Proof/Machine/Ingress.lean ====
section
/-! DEFINITION. Frames and verdicts at the port dies: the ordered ingress checks (R145), buffer admission (R135), verdicts by the deadline (R26),
result items (R198), rewriting and egress (R163, R164), and verdict frames (R165, R166). -/
namespace Sys2Proof.Machine

def Dev.packet? (d : Dev) (k : Nat) : Option Packet := Table.get? d.traffic.packets k
def State.onPacket (k : Nat) (f : Packet → Packet) (s : State) : State :=
  s.onTraffic fun t => { t with packets := match Table.get? t.packets k with
    | some p => Table.put t.packets k (f p)
    | none => t.packets }

/-- Drop a packet's record once it has left the device and no verdict is outstanding. -/
def State.settle (k : Nat) (s : State) : State :=
  match s.dev.packet? k with
  | none => s
  | some p => if p.gone ∧ p.stage = .none then s.onTraffic fun t => { t with packets := Table.erase t.packets k } else s

/-- Do a packet's channel slot and generation still name its channel, so that its counters and ring are there? -/
def Dev.packetChan (d : Dev) (p : Packet) : Option (Nat × Channel) :=
  match p.chan with
  | none => none
  | some (n, g) => let c := d.chan n; if c.state ≠ .free ∧ c.hgen = g then some (n, c) else none

/-- Count on the packet's channel page, when its slot still is its channel's. -/
def State.packetCount (p : Packet) (e : Nat) (s : State) : State :=
  if p.replay then s else match s.dev.packetChan p with
  | some (n, _) => s.chanCount n e 1
  | none => s

def State.packetEvent (p : Packet) (b : Nat) (s : State) : State :=
  if p.replay then s else match s.dev.packetChan p with
  | some (n, _) => s.setEvent (channelPage n) b
  | none => s

/-! ### Buffer admission (R135) -/

/-- Bytes of the packet buffer a port holds, all sub-ports together. -/
def Dev.portHeld (d : Dev) (port : Nat) : Nat :=
  ((d.traffic.packets.filter fun e => decide (e.2.port = port)).map fun e => e.2.buffered).sum

/-- Bytes of a die's shared pool in use: what each of its line ports holds beyond its granted reserve, a disabled one's frames included. -/
def Dev.sharedUsed (d : Dev) (die : Nat) (g : List (Nat × Nat)) : Nat :=
  (((List.range 16).map (· + 16 * die)).map fun p => d.portHeld p - ((g.find? fun e => decide (e.1 = p)).map (·.2)).getD 0).sum

/-- Reserves granted to the line ports of a die, in ascending port order: port and bytes. -/
def Dev.granted (d : Dev) (die : Nat) : List (Nat × Nat) :=
  (((List.range 16).map (· + 16 * die)).foldl (fun (acc : List (Nat × Nat) × Nat) p =>
    let q := d.port p
    if !q.enabled then acc
    else let g := min (q.reserve * 65536) (100663296 - acc.2); (acc.1 ++ [(p, g)], acc.2 + g)) ([], 0)).1

/-- Is a frame admitted (R135)? -/
def Dev.admits (d : Dev) (port maxFrame : Nat) : Bool :=
  let g := d.granted (portDie port)
  let mine := ((g.find? fun e => decide (e.1 = port)).map (·.2)).getD 0
  let held := d.portHeld port
  let shared := 100663296 - (g.map (·.2)).sum
  let used := d.sharedUsed (portDie port) g
  decide (held < mine ∨ (held < (d.port port).limit * 65536 ∧ used + maxFrame ≤ shared))

/-! ### Results and verdict records -/

/-- The body of a result item (R198). -/
def resultBody (p : Packet) (v : Verdict) : Bytes :=
  toLE 2 v.cls ++ [byte v.queue, byte p.gen, byte (v.colour + 4 * b2n v.deflt + 8 * b2n p.genMoved + 16 * b2n v.override + 32 * b2n p.recirc),
    byte (p.port + 64 * p.sub)] ++ Bytes.slice p.vector 20 2 ++ Bytes.slice p.vector 0 6 ++ [0, 0] ++ Bytes.slice p.vector 12 4 ++
    toLE 4 p.serviceTag ++ Bytes.slice p.vector 16 4 ++ zeros 4 ++ Bytes.slice p.vector 48 48

/-- Is it a result item written in ply `p`? -/
def Item.resultOf (p : Nat) (i : Item) : Bool := decide (i.kind = 0x10 ∧ i.made = p)

/-- Put an item where its core number takes it. -/
def insertByCore (i : Item) (l : List Item) : List Item :=
  match l with
  | [] => [i]
  | j :: r => if i.core < j.core then i :: j :: r else j :: insertByCore i r

/-- Give the places held by the result items of ply `p`, in turn, what these items hold. -/
def fillPlaces (p : Nat) (places : List Item) (l : List Item) : List Item :=
  match places with
  | [] => []
  | i :: r =>
    if i.resultOf p then (match l with
      | j :: q => { i with info := j.info, body := j.body, core := j.core } :: fillPlaces p r q
      | [] => i :: fillPlaces p r [])
    else i :: fillPlaces p r l

/-- The result items of one ply stand in ascending order of logical core number; one that was refused is the last of them (R190, R198). -/
def Ring.byCore (p : Nat) (refused : List Item) (r : Ring) : Ring :=
  { r with items := fillPlaces p r.items (((r.items.filter (Item.resultOf p)) ++ refused).foldl (fun l i => insertByCore i l) []) }

/-- Form the result item of an applied verdict (R198). -/
def State.formResult (p : Packet) (v : Verdict) (s : State) : State :=
  if !v.report then s
  else match s.dev.packetChan p with
    | none => s
    | some (n, c) => match c.result with
      | none => s
      | some r =>
        let i : Item := { len := 6, kind := 0x10, info := s.now, body := resultBody p v, core := p.core }
        let ans := s.ringPut r i
        let ok := ans.2
        let s := ans.1.onRing r (Ring.byCore s.now (if ok then [] else [{ i with made := s.now }]))
        if ok then s else (s.chanCount n 7 1).setEvent (channelPage n) 3

/-- A verdict record (R165). -/
def recordBody (p : Packet) (v : Verdict) (noChannel : Bool) : Bytes :=
  toBE 4 p.pktRef ++
    toBE 4 (p.serviceTag * 4096 + v.colour * 1024 + b2n v.deflt * 512 + b2n p.genMoved * 256 + b2n v.override * 128 + b2n p.recirc * 64 +
      b2n noChannel * 32) ++
    toBE 2 v.cls ++ [byte v.queue, byte p.gen] ++ toBE 8 p.firstPly ++ zeros 4

/-- A record becomes ready on the summary sub-port (R166). -/
def State.readyRecord (p : Packet) (v : Verdict) (noChannel : Bool) (s : State) : State :=
  let r : VRecord := { body := recordBody p v noChannel, srcMac := p.srcMac, tags := p.tags, shim := p.shim, ready := s.now }
  s.onTraffic fun t => { t with records := Table.modify [] t.records (p.port * 4 + p.sub) fun l => l ++ [r] }

/-! ### Scoresheet records and replayed verdicts (R529, R530, R535) -/

/-- Do SCORE_PORTS and SCORE_CHANNEL select the frames of a port and channel handle? -/
def Dev.scores (d : Dev) (port handle : Nat) : Bool :=
  bit (d.rg pgScore 0x44) port && decide (d.rg pgScore 0x48 = 0 ∨ d.rg pgScore 0x48 = handle)

/-- FLAGS of a verdict record. -/
def verdictFlags (p : Packet) (v : Verdict) : Nat :=
  v.colour % 4 + 4 * b2n v.deflt + 8 * b2n v.override + 16 * b2n p.genMoved + 32 * b2n p.recirc

/-- The verdict record of a verdict that is applied. -/
def State.recordVerdict (p : Packet) (v : Verdict) (s : State) : State :=
  match p.chan with
  | none => s
  | some (n, hg) =>
    let h := handleOf 1 hg n
    if !s.records 3 || !s.start.scores p.port h then s
    else s.scoreItem
      { kind := 2, port := p.port, info := s.now, len := 3
        body := [2, byte (p.port + 64 * p.sub), byte (verdictFlags p v), byte p.gen] ++ toLE 4 h ++ toLE 2 v.cls ++ [byte v.queue, 0] ++
          toLE 6 (p.firstPly % 2 ^ 48) }

/-- The verdict record held for a recorded frame, found by PORT, SUBPORT and TIMESTAMP. -/
def Dev.recordOf (d : Dev) (b : Bytes) : Option Bytes :=
  match d.score.ring with
  | none => none
  | some r => ((d.ring r).held.find? fun i => decide (i.kind = 0x14 ∧ Bytes.at i.body 0 = 2 ∧ Bytes.at i.body 1 = Bytes.at b 1 ∧
      Bytes.slice i.body 12 6 = Bytes.slice b 8 6)).map (·.body)

/-- Counter `e` of the scoresheet page. -/
def State.scoreCount (e : Nat) (s : State) : State := s.bump pgScore (0x80 + 8 * e) 1

/-- A replayed frame's verdict or default is compared with its verdict record (R535). -/
def State.compareReplay (k : Nat) (p : Packet) (v : Verdict) (s : State) : State :=
  match s.dev.score.items.find? fun i => decide (i.packet = some k) with
  | none => s
  | some i =>
    let s := s.onScore fun x => { x with items := x.items.filter fun j => decide (j.packet ≠ some k) }
    match s.dev.recordOf i.body with
    | none => s.scoreCount 5
    | some r =>
      let s := (s.scoreCount 3).onScore fun x => { x with compared := x.compared + 1 }
      let flags := verdictFlags p v
      if Bytes.le r 8 2 = v.cls % 65536 ∧ Bytes.at r 10 = v.queue % 256 ∧ Bytes.at r 2 % 8 = flags % 8 then s
      else
        let s := ((s.scoreCount 4).setEvent pgScore 1).onScore fun x => { x with mismatched := x.mismatched + 1 }
        match s.dev.score.replayRing with
        | none => s
        | some q =>
          (s.ringPut q
            { len := 3, kind := 0x14, info := s.now
              body := [5, byte (Bytes.at i.body 1), 0, 0] ++ Bytes.slice r 4 4 ++ Bytes.slice i.body 8 6 ++ [0, 0] ++ Bytes.slice r 8 3 ++
                [byte (Bytes.at r 2)] ++ toLE 2 v.cls ++ [byte v.queue, byte flags] }).1

/-- Apply a verdict to a packet in this ply (R26): its result item is formed, and in summary mode its record becomes ready. -/
def State.apply (k : Nat) (v : Verdict) (s : State) : State :=
  match s.dev.packet? k with
  | none => s
  | some p =>
    let s := s.onPacket k fun p => { p with applied := some (s.now, v), gone := p.gone || !p.inline }
    if p.replay then s.compareReplay k p v else
    let s := (s.formResult p v).recordVerdict p v
    if p.inline then s else s.readyRecord p v p.chan.isNone

/-! ### FRAME_START -/

/-- The Kwagen shim at the start of a frame (R162): does the frame begin with one? -/
def kwagenShim (etype : Nat) (f : Bytes) : Bool := decide (Bytes.be f 12 2 = etype ∧ Bytes.at f 14 = 0x11)

/-- A received frame leaves the traffic path: it is counted only when its FCS and length hold at the tail (R123). -/
def State.rxAs (port sub : Nat) (kind : RxKind) (f : Bytes) (s : State) : State :=
  (s.heard port sub).onTraffic fun t => { t with rx := Table.put t.rx (port * 4 + sub) { kind, frame := f, start := s.now, maxFrame := s.maxFrame port } }

def State.dropAt (port sub : Nat) (f : Bytes) (good : Bool) (count : State → State) (s : State) : State :=
  let s := s.rxAs port sub .dropped f
  if good then count s else s

/-- What ingress knows of a packet before its channel is selected. -/
structure Arrival where
  port : Nat
  sub : Nat
  inline : Bool
  /-- The whole frame as received, and the packet's frame without FCS. -/
  wire : Bytes
  frame : Bytes
  /-- What the parser reads: the frame, or the captured bytes. -/
  parsed : Bytes
  last : Nat
  frameLen : Nat
  origLen : Nat := 0
  recirc : Bool := false
  firstTs : Nat := 0
  stampGen : Nat := 0
  serviceTag : Nat := 0
  pktRef : Nat := 0
  srcMac : Bytes := []
  tags : Bytes := []
  good : Bool
  replay : Bool := false
  deriving DecidableEq, Repr

/-- The channels whose selector entries match (R155, R157, R179), best first by priority and then slot: judged at the start of the ply. -/
def Dev.select (d : Dev) (now port key : Nat) : Option (Nat × Channel) :=
  let hits := d.objects.channels.filter fun e =>
    decide (e.2.state = .bound ∧ e.2.boundPly < now) && bit e.2.ports port &&
      decide ((BitVec.ofNat 80 key ^^^ BitVec.ofNat 80 e.2.selValue) &&& BitVec.ofNat 80 e.2.selMask = 0)
  hits.foldl (fun best e => match best with
    | none => some e
    | some b => if b.2.priority < e.2.priority then some e else some b) none

/-- What the quenches do to a packet of a channel (R108): some true pass, some false drop. -/
def Dev.quenched (d : Dev) (now port : Nat) (chan : Option Nat) : Option Bool :=
  let hits := d.selid.quench.filter fun e =>
    decide (e.2.effect ≤ now) && (match e.2.until_ with | some u => decide (now < u) | none => true) && bit e.2.ports port &&
      (match e.2.chan with | none => true | some c => decide (chan = some c))
  if hits.isEmpty then none else if hits.any fun e => !e.2.pass then some false else some true

/-- Latest ply at or before `now`, modulo 2^64, whose low 48 bits are `ts` (R41, R168). -/
def fullPly (now ts : Nat) : Nat := (now + 2 ^ 64 - (now + 2 ^ 48 - ts % 2 ^ 48) % 2 ^ 48) % 2 ^ 64

/-- The generation a second pass is evaluated on, and whether GEN_MOVED is set (R168, R436). -/
def Dev.secondPass (d : Dev) (now n : Nat) (c : Channel) (stamp : Nat) : Nat × Bool :=
  if stamp = c.gen then (c.gen, false)
  else match d.gen? false n stamp with
    | some g => if g.state = .draining ∧ now ≤ g.drainFrom + g.drain then (stamp, false) else (c.gen, true)
    | none => (c.gen, true)

/-- Bound of a generation of a channel. -/
def Dev.genBound (d : Dev) (n gen : Nat) : Nat := match d.gen? false n gen with
  | some g => g.bound
  | none => (d.chan n).bound

/-- Advance the parser's counters of the flags set (R170). -/
def State.countExc (die exc : Nat) (s : State) : State :=
  State.each ((List.range 14).filter fun i => bit exc i) (fun i s => s.bump (parserPage die) (0x100 + 8 * i) 1) s

/-- The ingress record of a frame assigned to a channel (R529, R530): its bytes as the parser read them, with the FCS. -/
def State.recordIngress (a : Arrival) (first handle : Nat) (s : State) : State :=
  if a.replay || !s.records 0 || !s.start.scores a.port handle then s
  else
    let whole := if a.inline then a.parsed ++ a.wire.drop (a.wire.length - 4) else a.parsed
    let b := whole.take (min a.frameLen (16 * s.start.score.capture))
    s.scoreItem
      { kind := 1, port := a.port, info := first, len := 2 + (b.length + 15) / 16
        body := [1, byte (a.port + 64 * a.sub)] ++ toLE 2 b.length ++ toLE 2 a.frameLen ++ [0, 0] ++ toLE 6 (first % 2 ^ 48) ++ [0, 0] ++ b }

/-- Steps 6 to 10 of R145 for a frame that entered traffic. `lane` leaves quench, buffer and statistics aside, for the replay lane (R534). DEDUCED
(log entry 155): a received frame's priority under R132 is that of the first tag of its level 0 (R152), behind a shim that is removed. -/
def State.ingress (a : Arrival) (s : State) : State :=
  let st := s.start
  let now := s.now
  let die := portDie a.port
  let cfg := st.pairCfg a.port
  let tp := st.rg (parserPage die) 0x44
  let p := parseFrame { bytes := a.parsed, last := a.last, depth := 8 * (cfg % 128), tunnels := bits cfg 13 12, vxlan := tp % 65536,
                        geneve := tp / 65536, gtpu := st.rg (parserPage die) 0x48 % 65536 }
  let exc := p.exc
  let exc := if a.recirc then setBitNat exc xRecirc else exc
  let exc := if !a.inline && decide (a.parsed.length < a.origLen) && bit exc xTruncated then setBitNat exc xCaptureShort else exc
  let count (s : State) (e : Nat) : State := if a.replay then s else s.countExc die e
  let drop (f : State → State) (s : State) : State := if a.replay then s else s.dropAt a.port a.sub a.wire a.good f
  let s := count s exc
  let s := if a.recirc ∧ !a.replay then s.bump (parserPage die) (0x100 + 8 * 17) 1 else s
  if (List.range 16).any fun i => bit exc i && bit (cfg / 65536) i then
    drop (fun s => (s.bump (parserPage die) (0x100 + 8 * 15) 1).setEvent (parserPage die) 0) s
  else
    let id := s.dev.traffic.nextPacket
    let hit := st.select now a.port (p.selectorKey a.serviceTag)
    let base : Packet :=
      { port := a.port, sub := a.sub, inline := a.inline, frame := a.frame, start := now, firstPly := if a.recirc then fullPly now a.firstTs else now, recirc := a.recirc,
        gen := if a.recirc then a.stampGen else 0, shim := st.shimEtype a.port,
        prio := framePrio (if a.inline then a.frame else a.wire), pktRef := a.pktRef, serviceTag := a.serviceTag, srcMac := a.srcMac, tags := a.tags, replay := a.replay,
        tail := none }
    let q := st.quenched now a.port (hit.map (·.1))
    let maxFrame := bits (st.rg (pageOf tPort a.port) 0x40) 29 16
    let buffer (pk : Packet) (go : Packet → State → State) (s : State) : State :=
      if a.replay ∨ !a.inline then go pk s
      else if s.dev.admits a.port maxFrame then
        (go { pk with buffered := maxFrame } s).holdBytes a.port a.sub pk.prio (· + maxFrame)
      else drop (fun s => (s.portCount a.port a.sub 8 1).setEvent (pageOf tPort a.port) 14) s
    let add (pk : Packet) (s : State) : State :=
      let s := s.onTraffic fun t => { t with packets := Table.put t.packets id pk, nextPacket := id + 1 }
      if a.replay then s else s.rxAs a.port a.sub (.packet id) a.wire
    match hit with
    | none =>
      let s := if a.replay then s else s.bump (parserPage die) (0x100 + 8 * 14) 1
      if bit cfg 10 then drop (fun s => s) s
      else if q = some false ∧ !a.replay then drop (fun s => s.portCount a.port a.sub 7 1) s
      else if a.replay then s
      else buffer { base with bypass := true } (fun pk s => (add pk s).apply id {}) s
    | some (n, c) =>
      let s := if a.replay then s else s.chanCount n 0 1
      let ans := if a.recirc then st.secondPass now n c a.stampGen else (c.gen, false)
      let gen := ans.1
      let moved := ans.2
      let first := if a.recirc then fullPly now a.firstTs else now
      let s := s.recordIngress a first (st.chanHandle n)
      let b := st.genBound n gen
      let direct := decide (c.keyKind = 2)
      let ans := p.flowKey c
      let fk := ans.1
      let lv := ans.2.1
      let part := ans.2.2
      let key := if direct then tagKey a.serviceTag else fk
      let lv := if direct then min p.innermost c.keyLevel else lv
      let late := a.recirc && laterThan 48 now (first + b)
      let part := if direct then p.tagPartial c else part
      let exc := if part then setBitNat exc xKeyPartial else exc
      let exc := if moved ∧ !late then setBitNat exc xGenMoved else exc
      let s := if part then count s (2 ^ xKeyPartial) else s
      let s := if moved ∧ !late ∧ !a.replay then (count s (2 ^ xGenMoved)).chanCount n 5 1 else s
      if q = some false ∧ !a.replay then drop (fun s => s.portCount a.port a.sub 7 1) s
      else
        let v := p.vector
          { timestamp := first % 2 ^ 48, gen, port := a.port, sub := a.sub, handle := st.chanHandle n
            bufRef := if a.inline then (Config.bufRef id).toNat else a.pktRef, exc, frameLen := a.frameLen
            serviceTag := a.serviceTag, key, keyLevel := lv }
        let pk := { base with
          chan := some (n, c.hgen), gen, firstPly := first, deadline := (first + b) % 2 ^ 48, vector := v
          core := c.steer key, order := c.steerOrder key, genMoved := moved && !late }
        let dflt := match st.gen? false n gen with
          | some g => g.default
          | none => { deflt := true }
        if q = some true ∧ !a.replay then buffer { pk with bypass := true } (fun pk s => ((add pk s).chanCount n 6 1).apply id dflt) s
        else if late then
          buffer { pk with bypass := true }
            (fun pk s => (((add pk s).chanCount n 2 1).setEvent (channelPage n) 0).apply id dflt) s
        else
          -- the vector leaves for the core's die in the pawn class, by the packet's deadline (R15, R19, R158)
          buffer { pk with stage := .vector } (fun pk s => (add pk s).launch clsPawn pk.deadline vectorBytes
            (dieRoute (portDieNo a.port) (coreDie pk.core)) (portDieNo a.port) (.vector id)) s

/-- Is the sub-port's way out open: a counterpart on the partner that is up (R129, R136)? -/
def Dev.wayOut (d : Dev) (port sub : Nat) : Bool := ((d.port (partner port)).subp sub).up

/-- FRAME_START (R145): the start of a frame on a line port, its bytes from the destination MAC address through the FCS. DEDUCED (log entry 156):
FRAME_LEN of a frame whose shim is removed leaves the shim out. -/
def execFrameStart (port sub : Nat) (f : Bytes) (s : State) : Host.Outcome State Fault Refusal :=
  let st := s.start
  let die := portDie port
  let maxFrame := s.maxFrame port
  let good := fcsGood f && decide (64 ≤ f.length ∧ f.length ≤ maxFrame)
  let discard (s : State) : State := s.dropAt port sub f good fun s => s.portCount port sub 9 1
  if !isLine port || !((st.port port).subp sub).up || !s.hears port sub f || (Table.get? s.dev.traffic.rx (port * 4 + sub)).isSome then .next s
  else match s.laneFrame? port sub f with
    | some lf =>
      let s := s.rxAs port sub (if lf.kind = .selid then .selid else .control) f
      if !good then .next s else .next ((s.portCount port sub 5 1).admitSelid lf).1
    | none =>
      let e := skipTags f 12 4
      if Bytes.be f e 2 = 0x8808 then
        -- PAUSE and PFC frames arrive by their own steps; other MAC control opcodes are dropped (R132)
        if Bytes.be f (e + 2) 2 = 1 ∨ Bytes.be f (e + 2) 2 = 0x0101 then .next s else .next (discard s)
      else
        let body := f.take (f.length - 4)
        let mode := st.pairMode port
        if mode = 1 then
          if !st.wayOut port sub then
            .next (s.dropAt port sub f good fun s => (s.portCount port sub 9 1).setEvent (pageOf tPort port) 15)
          else
            let shim := kwagenShim (st.shimEtype port) body
            let second := shim && bit (st.pairCfg port) 11
            let fr := if shim then body.take 12 ++ body.drop 28 else body
            .next (s.ingress
              { port, sub, inline := true, wire := f, frame := fr, parsed := fr, last := fr.length, frameLen := fr.length + 4
                recirc := second, firstTs := Bytes.be body 22 6, stampGen := Bytes.at body 19, good })
        else if mode = 2 then
          let e := skipParserTags body 12 4
          if Bytes.be body e 2 ≠ st.shimEtype port ∨ Bytes.at body (e + 2) % 16 ≠ 2 then .next (discard s)
          else
            let cap := body.drop (e + 24)
            let orig := Bytes.be body (e + 4) 2
            if Bytes.at body (e + 2) / 16 ≠ 1 ∨ cap.length < 64 ∨ 256 < cap.length ∨ orig < cap.length then
              .next (s.dropAt port sub f good fun s => (s.bump (parserPage die) (0x100 + 8 * 16) 1).setEvent (parserPage die) 1)
            else
              .next (s.ingress
                { port, sub, inline := false, wire := f, frame := body, parsed := cap
                  last := if cap.length = orig then cap.length - 4 else cap.length, frameLen := orig, origLen := orig
                  recirc := bit (Bytes.at body (e + 3)) 7, firstTs := Bytes.be body (e + 16) 6, stampGen := Bytes.at body (e + 6)
                  serviceTag := Bytes.be body (e + 8) 4 / 4096, pktRef := Bytes.be body (e + 12) 4
                  srcMac := Bytes.slice body 6 6, tags := Bytes.slice body 12 (e - 12), good })
        else .next (discard s)

/-! ### FRAME_TAIL -/

/-- Has a packet's deadline passed, or come, by the half-range rule over 48 bits (R41, R44)? -/
def Packet.over (now : Nat) (p : Packet) : Bool := laterThan 48 now p.deadline
def Packet.dueAt (now : Nat) (p : Packet) : Bool := !laterThan 48 p.deadline now

/-- Free a packet's buffer bytes (R133, R135). -/
def State.freeBuffer (k : Nat) (s : State) : State :=
  match s.dev.packet? k with
  | none => s
  | some p => if p.buffered = 0 then s
    else (s.onPacket k fun p => { p with buffered := 0 }).holdBytes p.port p.sub p.prio (· - p.buffered)

/-- FRAME_TAIL (R123, R164): the last byte arrives, and FCS and length are settled. -/
def execFrameTail (port sub : Nat) (s : State) : Host.Outcome State Fault Refusal :=
  match Table.get? s.dev.traffic.rx (port * 4 + sub) with
  | none => .next s
  | some r =>
    let s := s.onTraffic fun t => { t with rx := Table.erase t.rx (port * 4 + sub) }
    let ans := s.rxJudge r.maxFrame port sub r.frame
    let s := ans.1
    let ok := ans.2
    match r.kind with
    | .packet k =>
      match s.dev.packet? k with
      | none => .next s
      | some p =>
        if ok then
          let s := s.onPacket k fun p => { p with tail := some s.now }
          if p.buffered = 0 then .next s
          else
            let n := r.frame.length
            .next ((s.onPacket k fun p => { p with buffered := n }).holdBytes port sub p.prio (fun h => h - p.buffered + n))
        else
          let s := (s.freeBuffer k).onPacket k fun p => { p with tail := some s.now, failed := true, gone := true }
          -- the default of a deadline that is this ply still is applied (R164)
          .next (if p.applied.isNone ∧ p.dueAt s.now then s else s.settle k)
    | _ => .next s

/-! ### Verdicts -/

/-- The ply of a packet's deadline as seen from `now` (R44). -/
def Packet.due (now : Nat) (p : Packet) : Nat :=
  if p.dueAt now then now - (now + 2 ^ 48 - p.deadline % 2 ^ 48) % 2 ^ 48 else now + (p.deadline + 2 ^ 48 - now % 2 ^ 48) % 2 ^ 48

/-- Did the packet fail its tail in an earlier ply than this one (R164)? -/
def Packet.lost (now : Nat) (p : Packet) : Bool := p.failed && decide (p.tail ≠ some now)

/-- Count a verdict that is discarded as late (R26). -/
def State.lateVerdict (k : Nat) (p : Packet) (s : State) : State := ((s.packetCount p 3).packetEvent p 1).settle k

/-- A verdict has reached the port die (R26, R164): it is applied by the deadline, discarded without count for a packet that failed its tail in an
earlier ply before anything was applied, and otherwise discarded as late. -/
def State.takeVerdict (k : Nat) (p : Packet) (v : Verdict) (s : State) : State :=
  let s := (s.onPacket k fun p => { p with stage := .none, flight := none }).landed (.verdict k)
  if p.applied.isSome then s.lateVerdict k p
  else if p.lost s.now then s.settle k
  else if p.over s.now then s.lateVerdict k p
  else ((s.packetCount p 1).apply k v).settle k

/-- The verdict of a packet that has reached the port die and waits to be taken. -/
def Dev.verdictThere (d : Dev) (now k : Nat) (p : Packet) : Option Verdict :=
  if p.stage = .verdict ∧ !d.underWay now (.verdict k) then p.flight else none

/-- VERDICT_ARRIVAL (R26, R164). -/
def execVerdictArrival (k : Nat) (s : State) : Host.Outcome State Fault Refusal :=
  match s.dev.packet? k with
  | none => .next s
  | some p => match s.dev.verdictThere s.now k p with
    | some v => .next (s.takeVerdict k p v)
    | none => .next s

/-- The default verdict of a packet's generation (R169). -/
def Dev.defaultOf (d : Dev) (p : Packet) : Verdict :=
  match p.chan with
  | none => { deflt := true }
  | some (n, _) => match d.gen? false n p.gen with
    | some g => g.default
    | none => { deflt := true }

/-- DEADLINE (R26): no verdict has reached the port die by the end of ply D, so the default is applied in it and counted. A verdict that has reached
it in D is applied in the default's place, whichever of the two is taken first. -/
def execDeadline (k : Nat) (s : State) : Host.Outcome State Fault Refusal :=
  match s.dev.packet? k with
  | none => .next s
  | some p =>
    if p.applied.isSome ∨ !p.dueAt s.now ∨ p.chan.isNone then .next s
    else if p.lost s.now then .next ((s.onPacket k fun p => { p with stage := .none, flight := none }).settle k)
    else match (if p.over s.now then none else s.dev.verdictThere s.now k p) with
      | some v => .next (s.takeVerdict k p v)
      | none => .next ((((s.packetCount p 2).packetEvent p 0).apply k (s.dev.defaultOf p)).settle k)

/-! ### Rewriting and egress -/

/-- Incremental IPv4 header checksum (R163, RFC 1624). -/
def incChecksum (hc m m' : Nat) : Nat := 65535 - foldSum ((65535 - hc) + (65535 - m) + m')

/-- The DSCP edit (R163). -/
def rewriteDscp (p : Packet) (v : Verdict) (f : Bytes) : Bytes :=
  let o := Bytes.le p.vector 32 2
  if o = 0 then f
  else if Bytes.at f o / 16 = 4 then
    let old := Bytes.be f o 2
    let new := old / 256 * 256 + v.cls % 64 * 4 + old % 4
    Bytes.patch (Bytes.patch f o (toBE 2 new)) (o + 10) (toBE 2 (incChecksum (Bytes.be f (o + 10) 2) old new))
  else
    let w := Bytes.be f o 4
    Bytes.patch f o (toBE 4 (w / 2 ^ 28 * 2 ^ 28 + v.cls % 64 * 2 ^ 22 + w % 2 ^ 22))

/-- The PCP edit on the outermost tag (R163). -/
def rewritePcp (p : Packet) (v : Verdict) (f : Bytes) : Bytes :=
  if Bytes.at p.vector 24 % 8 = 0 then f
  else Bytes.patch f 14 (toBE 2 (bits v.cls 14 12 * 8192 + (if v.colour = 0 then 0 else 4096) + Bytes.be f 14 2 % 4096))

/-- The Kwagen shim (R162). -/
def shimBytes (etype slot : Nat) (p : Packet) (v : Verdict) : Bytes :=
  toBE 2 etype ++ [0x11, byte (128 * b2n v.deflt + 64 * b2n p.genMoved + 32 * b2n v.override + 16 * b2n p.recirc + v.colour)] ++ toBE 2 v.cls ++
    [byte v.queue, byte p.gen] ++ toBE 2 (slot * 16) ++ toBE 6 (p.firstPly % 2 ^ 48)

/-- The frame as it leaves, without FCS (R163). -/
def editedFrame (p : Packet) (c : Channel) (slot : Nat) (v : Verdict) : Bytes :=
  let f := p.frame
  let f := if c.rwDscp then rewriteDscp p v f else f
  let f := if c.rwPcp then rewritePcp p v f else f
  if c.rwShim then f.take 12 ++ shimBytes p.shim slot p v ++ f.drop 12 else f

/-- A frame's priority after rewriting (R164): that of its outermost tag, which stands behind an inserted shim. -/
def editedPrio (p : Packet) (c : Channel) (v : Verdict) : Nat := framePrio (if c.rwPcp then rewritePcp p v p.frame else p.frame)

/-- EGRESS_ELIGIBLE (R164, R136): from the ply after its verdict is applied and its last byte received, the packet is dropped as red, discarded for a
down sub-port, or edited and joined to its egress queue. DESIGN CHOICE (log entry 157): a frame longer than its egress port's MAX_FRAME + 16 is sent
whole. -/
def execEgressEligible (k : Nat) (s : State) : Host.Outcome State Fault Refusal :=
  match s.dev.packet? k with
  | none => .next s
  | some p =>
    match p.applied, p.tail with
    | some (x, v), some y =>
      if p.gone ∨ p.failed ∨ p.queuedTo.isSome ∨ !p.inline ∨ s.now ≤ x ∨ s.now ≤ y then .next s
      else
        let leave (s : State) : State := ((s.freeBuffer k).onPacket k fun p => { p with gone := true }).settle k
        let c := (p.chan.map fun e => s.start.chan e.1).getD {}
        if p.chan.isSome ∧ c.redDrop ∧ v.colour = 2 then .next (leave (s.packetCount p 4))
        else
          let out := partner p.port
          -- frames admitted before the last LINK_UP of the way out do not go out through it (R137)
          if !s.start.wayOut p.port p.sub ∨ p.start ≤ ((s.start.port out).subp p.sub).upPly then .next (leave (s.portCount out p.sub 13 1))
          else
            let f := match p.chan with
              | some (n, _) => editedFrame p c n v
              | none => p.frame
            let q := v.queue % 8
            .next ((s.onPacket k fun p => { p with frame := f, queuedTo := some q, outPrio := if p.chan.isSome then editedPrio p c v else framePrio p.frame }).onTraffic fun t =>
              { t with egress := Table.modify [] t.egress ((out * 4 + p.sub) * 8 + q) fun l => l ++ [k] })
    | _, _ => .next s

/-- The first queue, 7 first, whose oldest frame is not held by received PAUSE or PFC (R131, R132, R164). -/
def Dev.nextOut (d : Dev) (now port sub : Nat) : Option (Nat × Nat) :=
  let x := (d.port port).subp sub
  ([7, 6, 5, 4, 3, 2, 1, 0].filterMap fun q =>
    match Table.get [] d.traffic.egress ((port * 4 + sub) * 8 + q) with
    | [] => none
    | k :: _ => match d.packet? k with
      | some p => if x.holds now p.outPrio then none else some (q, k)
      | none => some (q, k)).head?

/-- FRAME_TRANSMIT (R164): a queued frame finishes transmission on its egress sub-port, and its buffer bytes are freed. -/
def execFrameTransmit (port sub : Nat) (s : State) : Host.Outcome State Fault Refusal :=
  if !s.subUp port sub then .next s
  else match s.dev.nextOut s.now port sub with
    | none => .next s
    | some (q, k) =>
      let s := s.onTraffic fun t => { t with egress := Table.modify [] t.egress ((port * 4 + sub) * 8 + q) fun l => l.drop 1 }
      match s.dev.packet? k with
      | none => .next s
      | some p =>
        let f := withFcs p.frame
        let s := s.sendNow port sub (.frame port sub f) f.length
        .next (((s.freeBuffer k).onPacket k fun p => { p with gone := true }).settle k)

/-- Leading records that may share the first record's frame (R165): same source address and tags, sampled under one SHIM_ETYPE. -/
def shareFrame (l : List VRecord) : List VRecord :=
  match l with
  | [] => []
  | r :: _ => (l.takeWhile fun x => decide (x.srcMac = r.srcMac ∧ x.tags = r.tags ∧ x.shim = r.shim)).take 32

/-- Does an event record wait to be sent on the sub-port, ahead of its verdict frames (R112, R166)? -/
def Dev.eventsFor (d : Dev) (port sub : Nat) : Bool :=
  d.selid.sinks.any fun e => e.2.any fun k => !k.queue.isEmpty && (match d.session? k.sess with
    | some x => decide (x.latest.port = port ∧ x.latest.sub = sub)
    | none => false)

/-- Is an event record, or a Selid response that has reached the port die, still to be sent on the sub-port ahead of its verdict frames (R166)? -/
def State.selidAhead (port sub : Nat) (s : State) : Bool :=
  s.dev.eventsFor port sub || s.dev.net.flits.any fun f => f.there s.now && match f.cargo with
    | .send w => decide (w.port = port ∧ w.sub = sub)
    | _ => false

/-- VERDICT_FRAME (R165, R166, R136): sent when 32 records are ready or the oldest has waited VF_HOLD plies; it takes its SEQ even when its
sub-port is down. -/
def execVerdictFrame (port sub : Nat) (s : State) : Host.Outcome State Fault Refusal :=
  let l := Table.get [] s.dev.traffic.records (port * 4 + sub)
  let die := portDie port
  let hold := s.rg (parserPage die) 0x4C % 256
  match l with
  | [] => .next s
  | r :: _ =>
    if (l.length < 32 ∧ s.now < r.ready + hold) ∨ s.selidAhead port sub then .next s
    else
      let g := shareFrame l
      let seq := ((s.port port).subp sub).vfSeq
      let raw := r.srcMac ++ s.dev.ctrlMac die ++ r.tags ++ toBE 2 r.shim ++ [0x13, byte g.length] ++ toBE 4 seq ++
        (g.map (·.body)).flatten
      let f := withFcs (raw ++ zeros (60 - raw.length))
      let s := s.onTraffic fun t => { t with records := Table.modify [] t.records (port * 4 + sub) fun l => l.drop g.length }
      let s := s.onPort port fun q => q.onSub sub fun x => { x with vfSeq := (x.vfSeq + 1) % 2 ^ 32 }
      .next (s.sendWaiting { port, sub, verdict := true, len := f.length, out := .frame port sub f })

end Sys2Proof.Machine
end

