-- ==== Sys2Proof/Machine/Selid.lean ====
section
/-! DEFINITION. Selid messages and commands of its own chapter (R84, R95 to R112): fragments, protected frames, ECHO, CLOSE, QUENCH, UNQUENCH,
sink sets and EVENT messages. HELLO and ACCEPT stand with the security unit. -/
namespace Sys2Proof.Machine

/-- Count a frame dropped under R97, or under R80, R82 or R83 (R577). -/
def State.authDropped (s : State) : State := s.bump pgGlobal 0x100 1
def State.formatDropped (s : State) : State := s.bump pgGlobal 0x108 1

/-- Take a frame for a message step: its route and Selid header, when it passes R80, R82 and R83. OFFER and REJECT, which the device sends alone, are
dropped as a frame of a KIND that is not taken (log entry 150). -/
def State.takeSelid (port sub : Nat) (f : Bytes) (s : State) : State × Option (Route × SelidHead × Nat) :=
  if isPeer port then (s, none)
  else let ans := s.takeFrame port sub f; match ans.2 with
    | none => let s := ans.1; (s, none)
    | some lf =>
      let s' := ans.1
      if lf.kind ≠ .selid then (s, none)
      else
        let h := selidHead f lf.off
        if !udpGood lf.route f lf.off ∨ h.version ≠ 1 ∨ (h.kind ≠ 0 ∧ h.kind ≠ 2 ∧ h.kind ≠ 3) then (s'.formatDropped, none)
        else (s', some (lf.route, h, lf.ply))

/-! ### Setup fragments (R84) -/

/-- The fragments kept for a setup message from this source; none once 1 s has passed since its first fragment. What tells the fragments of one
message from another's is the model's choice: source, KIND, SESSION and FRAG_COUNT (log entry 128). -/
def Selid.fragsOf (now : Nat) (x : Selid) (r : Route) (h : SelidHead) : Frags :=
  (x.frags.find? fun g => sameSource g.route r && decide (g.kind = h.kind ∧ g.session = h.session ∧ g.last = h.fragLast ∧
      now < g.firstPly + plies1s)).getD
    { route := r, kind := h.kind, session := h.session, last := h.fragLast }

def Selid.dropFrags (x : Selid) (g : Frags) : Selid :=
  { x with frags := x.frags.filter fun y => !(sameSource y.route g.route && decide (y.kind = g.kind ∧ y.session = g.session ∧ y.last = g.last)) }

/-- Keep a fragment: the first copy stays. -/
def Frags.keep (now : Nat) (h : SelidHead) (g : Frags) : Frags :=
  if (Table.get? g.parts h.fragIndex).isSome then g
  else { g with parts := Table.put g.parts h.fragIndex h.payload, firstPly := if g.parts.isEmpty then now else g.firstPly }

def Frags.complete (g : Frags) : Bool := (List.range (g.last + 1)).all fun i => (Table.get? g.parts i).isSome

/-- SETUP_FRAGMENT (R84): a fragment that does not complete its message is kept. -/
def execSetupFragment (port sub : Nat) (f : Bytes) (s : State) : Host.Outcome State Fault Refusal :=
  let ans := s.takeSelid port sub f; match ans.2 with
  | none => let s' := ans.1; .next s'
  | some (r, h, _) =>
    let s' := ans.1
    let g := (s'.dev.selid.fragsOf s.now r h).keep s.now h
    if (h.kind ≠ 0 ∧ h.kind ≠ 2) ∨ h.fragLast = 0 ∨ h.fragLast < h.fragIndex ∨ g.complete then .next s
    else .next (s'.onSelid fun x => let x := x.dropFrags g; { x with frags := x.frags ++ [g] })

/-- SETUP_FRAGMENT_TIMEOUT (R84): messages whose fragments have not all arrived within 1 s are discarded. -/
def execSetupFragmentTimeout (s : State) : Host.Outcome State Fault Refusal :=
  .next (s.onSelid fun x => { x with frags := x.frags.filter fun g => decide (s.now < g.firstPly + plies1s) })

/-- The whole payload of a setup message whose last missing fragment is this frame, or which has one fragment. -/
def State.setupPayload (r : Route) (h : SelidHead) (s : State) : State × Option Bytes :=
  if h.fragLast = 0 then (s, if h.fragIndex = 0 then some h.payload else none)
  else
    let g := (s.dev.selid.fragsOf s.now r h).keep s.now h
    if g.complete then (s.onSelid fun x => x.dropFrags g, some ((g.parts.map (·.2)).flatten)) else (s, none)

/-- HALF_OPEN_EXPIRE (R92): a half-open session expires 1 s after its OFFER was sent. -/
def execHalfOpenExpire (n : Nat) (s : State) : Host.Outcome State Fault Refusal :=
  .next (s.onSelid fun x => { x with halfOpen := x.halfOpen.filter fun h => !decide (h.num = n ∧ h.offerPly + plies1s ≤ s.now) })

/-! ### Protected frames -/

/-- Is a host SEQ inside the window and not yet accepted (R97)? The sender's SEQ starts at 1, so SEQ 0 is never accepted (log entry 129). -/
def Session.seqOk (x : Session) (q : Nat) : Bool :=
  decide (1 ≤ q) && (decide (x.seqHigh < q) || (decide (x.seqHigh ≤ q + 64) && !x.seqSeen.contains q))

/-- Note an accepted SEQ (R97). -/
def Session.noteSeq (q : Nat) (x : Session) : Session :=
  let hi := max x.seqHigh q
  { x with seqHigh := hi, seqSeen := (q :: x.seqSeen).filter fun y => decide (hi ≤ y + 64) }

/-- Opcodes a restricted session may use (R90, R102). -/
def restrictedOk (op : Nat) : Bool := [0x01, 0x02, 0x10, 0x11, 0x90, 0x91].contains op

/-- Opcodes defined (R102). -/
def opcodeOk (op : Nat) : Bool :=
  [0x01, 0x02, 0x10, 0x11, 0x12, 0x20, 0x21, 0x60, 0x61, 0x70, 0x71, 0x72, 0x73, 0x80, 0x81, 0x90, 0x91, 0x92].contains op ||
    decide ((0x30 ≤ op ∧ op ≤ 0x34) ∨ (0x40 ≤ op ∧ op ≤ 0x46) ∨ (0x50 ≤ op ∧ op ≤ 0x54))

/-- After a host frame with the last SEQ has been answered, or leaves nothing to be answered, the session ends in the next ply (R95). -/
def State.lastUsed (n : Nat) (last : Bool) (s : State) : State :=
  if last then s.onSession n fun y => { y with ending := some (s.now + 1) } else s

/-- Have IDLE seconds passed without an accepted frame (R95)? -/
def Session.idled (now : Nat) (x : Session) : Bool := decide (x.lastAccept + x.idle * plies1s ≤ now)

/-- A command accepted in a session (R99 to R102): answered from the retry cache, dropped as a repeat in progress, refused, or queued. Answers that
refuse a command here are no completed commands: none is kept for retries (log entry 131). -/
def State.acceptCmd (n : Nat) (c : Cmd) (s : State) : State :=
  match s.session? n with
  | none => s
  | some x =>
    let hash := Config.sha256 c.body
    let answer (st detail : Nat) (body : Bytes) (s : State) : State :=
      (s.lastUsed n c.last).sendProtected n c.route (envelope (respOp c.opcode) c.tag st detail body)
    match x.done.find? fun d => decide (d.opcode = c.opcode ∧ d.tag = c.tag ∧ d.hash = hash) with
    | some d => answer d.status d.detail d.body s
    | none =>
      let same (q : Cmd) : Bool := decide (q.opcode = c.opcode ∧ q.tag = c.tag ∧ Config.sha256 q.body = hash)
      if x.cmds.any same then
        s.onSession n fun y => { y with cmds := y.cmds.map fun q => if same q then { q with last := q.last || c.last } else q }
      else if 64 ≤ x.cmds.length then answer stBusy 0 [] (s.recordCmd n c stBusy)
      else if !opcodeOk c.opcode then answer stBadOpcode 0 [] (s.recordCmd n c stBadOpcode)
      else if x.restricted && !restrictedOk c.opcode then answer stNotOwned 0 [] (s.recordCmd n c stNotOwned)
      else s.onSession n fun y => { y with cmds := y.cmds ++ [c] }

/-- PROTECTED (R96, R97): a protected frame is authenticated and its command accepted, or it is dropped and counted. A protected frame with
fragment fields is dropped and counted in FORMAT_DROPPED (log entry 128); one whose plaintext is shorter than an envelope is accepted and draws no
response (log entry 130). -/
def execProtected (port sub : Nat) (f : Bytes) (s : State) : Host.Outcome State Fault Refusal :=
  let ans := s.takeSelid port sub f; match ans.2 with
  | none => let s' := ans.1; .next s'
  | some (r, h, ply) =>
    let s' := ans.1
    if h.kind ≠ 3 then .next s
    else if h.fragIndex ≠ 0 ∨ h.fragLast ≠ 0 then .next s'.formatDropped
    else match s'.session? h.session with
      | none => .next s'.authDropped
      | some x =>
        if x.idled s.now then .next s'.authDropped else
        match Config.gcmOpen (x.h2d.take 32) (x.h2d.drop 32 ++ toLE 8 h.seq) h.header h.payload with
        | none => .next s'.authDropped
        | some plain =>
          if !x.seqOk h.seq || !sameSource x.source r then .next s'.authDropped
          else
            let s' := s'.onSession x.num fun y => { y.noteSeq h.seq with lastAccept := s.now, latest := r }
            let body := plain.drop 12
            let c : Cmd := { opcode := Bytes.le plain 0 2, tag := Bytes.le plain 2 2, body, route := r, ingress := ply
                             last := decide (h.seq = 2 ^ 64 - 1) }
            if plain.length < 12 then .next (s'.lastUsed x.num c.last)
            else if Bytes.le plain 4 4 ≠ body.length then
              .next ((s'.lastUsed x.num c.last).sendProtected x.num r (envelope (respOp c.opcode) c.tag stBadLength 0 []))
            else .next (s'.acceptCmd x.num c)

/-- SESSION_IDLE_TIMEOUT (R95): IDLE seconds without an accepted host frame end the session. -/
def execSessionIdleTimeout (n : Nat) (s : State) : Host.Outcome State Fault Refusal :=
  match s.session? n with
  | none => .next s
  | some x => if x.idled s.now then .next (s.endSession n) else .next s

/-! ### ECHO and CLOSE -/

/-- ECHO (R102). -/
def execEcho (sess : Nat) (s : State) : Host.Outcome State Fault Refusal :=
  .next (s.command sess 0x01 fun x c s =>
    if 256 < c.body.length then s.complete sess 0x01 stBadLength 0 []
    else s.sized x c c.body.length fun s => s.complete sess 0x01 stOK 0 c.body)

/-- CLOSE (R95, R102): the session ends once the response is sent. -/
def execClose (sess : Nat) (s : State) : Host.Outcome State Fault Refusal :=
  .next (s.command sess 0x02 fun _ c s =>
    if c.body.length ≠ 0 then s.complete sess 0x02 stBadLength 0 []
    else (s.complete sess 0x02 stOK 0 []).endSession sess)

/-! ### Quench (R107 to R110) -/

/-- Quenches whose DURATION has passed (R109). -/
def Quench.over (now : Nat) (x : Quench) : Bool :=
  match x.until_ with
  | some u => decide (u ≤ now)
  | none => false

/-- Quenches whose DURATION has passed have ceased: their QIDs are free (R109, R110). -/
def State.ceaseQuenches (s : State) : State :=
  State.each ((s.dev.selid.quench.filter fun e => e.2.over s.now).map (·.1)) State.endQuench s

/-- QUENCH: the fields are checked, the QID free longest is taken, and the quench acts from the next ply (log entry 36).
On a channel destroyed in the same ply the quench has ceased at once (R109). -/
def execQuench (sess : Nat) (s : State) : Host.Outcome State Fault Refusal :=
  .next (s.command sess 0x60 fun x c s =>
    let b := c.body
    let ports := Bytes.le b 0 4
    let handle := Bytes.le b 4 4
    let action := Bytes.at b 8
    match badReserved b [(9, 3), (12, 4)] with
      | some o => s.complete sess 0x60 stBadField o []
      | none =>
        if b.length ≠ 24 then s.complete sess 0x60 stBadLength 0 []
        else if ports = 0 then s.complete sess 0x60 stBadField 0 []
        else if 1 < action ∨ (handle = 0 ∧ action = 1) then s.complete sess 0x60 stBadField 8 []
        else if handle ≠ 0 ∧ (s.chanOf handle).isNone then s.complete sess 0x60 stBadHandle 0 []
        else s.sized x c 16 fun s =>
          let s := s.ceaseQuenches
          match s.dev.selid.qids.take 64 with
          | none => s.complete sess 0x60 stNoRoom 0 []
          | some (q, pool) =>
            let eff := s.now + 1
            let dur := Bytes.le b 16 8
            let new : Quench := { ports, chan := s.chanOf handle, pass := decide (action = 1), effect := eff
                                  until_ := if handle ≠ 0 ∧ (s.dev.chanOf handle).isNone then some s.now else if dur = 0 then none else some (eff + dur) }
            let s := s.onSelid fun y => { y with quench := Table.put y.quench q new, qids := pool }
            s.complete sess 0x60 stOK 0 (toLE 4 q ++ zeros 4 ++ toLE 8 eff))

/-- UNQUENCH (R110). DESIGN CHOICE (log entry 162): of quenches that cease in one ply, the one with the lower QID counts as free longer. -/
def execUnquench (sess : Nat) (s : State) : Host.Outcome State Fault Refusal :=
  .next (s.command sess 0x61 fun x c s =>
    let q := Bytes.le c.body 0 4
    if c.body.length ≠ 4 then s.complete sess 0x61 stBadLength 0 []
    else if q ≠ 0xFFFFFFFF ∧ 64 ≤ q then s.complete sess 0x61 stBadField 0 []
    else s.sized x c 8 fun s =>
      let s := s.ceaseQuenches
      if q = 0xFFFFFFFF then
        (State.each (s.dev.selid.quench.map (·.1)) State.endQuench s).complete sess 0x61 stOK 0 (toLE 8 s.now)
      else if (Table.get? s.dev.selid.quench q).isNone then s.complete sess 0x61 stNotFound 0 []
      else (s.endQuench q).complete sess 0x61 stOK 0 (toLE 8 s.now))

/-- QUENCH_EXPIRE (R109): a quench ceases at EFFECT_PLY + DURATION. -/
def execQuenchExpire (q : Nat) (s : State) : Host.Outcome State Fault Refusal :=
  match Table.get? s.dev.selid.quench q with
  | some x => if x.over s.now then .next (s.endQuench q) else .next s
  | none => .next s

/-! ### Sink sets (R111, R583) -/

def Dev.sinkSet (d : Dev) (k : Nat) : List Sink := Table.get [] d.selid.sinks k

/-- The frame of SINK_JOIN and SINK_LEAVE. -/
def State.sinkCommand (sess op : Nat) (run : Nat → State → State) (s : State) : State :=
  s.command sess op fun x c s =>
    if Bytes.le c.body 1 3 ≠ 0 then s.complete sess op stBadField 1 []
    else if c.body.length ≠ 4 then s.complete sess op stBadLength 0 []
    else if 15 < Bytes.at c.body 0 then s.complete sess op stBadField 0 []
    else s.sized x c 4 fun s => run (Bytes.at c.body 0) s

def State.sinkAnswer (sess op k : Nat) (s : State) : State :=
  s.complete sess op stOK 0 ([byte (s.dev.sinkSet k).length, 0, 0, 0])

/-- SINK_JOIN (R111): a fifth sink is refused; a member's join changes nothing. -/
def execSinkJoin (sess : Nat) (s : State) : Host.Outcome State Fault Refusal :=
  .next (s.sinkCommand sess 0x80 fun k s =>
    let l := s.dev.sinkSet k
    if l.any fun y => decide (y.sess = sess) then s.sinkAnswer sess 0x80 k
    else if 4 ≤ l.length then s.complete sess 0x80 stNoRoom 0 []
    else (s.onSelid fun y => { y with sinks := Table.put y.sinks k (l ++ [{ sess }]) }).sinkAnswer sess 0x80 k)

/-- SINK_LEAVE (R111, R583): the sinks after the leaving one move down, and its queue is discarded. -/
def execSinkLeave (sess : Nat) (s : State) : Host.Outcome State Fault Refusal :=
  .next (s.sinkCommand sess 0x81 fun k s =>
    (s.onSelid fun y => { y with sinks := Table.modify [] y.sinks k fun l => l.filter fun z => decide (z.sess ≠ sess) }).sinkAnswer
      sess 0x81 k)

/-! ### EVENT messages (R112) -/

/-- A record in an EVENT message. -/
def EventRecord.bytes (r : EventRecord) : Bytes :=
  toLE 2 r.page ++ [byte r.set, 0] ++ toLE 4 r.status.toNat ++ toLE 4 r.event.toNat ++ toLE 4 r.mask.toNat ++ toLE 4 r.count.toNat ++
    zeros 4 ++ toLE 8 r.ply

/-- How many leading numbers follow one another, so that a gap falls between messages. -/
def runLength (n : Nat) (l : List Nat) : Nat :=
  match l with
  | [] => 0
  | k :: r => if k = n then 1 + runLength (n + 1) r else 0

/-- EVENT (R112): a sink's queued records leave in an EVENT message, up to 32 and as many as fit MAX_FRAME. -/
def execEvent (set sess : Nat) (s : State) : Host.Outcome State Fault Refusal :=
  match (s.dev.sinkSet set).find? fun y => decide (y.sess = sess), s.session? sess with
  | some k, some x =>
    match k.nums with
    | [] => .next s
    | first :: _ =>
      let n := min (min 32 (runLength first k.nums)) ((bodyRoom x x.latest - 8) / 32)
      if n = 0 then .next s
      else
        let body := toLE 4 first ++ [byte n, 0, 0, 0] ++ ((k.queue.take n).map EventRecord.bytes).flatten
        let s := s.onSelid fun y => { y with sinks := Table.modify [] y.sinks set fun l => l.map fun z =>
          if z.sess = sess then { z with queue := z.queue.drop n, nums := z.nums.drop n } else z }
        .next ((s.sendProtected sess x.latest (envelope 0x4001 0 0 0 body)).bump pgRouting 0x110 1)
  | _, _ => .next s

end Sys2Proof.Machine
end

