-- ==== Sys2Proof/Machine/FlowTables.lean ====
section
/-! DEFINITION. Flow tables (R203 to R237): entries and hashes, lookup and refresh, learn notices, insertion with relocation, aging, and the host's
table commands. -/
namespace Sys2Proof.Machine

/-! ### Entries (R206, R207) -/

/-- Buckets of a logical core's slice (R203). -/
def nb (core : Nat) : Nat := if core < 64 then 83887 else 83886

/-- Where an entry lies. Position 4 × bucket + slot, then 4 × nb + stash index (R232). -/
inductive Loc where
  | exact (core pos : Nat)
  | direct (die tag : Nat)
  deriving DecidableEq, Repr

def Loc.die (l : Loc) : Nat := match l with
  | .exact c _ => coreDie c
  | .direct d _ => d

/-- The entry at a location; the empty string stands for a location never written. -/
def Dev.entry (d : Dev) (l : Loc) : Bytes := match l with
  | .exact c p => Table.get [] d.flow.exact (c * 524288 + p)
  | .direct k t => Table.get [] d.flow.direct (k * 1048576 + t)

/-- The CHECK of bytes 0 to 61 (R207). -/
def entryCheck (e : Bytes) : Nat := let c := (crc32c (Bytes.slice e 0 62)).toNat; (c / 65536) ^^^ (c % 65536)

/-- An entry with a fresh CHECK (R207). -/
def sealEntry (e : Bytes) : Bytes := Bytes.slice e 0 62 ++ toLE 2 (entryCheck e)

/-- A failed entry: its CHECK does not match its contents (R207). -/
def entryFailed (e : Bytes) : Bool := !e.isEmpty && decide (Bytes.le e 62 2 ≠ entryCheck e)

def eSlot (e : Bytes) : Nat := Bytes.le e 42 2 % 4096
def eValid (e : Bytes) : Bool := bit (Bytes.le e 42 2) 12
def ePromoted (e : Bytes) : Bool := bit (Bytes.le e 42 2) 13
def eOverride (e : Bytes) : Bool := bit (Bytes.le e 42 2) 14
def eStatic (e : Bytes) : Bool := bit (Bytes.le e 42 2) 15
def eStamp (e : Bytes) : Nat := Bytes.le e 44 3
def ePort (e : Bytes) : Nat := Bytes.at e 51 / 4 % 32
def eChGen (e : Bytes) : Nat := Bytes.le e 58 2 % 4096
def eState (e : Bytes) : Nat := Bytes.le e 60 2
def eKey (e : Bytes) : Bytes := Bytes.slice e 0 42

/-- Set bit `i` of the half-word at 42. -/
def eFlag (i : Nat) (v : Bool) (e : Bytes) : Bytes :=
  let w := Bytes.le e 42 2
  Bytes.patch e 42 (toLE 2 (if bit w i = v then w else if v then w + 2 ^ i else w - 2 ^ i))

/-- A flow key in entry form, bytes 0 to 41 (R206). -/
def entryKey (k : Bytes) : Bytes :=
  Bytes.slice k 16 32 ++ Bytes.slice k 2 2 ++ Bytes.slice k 4 2 ++ Bytes.slice k 8 4 ++
    [byte (Bytes.at k 1), byte (Bytes.at k 0 % 2 + (if Bytes.at k 6 = 4 then 2 else if Bytes.at k 6 = 6 then 4 else 0) +
      Bytes.at k 7 % 2 * 8 + Bytes.at k 7 / 2 % 2 * 16)]

/-- An entry's key as a flow key (R206). -/
def flowKeyOf (e : Bytes) : Bytes :=
  let f := Bytes.at e 41
  [byte (f % 2), byte (Bytes.at e 40)] ++ Bytes.slice e 32 2 ++ Bytes.slice e 34 2 ++
    [byte (match f / 2 % 4 with | 1 => 4 | 2 => 6 | _ => 0), byte (f / 8 % 4)] ++ Bytes.slice e 36 4 ++ zeros 4 ++ Bytes.slice e 0 32

/-- First field of a flow key that has no entry form though its reserved bits are 0, by its offset in the key (R206). -/
def keyBad (k : Bytes) : Option Nat :=
  firstBad [(decide (1 < Bytes.at k 0), 0), (decide (Bytes.at k 6 ≠ 0 ∧ Bytes.at k 6 ≠ 4 ∧ Bytes.at k 6 ≠ 6), 6)]

/-! ### Hashes (R208, R209) -/

def hash1 (seed slot : Nat) (k : Bytes) : Nat := (crc32c (toLE 4 seed ++ toLE 2 (slot % 4096) ++ Bytes.slice k 0 48)).toNat
def hash2 (seed slot : Nat) (k : Bytes) : Nat := (crc32k (toLE 4 seed ++ toLE 2 (slot % 4096) ++ Bytes.slice k 0 48)).toNat

/-- h1 and the two candidate buckets of a key in a core's slice (R208, R209). -/
def Dev.candidates (d : Dev) (core slot : Nat) (k : Bytes) : Nat × Nat × Nat :=
  let h1 := hash1 (d.rg pgFlowCtl 0x40) slot k
  let h2 := hash2 (d.rg pgFlowCtl 0x44) slot k
  let b1 := h1 * nb core / 2 ^ 32
  let b2 := h2 * nb core / 2 ^ 32
  (h1, b1, if b2 = b1 then (b1 + 1) % nb core else b2)

/-- The tables as the events of the ply have left them, with the seeds and limits in use in the ply (R235). -/
def State.tables (s : State) : Dev := { s.dev with regs := s.start.regs }

/-- Positions a lookup reads, in the order of R211. -/
def lookupOrder (core b1 b2 : Nat) : List Nat :=
  (List.range 4).map (4 * b1 + ·) ++ (List.range 4).map (4 * b2 + ·) ++ (List.range 64).map (4 * nb core + ·)

/-! ### Slices and statistics -/

def Dev.slice (d : Dev) (c : Nat) : Slice := Table.get {} d.flow.slices c
def State.onSlice (c : Nat) (f : Slice → Slice) (s : State) : State := s.onFlow fun x => { x with slices := Table.modify {} x.slices c f }

abbrev statPage (die : Nat) : Nat := pageOf tFlowStat die

/-- Counter `e` of a die's statistics page (R236). -/
def State.stat (die e : Nat) (s : State) : State := s.bump (statPage die) (0x80 + 8 * e) 1

/-- Bits 39:16 of the ply counter (R42). -/
def State.stamp (s : State) : Nat := s.now / 65536 % 16777216

/-- Write an entry with a fresh CHECK (R207). -/
def State.setEntry (l : Loc) (e : Bytes) (s : State) : State :=
  let v := sealEntry e
  s.onFlow fun x => match l with
    | .exact c p => { x with exact := Table.set [] x.exact (c * 524288 + p) v }
    | .direct k t => { x with direct := Table.set [] x.direct (k * 1048576 + t) v }

/-- A flow or direct entry is touched by an event of a precedence (R529, R530). -/
def State.touchEntry (l : Loc) (prec : Nat) (s : State) : State := match l with
  | .exact c p => s.touch 2 (c * 2 ^ 32 + p) (coreDie c) prec
  | .direct d t => s.touch 3 t d prec

/-- The other place of an entry that the slice's move latch holds (R225). -/
def Dev.twin (d : Dev) (c p : Nat) : Option Nat := match (d.slice c).latch with
  | some (a, b, _) => if p = a then some b else if p = b then some a else none
  | none => none

/-- Update an entry; one held in the move latch is updated in both its places (R225; log entry 85). -/
def State.updateEntry (l : Loc) (f : Bytes → Bytes) (s : State) : State :=
  let s' := s.setEntry l (f (s.dev.entry l))
  match l with
  | .direct _ _ => s'
  | .exact c p => match s.dev.twin c p with
    | some q => s'.setEntry (.exact c q) (f (s.dev.entry (.exact c q)))
    | none => s'

/-- Key of a direct entry in `Flow.direct` and `Flow.owners`. -/
abbrev directKey (die tag : Nat) : Nat := die * 1048576 + tag

/-- Note the owner core of a promoted direct entry's state slot (R30). -/
def State.ownDirect (l : Loc) (core : Nat) (s : State) : State := match l with
  | .exact _ _ => s
  | .direct k t => s.onFlow fun x => { x with owners := Table.put x.owners (directKey k t) core }

/-- Free a promoted flow's state slot (R338). -/
def State.releaseState (core slot : Nat) (s : State) : State :=
  let s := s.onFlow fun x => { x with statePools := Table.modify {} x.statePools core fun p => p.release slot }
  (s.onCompute fun x => { x with promoted := x.promoted.filter fun k => decide (k ≠ core * 32768 + slot) }).bump pgDeep (0x100 + 8 * 4) 1

/-- Mirror the entry at a location (R517): FLOW at its home core, DIRECT at its die. -/
def State.mirrorEntry (l : Loc) (s : State) : State :=
  match l with
  | .exact c _ => s.mirror 7 c (Bytes.slice (s.dev.entry l) 0 64)
  | .direct die _ => s.mirror 6 die (Bytes.slice (s.dev.entry l) 0 64)

/-- Adopt the stored mirror entry of a key after castling (R522): the entry takes its OVERRIDE, OVR fields, PROMOTED and STATE_SLOT, and the
slot is taken into use. -/
def State.adopt (core : Nat) (l : Loc) (s : State) : State :=
  match s.dev.pair.adoptFrom with
  | none => s
  | some _ =>
    let e := s.dev.entry l
    let direct := match l with
      | .direct _ _ => true
      | .exact _ _ => false
    match s.dev.pair.store.find? fun m => decide (m.direct = direct ∧ (if m.direct then coreDie m.core = l.die else m.core = core) ∧ eSlot m.entry = eSlot e ∧
        eChGen m.entry = eChGen e ∧ eKey m.entry = eKey e) with
    | none => s
    | some m =>
      let s := s.updateEntry l fun e =>
        let e := eFlag 14 (eOverride m.entry) (eFlag 13 (ePromoted m.entry) e)
        let e := Bytes.patch e 48 (Bytes.slice m.entry 48 3 ++ [byte (Bytes.at e 51 / 4 * 4 + Bytes.at m.entry 51 % 4)])
        Bytes.patch e 60 (Bytes.slice m.entry 60 2)
      let slot := eState m.entry % 32768
      let s := if ePromoted m.entry then
          ((s.onFlow fun x => { x with statePools := Table.modify {} x.statePools m.core fun p => p.claim slot }).onCompute fun x =>
            { x with promoted := x.promoted ++ [m.core * 32768 + slot] }).ownDirect l m.core
        else s
      (s.onPair fun p => { p with store := p.store.filter fun k => decide (k ≠ m) }).bump pgPair (0x80 + 8 * 8) 1

/-- The core that owns a direct-indexed entry's state (R30): the one whose slot it holds, else steering's choice for its tag and channel. -/
def Dev.ownerOf (d : Dev) (l : Loc) (e : Bytes) : Nat := match l with
  | .exact c _ => c
  | .direct k t => (Table.get? d.flow.owners (directKey k t)).getD ((d.chan (eSlot e)).steer (tagKey t))

/-- A slot of a slice is left: what a lookup could hit there is gone, and the slice notes the freed slot (R227). -/
def State.vacate (c p : Nat) (e : Bytes) (s : State) : State :=
  let s := s.setEntry (.exact c p) (eFlag 12 false e)
  if p < 4 * nb c then s.onSlice c fun x => { x with left := x.left ++ [(p, s.now)] } else s

/-- Remove an entry: VALID becomes 0, a promoted flow is released, and the slice notes the slot it left (R227, R228, R338). An entry in the move
latch leaves both its places at once, and the latch is free. -/
def State.removeEntry (l : Loc) (s : State) : State :=
  let e := s.dev.entry l
  let s := if ePromoted e then s.releaseState (s.dev.ownerOf l e) (eState e % 32768) else s
  let e' := if ePromoted e then Bytes.patch (eFlag 13 false e) 60 [0, 0] else e
  match l with
  | .exact c p =>
    let other := s.dev.twin c p
    let s := s.vacate c p e'
    let s := if ePromoted e ∨ eOverride e then s.mirrorEntry l else s
    match other with
    | some q => (s.vacate c q (s.dev.entry (.exact c q))).onSlice c fun x => { x with latch := none }
    | none => s
  | .direct k t =>
    ((s.setEntry l (eFlag 12 false e')).onFlow fun x => { x with owners := Table.erase x.owners (directKey k t) }).mirrorEntry l

/-! ### Lookup (R210 to R213, R215) -/

/-- Does an entry hit for channel slot `n`, handle generation `g` and entry key `k` (R210)? -/
def entryHits (n g : Nat) (k e : Bytes) : Bool :=
  eValid e && !entryFailed e && decide (eSlot e = n ∧ eChGen e = g ∧ eKey e = k)

/-- What a search of a slice finds: the hits in order, and the failed entries met. Buckets with an uncorrectable DRAM error are left out. -/
def Dev.search (d : Dev) (core n g : Nat) (key : Bytes) (bad1 bad2 : Bool) : List Nat × Nat :=
  let ans := d.candidates core n key
  let b1 := ans.2.1
  let b2 := ans.2.2
  let k := entryKey key
  let ps := (lookupOrder core b1 b2).filter fun p => !(bad1 && decide (p / 4 = b1)) && !(bad2 && decide (p / 4 = b2))
  (ps.filter fun p => entryHits n g k (d.entry (.exact core p)), ps.countP fun p => entryFailed (d.entry (.exact core p)))

/-- Count the failed entries, DRAM errors and duplicates a search met (R211, R212); with a failed entry the die's page is FAULTED (R62). -/
def State.searchEvents (die failed : Nat) (bad : Nat) (dup : Bool) (s : State) : State :=
  let s := if failed = 0 then s else ((s.bump (statPage die) (0x80 + 8 * 12) failed).setEvent (statPage die) 0).setFaulted (statPage die) true
  let s := if bad = 0 then s else (s.bump (statPage die) (0x80 + 8 * 13) bad).setEvent (statPage die) 1
  if dup then (s.stat die 14).setEvent (statPage die) 7 else s

/-- The entry of a direct-indexed copy for a tag, when it hits (R215). -/
def directHits (n g tag : Nat) (e : Bytes) : Bool := entryHits n g (Bytes.slice (tagKey tag) 0 42) e

/-- Find the entry of a key for a channel, reading `d`: location, failed entries met, duplicates. -/
def Dev.find (d : Dev) (core n g : Nat) (direct : Bool) (key : Bytes) (bad1 bad2 : Bool) : Option Loc × Nat × Bool :=
  if direct then
    let l : Loc := .direct (coreDie core) (Bytes.le key 0 3 % 1048576)
    let e := d.entry l
    (if !bad1 && directHits n g (Bytes.le key 0 3 % 1048576) e then some l else none, b2n (!bad1 && entryFailed e), false)
  else
    let ans := d.search core n g key bad1 bad2
    let hits := ans.1
    let failed := ans.2
    (hits.head?.map (Loc.exact core ·), failed, decide (1 < hits.length))

/-- Refresh of an entry by a packet (R213). -/
def refresh (stamp len flags port : Nat) (e : Bytes) : Bytes :=
  let pk := Bytes.le e 52 3
  let by_ := Bytes.le e 55 3
  let e := Bytes.patch e 44 (toLE 3 stamp ++ [byte (Bytes.at e 47 ||| flags)])
  let e := Bytes.patch e 51 [byte (Bytes.at e 51 % 4 + port % 32 * 4 + Bytes.at e 51 / 128 * 128)]
  Bytes.patch e 52 (toLE 3 (min 16777215 (pk + 1)) ++ toLE 3 (min 16777215 (by_ + (len + 63) / 64)))

/-- Forming a learn notice (R217 to R220): the pending filter, the notice's item, and a full ring. -/
def State.notice (core n hash : Nat) (direct : Bool) (pk : Packet) (s : State) : State :=
  let die := coreDie core
  let x := s.dev.slice core
  if (s.start.slice core).filter.any fun f => decide (f.slot = n ∧ f.hash = hash ∧ s.now < f.ply + plies100us) then s.stat die 4
  else
    let s := s.stat die 3
    let s := if (x.filter.countP fun f => decide (s.now < f.ply + plies100us)) < 256 then s.onSlice core fun x => { x with filter := x.filter ++ [{ slot := n, hash, ply := s.now }] } else s
    let v := pk.vector
    let body := Bytes.slice v 8 4 ++ toLE 2 (core + b2n direct * 1024 + pk.port % 32 * 2048) ++ Bytes.slice v 20 2 ++ Bytes.slice v 0 6 ++
      [byte (Bytes.at v 102), 0] ++ Bytes.slice v 48 48
    match s.dev.flow.learnRings[die]? with
    | none => s
    | some r =>
      let ans := s.ringPut r { len := 5, kind := 0x11, info := s.now, body }
      let s := ans.1
      let ok := ans.2
      if ok then s else s.setEvent (statPage die) 6

/-- The vault line of a direct entry, with the logical core whose vault holds it (R214). -/
def directLine (die tag : Nat) : Nat × Nat := (200 * die + tag / 4 % 200, directBase + (256 * (tag / 4 / 200) + 64 * (tag % 4)) / 64)

/-- Errors in the reads of a lookup or table command: the vault rows they lie in may wait for a spare (R396, R500). A bucket is named by its first
line. Lines that were corrected are a free value of State (log entry 167). -/
def State.badReads (core n : Nat) (direct : Bool) (key : Bytes) (bad1 bad2 : Bool) (s : State) : State :=
  if direct then
    let l := directLine (coreDie core) (Bytes.le key 0 3 % 1048576)
    let s := State.each (List.range s.dev.reliab.eccReads) (fun _ s => s.lineErr l.1 l.2 1) s
    if bad1 then s.lineErr l.1 l.2 2 else s
  else
    let ans := s.start.candidates core n key
    let b1 := ans.2.1
    let b2 := ans.2.2
    let s := State.each (List.range s.dev.reliab.eccReads) (fun _ s => s.lineErr core (4 * b1) 1) s
    let s := if bad1 then s.lineErr core (4 * b1) 2 else s
    if bad2 then s.lineErr core (4 * b2) 2 else s

/-- The lookup of one packet by its owner core (R210 to R213, R217): the entry as it stood at the start of the ply, when it hits. -/
def State.lookup (pk : Packet) (bad1 bad2 : Bool) (s : State) : State × Option Bytes :=
  match pk.chan with
  | none => (s, none)
  | some (n, g) =>
    let core := pk.core
    let die := coreDie core
    let c := s.start.chan n
    let direct := decide (c.keyKind = 2)
    let key := Bytes.slice pk.vector 48 48
    let s := s.stat die 0
    let ans := s.start.find core n g direct key bad1 bad2
    let hit := ans.1
    let failed := ans.2.1
    let dup := ans.2.2
    let s := (s.searchEvents die failed (b2n bad1 + b2n bad2) dup).badReads core n direct key bad1 bad2
    let hit := if c.state = .draining ∨ c.hgen ≠ g then none else hit
    match hit with
    | some l =>
      let e := s.start.entry l
      let s := s.stat die 1
      let s := if s.resetNow then s else
        (s.touchEntry l 4).updateEntry l (refresh s.stamp (Bytes.le pk.vector 20 2) (Bytes.at pk.vector 102) pk.port)
      (s, some e)
    | none =>
      let s := s.stat die 2
      let learns := match s.start.gen? false n c.gen with
        | some q => q.learn
        | none => false
      if c.flowPath && learns then
        (s.notice core n (if direct then Bytes.le key 0 3 % 1048576 else (s.start.candidates core n key).1) direct pk, none)
      else (s, none)

/-! ### Insertion (R216, R222 to R227) -/

/-- Clear the pending-filter entry of a key whose insertion has succeeded or failed (R218). -/
def State.clearFilter (core slot hash : Nat) (s : State) : State :=
  s.onSlice core fun x => { x with filter := x.filter.filter fun f => !decide (f.slot = slot ∧ f.hash = hash) }

/-- How an insertion ended: its key was there, it was written, no place was found, or a flush of the same ply discarded it. -/
inductive InsertEnd where
  | present | done | failed | flushed
  deriving DecidableEq, Repr

/-- Status of the host command whose insertion has ended (R226, R231); one that a flush discards has run and answers OK (log entry 86). -/
def InsertEnd.status (r : InsertEnd) : Nat := match r with
  | .done | .flushed => stOK
  | .present => stExists
  | .failed => stNoRoom

/-- What the statistics page shows of an insertion's end (R236, R237). -/
def State.countEnd (die : Nat) (r : InsertEnd) (s : State) : State := match r with
  | .done => s.stat die 5
  | .failed => (s.stat die 9).setEvent (statPage die) 4
  | .flushed => s.stat die 19
  | .present => s

/-- The host command of an insertion is answered. -/
def State.answerInsert (who : Inserter) (status : Nat) (s : State) : State := match who with
  | .host n => s.complete n 0x33 status 0 []
  | _ => s

/-- An insertion into a slice has ended: the filter entry goes, and a host's command is answered (R218, R226, R231). -/
def State.insertEnd (core : Nat) (i : Insertion) (r : InsertEnd) (s : State) : State :=
  let s := s.clearFilter core i.slot (s.start.candidates core i.slot i.key).1
  let s := s.onSlice core fun x => { x with running := none }
  (s.countEnd (coreDie core) r).answerInsert i.who r.status

def entryFree (e : Bytes) : Bool := !eValid e && !entryFailed e

/-- The ply in which an uncorrectable error of a bucket of a slice was last found, if its line has one; the stash lies on chip (R204). -/
def Dev.bucketBad (d : Dev) (core b : Nat) : Option Nat := if b < nb core then d.badLine core (4 * b) else none

/-- May an insertion write a place (R51): it is free, and no fault lies in its bucket? -/
def Dev.placeFree (d : Dev) (core p : Nat) : Bool := entryFree (d.entry (.exact core p)) && (d.bucketBad core (p / 4)).isNone

/-- May an insertion move or evict the entry of a place: it is valid, and not held in the move latch? -/
def Dev.placeTakes (d : Dev) (core p : Nat) : Bool :=
  eValid (d.entry (.exact core p)) && !entryFailed (d.entry (.exact core p)) && (d.twin core p).isNone && (d.bucketBad core (p / 4)).isNone

/-- Lowest free slot of a bucket, as a position. -/
def Dev.freeIn (d : Dev) (core b : Nat) : Option Nat := ((List.range 4).map (4 * b + ·)).find? (d.placeFree core)

/-- The other candidate bucket of the entry at a position (R223). -/
def Dev.altBucket (d : Dev) (core p : Nat) : Nat :=
  let e := d.entry (.exact core p)
  let ans := d.candidates core (eSlot e) (flowKeyOf e)
  let b1 := ans.2.1
  let b2 := ans.2.2
  if p / 4 = b1 then b2 else b1

/-- The search for a relocation path (R223): positions chosen so far, newest first; the answer is the path from its last element to its first
(from, to), with the state that has made the draws. -/
def pathSearch (core : Nat) (fuel bucket : Nat) (path : List Nat) (s : State) : State × Option (List (Nat × Nat)) :=
  match fuel with
  | 0 => (s, none)
  | k + 1 =>
    let d := s.tables
    let ok := ((List.range 4).map (4 * bucket + ·)).filter fun p => !path.contains p && d.placeTakes core p
    if ok.isEmpty then (s, none)
    else
      let ans := s.choice
      let r := ans.1
      let s := ans.2
      let p := ok.getD (r % ok.length) 0
      let alt := d.altBucket core p
      match d.freeIn core alt with
      | some f => (s, some ((p, f) :: (path.zip (p :: path))))
      | none => pathSearch core k alt (p :: path) s

/-- The first step of a move (R224, R225): B takes the entry, and the latch holds it. -/
def State.moveFirst (core a b : Nat) (s : State) : State :=
  ((s.touchEntry (.exact core b) 7).setEntry (.exact core b) (s.dev.entry (.exact core a))).onSlice core fun x =>
    { x with latch := some (a, b, s.now) }

/-- Write a new entry and end the insertion. -/
def State.insertAt (core p : Nat) (i : Insertion) (s : State) : State :=
  let s := ((s.touchEntry (.exact core p) 7).setEntry (.exact core p) (Bytes.patch i.entry 44 (toLE 3 s.stamp))).adopt core (.exact core p)
  let s := if 4 * nb core ≤ p then (s.stat (coreDie core) 7).setEvent (statPage (coreDie core)) 2 else s
  s.insertEnd core i .done

/-- Greatest age first among positions, the first of equals (R226). -/
def oldest (d : Dev) (core now : Nat) (l : List Nat) : Option Nat :=
  l.foldl (fun b p => match b with
    | none => some p
    | some q => if age24 now (eStamp (d.entry (.exact core q))) < age24 now (eStamp (d.entry (.exact core p))) then some p else some q) none

/-- The stash, then eviction, then failure (R223 outcomes 4 to 6, R226). -/
def State.stashOrEvict (core b1 b2 : Nat) (i : Insertion) (s : State) : State :=
  let d := s.dev
  match ((List.range 64).map (4 * nb core + ·)).find? (d.placeFree core) with
  | some p => s.insertAt core p i
  | none =>
    let ok := ((List.range 4).map (4 * b1 + ·) ++ (List.range 4).map (4 * b2 + ·)).filter fun p =>
      !eStatic (d.entry (.exact core p)) && d.placeTakes core p
    let random := match d.gen? false i.slot (d.chan i.slot).gen with
      | some g => g.evictRandom
      | none => false
    let pick := random && !ok.isEmpty
    let v := if pick then ok[s.choice.1 % ok.length]? else oldest d core s.stamp ok
    let s := if pick then s.choice.2 else s
    match v with
    | none => s.insertEnd core i .failed
    | some p =>
      let e := s.dev.entry (.exact core p)
      let s := if ePromoted e then s.releaseState core (eState e % 32768) else s
      ((s.stat (coreDie core) 8).setEvent (statPage (coreDie core)) 3).insertAt core p i

/-- What a move confirms before its first step (R224): the key, the channel slot and the channel's handle generation. -/
def moveMark (e : Bytes) : Bytes := Bytes.slice e 0 42 ++ toLE 2 (eSlot e + 4096 * b2n (eValid e)) ++ Bytes.slice e 58 2

/-- An insertion into a slice from the top of R223, with the moves already executed. -/
def State.insertTop (core : Nat) (i : Insertion) (s : State) : State :=
  let d := s.tables
  let ans := d.candidates core i.slot i.key
  let b1 := ans.2.1
  let b2 := ans.2.2
  if !(d.search core i.slot i.hgen i.key (d.bucketBad core b1).isSome (d.bucketBad core b2).isSome).1.isEmpty then s.insertEnd core i .present
  else match d.freeIn core b1 with
    | some p => s.insertAt core p i
    | none => match d.freeIn core b2 with
      | some p => s.insertAt core p i
      | none =>
        let ans := s.choice
        let r := ans.1
        let s := ans.2
        let ans := pathSearch core (32 - i.moves) (if r % 2 = 0 then b1 else b2) [] s
        let s := ans.1
        let path := ans.2
        match path with
        | none => s.stashOrEvict core b1 b2 i
        | some [] => s.stashOrEvict core b1 b2 i
        | some ((a, b) :: rest) =>
          let j := { i with
            path := rest.map fun e => (e.1, e.2, moveMark (s.dev.entry (.exact core e.1)))
            target := (((a, b) :: rest).getLastD (a, b)).1, moves := i.moves + 1 }
          (s.onSlice core fun x => { x with running := some j }).moveFirst core a b

/-- Was a fault found in this ply in a candidate bucket of an insertion? It is presented again in the next ply (R51). -/
def State.faultedNow (core : Nat) (i : Insertion) (s : State) : Bool :=
  let ans := s.start.candidates core i.slot i.key
  [ans.2.1, ans.2.2].any fun b => decide (s.dev.bucketBad core b = some s.now)

/-- Is an insertion of this ply, into a table, discarded by a flush sampled in the same ply (R51, R233)? -/
def Dev.flushedNow (d : Dev) (now : Nat) (direct : Bool) (slot port : Nat) : Bool :=
  match d.flow.lastFlush with
  | some f => decide (f.start = now ∧ f.table = b2n direct) && (if f.byChannel then decide (f.slot = slot) else bit f.ports port)
  | none => false

/-- Go on with an insertion whose slice is free of moves: it is discarded by a flush of the ply, waits for the next ply where a fault was found,
makes its next move, writes its entry, or searches again when what it confirms has changed (R224). -/
def State.insertGoOn (core : Nat) (i : Insertion) (s : State) : State :=
  if s.dev.flushedNow s.now false i.slot (ePort i.entry) then s.insertEnd core i .flushed
  else if s.faultedNow core i then s
  else match i.path with
    | [] => if i.moves ≠ 0 ∧ s.dev.placeFree core i.target then s.insertAt core i.target i else s.insertTop core i
    | (a, b, k) :: rest =>
      if moveMark (s.dev.entry (.exact core a)) = k ∧ s.dev.placeFree core b then
        (s.onSlice core fun x => { x with running := some { i with path := rest, moves := i.moves + 1 } }).moveFirst core a b
      else s.insertTop core i

/-- A slice goes on with its insertion, or starts those that wait, while no entry is in its move latch (R204). -/
def State.runSlice (core : Nat) (fuel : Nat) (s : State) : State :=
  match fuel with
  | 0 => s
  | k + 1 =>
    let x := s.dev.slice core
    if x.latch.isSome then s
    else match x.running, x.waiting with
      | some i, _ => if s.faultedNow core i then s else (s.insertGoOn core i).runSlice core k
      | none, [] => s
      | none, i :: rest => ((s.onSlice core fun x => { x with waiting := rest, running := some i }).insertGoOn core i).runSlice core k

/-- Offer an insertion to a slice: it runs or waits; with sixteen waiting it is refused (R204), which the learning agent counts and a host is told. -/
def State.offer (core : Nat) (i : Insertion) (s : State) : State :=
  if 16 ≤ (s.dev.slice core).waiting.length then
    match i.who with
    | .host n => s.complete n 0x33 stBusy 0 []
    | _ => ((s.stat (coreDie core) 9).setEvent (statPage (coreDie core)) 4).clearFilter core i.slot (s.start.candidates core i.slot i.key).1
  else (s.onSlice core fun x => { x with waiting := x.waiting ++ [i] }).runSlice core 34

/-- How an insertion into the direct-indexed table ends (R216): status for a host. -/
def State.insertDirect (core n g tag : Nat) (e : Bytes) (s : State) : State × Nat :=
  let die := coreDie core
  let l : Loc := .direct die tag
  let old := s.dev.entry l
  if entryFailed old || (s.dev.badLine (directLine die tag).1 (directLine die tag).2).isSome then
    (((s.stat die 9).setEvent (statPage die) 4), stFault)
  else if eValid old then
    if eSlot old = n ∧ eChGen old = g then (s, stExists)
    else ((s.stat die 15).setEvent (statPage die) 5, stExists)
  else (((((s.touchEntry l 7).setEntry l (Bytes.patch e 44 (toLE 3 s.stamp))).adopt core l).mirrorEntry l).stat die 5, stOK)

/-- An insertion is presented at the end of its ply, when what comes before it has been applied (R49, R51). -/
def State.present (core : Nat) (direct : Bool) (i : Insertion) (s : State) : State :=
  if direct then
    let tag := Bytes.le i.key 0 3 % 1048576
    let s := s.clearFilter core i.slot tag
    if s.dev.flushedNow s.now true i.slot (ePort i.entry) then (s.countEnd (coreDie core) .flushed).answerInsert i.who stOK
    else
      let ans := s.insertDirect core i.slot i.hgen tag i.entry
      ans.1.answerInsert i.who ans.2
  else if s.dev.flushedNow s.now false i.slot (ePort i.entry) then
    ((s.clearFilter core i.slot (s.start.candidates core i.slot i.key).1).countEnd (coreDie core) .flushed).answerInsert i.who stOK
  else s.offer core i

/-- An event of the ply waits for those of higher precedence (R49). -/
def State.flowDue (o : FlowOp) (s : State) : State := s.onFlow fun x => { x with due := x.due ++ [o] }

/-- The entry the control complex's agent makes from a notice (R222). -/
def noticeEntry (b : Bytes) (n g : Nat) (direct : Bool) : Bytes :=
  let key := if direct then Bytes.slice b 16 42 else entryKey (Bytes.slice b 16 48)
  key ++ toLE 2 (n + 4096) ++ zeros 3 ++ [byte (Bytes.at b 14)] ++ zeros 3 ++ [byte (Bytes.le b 4 2 / 2048 * 4)] ++ toLE 3 1 ++
    toLE 3 ((Bytes.le b 6 2 + 63) / 64) ++ toLE 2 g ++ zeros 4

/-- The learning agent of the control complex takes the oldest notice of a die's learn ring and inserts its entry at the core the notice names
(R221 to R223; log entry 132). It stops in the ply in which the host takes the rings over, during a control restart (R550), and with every control
processor stopped (R23, R500). -/
def State.learn (die : Nat) (s : State) : State :=
  match s.dev.flow.learnRings[die]? with
  | none => s
  | some r =>
    if s.dev.rg pgFlowCtl 0x54 % 2 = 1 ∨ s.dev.startUp.restart.isSome ∨ s.dev.reliab.stopped = 255 then s
    else let ans := s.ringConsume r; match ans.2 with
      | none => s
      | some it =>
        let s := ans.1
        let b := it.body
        if it.kind = 2 then s.stat die 18
        else if it.kind ≠ 0x11 then s
        else
          let core := Bytes.le b 4 2 % 1024
          let direct := bit (Bytes.le b 4 2) 10
          match s.chanOf (Bytes.le b 0 4) with
          | none => s
          | some n =>
            let g := (s.dev.chan n).hgen
            s.present core direct { slot := n, hgen := g, key := Bytes.slice b 16 48, entry := noticeEntry b n g direct }

/-- LEARNING_INSERTION (R221 to R223): the agent inserts from a die's learn ring. It runs at the end of the ply, after every event of higher
precedence (R49). -/
def execLearningInsertion (die : Nat) (s : State) : Host.Outcome State Fault Refusal :=
  .next (if 4 ≤ die then s else s.flowDue (.agent die))

/-- The second step of a move (R224): the old slot is invalid and the latch free, and the slice goes on. -/
def State.moveSecond (core : Nat) (s : State) : State :=
  match (s.dev.slice core).latch with
  | none => s
  | some (a, _, p) =>
    if s.now ≤ p then s
    else
      let s := ((s.touchEntry (.exact core a) 7).setEntry (.exact core a) (eFlag 12 false (s.dev.entry (.exact core a)))).onSlice core fun x =>
        { x with latch := none }
      (s.stat (coreDie core) 6).runSlice core 34

/-- RELOCATION_MOVE (R224): the second step of a slice's move is due; as a part of an insertion it runs at the end of the ply (R49, R51). -/
def execRelocationMove (core : Nat) (s : State) : Host.Outcome State Fault Refusal :=
  .next (if 800 ≤ core then s else s.flowDue (.move core))

/-- The lowest-numbered stash entry of a slice that has a bucket as a candidate (R227). -/
def Dev.stashFor (d : Dev) (core b : Nat) : Option Nat :=
  ((List.range 64).map (4 * nb core + ·)).find? fun q =>
    let e := d.entry (.exact core q)
    let ans := d.candidates core (eSlot e) (flowKeyOf e)
    eValid e && !entryFailed e && decide (ans.2.1 = b ∨ ans.2.2 = b)

/-- A slice checks its stash for one slot that an entry has left in an earlier ply (R227): the entry that it finds moves into that slot, if nothing
else has taken it. While an entry is in the move latch the slot waits (R224). -/
def State.stashSlot (core : Nat) (e : Nat × Nat) (s : State) : State :=
  if s.now ≤ e.2 ∨ (s.dev.slice core).latch.isSome then s
  else
    let s := s.onSlice core fun x => { x with left := x.left.erase e }
    if !s.dev.placeFree core e.1 then s
    else match s.tables.stashFor core (e.1 / 4) with
      | none => s
      | some q => s.moveFirst core q e.1

/-- In the ply after entries leave buckets, the slice checks its stash for each of the freed slots (R227). -/
def State.stashIn (core : Nat) (s : State) : State := State.each (s.dev.slice core).left (State.stashSlot core) s

/-- STASH_MOVE (R227): a slice checks its stash for a bucket that an entry has left; as a part of insertions it runs at the end of the ply. -/
def execStashMove (core : Nat) (s : State) : Host.Outcome State Fault Refusal :=
  .next (if 800 ≤ core then s else s.flowDue (.stash core))

/-- PENDING_FILTER_EXPIRE (R218): filter entries set 100 µs ago are cleared. -/
def execPendingFilterExpire (core : Nat) (s : State) : Host.Outcome State Fault Refusal :=
  .next (s.onSlice core fun x => { x with filter := x.filter.filter fun f => decide (s.now < f.ply + plies100us) })

/-! ### Aging and removal (R228) -/

/-- Is an entry stale: its channel free or draining, its handle generation another, or its owner elsewhere (R228)? -/
def Dev.stale (d : Dev) (l : Loc) (e : Bytes) : Bool :=
  let c := d.chan (eSlot e)
  !c.live || decide (c.hgen ≠ eChGen e) || (match l with
    | .exact core _ => decide (c.steer (flowKeyOf e) ≠ core)
    | .direct die t => decide (coreDie (c.steer (tagKey t)) ≠ die))

/-- The ply in which an uncorrectable error of an entry's vault line was last found; the stash lies on chip (R204). -/
def Dev.lineBad (d : Dev) (l : Loc) : Option Nat := match l with
  | .exact c p => d.bucketBad c (p / 4)
  | .direct k t => d.badLine (directLine k t).1 (directLine k t).2

/-- The die's page is FAULTED no longer once its slices and its copy hold no failed entry (R62). -/
def State.failuresGone (die : Nat) (s : State) : State :=
  if (s.dev.flow.exact.any fun e => decide (coreDie (e.1 / 524288) = die) && entryFailed e.2) ||
      (s.dev.flow.direct.any fun e => decide (e.1 / 1048576 = die) && entryFailed e.2) then s
  else s.setFaulted (statPage die) false

/-- A scanner visits a location and removes its entry when aged, failed, stale or duplicate; an entry in the move latch is
skipped (R225), and a core's scanner is stopped while the core is not active (R503). One whose line is found faulted in the ply leaves as a fault,
counted in DRAM_FAULTS, and not as an age-out (R51; log entry 164). -/
def State.scan (l : Loc) (s : State) : State :=
  let e := s.dev.entry l
  let die := l.die
  let latched := match l with
    | .exact c p => (match (s.dev.slice c).latch with | some (a, b, _) => decide (p = a ∨ p = b) | none => false)
    | .direct _ _ => false
  let cfg := s.rg pgFlowCtl (match l with | .exact _ _ => 0x48 | .direct _ _ => 0x4C)
  let aged := !eStatic e && bit cfg 31 && decide (cfg % 16777216 ≤ age24 s.stamp (eStamp e))
  let stale := s.start.stale l e
  if s.resetNow || latched then s
  else if entryFailed e then ((((s.touchEntry l 2).removeEntry l).stat die 12).setEvent (statPage die) 0).failuresGone die
  else if !eValid e then s
  else if (aged || stale) && decide (s.dev.lineBad l = some s.now) then
    (((s.touchEntry l 2).removeEntry l).stat die 13).setEvent (statPage die) 1
  else if aged then ((s.touchEntry l 6).removeEntry l).stat die 10
  else if stale then ((s.touchEntry l 6).removeEntry l).stat die 11
  else match l with
    | .exact c p =>
      if (s.tables.search c (eSlot e) (eChGen e) (flowKeyOf e) false false).1.head? = some p then s else (s.touchEntry l 6).removeEntry l
    | .direct _ _ => s

/-- SCAN_VISIT (R228): the scanner of a slice, or of a die's copy, comes to a place. What the visit does is judged at the end of the ply, after every
event of higher precedence (R49): a refresh cancels an age-out, and a host write is judged as written (R51). -/
def execScanVisit (direct : Bool) (unit pos : Nat) (s : State) : Host.Outcome State Fault Refusal :=
  .next (if !direct && !s.dev.coreActive unit then s else s.flowDue (.visit direct unit pos))

/-! ### Deep-tier write-back (R229) -/

/-- Write an override into the entry of a channel and key, or discard and count it. -/
def State.writeBack (core n g : Nat) (direct : Bool) (key : Bytes) (v : Verdict) (s : State) : State × Bool :=
  match (s.dev.find core n g direct key false false).1 with
  | none => (s.stat (coreDie core) 16, false)
  | some l => (((s.touchEntry l 7).updateEntry l (fun e =>
      Bytes.patch (eFlag 14 true e) 48 (toLE 2 v.cls ++ [byte v.queue, byte (Bytes.at e 51 / 4 * 4 + v.colour % 4)]))).mirrorEntry l, true)

/-! ### Host table commands (R230 to R233) -/

/-- The frame of a table command on one key: fields that must be 0 first (R584), then TABLE, the channel, its KEY_KIND, and the other fields
(R230, R231). DETAIL is the byte that holds the refused field's first bit (R584). -/
def State.tableCommand (sess op len : Nat) (rsv bad : Bytes → Option Nat) (run : Session → Cmd → Nat → Bool → State → State)
    (s : State) : State :=
  s.command sess op fun x c s =>
    let b := c.body
    match (if Bytes.le b 1 3 ≠ 0 then some 1 else rsv b) with
    | some o => s.complete sess op stBadField o []
    | none =>
      if b.length ≠ len then s.complete sess op stBadLength 0 []
      else if 1 < Bytes.at b 0 then s.complete sess op stBadField 0 []
      else match s.chanOf (Bytes.le b 4 4) with
        | none => s.complete sess op stBadHandle 0 []
        | some n =>
          let direct := decide (Bytes.at b 0 = 1)
          if direct ≠ decide ((s.dev.chan n).keyKind = 2) then s.complete sess op stBadField 0 []
          else match bad b with
            | some o => s.complete sess op stBadField o []
            | none => run x c n direct s

/-- The bits above a service tag, in a key of `len` bytes, are not all 0; they begin in the key's byte 2 (R106). -/
def tagRest (k : Bytes) (len : Nat) : Bool := decide (1048576 ≤ Bytes.le k 0 len)

/-- Ports that must be 0 in a key: those of a three-tuple, and of a protocol other than TCP and UDP (R153). -/
def portsRsv (kind proto src dst : Nat) : Bool × Bool :=
  let none := decide (kind = 1 ∨ (proto ≠ 6 ∧ proto ≠ 17))
  (none && decide (src ≠ 0), none && decide (dst ≠ 0))

/-- Is the part of an address field that an IPv4 address leaves 0 another (R153)? -/
def ip4Rsv (v4 : Bool) (k : Bytes) (o : Nat) : Bool := v4 && !allZero (Bytes.slice k o 12)

/-- Reserved fields of a search or delete key that are not 0, in the body at 8 (R106, R153, R584). -/
def bodyKeyRsv (b : Bytes) : Option Nat :=
  let k := b.drop 8
  let ports := portsRsv (Bytes.at k 0) (Bytes.at k 1) (Bytes.le k 2 2) (Bytes.le k 4 2)
  let v4 := decide (Bytes.at k 6 = 4)
  (if Bytes.at b 0 = 1 then firstBad [(tagRest k 48, 2)]
    else firstBad [(ports.1, 2), (ports.2, 4), (decide (4 ≤ Bytes.at k 7), 7), (decide (Bytes.le k 12 4 ≠ 0), 12), (ip4Rsv v4 k 16, 16),
      (ip4Rsv v4 k 32, 32)]).map (· + 8)

/-- The key of a search or delete, in the body at 8 (R106, R206). -/
def bodyKeyBad (b : Bytes) : Option Nat := if Bytes.at b 0 = 1 then none else (keyBad (b.drop 8)).map (· + 8)

/-- TABLE_SEARCH (R230): no refresh; `bad1` and `bad2` tell of uncorrectable errors in the reads of the two buckets (R212). -/
def execTableSearch (sess : Nat) (bad1 bad2 : Bool) (s : State) : Host.Outcome State Fault Refusal :=
  .next (s.tableCommand sess 0x30 56 bodyKeyRsv bodyKeyBad fun x c n direct s =>
    s.sized x c 64 fun s =>
      let key := Bytes.slice c.body 8 48
      let core := (s.start.chan n).steer key
      let ans := s.start.find core n (s.start.chan n).hgen direct key bad1 bad2
      let hit := ans.1
      let failed := ans.2.1
      let dup := ans.2.2
      let s := (s.searchEvents (coreDie core) failed (b2n bad1 + b2n bad2) dup).badReads core n direct key bad1 bad2
      match hit with
      | some l => (s.touchEntry l 5).complete sess 0x30 stOK 0 (Bytes.slice (s.start.entry l) 0 64)
      | none => s.complete sess 0x30 (if 0 < failed ∨ bad1 ∨ bad2 then stFault else stNotFound) 0 [])

/-- TABLE_DELETE (R230): the first hit is removed, static or not. -/
def execTableDelete (sess : Nat) (bad1 bad2 : Bool) (s : State) : Host.Outcome State Fault Refusal :=
  .next (s.tableCommand sess 0x34 56 bodyKeyRsv bodyKeyBad fun _ c n direct s =>
    let key := Bytes.slice c.body 8 48
    let core := (s.dev.chan n).steer key
    let ans := s.tables.find core n (s.dev.chan n).hgen direct key bad1 bad2
    let hit := ans.1
    let failed := ans.2.1
    let dup := ans.2.2
    let s := (s.searchEvents (coreDie core) failed (b2n bad1 + b2n bad2) dup).badReads core n direct key bad1 bad2
    match hit with
    | some l => ((s.touchEntry l 5).removeEntry l).complete sess 0x34 stOK 0 []
    | none => s.complete sess 0x34 (if 0 < failed ∨ bad1 ∨ bad2 then stFault else stNotFound) 0 [])

/-- Fields of an entry to insert that must be 0 (R231, R584), by their byte in the body. -/
def entryRsv (b : Bytes) : Option Nat :=
  let e := b.drop 8
  let tag := decide (Bytes.at b 0 = 1)
  let ports := portsRsv (Bytes.at e 41 % 2) (Bytes.at e 40) (Bytes.le e 32 2) (Bytes.le e 34 2)
  let v4 := !tag && decide (Bytes.at e 41 / 2 % 4 = 1)
  (firstBad [(ip4Rsv v4 e 0, 0), (tag && tagRest e 42, 2), (ip4Rsv v4 e 16, 16), (!tag && ports.1, 32), (!tag && ports.2, 34), (decide (32 ≤ Bytes.at e 41), 41), (ePromoted e, 43),
    (decide (128 ≤ Bytes.at e 51), 51), (decide (4096 ≤ Bytes.le e 58 2), 59), (decide (eState e ≠ 0), 60)]).map (· + 8)

/-- Values of an entry to insert that are never used (R231), by their offset in the body. -/
def entryBad (b : Bytes) : Option Nat :=
  let e := b.drop 8
  (firstBad [(decide (Bytes.at e 41 / 2 % 4 = 3), 41), (decide (Bytes.at e 51 % 4 = 3), 51)]).map (· + 8)

/-- TABLE_INSERT (R231): the command is checked, and its insertion is presented at the end of the ply, after every event of higher precedence (R49).
-/
def execTableInsert (sess : Nat) (s : State) : Host.Outcome State Fault Refusal :=
  .next (s.tableCommand sess 0x33 72 entryRsv entryBad fun _ c n direct s =>
    let q := s.dev.chan n
    let e := Bytes.slice c.body 8 64
    if !direct && decide (Bytes.at e 41 % 2 ≠ q.keyKind) then s.complete sess 0x33 stBadField 49 []
    else
      let w := Bytes.le e 42 2
      let e := Bytes.patch e 42 (toLE 2 (n + 4096 + b2n (bit w 14) * 16384 + b2n (bit w 15) * 32768))
      let e := Bytes.patch e 58 (toLE 2 q.hgen ++ [0, 0])
      let key := if direct then Bytes.slice e 0 42 ++ zeros 6 else flowKeyOf e
      let core := q.steer key
      (s.startCmd sess 0x33).flowDue (.insert core direct { who := .host sess, slot := n, hgen := q.hgen, key, entry := e }))

/-- The location a cursor names, if it is valid (R232). -/
def cursorLoc (direct : Bool) (v : Nat) : Option Loc :=
  if direct then if v < 2 ^ 22 then some (.direct (v / 1048576) (v % 1048576)) else none
  else
    let core := v / 524288
    let pos := v % 524288
    if v < 2 ^ 29 ∧ core < 800 ∧ pos < 4 * nb core + 64 then some (.exact core pos) else none

/-- The next position's cursor, 0 after the last (R232). -/
def nextCursor (l : Loc) : Nat := match l with
  | .direct d t => if d = 3 ∧ t = 1048575 then 0 else d * 1048576 + t + 1
  | .exact c p => if p + 1 < 4 * nb c + 64 then c * 524288 + p + 1 else if c = 799 then 0 else (c + 1) * 524288

/-- Examine positions from a cursor: the entries returned and the cursor reached (R232). -/
def Dev.walk (d : Dev) (direct : Bool) (chan : Option Nat) (fuel room cursor : Nat) (acc : List Bytes) : List Bytes × Nat :=
  match fuel with
  | 0 => (acc.reverse, cursor)
  | k + 1 =>
    if room = 0 then (acc.reverse, cursor)
    else match cursorLoc direct cursor with
      | none => (acc.reverse, 0)
      | some l =>
        let e := d.entry l
        let take := eValid e && !entryFailed e && !d.stale l e &&
          (match chan with | some n => decide (eSlot e = n ∧ eChGen e = (d.chan n).hgen) | none => true)
        let nx := nextCursor l
        let acc := if take then Bytes.slice e 0 64 :: acc else acc
        if nx = 0 then (acc.reverse, 0) else d.walk direct chan k (if take then room - 1 else room) nx acc

/-- TABLE_NEXT (R232). -/
def execTableNext (sess : Nat) (s : State) : Host.Outcome State Fault Refusal :=
  .next (s.command sess 0x31 fun x c s =>
    let b := c.body
    let max := Bytes.at b 1
    let handle := Bytes.le b 4 4
    let direct := decide (Bytes.at b 0 = 1)
    if Bytes.le b 2 2 ≠ 0 then s.complete sess 0x31 stBadField 2 []
    else if b.length ≠ 16 then s.complete sess 0x31 stBadLength 0 []
    else match firstBad [(decide (1 < Bytes.at b 0), 0), (decide (max < 1 ∨ 64 < max), 1),
        ((cursorLoc direct (Bytes.le b 8 8)).isNone, 8)] with
      | some o => s.complete sess 0x31 stBadField o []
      | none =>
        if handle ≠ 0 ∧ (s.chanOf handle).isNone then s.complete sess 0x31 stBadHandle 0 []
        else s.sized x c (16 + 64 * max) fun s =>
          let chan := if handle = 0 then none else s.chanOf handle
          let ans := s.start.walk direct chan 4096 max (Bytes.le b 8 8) []
          let es := ans.1
          let cur := ans.2
          s.complete sess 0x31 stOK 0 (toLE 8 cur ++ toLE 4 es.length ++ zeros 4 ++ es.flatten))

/-- TABLE_FLUSH (R233): the sweep begins; its response comes with FLUSH_DONE. A second flush while one sweeps is answered BUSY. -/
def execTableFlush (sess : Nat) (s : State) : Host.Outcome State Fault Refusal :=
  .next (s.command sess 0x32 fun x c s =>
    let b := c.body
    let byChannel := decide (Bytes.at b 1 = 1)
    if Bytes.le b 2 2 ≠ 0 then s.complete sess 0x32 stBadField 2 []
    else if b.length ≠ 12 then s.complete sess 0x32 stBadLength 0 []
    else match firstBad [(decide (1 < Bytes.at b 0), 0), (decide (1 < Bytes.at b 1), 1)] with
      | some o => s.complete sess 0x32 stBadField o []
      | none =>
        if byChannel ∧ (s.chanOf (Bytes.le b 8 4)).isNone then s.complete sess 0x32 stBadHandle 0 []
        else s.sized x c 16 fun s =>
          if s.dev.flow.flush.isSome then s.complete sess 0x32 stBusy 0 []
          else
            let slot := Bytes.le b 8 4 % 4096
            let ports := Bytes.le b 4 4
            let f : Flush := { table := Bytes.at b 0, byChannel, ports, slot, sess, start := s.now }
            (s.startCmd sess 0x32).onFlow fun y => { y with flush := some f, lastFlush := some f })

/-- Is an entry within a flush's scope (R233)? -/
def Flush.covers (f : Flush) (e : Bytes) : Bool :=
  eValid e && (if f.byChannel then decide (eSlot e = f.slot) else bit f.ports (ePort e))

/-- Entries of a flush's table from a unit's swept position on, below `upTo`, that it still has to remove. -/
def Dev.unswept (d : Dev) (f : Flush) (unit upTo : Nat) : Bool :=
  let ans := if f.table = 0 then (d.flow.exact, 524288) else (d.flow.direct, 1048576)
  let t := ans.1
  let w := ans.2
  t.any fun e => decide (e.1 / w = unit ∧ Table.get 0 f.swept unit ≤ e.1 % w ∧ e.1 % w < upTo) && f.covers e.2

/-- The sweep reaches a position of a slice or die copy and removes a matching valid entry (R233). Positions it passes on the way hold none. -/
def State.sweepAt (f : Flush) (unit pos : Nat) (s : State) : State :=
  let l : Loc := if f.table = 0 then .exact unit pos else .direct unit pos
  let hit := f.covers (s.dev.entry l)
  let s := if hit then ((s.touchEntry l 5).removeEntry l).stat l.die 17 else s
  s.onFlow fun y => { y with flush := some { f with removed := f.removed + b2n hit, swept := Table.put f.swept unit (pos + 1) } }

/-- FLUSH_SWEEP_VISIT (R233): the sweep reaches a position that it has not passed, with nothing to remove before it. -/
def execFlushSweepVisit (unit pos : Nat) (s : State) : Host.Outcome State Fault Refusal :=
  match s.dev.flow.flush with
  | none => .next s
  | some f => .next (if pos < Table.get 0 f.swept unit ∨ s.dev.unswept f unit pos then s else s.sweepAt f unit pos)

/-- The sweep has ended: its command is answered (R233, R235). -/
def State.flushEnd (f : Flush) (s : State) : State :=
  ((s.onFlow fun y => { y with flush := none }).setEvent pgFlowCtl 1).complete f.sess 0x32 stOK 0 (toLE 4 f.removed ++ zeros 4 ++ toLE 8 s.now)

/-- FLUSH_DONE (R233): no position of any slice or copy is left, so the sweep ends. -/
def execFlushDone (s : State) : Host.Outcome State Fault Refusal :=
  match s.dev.flow.flush with
  | none => .next s
  | some f => .next (if (List.range (if f.table = 0 then 800 else 4)).any fun u => s.dev.unswept f u 1048576 then s else s.flushEnd f)

/-- A sweep that is still under way 20 ms after its command does the rest in that ply (R233). -/
def State.flushLimit (s : State) : State :=
  match s.dev.flow.flush with
  | none => s
  | some f =>
    if s.now < f.start + 31250000 then s
    else
      let w := if f.table = 0 then 524288 else 1048576
      let left := ((if f.table = 0 then s.dev.flow.exact else s.dev.flow.direct).filter fun e =>
        decide (Table.get 0 f.swept (e.1 / w) ≤ e.1 % w) && f.covers e.2).map (·.1)
      let s := State.each left (fun k s => match s.dev.flow.flush with
        | some f => s.sweepAt f (k / w) (k % w)
        | none => s) s
      match s.dev.flow.flush with
      | some f => s.flushEnd f
      | none => s

/-! ### The flow-table pages -/

/-- Valid entries of each table (R235). -/
def Dev.validExact (d : Dev) : Nat := d.flow.exact.countP fun e => eValid e.2
def Dev.validDirect (d : Dev) : Nat := d.flow.direct.countP fun e => eValid e.2

/-- Read of a block register of the flow-table control page (R234, R235). -/
def Dev.flowCtlRead (d : Dev) (off : Nat) : Word :=
  if 0x40 ≤ off ∧ off < 0x58 then d.reg (addrOf pgFlowCtl off)
  else if 0x58 ≤ off ∧ off < 0x68 then
    match d.flow.learnRings[(off - 0x58) / 4]? with
    | some r => BitVec.ofNat 32 (d.ringHandle r)
    | none => 0
  else if off = 0x68 then BitVec.ofNat 32 d.validExact
  else if off = 0x6C then BitVec.ofNat 32 d.validDirect
  else 0

/-- Write of a block register of the flow-table control page (R235). -/
def State.flowCtlWrite (off : Nat) (v : Word) (s : State) : State :=
  let a := addrOf pgFlowCtl off
  let n := v.toNat
  if off = 0x40 ∨ off = 0x44 then
    if s.start.validExact = 0 ∧ s.dev.validExact = 0 then s.setReg a v else s.setEvent pgFlowCtl 0
  else if off = 0x48 ∨ off = 0x4C then
    if n % 16777216 = 0 ∨ 8388608 < n % 16777216 then s else s.setReg a (v &&& 0x80FFFFFF)
  else if off = 0x50 then if n % 1048576 = 0 ∨ 524288 < n % 1048576 then s else s.setReg a (v &&& 0xFFFFF)
  else if off = 0x54 then s.setReg a (v &&& 1)
  else s

/-- STATUS.BLOCK of the flow-table control page, and of a statistics page (R235, R237). -/
def Dev.flowCtlStatus (d : Dev) : Nat := b2n d.flow.flush.isSome * 2 + d.rg pgFlowCtl 0x54 % 2

def Dev.stashMax (d : Dev) (die : Nat) : Nat :=
  ((List.range 200).map fun i =>
    let c := 200 * die + i
    d.flow.exact.countP fun e => decide (e.1 / 524288 = c ∧ 4 * nb c ≤ e.1 % 524288) && eValid e.2).foldl max 0

end Sys2Proof.Machine
end

