-- ==== Sys2Proof/Machine/Numbers.lean ====
section
/-! DEFINITION. Number formats and rounding (R275 to R298): trits, activations, groups, the group former, accumulation, rounding, rescale and the
adaptation decisions, as pure functions. -/
namespace Sys2Proof.Machine

/-- rne of R292 for s from 0: the nearest integer to x ÷ 2^s, ties to even. -/
def rne (x : Int) (s : Nat) : Int :=
  let p : Int := ((2 ^ s : Nat) : Int)
  let q := x / p
  let r := x - q * p
  if s = 0 then x
  else if p < 2 * r then q + 1
  else if 2 * r = p ∧ q % 2 = 1 then q + 1
  else q

/-- rne with a signed shift: for s ≤ 0 the exact value x × 2^(−s) (R290). -/
def rneS (x s : Int) : Int := if s ≤ 0 then x * ((2 ^ (-s).toNat : Nat) : Int) else rne x s.toNat

/-- Clamp between two bounds. -/
def clamp (lo hi x : Int) : Int := if x < lo then lo else if hi < x then hi else x

/-- sat32 of R290. -/
def sat32 (x : Int) : Int := clamp (-2147483648) 2147483647 x

/-- sat24 of R263. -/
def sat24 (x : Int) : Int := clamp (-8388608) 8388607 x

/-- Trit at position `i` of a packed byte; an invalid code reads as five zero trits (R278, R279). -/
def tritAt (b i : Nat) : Int := if 243 ≤ b then 0 else ((b / 3 ^ i % 3 : Nat) : Int) - 1

/-- top and half of a format (R282): A4 or A8. -/
def topOf (a4 : Bool) : Int := if a4 then 7 else 127
def halfOf (a4 : Bool) : Int := if a4 then 4 else 64

/-- An activation code as a reader takes it (R282, R283). -/
def readCode (a4 : Bool) (c : Int) : Int := if c = -(topOf a4) - 1 then -(topOf a4) else c

/-- The least exponent at which the largest magnitude fits (R288). -/
def groupShift (a4 : Bool) (m b : Int) (fuel e : Nat) : Nat :=
  match fuel with
  | 0 => e
  | k + 1 => if topOf a4 < rne m e ∧ b + (e : Int) < 31 then groupShift a4 m b k (e + 1) else e

/-- The group former (R288): codes, exponent (−32 for a zero group), and whether GROUP_SAT is set. -/
def formGroup (a4 : Bool) (b : Int) (v : List Int) : List Int × Int × Bool :=
  let m : Int := ((v.map fun x => x.natAbs).foldl max 0 : Nat)
  if m = 0 then (v.map fun _ => 0, -32, false)
  else
    let e := groupShift a4 m b 64 0
    (v.map fun x => clamp (-(topOf a4)) (topOf a4) (rne x e), b + (e : Int), decide (topOf a4 < rne m e))

/-- Split a list into groups of `g` (R285); the last holds what remains. -/
def groups {α : Type} (g : Nat) (fuel : Nat) (l : List α) : List (List α) :=
  match fuel with
  | 0 => []
  | k + 1 => if l.isEmpty then [] else l.take g :: groups g k (l.drop g)

/-- Rescale of one accumulator (R293): the code, and whether it saturated; `y` is the rounded value. -/
def rescaleY (acc : Int) (m s : Nat) : Int := rne (acc * (m : Int)) s
def rescaleCode (a4 : Bool) (y : Int) : Int := clamp (-(topOf a4)) (topOf a4) y
def rescaleSat (a4 : Bool) (y : Int) : Bool := decide (topOf a4 < y ∨ y < -(topOf a4))

/-- Codes written in groups (R295): a group of zeros takes the zero-group exponent. -/
def groupExps (g : Nat) (outExp : Int) (codes : List Int) : List Int :=
  (groups g codes.length codes).map fun c => if c.all (fun x => decide (x = 0)) then -32 else outExp

/-! ### Coded vectors as bytes (R284, R286, R306) -/

/-- Codes in byte form (R284): an A4 vector holds two codes a byte, the first in the low half. -/
def packCodes (a4 : Bool) (c : List Int) : Bytes :=
  if a4 then (groups 2 c.length c).map fun p => byte (toTwos 4 (p.getD 0 0) + 16 * toTwos 4 (p.getD 1 0))
  else c.map fun v => byte (toTwos 8 v)

/-- A coded vector in byte form: its codes, then one exponent byte a group (R286, R306). -/
def vecBytes (v : Vec) : Bytes := packCodes v.a4 v.codes ++ v.exps.map fun e => byte (toTwos 6 e)

/-- The same in a transfer, padded to 16 bytes (R356). -/
def packVec (v : Vec) : Bytes := let b := vecBytes v; b ++ zeros ((16 - b.length % 16) % 16)

/-- Read `n` codes of a format in groups of `g` from bytes, as a reader takes them whoever wrote them. -/
def unpackVec (a4 : Bool) (g n : Nat) (b : Bytes) : Vec :=
  let codes := (List.range n).map fun i => if a4 then sext 4 (Bytes.at b (i / 2) / 16 ^ (i % 2)) else sext 8 (Bytes.at b i)
  let o := if a4 then (n + 1) / 2 else n
  { codes, exps := (List.range ((n + g - 1) / g)).map fun i => sext 6 (Bytes.at b (o + i)), a4 }

/-- Observation of one rescale (R296). -/
def Adapt.observe (a4 : Bool) (y : Int) (a : Adapt) : Adapt :=
  { a with seen := true, sat := a.sat || rescaleSat a4 y, head := a.head && decide ((y.natAbs : Int) < halfOf a4) }

/-- The decision at the end of an adaptation step (R297): 1 up, -1 down, 0 unchanged. -/
def scaleStep (a : Adapt) (lo hi : Nat) : Int :=
  if !a.seen then 0
  else if a.sat then (if a.shift = hi then 0 else 1)
  else if a.head then (if a.shift = lo then 0 else -1)
  else 0

/-- The decision at the end of an adaptation window (R251). -/
def windowStep (a : Adapt) (lo hi : Nat) : Int :=
  if !a.seen ∨ !a.varied then 0
  else if a.sat then (if a.shift = hi then 0 else 1)
  else if a.head then (if a.shift = lo then 0 else -1)
  else 0

/-- The shift a decision gives, with the bits cleared for the next step or window. -/
def Adapt.renew (d : Int) (a : Adapt) : Adapt := { shift := (((a.shift : Int) + d)).toNat }

end Sys2Proof.Machine
end

