-- ==== Sys2Proof/Machine/Tasks.lean ====
section
/-! DEFINITION. Tasks and schedule tables (R362 to R376, R387, R388): cores and contexts, reading a volume, an entry's fields, the energy grant
(R377, R450), and the issue of one entry. -/
namespace Sys2Proof.Machine

/-! ### Cores and contexts -/

def Dev.core (d : Dev) (c : Nat) : CoreState := Table.get {} d.compute.cores c
def State.core (s : State) (c : Nat) : CoreState := s.dev.core c
def State.onCore (c : Nat) (f : CoreState → CoreState) (s : State) : State :=
  s.onCompute fun x => { x with cores := Table.modify {} x.cores c f }
def CoreState.ctx (x : CoreState) (t : Nat) : Ctx := Table.get {} x.ctxs t
def CoreState.onCtx (t : Nat) (f : Ctx → Ctx) (x : CoreState) : CoreState := { x with ctxs := Table.modify {} x.ctxs t f }
def State.ctx (s : State) (c t : Nat) : Ctx := (s.core c).ctx t
def State.onCtx (c t : Nat) (f : Ctx → Ctx) (s : State) : State := s.onCore c fun x => x.onCtx t f
def Ctx.work (x : Ctx) (i : Nat) : Work := Table.get {} x.works i
def State.onWork (c t i : Nat) (f : Work → Work) (s : State) : State := s.onCtx c t fun x => { x with works := Table.modify {} x.works i f }

/-- Counter `e` of a core's sequencer page (R391). -/
def State.seqCount (c e n : Nat) (s : State) : State := s.coreBump tSeq c (0x80 + 8 * e) n

/-! ### Firmware and base book (R467, R389) -/

/-- A flash slot's bytes (R467). -/
def Dev.flash (d : Dev) (k : Nat) : Bytes :=
  match if k = 0 then d.sec.nvm.slotA else d.sec.nvm.slotB with
  | some b => b
  | none => Config.flash k

/-- Offset of the base book in a slot: the next multiple of 4 KiB after the code (R467). -/
def bookAt (f : Bytes) : Nat := (65536 + Bytes.le f 16 4 + 4095) / 4096 * 4096

/-- The base book of the running firmware. -/
def Dev.book (d : Dev) : Bytes := let f := d.flash d.sec.slot; (f.drop (bookAt f)).take (Bytes.le f 20 4)

/-! ### Volumes -/

/-- A volume: in a generation's image from an offset, or the base book. -/
inductive Volume where
  | image (m : Mem) (base : Nat)
  | book (b : Bytes)
  deriving DecidableEq, Repr

def Volume.le (v : Volume) (off n : Nat) : Nat := match v with
  | .image m b => Mem.le m (b + off) n
  | .book b => Bytes.le b off n

/-- The generation a schedule identifier's volume belongs to (R387, R364). -/
def Dev.schedGen (d : Dev) (sched gen : Nat) : Option Generation :=
  match sched / 2 ^ 28 with
  | 1 => d.gen? false (sched / 65536 % 4096) gen
  | 2 => d.gen? true (sched / 65536 % 4096) gen
  | _ => none

/-- The volume a schedule identifier names (R387, R388). -/
def Dev.volume (d : Dev) (sched gen : Nat) : Option Volume :=
  if sched / 4096 % 16 ≠ 0 then none
  else match sched / 2 ^ 28 with
    | 0 => if sched / 65536 % 4096 = 0 then some (.book d.book) else none
    | _ => (d.schedGen sched gen).map fun g => .image g.image (secAt g.image secVolume)

/-- The table a schedule identifier names: its volume and its offset there (R387, R388). -/
def Dev.table (d : Dev) (sched gen : Nat) : Option (Volume × Nat) :=
  match d.volume sched gen with
  | some v => let t := sched % 4096; if t < v.le 2 2 then some (v, v.le (16 + 8 * t) 4) else none
  | none => none

/-- Header fields of a table (R371). -/
def tblEntries (v : Volume) (o : Nat) : Nat := v.le (o + 2) 2
def tblClass (v : Volume) (o : Nat) : Nat := v.le (o + 4) 1
def tblLoopMax (v : Volume) (o n : Nat) : Nat := v.le (o + 8 + 2 * n) 2
def tblWorst (v : Volume) (o : Nat) : Nat := v.le (o + 16) 4
def tblEnergy (v : Volume) (o : Nat) : Nat := v.le (o + 20) 4
def tblBarrierLimit (v : Volume) (o : Nat) : Nat := v.le (o + 24) 4

/-- Rate of a task (R451). -/
def tblRate (v : Volume) (o : Nat) : Nat :=
  let w := tblWorst v o
  if w = 0 then 0 else (tblEnergy v o * 1024 + w - 1) / w

/-- One entry (R372). -/
structure Entry where
  op : Nat := 0
  sub : Nat := 0
  wait : Bool := false
  dep : Bool := false
  commit : Bool := false
  idxEn : Bool := false
  idxLoop : Nat := 0
  maskSel : Nat := 0
  dur : Nat := 0
  base : Nat := 0
  energy : Nat := 0
  operand : Nat := 0
  deriving DecidableEq, Repr

/-- Entry `k` of a table. -/
def entryAt (v : Volume) (o k : Nat) : Entry :=
  let a := o + 32 + 16 * k
  let f := v.le (a + 1) 1
  { op := v.le a 1 % 16, sub := v.le a 1 / 16, wait := bit f 0, dep := bit f 1, commit := bit f 2, idxEn := bit f 3, idxLoop := f / 16 % 4,
    maskSel := f / 64, dur := v.le (a + 2) 3, base := v.le (a + 5) 1 % 8, energy := v.le (a + 6) 2, operand := v.le (a + 8) 8 }

/-- The next entry of a context's task. -/
def Dev.entryOf (d : Dev) (x : Ctx) : Option Entry :=
  match d.table x.task.sched x.task.gen with
  | some (v, o) => if x.idx < tblEntries v o then some (entryAt v o x.idx) else none
  | none => none

/-- Watchdogs that did not count since ply `p` count on (R385, R458): the time since then is left out of a context's wait. -/
def Ctx.resume (p now : Nat) (x : Ctx) : Ctx := { x with since := x.since + (now - max p x.since) }

/-- Is a context's next entry a STREAM entry? -/
def Dev.streamNext (d : Dev) (x : Ctx) : Bool := match d.entryOf x with
  | some e => decide (e.op = 5)
  | none => false

/-- A core's flow-slice demand exceeds its reservation, or falls back within it (R458). -/
def CoreState.demand (now : Nat) (overflow : Bool) (stream : Ctx → Bool) (x : CoreState) : CoreState :=
  match overflow, x.overDemand with
  | true, none => { x with overDemand := some now }
  | false, some p =>
    { x with overDemand := none, ctxs := x.ctxs.map fun e => (e.1, if e.2.state = .running ∧ stream e.2 then e.2.resume p now else e.2) }
  | _, _ => x

/-- The address an entry's OPERAND names: its low 48 bits and base register (R372, R373). -/
def Ctx.addr (x : Ctx) (e : Entry) : Nat := (x.task.ba.getD e.base 0 + e.operand % 2 ^ 48) % 2 ^ 64

/-- Iteration index an entry uses (R372). -/
def Ctx.index (x : Ctx) (e : Entry) : Nat := if e.idxEn then x.iter.getD e.idxLoop 0 else 0

/-- Does an entry act on slot `i` (R375)? -/
def Ctx.unmasked (x : Ctx) (e : Entry) (i : Nat) : Bool := decide (e.maskSel = 0) || bit (x.task.masks.getD (e.maskSel - 1) 0) i

/-- Slots a FRONT, TREE, LOOKUP or EMIT entry acts on (R373, R375). -/
def Ctx.slots (x : Ctx) (e : Entry) : List Nat := [x.index e].filter fun i => x.unmasked e i

/-! ### Energy (R377, R449, R450) -/

def Dev.tempo (d : Dev) (die : Nat) : Tempo := Table.get {} d.power.dies die
def State.onTempo (die : Nat) (f : Tempo → Tempo) (s : State) : State := s.onPower fun p => { p with dies := Table.modify {} p.dies die f }

/-- Counter `e` of a die's tempo page (R461). -/
def State.tempoCount (die e n : Nat) (s : State) : State := s.bump (pageOf tTempo die) (0x80 + 8 * e) n

/-- The pawn side of a core is idle: pawn queue empty and contexts 0 to 3 free (R450). -/
def CoreState.pawnIdle (x : CoreState) : Bool := x.pawn.isEmpty && ([0, 1, 2, 3].all fun t => decide ((x.ctx t).state = .free))

/-- The released part of a die's pawn pool (R450). -/
def Dev.releasedPool (d : Dev) (die : Nat) : Nat :=
  let p := d.tempo die
  let cores := d.activeCores die
  let share := p.pawn / max 1 cores.length
  (cores.map fun c =>
    let x := d.core c
    let spent := if x.pawnWin = p.window then x.pawnSpent else 0
    if x.pawnIdle ∨ x.released = some p.window then share - spent else 0).sum

/-- Charge an entry's energy: none when it must wait for the next window (R450). -/
def State.grant (c cls n : Nat) (s : State) : Option State :=
  let die := coreDie c
  let p := s.dev.tempo die
  if cls ≤ 1 then
    let a := min n (p.pawn - p.pawnSpent - p.relSpent)
    let b := min (n - a) (p.general - p.genSpent)
    let s := s.onTempo die fun p => { p with pawnSpent := p.pawnSpent + a, genSpent := p.genSpent + b, debt := p.debt + (n - a - b) }
    let s := s.onCore c fun x =>
      { x with pawnSpent := (if x.pawnWin = p.window then x.pawnSpent else 0) + a, pawnWin := p.window }
    some (s.tempoCount die 1 n)
  else
    let a := min n (p.general - p.genSpent)
    let room := min (s.dev.releasedPool die - p.relSpent) (p.pawn - p.pawnSpent - p.relSpent)
    if n - a ≤ room then
      some ((s.onTempo die fun p => { p with genSpent := p.genSpent + a, relSpent := p.relSpent + (n - a) }).tempoCount die 1 n)
    else none

/-- The pawn side of an idle core becomes busy: what it released in this window stays released (R450). -/
def State.noteRelease (c : Nat) (s : State) : State :=
  if (s.start.core c).pawnIdle then s.onCore c fun x => { x with released := some (s.dev.tempo (coreDie c)).window } else s

/-! ### Issue (R368) -/

/-- Does an entry act on any slot (R375)? With IDX_EN its slot is the iteration index, else it has `batch` slots. -/
def Ctx.acts (x : Ctx) (e : Entry) (batch : Nat) : Bool :=
  if e.idxEn then x.unmasked e (x.index e) else decide (e.maskSel = 0) || (List.range batch).any (x.unmasked e)

/-- A core's step in sixteenths of a ply, as its site has last reported it (R54); a site that has reported none runs at the nominal step (R52; log
entry 165). -/
def Dev.stepOf (d : Dev) (c : Nat) : Nat := match d.siteOf c with
  | some x => max 1 ((Table.get? (d.tempo (siteDie x)).steps (x % 208)).getD 25)
  | none => 25

/-- The start of the ply, in sixteenths of a ply. -/
def State.clock (s : State) : Nat := 16 * s.now

/-- May the context issue an entry: running, with no abort, and not halted (R368, R382)? A cancel of the present ply stops it from the next. -/
def Dev.canIssue (d : Dev) (c : Nat) (x : Ctx) : Bool :=
  decide (x.state = .running) && x.fault.isNone && !x.ended && !d.halted && d.coreActive c

/-- The same, with at most one issue in each step of the core, and from the ply it may issue. -/
def State.canIssue (s : State) (c : Nat) (x : Ctx) : Bool :=
  s.dev.canIssue c x && decide (x.since ≤ s.now) && decide ((s.dev.core c).nextStep ≤ s.clock + 15)

/-- The pass or request of a context under way, if it has one. -/
def CoreState.runOf (x : CoreState) (ctx : Nat) : Option ArrayRun := x.running.find? fun r => decide (r.ctx = ctx)

/-- The next entry of a context may issue when no array pass or matrix-vector request of its task is under way: its inputs have not been acknowledged
(R53). Transfers may (R370). -/
def CoreState.entryFree (x : CoreState) (t : Nat) (e : Entry) : Bool := decide (e.op = 5) || (x.runOf t).isNone

/-- WD_CFG of a core's page, for the entries that issue in the ply (R392). -/
def State.watchCfg (c : Nat) (s : State) : Nat := match s.start.corePage tSeq c with
  | some p => s.start.rg p 0x50
  | none => 0x408

/-- Go to an entry. -/
def State.goTo (c t k : Nat) (s : State) : State :=
  s.onCtx c t fun x => { x with idx := k, since := s.now, watch := s.watchCfg c, restarts := 0 }

/-- Where a task stands once it has passed an entry (R374). -/
def Ctx.after (x : Ctx) (e : Entry) : Ctx :=
  let r := e.sub % 4
  let count := x.task.lc.getD r 0
  let i := x.iter.getD r 0 + 1
  if e.op = 10 then
    if count = 0 then { x with idx := e.operand % 65536 + 1 } else { x with idx := x.idx + 1, iter := x.iter.set r 0 }
  else if e.op = 11 ∧ i < count then { x with idx := e.operand % 65536 + 1, iter := x.iter.set r i }
  else { x with idx := x.idx + 1 }

/-- A task passes over `n` STREAM entries at most that have issued ahead (R370). -/
def Dev.passAhead (d : Dev) (n : Nat) (x : Ctx) : Ctx := match n with
  | 0 => x
  | k + 1 => if x.ahead = 0 || !d.streamNext x then x else d.passAhead k { x with idx := x.idx + 1, ahead := x.ahead - 1 }

/-- A context goes past the entries that have issued ahead. -/
def State.passAhead (c t : Nat) (s : State) : State :=
  let x := s.ctx c t
  if x.ahead = 0 then s else s.onCtx c t fun x => s.dev.passAhead x.ahead x

/-- Does an entry end the run-ahead of streams (R370)? -/
def Entry.endsRun (e : Entry) : Bool := e.dep || e.wait || e.commit || decide (e.op = 0 ∨ e.op = 9)

/-- The STREAM entry that run-ahead reaches after `skip` others, along the way that execution will take (R370); `fuel` bounds the entries passed. -/
def Dev.runAhead (d : Dev) (fuel skip : Nat) (x : Ctx) : Option (Ctx × Entry) := match fuel with
  | 0 => none
  | k + 1 => match d.entryOf x with
    | none => none
    | some e =>
      if e.endsRun then none
      else if e.op = 5 ∧ skip = 0 then some (x, e)
      else d.runAhead k (if e.op = 5 then skip - 1 else skip) (x.after e)

/-- Entries that a task passes at most: its table's, in every iteration of its loops. -/
def Dev.wayLength (d : Dev) (x : Ctx) : Nat := match d.table x.task.sched x.task.gen with
  | some (v, o) => x.task.lc.foldl (fun n c => n * (c + 1)) (tblEntries v o)
  | none => 0

/-- The STREAM entry of a context that is the next to issue, with the place and the iteration indices at which it stands (R370). -/
def Dev.streamPlace (d : Dev) (x : Ctx) : Option (Ctx × Entry) := match d.entryOf x with
  | none => none
  | some e => if e.op = 5 then some (x, e) else if e.op = 0 then none else d.runAhead (d.wayLength x) x.ahead (x.after e)

/-- An entry issues in the core's present step (R368, R377). -/
def State.issued (c t cost : Nat) (s : State) : State :=
  let n := s.dev.stepOf c
  ((s.seqCount c 10 1).onCore c fun y => { y with lastIssue := some s.now, nextStep := max y.nextStep s.clock + n }).onCtx c t fun x =>
    { x with energy := x.energy + cost }

/-- Issue an entry of a context, which stands at `place`, when it is `op` (and `sub`), the unit is `ready`, and its cost in energy is granted; `run`
is its effect. -/
def State.issueWhere (place : Option (Ctx × Entry)) (cost : Ctx → Entry → Nat) (c t op : Nat) (sub : Nat → Bool) (ready : Ctx → Entry → Bool)
    (run : Ctx → Entry → State → State) (s : State) : State :=
  let x := s.ctx c t
  match place with
  | none => s
  | some (y, e) =>
    if !s.canIssue c x || !(s.dev.core c).entryFree t e || e.op ≠ op || !sub e.sub || !ready y e then s
    else match s.grant c x.task.cls (cost y e) with
      | none =>
        let w := (s.dev.tempo (coreDie c)).window
        if x.waitWin = some w then s else (s.onCtx c t fun x => { x with waitWin := some w }).tempoCount (coreDie c) 3 1
      | some s => run y e (s.issued c t (cost y e))

/-- The task goes on past an entry that stood at `y`, or notes that the entry has issued ahead (R370). -/
def State.pass (c t : Nat) (y : Ctx) (s : State) : State :=
  let x := s.ctx c t
  if y.idx = x.idx ∧ y.iter = x.iter then s.goTo c t (x.idx + 1) else s.onCtx c t fun x => { x with ahead := x.ahead + 1 }

/-- Issue an entry that completes at once: `run` is its effect on the state that has passed it. -/
def State.issueFrom (place : Option (Ctx × Entry)) (cost : Ctx → Entry → Nat) (c t op : Nat) (sub : Nat → Bool) (ready : Ctx → Entry → Bool)
    (run : Ctx → Entry → State → State) (s : State) : State :=
  s.issueWhere place cost c t op sub ready (fun y e s => (run y e (s.pass c t y)).passAhead c t)

/-- The place of a context's next entry. -/
def Dev.placeOf (d : Dev) (x : Ctx) : Option (Ctx × Entry) := (d.entryOf x).map fun e => (x, e)

/-- Issue an entry that runs on its unit for some time: the task stands at it until it completes, and its watchdog counts from now, with WD_CFG as it
is (R385, R392). -/
def State.issueRun (cost : Ctx → Entry → Nat) (c t op : Nat) (ready : Ctx → Entry → Bool) (run : Ctx → Entry → State → State) (s : State) : State :=
  s.issueWhere (s.dev.placeOf (s.ctx c t)) cost c t op (fun b => decide (b = 0)) ready
    (fun y e s => run y e (s.onCtx c t fun x => { x with since := s.now, watch := s.watchCfg c }))

/-- Issue the next entry of a context. -/
def State.issueAt (cost : Ctx → Entry → Nat) (c t op : Nat) (sub : Nat → Bool) (ready : Ctx → Entry → Bool) (run : Ctx → Entry → State → State)
    (s : State) : State :=
  s.issueFrom (s.dev.placeOf (s.ctx c t)) cost c t op sub ready run

/-- Issue an entry at its own ENERGY (R377). -/
def State.issue (c t op : Nat) (sub : Nat → Bool) (ready : Ctx → Entry → Bool) (run : Ctx → Entry → State → State) (s : State) : State :=
  s.issueAt (fun _ e => e.energy) c t op sub ready run

/-- Issue an entry whose effect is on state that outlives the task: without COMMIT it has none (R380). -/
def State.issueCommit (c t op : Nat) (sub : Nat → Bool) (run : Ctx → Entry → State → State) (s : State) : State :=
  s.issue c t op sub (fun _ _ => true) (fun x e s => if e.commit then run x e s else s)

/-- The packet in a slot of a pawn task's batch. -/
def Dev.slotPacket (d : Dev) (x : Ctx) (i : Nat) : Option (Nat × Packet) :=
  match x.task.items[i]? with
  | some k => (d.packet? k).map fun p => (k, p)
  | none => none

/-- The generation a packet is stamped with. -/
def Dev.packetGen (d : Dev) (p : Packet) : Option (Nat × Generation) :=
  match p.chan with
  | some (n, _) => (d.gen? false n p.gen).map fun g => (n, g)
  | none => none

end Sys2Proof.Machine
end

