-- ==== Sys2Proof/Machine/Front.lean ====
section
/-! DEFINITION. The feature front stage (R238 to R254): raw values, transforms, codes, host slots, shift adaptation. -/
namespace Sys2Proof.Machine

/-! ### The feature program (R238, R239) -/

def Generation.featCount (g : Generation) : Nat := g.rd secFeatures 2 2
def Generation.windowLog (g : Generation) : Nat := g.rd secFeatures 4 1

/-- A field of feature entry `i`. -/
def Generation.ft (g : Generation) (i off n : Nat) : Nat := g.rd secFeatures (16 + 32 * i + off) n
def Generation.ftSource (g : Generation) (i : Nat) : Nat := g.ft i 0 1 % 8
def Generation.ftTransform (g : Generation) (i : Nat) : Nat := g.ft i 0 1 / 8 % 8
def Generation.ftAdapt (g : Generation) (i : Nat) : Bool := bit (g.ft i 0 1) 6
def Generation.ftParam (g : Generation) (i : Nat) : Nat := g.ft i 16 1

/-- A byte offset of the table area. -/
def Generation.ftTable (g : Generation) (off n : Nat) : Nat := g.rd secFeatures (16 + 32 * g.featCount + off) n

/-- A raw value that is not missing (R241, R242). -/
inductive Raw where
  | num (v : Int)
  | posInf | negInf
  deriving DecidableEq, Repr

/-- Conversion of a host-slot value (R242): none for a NaN. -/
def hostRaw (x : Nat) (e : Int) : Option Raw :=
  let ex := x / 2 ^ 23 % 256
  let man := x % 2 ^ 23
  let neg := bit x 31
  if ex = 255 then (if man = 0 then some (if neg then .negInf else .posInf) else none)
  else
    let m : Int := ((if ex = 0 then man else man + 2 ^ 23 : Nat) : Int)
    let k : Int := ((if ex = 0 then 1 else ex : Nat) : Int) - 150 + e
    let m := if neg then -m else m
    let v := if 0 ≤ k then m * ((2 ^ k.toNat : Nat) : Int) else m / ((2 ^ (-k).toNat : Nat) : Int)
    some (.num (clamp (-4294967296) 4294967295 v))

/-- WIDTH bits of a byte string from a bit position (R241). -/
def fieldOf (b : Bytes) (start width : Nat) : Nat := Bytes.le b (start / 8) 6 / 2 ^ (start % 8) % 2 ^ width

/-- The shift in force of a feature (R243, R250), read from `d` (R248). -/
def Dev.featState (d : Dev) (core : Nat) (key : Nat) (g : Generation) (i : Nat) : Adapt :=
  Table.get { shift := g.ftParam i } (d.core core).feat (key * 256 + i)

def Dev.ftShift (d : Dev) (core key : Nat) (g : Generation) (i : Nat) : Nat :=
  if g.ftAdapt i then (d.featState core key g i).shift else g.ftParam i

/-- The raw value of a feature of SOURCE 0 to 3 (R241), none when missing. -/
def Dev.rawOf (d : Dev) (g : Generation) (i chan : Nat) (vec : Bytes) (entry : Option Bytes) (ts : Nat) : Option Raw :=
  let a := g.ft i 1 1
  let start := 8 * a + g.ft i 2 1 % 8
  let width := g.ft i 3 1 % 64
  let sel := g.ft i 5 1 % 32
  if sel < 16 ∧ !bit (Bytes.le vec 22 2) sel then none
  else if (List.range 16).any fun k => bit (Bytes.le vec 16 2) k && bit (g.ft i 6 2) k then none
  else match g.ftSource i with
    | 0 => some (.num ((fieldOf vec start width : Nat) : Int))
    | 1 => entry.map fun e => .num ((fieldOf e start width : Nat) : Int)
    | 2 => entry.map fun e => .num ((((ts / 65536 + 2 ^ 24 - eStamp e) % 2 ^ 24 : Nat)) : Int)
    | 3 => match Table.get? d.compute.hostSlots (chan * 64 + a % 64) with
      | some v => hostRaw v (sext 8 (g.ft i 19 1))
      | none => none
    | _ => none

/-- Boundaries of a bin at or below the raw value (R244). -/
def binCode (g : Generation) (i : Nat) (v : Int) : Nat :=
  (List.range (g.ftParam i)).countP fun k => decide (sext 64 (g.ftTable (g.ft i 20 4 + 8 * k) 8) ≤ v)

/-- Scale before the clamps (R243). -/
def scaleRaw (v offset : Int) (shift : Nat) : Int := (v - offset) / ((2 ^ shift : Nat) : Int)

/-- The code of a value that is not missing (R243, R244, R246), with the unclamped result of a scale. -/
def codeOf (g : Generation) (i shift : Nat) (r : Raw) : Nat × Option Int :=
  match g.ftTransform i, r with
  | 0, .negInf => (0, none)
  | 0, .posInf => (65535, none)
  | 1, .negInf => (0, none)
  | 1, .posInf => (g.ftParam i, none)
  | 2, .negInf => (g.ft i 10 2, none)
  | 2, .posInf => (g.ft i 10 2, none)
  | 0, .num v => let y := scaleRaw v (sext 32 (g.ft i 12 4)) shift; ((clamp 0 65535 y).toNat, some y)
  | 1, .num v => (binCode g i v, none)
  | _, .num v =>
    (if 0 ≤ v ∧ v < ((2 ^ g.ftParam i : Nat) : Int) then g.ftTable (g.ft i 20 4 + 2 * v.toNat) 2 else g.ft i 10 2, none)
  | _, _ => (g.ft i 10 2, none)

/-- The code of a cross (R245). -/
def crossCode (g : Generation) (i a b : Nat) : Nat :=
  (crc32c (toLE 4 (g.ft i 12 4) ++ toLE 2 a ++ toLE 2 b)).toNat * g.ft i 24 4 / 2 ^ 32

/-- One code: its value, whether it was missing, and what it adds to adaptation and to the page's counters. -/
structure CodeRow where
  code : Nat := 0
  missing : Bool := false
  /-- Unclamped result of a scale that adaptation observes. -/
  seen : Option Int := none
  nan : Bool := false
  inf : Bool := false
  deriving DecidableEq, Repr

/-- Is a host-slot value a NaN, or an infinity? -/
def hostNan (x : Nat) : Bool := decide (x / 2 ^ 23 % 256 = 255 ∧ x % 2 ^ 23 ≠ 0)

/-- Code `i` of a packet, given the codes before it (R246). -/
def Dev.featCode (d : Dev) (core key chan : Nat) (g : Generation) (vec : Bytes) (entry : Option Bytes) (ts : Nat) (rows : List CodeRow) (i : Nat) :
    CodeRow :=
  let miss := g.ft i 8 2
  if g.ftSource i = 4 then
    let a := rows.getD (g.ft i 1 1) {}
    let b := rows.getD (g.ft i 4 1) {}
    let sel := g.ft i 5 1 % 32
    if a.missing ∨ b.missing ∨ (sel < 16 ∧ !bit (Bytes.le vec 22 2) sel) ∨
        ((List.range 16).any fun k => bit (Bytes.le vec 16 2) k && bit (g.ft i 6 2) k) then { code := miss, missing := true }
    else { code := crossCode g i a.code b.code }
  else match d.rawOf g i chan vec entry ts with
    | none => { code := miss, missing := true
                nan := decide (g.ftSource i = 3) && (match Table.get? d.compute.hostSlots (chan * 64 + g.ft i 1 1 % 64) with
                  | some v => hostNan v
                  | none => false) }
    | some r =>
      let ans := codeOf g i (d.ftShift core key g i) r
      let code := ans.1
      let y := ans.2
      { code, seen := y, inf := decide (r = .posInf ∨ r = .negInf) }

/-- All codes of a packet, in ascending order (R247). -/
def Dev.featCodes (d : Dev) (core key chan : Nat) (g : Generation) (vec : Bytes) (entry : Option Bytes) (ts : Nat) : List CodeRow :=
  (List.range g.featCount).foldl (fun rows i => rows ++ [d.featCode core key chan g vec entry ts rows i]) []

/-- The shifts delivered with the codes (R251, R307). -/
def Dev.featShifts (d : Dev) (core key : Nat) (g : Generation) : List Nat :=
  (List.range g.featCount).map fun i => if g.ftSource i < 4 ∧ g.ftTransform i = 0 then d.ftShift core key g i else 0

/-- The observation of one scaled code (R250). -/
def Adapt.observeCode (code : Nat) (y : Int) (a : Adapt) : Adapt :=
  { a with
    seen := true
    sat := a.sat || decide (65535 < y)
    head := a.head && decide (code < 32768)
    first := if a.seen then a.first else code
    varied := a.varied || (a.seen && decide (code ≠ a.first)) }

/-- Record what the codes of one packet show (R250). -/
def State.observe (core key : Nat) (g : Generation) (rows : List CodeRow) (s : State) : State :=
  State.each (List.range rows.length) (fun i s =>
    let r := rows.getD i {}
    match r.seen with
    | some y => if g.ftAdapt i then s.onCore core fun x =>
        { x with feat := Table.modify { shift := g.ftParam i } x.feat (key * 256 + i) (Adapt.observeCode r.code y) } else s
    | none => s) s

/-- FRONT (R246): the codes of the slot's packet. -/
def issueFront (core ctx : Nat) (s : State) : Host.Outcome State Fault Refusal :=
  .next (s.issue core ctx 3 (fun _ => true) (fun _ _ => true) fun x e s =>
    State.each (x.slots e) (fun i s =>
      match s.dev.slotPacket x i with
      | none => s
      | some (_, p) =>
        match s.dev.packetGen p with
        | none => s
        | some (n, g) =>
          let key := genKey false n p.gen
          let rows := s.start.featCodes core key n g p.vector (s.ctx core ctx |>.work i).entry (Bytes.le p.vector 0 6)
          let s := s.observe core key g rows
          let s := s.bump pgFeature (0x80 + 8 * 3) (rows.countP fun r => r.nan)
          let s := s.bump pgFeature (0x80 + 8 * 4) (rows.countP fun r => r.inf)
          s.onWork core ctx i fun w => { w with codes := rows.map (·.code), shifts := s.start.featShifts core key g }) s)

/-- Did an event bit of a page already have a set in this ply? -/
def State.setThisPly (page b : Nat) (s : State) : Bool :=
  let h := s.hdr page
  decide (h.setPly = s.now) && h.setBits.getLsbD b

/-- Is ply `p` the last of a window of 2^w plies (R250, R296)? -/
def lastOfWindow (w p : Nat) : Bool := decide (w ≠ 0 ∧ (p + 1) % 2 ^ w = 0)

/-- The flat windows of a core's features of a generation, as FLAT_LAST names them (R251, R254). -/
def Dev.flatWindows (d : Dev) (core chan key : Nat) (g : Generation) : List Nat :=
  ((List.range g.featCount).filter fun i =>
    g.ftAdapt i && (d.featState core key g i).seen && !(d.featState core key g i).varied).map fun i => core * 2 ^ 22 + chan * 256 + i

/-- A core decides the shifts of a generation's adaptive features for the next window (R251). -/
def State.windowEnd (core chan gen : Nat) (s : State) : State :=
  match s.dev.gen? false chan gen with
  | none => s
  | some g =>
    let key := genKey false chan gen
    let s := s.bump pgFeature 0x80 (s.dev.flatWindows core chan key g).length
    State.each ((List.range g.featCount).filter fun i => g.ftAdapt i) (fun i s =>
      let d := windowStep (s.dev.featState core key g i) (g.ft i 17 1) (g.ft i 18 1)
      let s := if d = 1 then s.bump pgFeature 0x88 1 else if d = -1 then s.bump pgFeature 0x90 1 else s
      s.onCore core fun x =>
        { x with feat := Table.modify { shift := g.ftParam i } x.feat (key * 256 + i) (Adapt.renew d) }) s

/-- The windows that end in the present ply: those of the commands, and those in which a core has observed a value (R250). -/
def State.windowsEnding (s : State) : List (Nat × Nat × Nat) :=
  let seen := s.dev.compute.cores.flatMap fun e => e.2.feat.map fun f => (e.1, f.1 / 65536 % 4096, f.1 / 256 % 256)
  (s.dev.compute.windows ++ seen).eraseDups.filter fun w => match s.dev.gen? false w.2.1 w.2.2 with
    | some g => lastOfWindow g.windowLog s.now
    | none => false

/-- At the end of a window's last ply its cores decide, after every observation of the ply. FLAT_LAST takes the lowest core, slot and feature of the
flat windows of the ply (R254). -/
def State.settleWindows (s : State) : State :=
  let l := s.windowsEnding
  let s := if s.dev.compute.windows.isEmpty then s else s.onCompute fun x => { x with windows := [] }
  let flat := l.flatMap fun w => match s.dev.gen? false w.2.1 w.2.2 with
    | some g => s.dev.flatWindows w.1 w.2.1 (genKey false w.2.1 w.2.2) g
    | none => []
  let s := match flat with
    | [] => s
    | v :: r => (s.setReg (addrOf pgFeature 0x40) (BitVec.ofNat 32 (r.foldl min v))).setEvent pgFeature 0
  State.each l (fun w s => s.windowEnd w.1 w.2.1 w.2.2) s

/-- FEATURE_WINDOW_END (R251): the present ply is the last of a window; the core decides at its end. -/
def execFeatureWindowEnd (core chan gen : Nat) (s : State) : Host.Outcome State Fault Refusal :=
  match s.dev.gen? false chan gen with
  | none => .next s
  | some g => .next (if !lastOfWindow g.windowLog s.now then s else s.onCompute fun x => { x with windows := x.windows ++ [(core, chan, gen)] })

/-- Is a host feature item well formed (R249, R197)? -/
def hostItemGood (i : Item) : Bool :=
  let first := Bytes.at i.body 0
  let count := Bytes.at i.body 1
  decide (i.kind = 0x15 ∧ 2 ≤ i.len ∧ i.len ≤ 5 ∧ 1 ≤ count ∧ count + 1 ≤ 4 * (i.len - 1) ∧ first + count ≤ 64 ∧ Bytes.le i.body 2 2 = 0)

/-- The port die consumes one complete item of a channel's feature ring, at most one a ply of each ring, and forwards it (R249). -/
def State.hostItem (chan : Nat) (s : State) : State :=
  let c := s.chan chan
  match c.input with
  | none => s
  | some r =>
    let ans := s.ringConsume r
    let s' := ans.1.onRing r fun x => { x with tookPly := some s.now }
    match ans.2 with
    | none => s
    | some i =>
      if (s.ring r).tookPly = some s.now then s
      else if hostItemGood i then
        let first := Bytes.at i.body 0
        let values := (List.range (Bytes.at i.body 1)).map fun j => Bytes.le i.body (4 + 4 * j) 4
        let cores := (c.cores.map coreDie).eraseDups
        let s' := State.each cores (fun b s => s.sendParcel clsControl 0 (16 * i.len) (4 + r / 32768) b) s'
        s'.onCompute fun x => { x with hostItems := x.hostItems ++ [{ chan, hgen := c.hgen, due := s.now + 4096, first, values }] }
      else
        ((s'.setReg (addrOf pgFeature 0x44) (BitVec.ofNat 32 (s.dev.ringHandle r))).bump pgFeature (0x80 + 8 * 6) 1).setEvent pgFeature 1

/-- HOST_FEATURE_ITEM (R249): the port die consumes one complete item of a channel's feature ring and forwards it. -/
def execHostFeatureItem (chan : Nat) (s : State) : Host.Outcome State Fault Refusal := .next (s.hostItem chan)

/-- The feature rings whose port die has consumed no item in the ply give one at its end (R249). -/
def State.settleHostItems (s : State) : State :=
  State.each ((s.dev.objects.channels.filter fun e => e.2.input.isSome).map (·.1)) State.hostItem s

/-- Write host slots (R249). -/
def writeSlots (t : Table Nat) (base : Nat) (l : List Nat) : Table Nat :=
  match l with
  | [] => t
  | v :: r => writeSlots (Table.put t base v) (base + 1) r

/-- 4,096 plies after its consumption the oldest item's values take effect at every core of the channel (R249). -/
def State.applySlots (s : State) : State :=
  match s.dev.compute.hostItems with
  | [] => s
  | i :: rest =>
    if s.now < i.due then s
    else
      let s := s.onCompute fun x => { x with hostItems := rest }
      let c := s.chan i.chan
      if c.state = .free ∨ c.hgen ≠ i.hgen then s
      else (s.onCompute fun x => { x with hostSlots := writeSlots x.hostSlots (i.chan * 64 + i.first) i.values }).bump pgFeature (0x80 + 8 * 5) 1

/-- HOST_SLOT_APPLY (R249): the oldest item in flight takes effect when it is due. -/
def execHostSlotApply (s : State) : Host.Outcome State Fault Refusal := .next s.applySlots

/-- Items that are due take effect in their ply, in order, commanded or not (R249). -/
def State.settleSlots (s : State) : State := State.each s.dev.compute.hostItems (fun _ s => s.applySlots) s

end Sys2Proof.Machine
end

