-- ==== Sys2Proof/Machine/Trees.lean ====
section
/-! DEFINITION. The tree engine (R255 to R274), promotion (R336, R337) with the state-slot header (R340), and the verdict's emission (R264). -/
namespace Sys2Proof.Machine

/-! ### Reading a segment (R255 to R260, R267) -/

/-- A field of segment `i` of a generation's ensemble. -/
def Generation.sg (g : Generation) (i off n : Nat) : Nat := g.rd secEnsemble (208 + 98816 * i + off) n

def Generation.gang (g : Generation) (i j : Nat) : Nat := g.sg i (j / 4) 1 / 4 ^ (j % 4) % 4

/-- Result of comparator entry `e` of a segment (R256, R257). -/
def Generation.comp (g : Generation) (codes : List Nat) (i e : Nat) : Bool :=
  let w := g.sg i (512 + 4 * e) 4
  bit w 24 && decide (w % 65536 ≤ codes.getD (bits w 23 16) 0)

/-- Search word of a bank (R256): bit 63 is always 1. -/
def Generation.word (g : Generation) (codes : List Nat) (i b : Nat) : Nat :=
  ((List.range 63).map fun k => if g.comp codes i (64 * b + k) then 2 ^ k else 0).sum + 2 ^ 63

/-- Is leaf entry `j` of a bank live, and does it match (R258)? -/
def Generation.live (g : Generation) (i b j : Nat) : Bool :=
  let a := 16896 + 16 * (64 * b + j)
  !(bit (g.sg i (a + 8) 8) 63 && !bit (g.sg i a 8) 63)
def Generation.leafHits (g : Generation) (i b j w : Nat) : Bool :=
  let a := 16896 + 16 * (64 * b + j)
  g.live i b j && decide ((g.sg i a 8 ^^^ w) &&& g.sg i (a + 8) 8 = 0)

/-- Banks of a tree whose first bank is `j`, by GANG code (R260); none where no tree begins at `j`. -/
def gangBanks (code j : Nat) : List Nat :=
  if code = 0 then [j] else if code = 1 ∧ j % 2 = 0 then [j, j + 1] else if code = 2 ∧ j % 4 = 0 then [j, j + 1, j + 2, j + 3] else []

/-- Comparator entries that are heads of the tree (R260). -/
def gangHeads (code j : Nat) : List Nat := if code = 1 then [64 * j + 63] else if code = 2 then [64 * j + 63, 64 * j + 127, 64 * j + 191] else []

/-- The selected bank of a tree (R260). -/
def Generation.chosen (g : Generation) (codes : List Nat) (i code j : Nat) : Nat :=
  let h (k : Nat) : Nat := b2n (g.comp codes i (64 * (j + k) + 63))
  if code = 0 then j else if code = 1 then j + h 0 else j + 2 * h 0 + (if h 0 = 0 then h 1 else h 2)

/-- What one tree gives: its leaf-value word, and the flags of R261. -/
structure Leaf where
  word : Nat := 0
  leafCheck : Bool := false
  compCheck : Bool := false
  noMatch : Bool := false
  multi : Bool := false
  deriving DecidableEq, Repr

/-- The leaf of one tree (R261). `rows` and `comps` list the leaf rows whose check failed, and the comparator entries with an uncorrectable error,
by segment × 4,096 + index. -/
def Generation.treeLeaf (g : Generation) (codes : List Nat) (rows comps : List Nat) (i code j : Nat) : Leaf :=
  let b := g.chosen codes i code j
  let bad (bank : Nat) : Bool := rows.any fun r => decide (r / 64 = i * 64 + bank)
  let compBad := comps.any fun e => decide (e / 64 = i * 64 + b ∧ e % 64 < 63) || (gangHeads code j).contains (e - i * 4096) && decide (e / 4096 = i)
  let deflt := g.sg i (32 + 4 * j) 4
  let any := (gangBanks code j).any bad
  if bad b ∨ compBad then { word := deflt, leafCheck := any, compCheck := compBad }
  else
    let w := g.word codes i b
    match (List.range 64).filter fun k => g.leafHits i b k w with
    | [] => { word := deflt, leafCheck := any, noMatch := true }
    | k :: more => { word := g.sg i (82432 + 4 * (64 * b + k)) 4, leafCheck := any, multi := !more.isEmpty }

/-- The leaves of a segment's trees. -/
def Generation.segLeaves (g : Generation) (codes : List Nat) (rows comps : List Nat) (i : Nat) : List Leaf :=
  (List.range 64).filterMap fun j =>
    let code := g.gang i j
    if (gangBanks code j).isEmpty then none else some (g.treeLeaf codes rows comps i code j)

/-- The accumulators before a packet's first pass (R263). -/
def Generation.biases (g : Generation) : List Int := (List.range g.classes).map g.bias

/-- One pass (R263): the new accumulators, and whether any class clamps. -/
def passSum (leaves : List Leaf) (acc : List Int) : List Int × Bool :=
  let raw := (List.range acc.length).map fun c =>
    acc.getD c 0 + ((leaves.filter fun l => decide (bits l.word 19 16 = c)).map fun l => sext 16 (l.word % 65536)).sum
  (raw.map sat24, raw.any fun v => decide (sat24 v ≠ v))

/-- Lowest index of the greatest value (R264). -/
def argmax (l : List Int) : Nat :=
  ((List.range l.length).foldl (fun (b : Nat × Option Int) i => match b.2 with
    | none => (i, some (l.getD i 0))
    | some v => if v < l.getD i 0 then (i, some (l.getD i 0)) else b) (0, none)).1

/-- The action index (R264). -/
def Generation.choose (g : Generation) (acc : List Int) : Nat :=
  if g.decideThresh then b2n (decide (g.thresh ≤ acc.getD g.threshClass 0)) else argmax acc

/-! ### Quarters (R270, R274) -/

/-- Is a core's quarter held by a pinned generation, by one staged and accepted, or by one retired in this ply? -/
def Dev.quarterHeld (d : Dev) (core q : Nat) : Bool :=
  (d.objects.gens.any fun e => e.2.quarters.contains (core, q)) || (d.objects.stages.any fun e => e.2.quarters.contains (core, q)) ||
    d.objects.leaving.contains (core, q)

/-- A core gives up a quarter of its window: the streamed segment it held is gone, and the load that it was part of serves no further pass. -/
def CoreState.giveQuarter (q : Nat) (x : CoreState) : CoreState :=
  { x with loaded := Table.erase x.loaded q, window := match x.window with
      | some l => if l.quarters.contains q then none else some l
      | none => none }

/-- Pinned segments are loaded into quarters, from the end of the pass that is using them: the streamed ones they held are gone (R270, R274). -/
def State.takeQuarters (l : List (Nat × Nat)) (s : State) : State :=
  State.each l (fun e s => s.onCore e.1 (CoreState.giveQuarter e.2)) s

/-- The window quarters of a core. -/
def Dev.windowOf (d : Dev) (core : Nat) : List Nat := (List.range 4).filter fun q => !d.quarterHeld core q

/-! ### State-slot headers (R339, R340) -/

def slotBase (core slot : Nat) : Nat := (core * 32768 + slot) * 8192
def Dev.slotHdr (d : Dev) (core slot : Nat) : Bytes := Mem.readBytes d.flow.stateMem (slotBase core slot) 64
def slotHdrGood (h : Bytes) : Bool := decide (Bytes.le h 60 4 = (crc32c (Bytes.slice h 0 60)).toNat)

/-- Write a header with a fresh CHECK, charged to the core's stream share (R340). -/
def State.setSlotHdr (core slot : Nat) (h : Bytes) (s : State) : State :=
  let b := Bytes.slice h 0 60
  (s.useVault core 64).onFlow fun x => { x with stateMem := Mem.writeBytes x.stateMem (slotBase core slot) (b ++ toLE 4 (crc32c b).toNat) }

/-- Slots of a core's state pool (R335). -/
def poolSlots (core : Nat) : Nat := if core < 416 then 20972 else 20971

/-- Counter `e` of the deep-tier page (R360). -/
def State.deepCount (e n : Nat) (s : State) : State := s.bump pgDeep (0x100 + 8 * e) n

/-- The current generation of a channel or deep-model slot (R434). -/
def Dev.currentGen (d : Dev) (deep : Bool) (target : Nat) : Option Generation :=
  ((d.objects.gens.find? fun e => decide (e.2.kind = (if deep then 2 else 1) ∧ e.2.target = target ∧ e.2.state = .current))).map (·.2)

/-- Promotion of a flow (R336, R337): its entry, as the events of higher precedence have left it, gets a state slot, and the slot's header is written.
-/
def State.promoteFlow (core n hg : Nat) (key : Bytes) (slotDm : Nat) (s : State) : State :=
  match s.start.currentGen true slotDm, (s.tables.find core n hg (decide ((s.start.chan n).keyKind = 2)) key false false).1 with
  | some dm, some l =>
    if ePromoted (s.dev.entry l) then s
    else match (Table.get {} s.dev.flow.statePools core).take (if s.start.deepEn then poolSlots core else 0) with
      | none => (s.deepCount 1 1).setEvent pgDeep 0
      | some (slot, pool) =>
        let recent := match (s.core core).lastPromo with
          | some q => decide (s.now < q + 64)
          | none => false
        if recent then s.deepCount 2 1
        else
          let old := s.dev.slotHdr core slot
          let h := toLE 4 (s.start.candidates core n key).1 ++ toLE 2 (n + 4096 * slotDm) ++ toLE 2 ((Bytes.le old 6 2 + 1) % 65536) ++
            [byte dm.gen, 1] ++ zeros 50
          let s := s.onFlow fun x => { x with statePools := Table.set {} x.statePools core pool }
          let s := s.onCompute fun x => { x with promoted := x.promoted ++ [core * 32768 + slot] }
          let s := (s.setSlotHdr core slot h).onCore core fun x => { x with lastPromo := some s.now }
          let s := ((s.touchEntry l 7).updateEntry l fun e => Bytes.patch (eFlag 13 true e) 60 (toLE 2 slot)).ownDirect l core
          (s.mirrorEntry l).deepCount 0 1
  | _, _ => s

/-- A packet's decided entry has PROMOTE 1: the promotion of its flow has the precedence of a learning insertion, so it waits for the events before it
in the ply (R49, R336, R520). -/
def State.promote (core : Nat) (p : Packet) (g : Generation) (hit : Option Bytes) (s : State) : State :=
  match p.chan with
  | none => s
  | some (n, hg) =>
    if p.replay ∨ p.core ≠ core then s
    else if s.start.pair.role = .standby then s.bump pgPair (0x80 + 8 * 11) 1
    else match hit with
      | none => s.deepCount 3 1
      | some e =>
        if ePromoted e ∨ !g.usesDeep then s else s.flowDue (.promote core n hg (Bytes.slice p.vector 48 48) g.dm)

/-! ### TREE -/

/-- Counter `e` of a core's tree page (R273). -/
def State.treeCount (c e n : Nat) (s : State) : State := s.coreBump tTree c (0x80 + 8 * e) n

/-- Count and report the flags of a pass's trees (R261, R262, R274). -/
def State.treeFlags (core : Nat) (leaves : List Leaf) (corrected : Nat) (clamped : Bool) (s : State) : State :=
  let rep (e b k : Nat) (s : State) : State := if k = 0 then s else (s.treeCount core e k).coreEvent tTree core b
  let s := rep 1 0 (leaves.countP (·.noMatch)) s
  let s := rep 2 1 (leaves.countP (·.multi)) s
  let s := rep 3 2 (leaves.countP (·.leafCheck)) s
  let s := rep 4 3 (leaves.countP (·.compCheck)) s
  let s := if corrected = 0 then s else s.treeCount core 5 corrected
  let s := rep 6 4 (b2n clamped) s
  s.treeCount core 0 1

/-- A leaf row (kind 0) or comparator entry (kind 1) of a core's quarter has failed: it waits for a spare, and
the tree page is FAULTED until it has one (R62, R507). -/
def State.amFail (core q kind idx : Nat) (s : State) : State :=
  match s.dev.siteOf core with
  | none => s
  | some x => (s.onReliab fun r =>
    if r.amFailed.any fun f => decide (f.1 = x * 4 + q ∧ f.2.1 = kind ∧ f.2.2.1 = idx) then r
    else { r with amFailed := r.amFailed ++ [(x * 4 + q, kind, idx, s.now)] }).setFaulted (pageOf tTree x) true

/-- Note the failed rows or entries of a pass: its segments lie in the quarters in order. -/
def State.amFailures (core kind : Nat) (segs quarters bad : List Nat) (s : State) : State :=
  State.each (bad.filter fun b => segs.contains (b / 4096)) (fun b s =>
    s.amFail core (quarters.getD (segs.findIdx fun k => decide (k = b / 4096)) 0) kind (b % 4096)) s

/-- Quarters of a core that hold a pinned generation, in the order of its segments (R270). -/
def Generation.quartersOn (g : Generation) (core : Nat) : List Nat := (g.quarters.filter fun q => decide (q.1 = core)).map (·.2)

/-- Failed rows (kind 0) or comparator entries (kind 1) of a core that waited for a spare at the start of the ply, or have failed in it, by segment ×
4,096 + index, where segment `segs[j]` lies in quarter `quarters[j]` (R261, R272, R507). -/
def State.amKnown (core kind : Nat) (segs quarters : List Nat) (s : State) : List Nat :=
  match s.start.siteOf core with
  | none => []
  | some x => (segs.zip quarters).flatMap fun e =>
    ((s.start.reliab.amFailed ++ s.dev.reliab.amFailed).filter fun f => decide (f.1 = x * 4 + e.2 ∧ f.2.1 = kind)).map fun f => e.1 * 4096 + f.2.2.1

/-! ### The window (R270 to R272) -/

/-- Plies in which one quarter is loaded (R271). -/
abbrev quarterLoad := 240

/-- Segments that a load holds, of an ensemble of `n`. -/
def WindowLoad.segs (l : WindowLoad) : List Nat := (List.range l.quarters.length).map (l.first + ·)

/-- Segments of an entry's packet, with the quarters they lie in: those its SUB names of a pinned generation (R263), or what the window holds for
the packet's next pass once its load has ended in an earlier ply (R271, R272); none while the packet waits for its load. -/
def State.treeSegments (core ctx sub : Nat) (pinned : Bool) (key next : Nat) (g : Generation) (s : State) : Option (List Nat × List Nat) :=
  if pinned then
    let segs := (List.range (min 4 g.segments)).filter fun i => bit sub i
    some (segs, segs.map fun k => (g.quartersOn core).getD k 0)
  else match (s.core core).window with
    | some l =>
      let there := match l.ended with
        | some p => decide (p < s.now)
        | none => false
      if l.ctx = ctx ∧ l.key = key ∧ l.first = next ∧ there = true then some (l.segs, l.quarters) else none
    | none => none

/-- Is the window free for another load (R271): the batch it was loaded for has ended, or the load is the next pass of none of its packets? -/
def CoreState.windowFree (x : CoreState) : Bool := match x.window with
  | none => true
  | some l =>
    let c := x.ctx l.ctx
    decide (c.state = .free ∨ c.task.cls ≠ 1) || (List.range c.task.items.length).all fun i =>
      decide (l.first ≠ (c.work i).next) || (c.work i).index.isSome

/-- A batch ends: its load serves no other batch (R271). -/
def CoreState.endWindow (ctx : Nat) (x : CoreState) : CoreState := match x.window with
  | some l => if l.ctx = ctx then { x with window := none } else x
  | none => x

/-- The last row of a load is written: its quarters hold its segments, and its passes begin in the next ply (R271, R272). -/
def State.loadEnd (core : Nat) (s : State) : State :=
  match (s.core core).window with
  | none => s
  | some l =>
    if l.ended.isSome then s
    else (s.treeCount core 7 l.quarters.length).onCore core fun y =>
      { y with window := some { l with ended := some s.now }
               loaded := l.quarters.foldl (fun t k => Table.put t k l.key) y.loaded }

/-- Loads that have taken the longest they may end (R271). -/
def State.settleLoads (s : State) : State :=
  State.each ((s.dev.compute.cores.filter fun e => match e.2.window with
    | some l => l.ended.isNone && decide (l.began + quarterLoad * l.quarters.length ≤ s.now)
    | none => false).map (·.1)) State.loadEnd s

/-- A streamed packet's TREE entry waits for its load: it begins when the window is free, for the whole batch, and ends in a later ply. -/
def State.loadStep (core ctx key next : Nat) (g : Generation) (s : State) : State :=
  let x := s.core core
  let mine : Bool := match x.window with
    | some l => decide (l.ctx = ctx ∧ l.key = key ∧ l.first = next)
    | none => false
  if mine then
    match x.window with
    | some l => if l.began < s.now then s.loadEnd core else s
    | none => s
  else if x.windowFree then
    let q := (s.dev.windowOf core).take (g.segments - next)
    if q.isEmpty then s else s.onCore core fun y => { y with window := some { ctx, key, first := next, quarters := q, began := s.now } }
  else s

/-- One pass of a packet (R261, R263, R264): when its last segment is in, the action index is decided, and the flow is promoted where the action
allows (R336). `rows` and `comps` are the failed leaf rows and comparator entries that the pass met. -/
def State.treePass (core ctx i : Nat) (p : Packet) (g : Generation) (pinned : Bool) (at_ : List Nat × List Nat) (rows comps : List Nat)
    (corrected : Nat) (s : State) : State :=
  let w := (s.ctx core ctx).work i
  let segs := at_.1
  let quarters := at_.2
  let rows := rows ++ s.amKnown core 0 segs quarters
  let comps := comps ++ s.amKnown core 1 segs quarters
  let leaves := segs.flatMap fun k => g.segLeaves w.codes rows comps k
  let ans := passSum leaves (if w.next = 0 then g.biases else w.acc)
  let acc := ans.1
  let clamped := ans.2
  let next := if pinned then g.segments else w.next + segs.length
  let index := if g.segments ≤ next then some (g.choose acc) else none
  let s := (s.treeFlags core leaves corrected clamped).amFailures core 0 segs quarters rows
  let s := s.amFailures core 1 segs quarters comps
  let s := s.onWork core ctx i fun w => { w with acc, next, index }
  match index with
  | some k => if (g.action k).2 then s.promote core p g w.entry else s
  | none => s

/-- The packet that a TREE entry acts on, where it still waits for a pass of a streamed ensemble: its generation's key, the ensemble, and the first
segment of the pass. -/
def State.streamedPass (x : Ctx) (e : Entry) (s : State) : Option (Nat × Generation × Nat) :=
  match (x.slots e).head? with
  | none => none
  | some i => match s.dev.slotPacket x i with
    | none => none
    | some (_, p) => match s.dev.packetGen p with
      | none => none
      | some (n, g) => if (s.dev.chan n).pinned ∨ (x.work i).index.isSome then none else some (genKey false n p.gen, g, (x.work i).next)

/-- TREE (R261, R263, R264, R271): the slot's packet is evaluated. A pass of a streamed ensemble waits for the load of its segments, which one TREE
command begins for the whole batch and a later one ends (log entry 134). -/
def issueTree (core ctx : Nat) (rows comps : List Nat) (corrected : Nat) (s : State) : Host.Outcome State Fault Refusal :=
  let x := s.ctx core ctx
  let waits := match s.dev.entryOf x with
    | none => none
    | some e => if e.op ≠ 2 ∨ !s.canIssue core x then none else match s.streamedPass x e with
      | none => none
      | some (key, g, next) => if (s.treeSegments core ctx e.sub false key next g).isSome then none else some (key, g, next)
  match waits with
  | some (key, g, next) => .next (s.loadStep core ctx key next g)
  | none => .next (s.issue core ctx 2 (fun _ => true) (fun _ _ => true) fun x e s =>
    State.each (x.slots e) (fun i s =>
      match s.dev.slotPacket x i with
      | none => s
      | some (_, p) =>
        match s.dev.packetGen p with
        | none => s
        | some (n, g) =>
          let w := (s.ctx core ctx).work i
          let pinned := (s.dev.chan n).pinned
          if w.index.isSome then s
          else match s.treeSegments core ctx e.sub pinned (genKey false n p.gen) w.next g with
            | none => s
            | some at_ => s.treePass core ctx i p g pinned at_ rows comps corrected) s)

/-! ### EMIT_VERDICT -/

/-- The verdict merged with the deep-tier override of the entry that the lookup read (R32, R264). -/
def mergeOverride (v : Verdict) (entry : Option Bytes) : Verdict :=
  match entry with
  | some e => if eOverride e then
      { v with cls := Bytes.le e 48 2, queue := Bytes.at e 50, colour := Bytes.at e 51 % 4, override := true } else v
  | none => v

/-- EMIT_VERDICT (R264, R380): the slot's verdict is sent to the port die. -/
def issueEmitVerdict (core ctx : Nat) (s : State) : Host.Outcome State Fault Refusal :=
  .next (s.issueCommit core ctx 8 (fun b => decide (b = 0)) fun x e s =>
    State.each (x.slots e) (fun i s =>
      let w := (s.ctx core ctx).work i
      match s.dev.slotPacket x i, w.index with
      | some (k, p), some a =>
        match s.dev.packetGen p with
        | none => s
        | some (_, g) =>
          if p.stage ≠ .running ∨ w.emitted then s
          else
            let v := mergeOverride (g.action a).1 w.entry
            let s := (s.onPacket k fun p => { p with stage := .verdict, flight := some v }).onWork core ctx i fun w => { w with emitted := true }
            s.launch clsPawn p.deadline verdictBytes (dieRoute (coreDie core) (portDieNo p.port)) (coreDie core) (.verdict k)
      | _, _ => s) s)

/-! ### The tree page (R273, R274) -/

def Dev.quarterState (d : Dev) (core : Nat) : Nat :=
  let pinned := (List.range 4).filter fun q => (d.objects.gens.any fun e => decide (e.2.state = .current) && e.2.quarters.contains (core, q)) ||
    (d.objects.stages.any fun e => e.2.quarters.contains (core, q))
  let draining := (List.range 4).filter fun q => d.objects.gens.any fun e => decide (e.2.state = .draining) && e.2.quarters.contains (core, q)
  let loading := match (d.core core).window with
    | some l => if l.ended.isNone then l.quarters.filter fun q => (d.windowOf core).contains q else []
    | none => []
  4096 * maskOf loading + 256 * maskOf (d.windowOf core) + 16 * maskOf draining + maskOf pinned

def Dev.quarterOwner (d : Dev) (core q : Nat) : Nat :=
  match d.objects.gens.find? fun e => e.2.quarters.contains (core, q) with
  | some e => (if e.2.state = .current then 1 else 2) * 2 ^ 20 + e.2.gen * 4096 + e.2.target
  | none =>
    match d.objects.stages.find? fun e => e.2.quarters.contains (core, q) with
    | some e =>
      let n := (e.2.chan).getD 0
      2 ^ 20 + (if (d.chan n).gen = 255 then 1 else (d.chan n).gen + 1) * 4096 + n
    | none => match Table.get? (d.core core).loaded q with
      | some k => 3 * 2 ^ 20 + k % 256 * 4096 + k / 256 % 4096
      | none => 0

def Dev.treeRead (d : Dev) (core off : Nat) : Word :=
  BitVec.ofNat 32 (if off = 0x40 then d.quarterState core else if 0x44 ≤ off ∧ off < 0x54 then d.quarterOwner core ((off - 0x44) / 4) else 0)

end Sys2Proof.Machine
end

