-- ==== Sys2Proof/Machine/Arrays.lean ====
section
/-! DEFINITION. Model addresses (R397 to R399) and the matrix arrays as functions (R299 to R321): layer descriptors, inputs, tile passes, rescale. -/
namespace Sys2Proof.Machine

/-! ### Model addresses (R397 to R399) -/

/-- Page states, coded as FAULT_LAST codes them (R417): 1 present, 2 loading, 3 peer, 4 retired, 5 unmapped. -/
abbrev pgPresent := 1
abbrev pgLoading := 2
abbrev pgPeer := 3
abbrev pgRetired := 4
abbrev pgUnmapped := 5

/-- The section that holds a model page. -/
def Generation.pageSec (g : Generation) (page : Nat) : Option PagesSec :=
  (pagesOf g.image).find? fun p => decide (p.addr ≤ page * 2097152 ∧ page * 2097152 < p.addr + p.length)

/-- Key of a generation. -/
def Generation.key (g : Generation) : Nat := genKey (decide (g.kind = 2)) g.target g.gen

/-- State of a page of a generation's volume (R399). -/
def Dev.pageState (d : Dev) (g : Generation) (page : Nat) : Nat :=
  match g.pageSec page with
  | none => pgUnmapped
  | some p =>
    if g.kind = 2 ∧ d.team.members ≠ 0 ∧ p.member ≠ d.team.self then pgPeer
    else if d.compute.retired.contains (g.key, page) then pgRetired
    else if d.compute.loading.contains (g.key, page) then pgLoading
    else pgPresent

/-- One byte at a SPACE 0 address, as a die reads it: the image's byte, and what has been written since (kept as the difference). -/
def Dev.volByte (d : Dev) (g : Generation) (die a : Nat) : Byte :=
  if d.pageState g (a / 2097152) = pgPresent then
    match g.pageSec (a / 2097152) with
    | some p =>
      let i := if a - p.addr < p.length then Mem.read g.image (p.offset + (a - p.addr)) else 0
      i ^^^ Mem.read g.work ((if p.place = 1 then die * 2 ^ 48 else 0) + a)
    | none => Config.unmapped a
  else Config.unmapped a

/-- One byte at a SPACE 1 address (R398): region 0 flow slice, 1 direct region, 2 state pool; the layout of ring storage is not given. -/
def Dev.devByte (d : Dev) (a : Nat) : Byte :=
  let core := bits a 46 37
  let region := bits a 36 33
  let o := a % 2 ^ 33
  let byteOf (e : Bytes) : Byte := (Bytes.slice e 0 64).getD (o % 64) 0
  if region = 0 then byteOf (d.entry (.exact core (o / 64)))
  else if region = 1 then byteOf (d.entry (.direct (coreDie core) ((o / 256 * 200 + core % 200) * 4 + o % 256 / 64)))
  else if region = 2 then Mem.read d.flow.stateMem (core * 32768 * 8192 + o)
  else Config.ringShare core o

/-- Is a SPACE 1 address within its region (R398)? The stash lies on the chip (R204), the state pool is there while DEEP_CFG.EN is 1 (R361), and a
share of ring storage can take the frames that fixed regions leave (R394; log entry 58). -/
def Dev.devMapped (d : Dev) (a : Nat) : Bool :=
  let core := bits a 46 37
  let region := bits a 36 33
  let o := a % 2 ^ 33
  decide (core < 800 ∧ a / 2 ^ 47 % 2 ^ 14 = 0 ∧
    (region = 0 ∧ o < 256 * nb core ∨ region = 1 ∧ o < 2097152 ∧ (o / 256 * 200 + core % 200) * 4 < 1048576 ∨
     region = 2 ∧ d.deepEn ∧ o < poolSlots core * 8192 ∨ region = 3 ∧ o < d.framesEach * 2097152))

/-- One byte as a task of a schedule reads it on a core (R397). -/
def Dev.taskByte (d : Dev) (core sched gen a : Nat) : Byte :=
  if bit a 63 then (if bits a 62 21 = 0 then Mem.read (d.core core).scratch (a % 2097152) else Config.unmapped a)
  else if bits a 62 61 = 1 then (if d.devMapped a then d.devByte a else Config.unmapped a)
  else if bits a 62 61 = 0 ∧ bits a 60 47 = 0 then
    match d.schedGen sched gen with
    | some g => d.volByte g (coreDie core) (a % 2 ^ 47)
    | none => Config.unmapped a
  else Config.unmapped a

def Dev.taskBytes (d : Dev) (core sched gen a n : Nat) : Bytes := (List.range n).map fun i => d.taskByte core sched gen (a + i)

/-! ### Layer descriptors (R301 to R305) -/

structure LayerD where
  mode : Nat := 0
  regions : Nat := 0
  twinCheck : Bool := false
  start : Bool := false
  d : Nat := 1
  a4 : Bool := false
  ofmt : Nat := 0
  isrc : Nat := 0
  gIn : Nat := 32
  gOut : Nat := 32
  accExp : Int := 0
  outExp : Int := 0
  inBase : Int := 0
  k : Nat := 1
  n : Nat := 1
  batch : Nat := 1
  adaptLog : Nat := 0
  weights : Nat := 0
  scale : Nat := 0
  startAddr : Nat := 0
  deriving DecidableEq, Repr

/-- Read a layer descriptor (R301). -/
def layerD (b : Bytes) : LayerD :=
  let m := Bytes.at b 2
  let f := Bytes.at b 3
  let g := Bytes.at b 4
  { mode := m % 4, regions := m / 4 % 4, twinCheck := bit m 4, start := bit m 5, d := f % 4, a4 := bit f 2, ofmt := f / 8 % 4, isrc := f / 32 % 4,
    gIn := 32 * 2 ^ (g % 4), gOut := 32 * 2 ^ (g / 4 % 4), accExp := sext 6 (Bytes.at b 5), outExp := sext 6 (Bytes.at b 6),
    inBase := sext 6 (Bytes.at b 7), k := Bytes.le b 8 4, n := Bytes.le b 12 4, batch := Bytes.at b 16, adaptLog := Bytes.at b 17,
    weights := Bytes.le b 24 8, scale := Bytes.le b 32 8, startAddr := Bytes.le b 40 8 }

/-- Column-tile width, and width of a stored tile (R302, R304). -/
def LayerD.w (l : LayerD) : Nat := if l.mode = 0 then 1024 else if l.mode = 2 then 512 / 2 ^ l.regions else 512
def LayerD.stored (l : LayerD) : Nat := if l.mode = 0 then 512 else l.w

/-- Rows of a reduction tile, and tiles (R300, R302). -/
def LayerD.tileRows (l : LayerD) : Nat := if l.mode = 2 then 128 / 2 ^ l.regions else 128
def LayerD.tiles (l : LayerD) : Nat := (l.k + l.tileRows - 1) / l.tileRows

/-- Unmasked channels of a column tile (R315). -/
def LayerD.channels (l : LayerD) (j : Nat) : List Nat := (List.range (min l.w (l.n - l.w * j))).map (· + l.w * j)

/-- Model address of the row of reduction index `i` for a channel in plane `q` (R304). -/
def LayerD.rowAddr (l : LayerD) (q i ch : Nat) : Nat :=
  let t := (l.n + l.stored - 1) / l.stored
  l.weights + 104 * (q * t * l.k + ch / l.stored * l.k + i)

/-- Rows of reduction tile `k`. -/
def LayerD.rowsOf (l : LayerD) (k : Nat) : Nat := min l.tileRows (l.k - l.tileRows * k)

/-- First channel that an array takes of column tile `j`: in normal mode each array has its own half (R302). -/
def LayerD.firstOf (l : LayerD) (j arr : Nat) : Nat := l.w * j + (if l.mode = 0 then 512 * arr else 0)

/-- What the load steps of reduction tile `k` write into an array's shadow registers (R280, R304, R312): the packed planes of each row; nothing
for an array without channels. -/
def LayerD.tileAt (l : LayerD) (rd : Nat → Byte) (j arr k : Nat) : List (List (List Byte)) :=
  let ch := l.firstOf j arr
  if l.n ≤ ch then []
  else (List.range (l.rowsOf k)).map fun i => (List.range l.d).map fun q =>
    (List.range 104).map fun b => rd (l.rowAddr q (l.tileRows * k + i) ch + b)

/-- The weight that a cell of a row holds (R276 to R279): plane 0 is the most significant. -/
def cellWeight (row : List (List Byte)) (pos : Nat) : Int := row.foldl (fun v p => 3 * v + tritAt (Bytes.at p (pos / 5)) (pos % 5)) 0

/-- Invalid weight bytes among loaded rows (R279, R280). -/
def badBytes (rows : List (List (List Byte))) : Nat :=
  ((rows.flatMap fun r => r).map fun p => (p.take 103).countP fun b => decide (243 ≤ b.toNat)).sum

/-- A batch slot's input: codes and exponents, with the positions of unused codes read and of groups clamped (R283, R288). -/
structure Input where
  codes : List Int := []
  exps : List Int := []
  unused : List Nat := []
  clamped : List Nat := []
  deriving DecidableEq, Repr

/-- Positions of a list at which something holds. -/
def positions {α : Type} (p : α → Bool) (l : List α) : List Nat := (List.range l.length).filter fun i => match l[i]? with
  | some x => p x
  | none => false

/-- A coded vector as a reader takes it from its bytes (R283, R284, R287, R306). -/
def LayerD.coded (l : LayerD) (v : Vec) : Input :=
  let v := unpackVec l.a4 l.gIn l.k (vecBytes v)
  let raw := (List.range l.k).map fun i => if v.exps.getD (i / l.gIn) (-32) ≠ -32 then v.codes.getD i 0 else 0
  { codes := raw.map (readCode l.a4), exps := v.exps, unused := positions (fun c => decide (readCode l.a4 c ≠ c)) raw }

/-- Wide values through the group former (R288, R306). -/
def LayerD.wide (l : LayerD) (base : List Int → Int) (v : List Int) : Input :=
  let gs := (groups l.gIn v.length (v.take l.k)).map fun g => formGroup l.a4 (base g) g
  { codes := gs.flatMap (·.1), exps := gs.map (·.2.1), clamped := positions (·.2.2) gs }

/-- Feature codes through the group former (R307): each group's base is the smallest shift among its features. -/
def LayerD.features (l : LayerD) (codes shifts : List Nat) : Input :=
  let cs := groups l.gIn l.k (codes.take l.k)
  let ss := groups l.gIn l.k (shifts.take l.k)
  let gs := (cs.zip ss).map fun (c, sh) =>
    let b := sh.foldl min (sh.headD 0)
    formGroup l.a4 (b : Int) ((c.zip sh).map fun (x, y) => ((x * 2 ^ (y - b) : Nat) : Int))
  { codes := gs.flatMap (·.1), exps := gs.map (·.2.1), clamped := positions (·.2.2) gs }

/-- One tile pass of one column (R290), on the rows in the active registers: the new accumulator, and whether sat32 clamps. `pos` is the column. -/
def LayerD.tilePass (l : LayerD) (rows : List (List (List Byte))) (x : Input) (k pos : Nat) (acc : Int) : Int × Bool :=
  let n := l.rowsOf k
  let terms := (List.range ((n + l.gIn - 1) / l.gIn)).map fun g =>
    let first := l.tileRows * k + l.gIn * g
    let e := x.exps.getD (first / l.gIn) (-32)
    if e = -32 then 0
    else
      let sub := ((List.range (min l.gIn (n - l.gIn * g))).map fun i =>
        cellWeight (rows.getD (l.gIn * g + i) []) pos * x.codes.getD (first + i) 0).sum
      rneS sub (l.accExp - e)
  let v := acc + terms.sum
  (sat32 v, decide (sat32 v ≠ v))

/-- What the codes of a slot's vector show in reduction tile `k` (R283, R288): unused codes read, and clamped groups. -/
def LayerD.unusedIn (l : LayerD) (x : Input) (k : Nat) : Nat := x.unused.countP fun i => decide (i / l.tileRows = k)
def LayerD.clampedIn (l : LayerD) (x : Input) (k : Nat) : Nat := x.clamped.countP fun g => decide (g * l.gIn / l.tileRows = k)

/-- Start value of a channel (R301). -/
def LayerD.startOf (l : LayerD) (rd : Nat → Byte) (ch : Nat) : Int :=
  if l.start then sext 32 (Bytes.le ((List.range 4).map fun i => rd (l.startAddr + 4 * ch + i)) 0 4) else 0

/-- A byte of a generation's image at a model address. -/
def Generation.imageByte (g : Generation) (a : Nat) : Byte := match g.pageSec (a % 2 ^ 47 / 2097152) with
  | some p => if a % 2 ^ 47 - p.addr < p.length then Mem.read g.image (p.offset + (a % 2 ^ 47 - p.addr)) else 0
  | none => 0

/-- One channel's scale entry as the image holds it (R305), in a layer whose ADAPT_LOG2 is `log`: the working copy of a core begins so. -/
def scaleEntry (rd : Nat → Byte) (table ch log : Nat) : ScaleCopy :=
  let b := (List.range 8).map fun i => rd (table + 8 * ch + i)
  { m := Bytes.le b 0 2, adapt := bit (Bytes.at b 2) 6, lo := Bytes.at b 4 % 64, hi := Bytes.at b 5 % 64, log,
    bits := { shift := Bytes.at b 2 % 64 } }

/-- Steps of reduction tile `k` of a pass of `b` slots: its swap, and its tile passes beside the load of the next tile (R316). -/
def LayerD.tileSteps (l : LayerD) (b k : Nat) : Nat :=
  let b' := if l.mode = 1 ∧ !l.twinCheck then (b + 1) / 2 else b
  1 + max (l.d * b') (l.d * (if k + 1 < l.tiles then l.rowsOf (k + 1) else 0))

/-- Steps of a pass of `b` slots from reduction tile `k0` until its first `n` tiles from there are done: the load, and the tiles. -/
def LayerD.stepsTo (l : LayerD) (b k0 n : Nat) : Nat :=
  (if k0 < l.tiles then l.d * l.rowsOf k0 else 0) + ((List.range n).map fun i => l.tileSteps b (k0 + i)).sum

/-- Tiles of a pass from `k0` on that are done within `n` steps. -/
def LayerD.tilesIn (l : LayerD) (b k0 n : Nat) : Nat := (List.range (l.tiles - k0)).countP fun i => decide (l.stepsTo b k0 (i + 1) ≤ n)

/-- Steps of the rescale unit for `b` slots of column tile `j` (R316). -/
def LayerD.rescaleSteps (l : LayerD) (j b : Nat) : Nat := b * (((l.channels j).length + 63) / 64)

/-- Steps of an array pass before its rescale, from reduction tile `k0`. -/
def LayerD.tilesSteps (l : LayerD) (b k0 : Nat) : Nat := l.stepsTo b k0 (l.tiles - k0) + 2

/-- Steps P of an array pass (R316), from reduction tile `k0`. -/
def LayerD.steps (l : LayerD) (j b k0 : Nat) : Nat := l.tilesSteps b k0 + l.rescaleSteps j b

/-- Steps of a request of the matrix-vector path before its rescale (R351). -/
def LayerD.mvecSteps (l : LayerD) : Nat := 4 + 3 * l.d * l.k * ((l.n + 511) / 512)

/-! ### Regions and registers (R299, R300, R308 to R314) -/

def CoreState.array (x : CoreState) (a : Nat) : ArrayState := if a = 0 then x.array0 else x.array1
def CoreState.onArray (a : Nat) (f : ArrayState → ArrayState) (x : CoreState) : CoreState :=
  if a = 0 then { x with array0 := f x.array0 } else { x with array1 := f x.array1 }

/-- Array passes under way, of which sealed ones stay bound to their region until the last word is written (R310, R322). -/
def CoreState.arrayRuns (x : CoreState) : List ArrayRun := x.running.filter fun r => !r.mvec

/-- Does a pass hold region `n` of array `a`, or any region of the array (R308)? -/
def ArrayRun.holds (r : ArrayRun) (a n : Nat) : Bool := decide (r.mode ≠ 2 ∨ (r.arr = a ∧ r.region = n))
def ArrayRun.onArray (r : ArrayRun) (a : Nat) : Bool := decide (r.mode ≠ 2 ∨ r.arr = a)

/-- Is every region of an array free (R310)? -/
def CoreState.arrayFree (x : CoreState) (a : Nat) : Bool := x.arrayRuns.all fun r => !r.onArray a

/-- Are the arrays in the shape that a pass of a layer needs, on array `a` in simul mode (R308, R310)? -/
def CoreState.shaped (x : CoreState) (l : LayerD) (a : Nat) : Bool :=
  if l.mode = 2 then decide (x.mode = 0 ∧ (x.array a).regions = l.regions) else decide (x.mode = if l.mode = 0 then 1 else 2)

/-- Lowest free region of an array that has the pass's shape (R309). -/
def CoreState.freeRegion (x : CoreState) (l : LayerD) (a : Nat) : Option Nat :=
  if x.shaped l a then (List.range (2 ^ l.regions)).find? fun r => x.arrayRuns.all fun p => !p.holds a r else none

/-- The array and region that a pass of a layer may take (R308 to R310): a free region of its size, else region 0 of an array all free, whose shape
then changes. Normal and twin mode take both arrays. A suspect array holds back every pass of the core (R502). MODE 3 runs on no array (R321). -/
def CoreState.place (x : CoreState) (l : LayerD) : Option (Nat × Nat) :=
  if x.array0.suspect ∨ x.array1.suspect ∨ l.mode = 3 then none
  else if l.mode = 2 then
    match [0, 1].findSome? fun a => (x.freeRegion l a).map fun r => (a, r) with
    | some p => some p
    | none => ([0, 1].find? fun a => x.arrayFree a && (decide (x.mode = 0) || x.arrayFree 0 && x.arrayFree 1)).map fun a => (a, 0)
  else if x.arrayFree 0 && x.arrayFree 1 then some (0, 0) else none

/-- The mode and region count that the pass's array takes (R310). A change leaves no registers of the old shape. -/
def CoreState.enter (l : LayerD) (a : Nat) (x : CoreState) : CoreState :=
  if x.shaped l a then x
  else if l.mode = 2 then { (x.onArray a fun y => { y with regions := l.regions, blocks := [] }) with mode := 0 }
  else { x with mode := if l.mode = 0 then 1 else 2, array0 := { x.array0 with blocks := [] }, array1 := { x.array1 with blocks := [] } }

/-- A swap exchanges the active and the shadow registers (R313). -/
def Block.swap (b : Block) : Block := { b with active := b.shadow, shadow := b.active }

/-- The load of a tile writes its rows; those past its last row stay as they were, and are masked (R312). -/
def Block.load (rows : List (List (List Byte))) (b : Block) : Block := { b with shadow := rows ++ b.shadow.drop rows.length }

/-- An array pass between tile passes (R314): the registers of the region it has on each array, the accumulators by batch slot and column, and what it
has counted: tile passes in which a column clamped, invalid bytes loaded, unused codes and clamped groups read. -/
structure Pass where
  b0 : Block := {}
  b1 : Block := {}
  acc : List (List Int) := []
  clamps : Nat := 0
  badBytes : Nat := 0
  unused : Nat := 0
  groupSat : Nat := 0
  deriving DecidableEq, Repr

/-- Does a pass of the layer on array `arr` use array `a`? -/
def LayerD.uses (l : LayerD) (arr a : Nat) : Bool := decide (l.mode ≠ 2 ∨ a = arr)

/-- The array that computes batch slot `n` of channel `ch` (R302, R311): its half of a normal tile, its parity in twin mode, or the pass's own. -/
def LayerD.arrayOf (l : LayerD) (j arr n ch : Nat) : Nat :=
  if l.mode = 0 then (ch - l.w * j) / 512 else if l.mode = 1 then (if l.twinCheck then 0 else n % 2) else arr

/-- The column of a channel in its array. -/
def LayerD.column (l : LayerD) (ch : Nat) : Nat := ch % l.stored

/-- One tile of a pass (R314): tile `k` is loaded into the shadow registers, the swap makes it active once its last row is there (R313), and each
unmasked slot, which has an input, has its tile pass. -/
def LayerD.passTile (l : LayerD) (rd : Nat → Byte) (j arr : Nat) (ins : Table Input) (p : Pass) (k : Nat) : Pass :=
  let t0 := if l.uses arr 0 then l.tileAt rd j 0 k else []
  let t1 := if l.uses arr 1 then l.tileAt rd j 1 k else []
  let b0 := if l.uses arr 0 then (p.b0.load t0).swap else p.b0
  let b1 := if l.uses arr 1 then (p.b1.load t1).swap else p.b1
  let row (n : Nat) (acc : List Int) : List (Int × Bool) := match Table.get? ins n with
    | none => acc.map fun v => (v, false)
    | some x => ((l.channels j).zip acc).map fun e =>
        l.tilePass (if l.arrayOf j arr n e.1 = 0 then b0.active else b1.active) x k (l.column e.1) e.2
  let rows := (List.range p.acc.length).map fun n => row n (p.acc.getD n [])
  { b0, b1, acc := rows.map fun r => r.map (·.1), clamps := p.clamps + rows.countP fun r => r.any (·.2)
    badBytes := p.badBytes + badBytes t0 + (if l.mode = 0 ∨ !l.uses arr 0 then badBytes t1 else 0)
    unused := p.unused + (ins.map fun x => l.unusedIn x.2 k).sum, groupSat := p.groupSat + (ins.map fun x => l.clampedIn x.2 k).sum }

/-- Tiles `ks` of a pass. -/
def LayerD.passTiles (l : LayerD) (rd : Nat → Byte) (j arr : Nat) (ins : Table Input) (ks : List Nat) (p : Pass) : Pass :=
  ks.foldl (l.passTile rd j arr ins) p

/-- Entries of the accumulator files of array `a` after a pass, by batch slot: the columns of each slot that it computes (R300, R311). -/
def LayerD.accFile (l : LayerD) (j arr a : Nat) (slots : List Nat) (acc : List (List Int)) : Table (List Int) :=
  slots.filterMap fun n =>
    let mine := ((l.channels j).zip (acc.getD n [])).filter fun e => decide (l.arrayOf j arr n e.1 = a ∨ l.mode = 1 ∧ l.twinCheck)
    if mine.isEmpty then none else some (n, mine.map (·.2))

/-- The registers of a pass are those of the region that it has on each array it uses; slots that it does not run keep their accumulators. -/
def CoreState.keep (l : LayerD) (j arr region : Nat) (slots : List Nat) (p : Pass) (x : CoreState) : CoreState :=
  let put (a : Nat) (b : Block) (x : CoreState) : CoreState :=
    let merge (old : Table (List Int)) : Table (List Int) := (l.accFile j arr a slots p.acc).foldl (fun t e => Table.put t e.1 e.2) old
    if l.uses arr a then x.onArray a fun y => { y with blocks := Table.put y.blocks region { b with acc := merge (Table.get {} y.blocks region).acc } }
    else x
  put 1 p.b1 (put 0 p.b0 x)

/-- A pass begins with the registers of its region (R314). -/
def CoreState.passOf (x : CoreState) (region : Nat) (acc : List (List Int)) : Pass :=
  { b0 := Table.get {} x.array0.blocks region, b1 := Table.get {} x.array1.blocks region, acc }

/-- What a failed, stopped or sealed pass leaves in its region (R322, R326): no shadow tile, and no accumulators. -/
def CoreState.scrap (r : ArrayRun) (x : CoreState) : CoreState :=
  let put (a : Nat) (x : CoreState) : CoreState :=
    if r.onArray a then x.onArray a fun y => { y with blocks := Table.modify {} y.blocks r.region fun b => { b with shadow := [], acc := [] } } else x
  if r.mvec then x else put 1 (put 0 x)

/-- The pass or request of a context is over. -/
def CoreState.dropRun (ctx : Nat) (x : CoreState) : CoreState := { x with running := x.running.filter fun r => decide (r.ctx ≠ ctx) }

/-- The pass or request of a context goes on as `f` says. -/
def CoreState.onRun (ctx : Nat) (f : ArrayRun → ArrayRun) (x : CoreState) : CoreState :=
  { x with running := x.running.map fun r => if r.ctx = ctx then f r else r }

/-- BUSY and REGION_TASK of the array page (R330): region `n` of array `a` is number 4a + n, and a pass of both arrays shows as region 0 of each. -/
def ArrayRun.regionsShown (r : ArrayRun) : List Nat := if r.mvec then [] else if r.mode = 2 then [4 * r.arr + r.region] else [0, 4]
def CoreState.busy (x : CoreState) : List (Nat × Nat) := x.running.flatMap fun r => r.regionsShown.map fun n => (n, r.ctx)

/-! ### Sealed moves (R322 to R324) -/

/-- The first 60 bytes of a sealed move's header (R323). -/
def SealedMove.head (m : SealedMove) : Bytes :=
  toLE 2 1 ++ [byte (m.mode + 4 * m.regions + 16 * m.region), byte m.slots] ++ toLE 4 m.nextTile ++ toLE 4 m.colTile ++ toLE 2 m.cols ++
    [byte m.thread, 0] ++ toLE 8 m.layer ++ toLE 8 m.sealPly ++ zeros 28

/-- Its body: the accumulators in order. -/
def SealedMove.body (m : SealedMove) : Bytes := m.acc.flatMap fun r => r.flatMap fun v => toLE 4 (toTwos 32 v)

/-- CHECK over bytes 0 to 59 and the whole body. -/
def SealedMove.sum (m : SealedMove) : Nat := (crc32c (m.head ++ m.body)).toNat

/-- Its length in bytes; the steps in which it is written or read back (R322), and the energy of either (R455). -/
def SealedMove.len (m : SealedMove) : Nat := 64 + 4 * m.slots * m.cols
def SealedMove.steps (m : SealedMove) : Nat := (m.len + 1023) / 1024
def SealedMove.units (m : SealedMove) : Nat := (m.len + 63) / 64

end Sys2Proof.Machine
end

