-- ==== Sys2Proof/Machine/DeepTier.lean ====
section
/-! DEFINITION. The deep tier (R331 to R358): the deep-model part, promoted flows' lookups and tokens, a token's layers, expert requests, batches and
results, head decisions, and the deep-tier page. -/
namespace Sys2Proof.Machine

/-! ### The deep-model part (R332, R333) -/

def Generation.dp (g : Generation) (off n : Nat) : Nat := g.rd secDeep off n
def Generation.dLayers (g : Generation) : Nat := g.dp 2 1
def Generation.export (g : Generation) : Bool := bit (g.dp 3 1) 0
def Generation.compat (g : Generation) : Bool := bit (g.dp 3 1) 1
def Generation.dWidth (g : Generation) : Nat := g.dp 4 2
def Generation.dClasses (g : Generation) : Nat := g.dp 7 1 % 32
def Generation.stateBytes (g : Generation) : Nat := g.dp 8 2
def Generation.tokenEvery (g : Generation) : Nat := g.dp 10 2
def Generation.tokenGap (g : Generation) : Nat := g.dp 12 4
def Generation.expertHold (g : Generation) : Nat := g.dp 16 4
def Generation.remoteLimit (g : Generation) : Nat := g.dp 20 4
def Generation.tokenLimit (g : Generation) : Nat := g.dp 24 4
def Generation.imageTag (g : Generation) : Nat := g.dp 28 4

/-- A field of layer record `l`. -/
def Generation.lr (g : Generation) (l off n : Nat) : Nat := g.dp (192 + 48 * l + off) n
def Generation.lType (g : Generation) (l : Nat) : Nat := g.lr l 0 1
def Generation.lRelu (g : Generation) (l : Nat) : Bool := bit (g.lr l 1 1) 0
def Generation.lTopk (g : Generation) (l : Nat) : Nat := g.lr l 1 1 / 4 % 4 + 1
def Generation.lThin (g : Generation) (l : Nat) : Nat := g.lr l 2 1
def Generation.lH (g : Generation) (l : Nat) : Nat := g.lr l 4 2
def Generation.lStateOff (g : Generation) (l : Nat) : Nat := g.lr l 6 2
def Generation.lExperts (g : Generation) (l : Nat) : Nat := g.lr l 10 2
def Generation.lDesc (g : Generation) (l k : Nat) : Nat := g.lr l (16 + 8 * k) 8

/-- Deep action entry `k` (R347): verdict, PROMOTE, WRITE. -/
def Generation.deepAction (g : Generation) (k : Nat) : Verdict × Bool × Bool :=
  let w := g.dp (64 + 4 * k) 4
  ({ cls := w % 65536, queue := bits w 23 16, colour := bits w 25 24, report := bit w 27 }, bit w 26, bit w 28)

/-- Schedule identifier of table `t` of a deep-model slot's volume (R387). -/
def deepSched (dm t : Nat) : Nat := 2 * 2 ^ 28 + dm * 65536 + t % 4096

/-- Bytes at a model address of a deep model, as a core reads them. -/
def Dev.deepBytes (d : Dev) (core dm gen a n : Nat) : Bytes := d.taskBytes core (deepSched dm 0) gen a n

/-- One expert table entry (R333): member, core, UP, DOWN. -/
structure ExpertE where
  member : Nat := 0
  core : Nat := 0
  up : Nat := 0
  down : Nat := 0
  deriving DecidableEq, Repr

def Dev.expertE (d : Dev) (core : Nat) (g : Generation) (l e : Nat) : ExpertE :=
  let b := d.deepBytes core g.target g.gen (g.lDesc l 1 + 32 * e) 32
  { member := Bytes.at b 0 % 16, core := Bytes.le b 2 2, up := Bytes.le b 8 8, down := Bytes.le b 16 8 }

/-! ### State-slot header fields (R340) -/

def hTenancy (h : Bytes) : Nat := Bytes.le h 6 2
def hFresh (h : Bytes) : Bool := bit (Bytes.at h 9) 0
def hInflight (h : Bytes) : Bool := bit (Bytes.at h 9) 1
def hTokens (h : Bytes) : Nat := Bytes.le h 24 4
def setInflight (v : Bool) (h : Bytes) : Bytes := Bytes.patch h 9 [byte (Bytes.at h 9 % 2 + 2 * b2n v)]
def setFresh (v : Bool) (h : Bytes) : Bytes := Bytes.patch h 9 [byte (b2n v + Bytes.at h 9 / 2 * 2)]

/-- Release a flow (R338): its entry returns to PROMOTED 0 and STATE_SLOT 0, and its slot is freed. -/
def State.releaseFlow (core : Nat) (l : Loc) (s : State) : State :=
  let e := s.dev.entry l
  if !ePromoted e then s
  else
    let s := s.releaseState core (eState e % 32768)
    (s.updateEntry l fun e => Bytes.patch (eFlag 13 false e) 60 [0, 0]).mirrorEntry l

/-! ### Token formation (R342 to R344) -/

/-- Old layer states of a token: each SSM layer's, or zeros when FRESH (R341, R345). -/
def Dev.oldStates (d : Dev) (core slot : Nat) (g : Generation) (fresh : Bool) : Table (List Int) :=
  ((List.range g.dLayers).filter fun l => decide (g.lType l = 2)).map fun l =>
    (l, (List.range (g.lH l)).map fun i =>
      if fresh then 0 else sext 32 (Mem.le d.flow.stateMem (slotBase core slot + g.lStateOff l + 4 * i) 4))

/-- The item of a token copied to the export ring (R344). -/
def tokenItem (handle core slot ten dmGen number : Nat) (codes : List Nat) : Item :=
  let words := (2 * codes.length + 15) / 16
  let cs := codes.flatMap (toLE 2)
  { len := 2 + words, kind := 0x12
    body := toLE 4 handle ++ toLE 2 core ++ toLE 2 slot ++ toLE 2 ten ++ [byte codes.length, byte dmGen] ++ toLE 4 number ++ cs ++
      zeros (16 * words - 2 * codes.length) }

/-- Queue a token for its home core: with the waiting task of its model that has room, or as a task of its own (R346, R367). -/
def State.queueToken (id : Nat) (t : Token) (g : Generation) (s : State) : State :=
  let sched := deepSched t.dm (Config.deepTable t.dm 0 0)
  let limit := match s.dev.table sched t.gen with
    | some (v, o) => min 32 (tblLoopMax v o 0)
    | none => 1
  s.onCore t.core fun x =>
    match x.tasks.findIdx? fun k => decide (k.owner = 2 ∧ k.sched = sched ∧ k.gen = t.gen ∧ k.items.length < limit) with
    | some i => { x with tasks := x.tasks.modify i fun k => { k with items := k.items ++ [id], lc := [k.items.length + 1] } }
    | none => { x with tasks := x.tasks ++
        [{ sched, gen := t.gen, owner := 2, cls := 2, lc := [1], deadline := t.formed + g.tokenLimit, items := [id] }] }

/-- Form a token (R341 to R344). It is counted, exported and queued at the end of the ply, after any release of its flow (R353). -/
def State.formToken (core slot n : Nat) (p : Packet) (hit : Bytes) (key : Bytes) (h : Bytes) (pk by_ : Nat) (g : Generation) (badState : Bool)
    (s : State) : State :=
  let stale := decide (Bytes.at h 8 ≠ g.gen) && !g.compat
  let fresh := hFresh h || stale
  let last := Bytes.le h 16 8
  let hg := p.chan.map (·.2) |>.getD 0
  let ans := match s.dev.packetGen p with
    | some (_, cg) =>
      let ck := genKey false n p.gen
      let rows := s.start.featCodes core ck n cg p.vector (some hit) (Bytes.le p.vector 0 6)
      let sh := s.start.featShifts core ck cg
      let m := (List.range cg.tokenCount).map cg.tokenMap
      (m.map fun i => (rows.getD i {}).code, m.map fun i => sh.getD i 0)
    | none => ([], [])
  let codes := ans.1
  let shifts := ans.2
  let elapsed := if last = 0 then 65535 else min 65535 ((s.now - last) / 65536)
  let codes := codes ++ [min 65535 pk, min 65535 by_, elapsed]
  let number := (hTokens h + 1) % 2 ^ 32
  let t : Token :=
    { core, chan := n, hgen := hg, stateSlot := slot, tenancy := hTenancy h, key, dm := g.target, gen := g.gen, codes
      shifts := shifts ++ [0, 0, 0], formed := s.now, number, fresh, h := s.dev.oldStates core slot g (fresh || badState) }
  let h := Bytes.patch (setInflight true (setFresh fresh h)) 10 (zeros 6 ++ toLE 8 s.now)
  let id := s.dev.compute.nextToken
  ((s.setSlotHdr core slot h).onCompute fun x => { x with tokens := Table.put x.tokens id t, nextToken := id + 1 }).flowDue (.form id stale badState)

/-- A packet of a promoted flow (R340, R342): its slot header is checked and counted, and a token forms when one is due. -/
def State.promotedHit (core n : Nat) (p : Packet) (l : Loc) (hit : Bytes) (badState : Bool) (s : State) : State :=
  let slot := eState hit % 32768
  let key := Bytes.slice p.vector 48 48
  let h := s.dev.slotHdr core slot
  let s := s.useVault core 64
  if !slotHdrGood h ∨ Bytes.le h 0 4 ≠ (s.start.candidates core n key).1 ∨ Bytes.le h 4 2 % 4096 ≠ n then s.releaseFlow core l
  else
    let pk := min 65535 (Bytes.le h 10 2 + 1)
    let by_ := min (2 ^ 32 - 1) (Bytes.le h 12 4 + (Bytes.le p.vector 20 2 + 63) / 64)
    let h := Bytes.patch h 10 (toLE 2 pk ++ toLE 4 by_)
    let last := Bytes.le h 16 8
    match s.start.currentGen true (Bytes.le h 4 2 / 4096) with
    | none => s.setSlotHdr core slot h
    | some g =>
      let due := decide (g.tokenEvery ≤ pk ∨ last = 0 ∨ g.tokenGap ≠ 0 ∧ last + g.tokenGap ≤ s.now)
      if hInflight h || !due || decide (0 < (s.start.tempo (coreDie core)).stage) || !ePromoted (s.dev.entry l) then s.setSlotHdr core slot h
      else s.formToken core slot n p hit key h pk by_ g badState

/-- LOOKUP (R210 to R213, R342): the owner core looks up and refreshes the slot's packet. A substitute makes no lookup (R505); a replayed packet's
lookup does not refresh (R534). A lookup of the table that the channel's keys are not in finds nothing (R373). `bad1` and `bad2` tell of uncorrectable
errors in the two buckets (R212), `badState` of one in the layer states a forming token reads (R396), and `overflow` of a flow-slice demand beyond the
core's reservation (R458). -/
def issueLookup (core ctx : Nat) (bad1 bad2 badState overflow : Bool) (s : State) : Host.Outcome State Fault Refusal :=
  .next (s.issue core ctx 4 (fun b => decide (b ≤ 1)) (fun _ _ => true) fun x e s =>
    let s := s.onCore core (CoreState.demand s.now overflow s.dev.streamNext)
    let s := s.useVault core (if e.sub = 1 then 64 else 512)
    let s := if overflow then s.slowRequests core (if e.sub = 1 then 64 else 512) else s
    State.each (x.slots e) (fun i s =>
      match s.dev.slotPacket x i with
      | none => s
      | some (_, p) =>
        match p.chan with
        | none => s
        | some (n, hg) =>
          let done (hit : Option Bytes) (s : State) : State := s.onWork core ctx i fun w => { w with looked := true, entry := hit }
          let c := s.start.chan n
          let ans := s.start.find core n hg (decide (c.keyKind = 2)) (Bytes.slice p.vector 48 48) bad1 bad2
          let at_ := ans.1
          if p.core ≠ core ∨ !c.flowPath then done none s
          else if decide (e.sub = 1) ≠ decide (c.keyKind = 2) then done none ((s.stat (coreDie core) 0).stat (coreDie core) 2)
          else if p.replay then done (if c.state = .draining ∨ c.hgen ≠ hg then none else at_.map s.start.entry) s
          else
            let ans := s.lookup p bad1 bad2
            let s := ans.1
            let hit := ans.2
            match hit, at_ with
            | some h, some l =>
              let s := s.useVault core 64
              let s := if badState then s.lineErr core (poolLine (eState h)) 2 else s
              done hit (if ePromoted h then s.promotedHit core n p l h badState else s)
            | _, _ => done hit s) s)

/-! ### A token's layers (R345) -/

/-- The first layer from `cur` on that names a descriptor address, with which of its descriptors: 0 the array's, 1 matrix C, 2 the decay table. -/
def Generation.layerOf (g : Generation) (cur a : Nat) : Option (Nat × Nat) :=
  (((List.range g.dLayers).filter fun l => decide (cur ≤ l)).flatMap fun l =>
    (if g.lType l = 2 then [0, 1, 2] else [0]).map fun k => (l, k)).find? fun e => decide (g.lDesc e.1 e.2 = a)

/-- The token's outstanding requests, of which no result is here and none was missed. -/
def Token.waits (t : Token) : Bool := t.reqs.any fun q => q.result.isNone && !q.missed

/-- Sum, element by element, of the results that came (R345, R358). -/
def sumResults (n : Nat) (l : List PendReq) : List Int :=
  (List.range n).map fun i => (l.map fun q => match q.result with | some y => y.getD i 0 | none => 0).sum

/-- Every request of a mixture layer is answered or missed: r takes the sum, and the token goes on to the next layer. -/
def Token.join (t : Token) : Token :=
  match t.reqs with
  | [] => t
  | q :: _ => if t.waits then t else
    let y := sumResults t.r.length t.reqs
    { t with r := (t.r.zip y).map fun e => sat32 (e.1 + e.2), reqs := [], scores := [], cur := q.layer + 1 }

/-- Two vectors added with one sat32 an element. -/
def addSat (a b : List Int) : List Int := (List.range a.length).map fun i => sat32 (a.getD i 0 + b.getD i 0)

/-- The wide vector a descriptor of the token's layers reads (R345): the residual stream, or the new state. -/
def Token.wideIn (l k : Nat) (t : Token) : List Int := if k = 1 then Table.get [] t.h l else t.r

/-- What the outputs of a whole layer do to a token (R345). -/
def Token.layerDone (g : Generation) (l k : Nat) (out : List Int) (t : Token) : Token :=
  match g.lType l, k with
  | 1, _ => { t with r := out, cur := l + 1 }
  | 2, 0 => { t with u := out, cur := l }
  | 2, _ => { t with r := addSat t.r out, cur := l + 1 }
  | 3, _ => { t with scores := out, cur := l }
  | 4, _ => { t with decided := some (argmax (out.take g.dClasses)), cur := l + 1 }
  | _, _ => t

/-- The decay step of layer `l` (R345): unsigned 16-bit multipliers over the old state, and the input. -/
def Token.decay (mult : Nat → Nat) (l : Nat) (t : Token) : Token :=
  let old := Table.get [] t.h l
  let new := (List.range old.length).map fun i => sat32 (rne (((mult i : Nat) : Int) * old.getD i 0) 16 + t.u.getD i 0)
  { t with h := Table.put t.h l new, cur := l }

/-! ### Tokens of a task -/

def Dev.token? (d : Dev) (k : Nat) : Option Token := Table.get? d.compute.tokens k
def State.onToken (k : Nat) (f : Token → Token) (s : State) : State :=
  s.onCompute fun x => { x with tokens := match Table.get? x.tokens k with
    | some t => Table.put x.tokens k (f t)
    | none => x.tokens }

/-- The token in a slot of a deep task, with its generation. -/
def Dev.slotToken (d : Dev) (x : Ctx) (i : Nat) : Option (Nat × Token × Generation) :=
  if x.task.owner ≠ 2 then none
  else match x.task.items[i]? with
    | some k => match d.token? k with
      | some t => (d.gen? true t.dm t.gen).map fun g => (k, t, g)
      | none => none
    | none => none

/-! ### Vectors in transfers (R284, R286, R356) -/

/-- Plaintext of a TEAM_DATA frame of one record (R356). -/
def Dev.teamPlain (d : Dev) (op tag : Nat) (q : ExpertReq) (body : Bytes) : Bytes :=
  toLE 2 d.team.id ++ [byte (q.dm + 16 * op), byte q.gen] ++ toLE 4 tag ++ [byte q.layer, 1] ++ zeros 6 ++
    toLE 2 q.expert ++ [byte q.homeMember, 0] ++ toLE 2 q.homeCore ++ toLE 2 q.stateSlot ++ toLE 2 q.tenancy ++ toLE 2 q.token ++ zeros 4 ++ body

/-! ### Expert requests and results (R349, R356, R358) -/

/-- Experts chosen by a router (R345): the `k` greatest scores, the lowest number first among equals. -/
def topExperts (k : Nat) (sc : List Int) : List Nat :=
  let a := argmax sc
  if k ≤ 1 then [a]
  else
    let rest := (List.range sc.length).filter fun i => decide (i ≠ a)
    match rest with
    | [] => [a]
    | _ => [a, rest.getD (argmax (rest.map fun i => sc.getD i 0)) 0]

/-- Is it an outstanding request of a layer to an expert? -/
def PendReq.outstanding (layer expert : Nat) (q : PendReq) : Bool := decide (q.layer = layer ∧ q.expert = expert) && q.result.isNone && !q.missed

/-- An outstanding request of a token is missed (R358). -/
def State.missed (k layer expert : Nat) (s : State) : State :=
  if !(((s.dev.token? k).map (·.reqs)).getD []).any (PendReq.outstanding layer expert) then s
  else ((s.onToken k fun t => { t with reqs := t.reqs.map fun q => if q.outstanding layer expert then { q with missed := true } else q }).deepCount
    10 1).setEvent pgDeep 1

/-- Is a member this device? -/
def Team.here (t : Team) (m : Nat) : Bool := decide (t.members = 0 ∨ m = t.self)

/-- UP of the first expert of a layer that this member holds; those of one layer share G_IN and AFMT (R334, R425), and another member's lies in no
page here. `up` stands where it holds none. -/
def Dev.layerUp (d : Dev) (core : Nat) (g : Generation) (l up : Nat) : LayerD :=
  let mine := (List.range (g.lExperts l)).find? fun e => d.team.here (d.expertE core g l e).member
  layerD (d.deepBytes core g.target g.gen (match mine with | some e => (d.expertE core g l e).up | none => up) 64)

/-- Bytes of a request or result on the links: its record of R356. -/
def recordBytes (n : Nat) : Nat := 16 + (n + 15) / 16 * 16

/-- Send one request of a token to the core that holds the expert (R345, R349, R358). -/
def State.sendRequest (k : Nat) (t : Token) (g : Generation) (l e : Nat) (s : State) : State :=
  let x := s.dev.expertE t.core g l e
  let up := s.dev.layerUp t.core g l x.up
  let gs := (groups up.gIn t.r.length t.r).map fun v => formGroup up.a4 (sext 6 (g.dp 6 1)) v
  let v : Vec := { codes := gs.flatMap (·.1), exps := gs.map (·.2.1), a4 := up.a4 }
  let q : ExpertReq :=
    { dm := t.dm, gen := t.gen, layer := l, expert := e, homeMember := s.dev.team.self, homeCore := t.core, stateSlot := t.stateSlot
      tenancy := t.tenancy, token := t.number % 65536, x := v, sent := s.now }
  let sat := gs.countP (·.2.2)
  let s := if sat = 0 then s else (s.coreBump tArray t.core (0x80 + 8 * 4) sat).coreEvent tArray t.core 2
  let s := s.onToken k fun t => { t with reqs := t.reqs ++ [{ expert := e, layer := l, member := x.member, sent := s.now }] }
  if s.dev.team.here x.member then
    let a := coreDie t.core
    let b := coreDie x.core
    if s.dev.coreActive x.core then
      (s.onCompute fun c => { c with reqFlight := c.reqFlight ++ [{ q with parcel := s.dev.parcelNo a b }] }).sendParcel clsStream s.now
        (recordBytes (packVec v).length) a b
    else s.missed k l e
  else if (s.dev.teamUp x.member).isEmpty then s.missed k l e
  else s.onCore t.core fun c =>
    { c with peer := c.peer ++ [{ member := x.member, homeCore := t.core, plain := s.dev.teamPlain 1 g.imageTag q (packVec v), order := s.now }] }

/-- EMIT_TOKEN (R345, R349): each token's routed experts get its x. -/
def issueEmitToken (core ctx : Nat) (s : State) : Host.Outcome State Fault Refusal :=
  .next (s.issueCommit core ctx 8 (fun b => decide (b = 1)) fun x e s =>
    State.each (x.slots e) (fun i s =>
      match s.dev.slotToken x i with
      | none => s
      | some (k, t, g) =>
        if g.lType t.cur ≠ 3 ∨ t.scores.isEmpty ∨ !t.reqs.isEmpty then s
        else State.each (topExperts (g.lTopk t.cur) t.scores) (fun e s => s.sendRequest k t g t.cur e) s) s)

/-- Key of an expert's queue. -/
def expertKey (dm gen layer expert : Nat) : Nat := ((dm * 256 + gen) * 64 + layer) * 4096 + expert

/-- A request joins its expert's queue (R349); at shedding stage 1 of the expert core's die it is discarded (R457). -/
def State.joinQueue (q : ExpertReq) (s : State) : State :=
  match s.dev.gen? true q.dm q.gen with
  | none => s
  | some g =>
    let core := (s.dev.expertE q.homeCore g q.layer q.expert).core
    if 0 < (s.start.tempo (coreDie core)).stage then s
    else s.onCompute fun x =>
      { x with expertQ := Table.modify [] x.expertQ (expertKey q.dm q.gen q.layer q.expert) fun l => l ++ [{ q with joined := s.now }] }

/-- EXPERT_REQUEST (R349): request `k` in flight arrives at its expert's core, once it has crossed the links (R15, R34). -/
def execExpertRequest (k : Nat) (s : State) : Host.Outcome State Fault Refusal :=
  match s.dev.compute.reqFlight[k]? with
  | none => .next s
  | some q =>
    .next (if !s.dev.reached s.now (.parcel q.parcel) then s else (s.onCompute fun x => { x with reqFlight := x.reqFlight.eraseIdx k }).joinQueue q)

/-- EXPERT_BATCH_CLOSE (R349, R350): the batch is dispatched to the expert's core, on the arrays or on the matrix-vector path. -/
def execExpertBatchClose (dm gen layer expert : Nat) (s : State) : Host.Outcome State Fault Refusal :=
  let key := expertKey dm gen layer expert
  match s.dev.gen? true dm gen, Table.get [] s.dev.compute.expertQ key with
  | some g, q :: rest =>
    let due := 32 ≤ (q :: rest).length ∨ q.joined + g.expertHold ≤ s.now ∨ q.sent + g.remoteLimit ≤ s.now + 1
    if due then
      let batch := (q :: rest).take 32
      let c := batch.length
      let core := (s.dev.expertE q.homeCore g layer expert).core
      let thin := decide (c ≤ g.lThin layer)
      let sched := deepSched dm (Config.deepTable dm (if thin then 2 else 1) (layer * 4096 + expert))
      let s := s.onCompute fun x => { x with expertQ := Table.set [] x.expertQ key ((q :: rest).drop 32) }
      let s := (s.deepCount 8 1).deepCount 9 (b2n thin)
      .next (s.onCore core fun x => { x with tasks := x.tasks ++
        [{ sched, gen, owner := 3, cls := 2, lc := [c], deadline := q.sent + g.remoteLimit, reqs := batch }] })
    else .next s
  | _, _ => .next s

/-- A result reaches its home core (R349, R353, R356): matched to its pending request, or discarded. -/
def State.takeResult (q : ExpertReq) (s : State) : State :=
  match s.dev.compute.tokens.find? fun e => s.dev.team.here q.homeMember && decide (e.2.core = q.homeCore ∧ e.2.dm = q.dm ∧ e.2.gen = q.gen ∧ e.2.stateSlot = q.stateSlot ∧
      e.2.tenancy = q.tenancy ∧ e.2.number % 65536 = q.token) with
  | none => s.deepCount 12 1
  | some (k, _) => s.onToken k fun t => { t with reqs := t.reqs.map (fun p =>
      if p.outstanding q.layer q.expert then { p with result := some q.y, came := s.now } else p) }

/-- EXPERT_RESULT (R349, R356): result `k` in flight returns to its home core, once it has crossed the links. -/
def execExpertResult (k : Nat) (s : State) : Host.Outcome State Fault Refusal :=
  match s.dev.compute.resFlight[k]? with
  | none => .next s
  | some q =>
    .next (if !s.dev.reached s.now (.parcel q.parcel) then s else (s.onCompute fun x => { x with resFlight := x.resFlight.eraseIdx k }).takeResult q)

/-- EMIT_RESULT (R349): the results of an expert batch go back to their home cores, in order. -/
def issueEmitResult (core ctx : Nat) (s : State) : Host.Outcome State Fault Refusal :=
  .next (s.issueCommit core ctx 8 (fun b => decide (b = 2)) fun x e s =>
    if x.task.owner ≠ 3 then s
    else
      let slots := if e.idxEn then x.slots e else (List.range x.task.reqs.length).filter (x.unmasked e)
      State.each slots (fun i s =>
        match x.task.reqs[i]? with
        | none => s
        | some q =>
          let r := { q with y := Table.get [] x.results i }
          let a := coreDie core
          let b := coreDie q.homeCore
          if s.dev.team.here q.homeMember then
            (s.onCompute fun c => { c with resFlight := c.resFlight ++ [{ r with parcel := s.dev.parcelNo a b }] }).sendParcel clsStream s.now
              (recordBytes (4 * r.y.length)) a b
          else
            let tag := match s.dev.gen? true q.dm q.gen with
              | some g => g.imageTag
              | none => 0
            let plain := s.dev.teamPlain 2 tag r (r.y.flatMap fun v => toLE 4 (toTwos 32 v))
            s.onCore core fun c => { c with peer := c.peer ++ [{ member := q.homeMember, homeCore := q.homeCore, plain, order := s.now }] }) s)

/-- EXPERT_MISSED (R358): a result has not returned within REMOTE_LIMIT plies. -/
def execExpertMissed (k expert : Nat) (s : State) : Host.Outcome State Fault Refusal :=
  match s.dev.token? k with
  | none => .next s
  | some t => match s.dev.gen? true t.dm t.gen, t.reqs.find? fun q => decide (q.expert = expert) && q.result.isNone && !q.missed with
    | some g, some q => if q.sent + g.remoteLimit ≤ s.now then .next (s.missed k q.layer expert) else .next s
    | _, _ => .next s

/-! ### Head decisions (R347, R352) and abandonment (R348) -/

/-- Where the entry of a token's flow is, when it still is the token's (R352). -/
def Dev.tokenLoc (d : Dev) (t : Token) : Option Loc :=
  match (d.find t.core t.chan t.hgen (decide ((d.chan t.chan).keyKind = 2)) t.key false false).1 with
  | some l =>
    let e := d.entry l
    if ePromoted e ∧ eState e % 32768 = t.stateSlot ∧ hTenancy (d.slotHdr t.core t.stateSlot) = t.tenancy then some l else none
  | none => none

/-- Write a token's new layer states (R341). -/
def State.writeStates (t : Token) (g : Generation) (s : State) : State :=
  State.each ((List.range g.dLayers).filter fun l => decide (g.lType l = 2)) (fun l s =>
    let bs := (Table.get [] t.h l).flatMap fun v => toLE 4 (toTwos 32 v)
    s.onFlow fun x => { x with stateMem := Mem.writeBytes x.stateMem (slotBase t.core t.stateSlot + g.lStateOff l) bs }) s

/-- The log item of a head decision (R347). -/
def State.tokenLog (t : Token) (v : Verdict) (written released : Bool) (tokens : Nat) (s : State) : State :=
  if !v.report then s
  else match (s.dev.chan t.chan).log with
    | none => s
    | some r =>
      (s.ringPut r { len := 5, kind := 0x13, info := s.now
                     body := toLE 4 (s.dev.chanHandle t.chan) ++ toLE 2 v.cls ++
                       [byte v.queue, byte (v.colour + 4 * b2n written + 8 * b2n released + 16 * t.dm)] ++ toLE 4 tokens ++ [byte t.gen] ++
                       zeros 3 ++ Bytes.slice t.key 0 48 }).1

/-- Remove a token's record. -/
def State.dropToken (k : Nat) (s : State) : State := s.onCompute fun x => { x with tokens := Table.erase x.tokens k }

/-- A token ends without effect (R348): GAPS and the counter advance, and INFLIGHT is clear. A result that came in the same ply is discarded with it
(R353). A token whose head decision stands is not abandoned (R384). -/
def State.abandon (k : Nat) (s : State) : State :=
  match s.dev.token? k with
  | none => s
  | some t =>
    if s.dev.flow.due.any fun o => decide (o = .head k true ∨ o = .head k false) then s
    else
      let h := s.dev.slotHdr t.core t.stateSlot
      let s := if hTenancy h = t.tenancy then
          s.setSlotHdr t.core t.stateSlot (setInflight false (Bytes.patch h 28 (toLE 2 (min 65535 (Bytes.le h 28 2 + 1)))))
        else s
      let s := s.deepCount 12 (t.reqs.countP fun q => q.result.isSome && decide (q.came = s.now))
      ((s.deepCount 7 1).setEvent pgDeep 2).dropToken k

/-- Act on a head decision (R352); `bad` tells of a fault during the write of the states (R341). -/
def State.headDecision (k : Nat) (t : Token) (g : Generation) (a : Nat) (bad : Bool) (s : State) : State :=
  let ans := g.deepAction a
  let v := ans.1
  let keep := ans.2.1
  let write := ans.2.2
  match s.dev.tokenLoc t with
  | none =>
    let s := if write then s.stat (coreDie t.core) 16 else s
    (s.deepCount 12 1).dropToken k
  | some l =>
    let h := s.dev.slotHdr t.core t.stateSlot
    let s := s.setSlotHdr t.core t.stateSlot (Bytes.patch h 32 (toLE 4 a))
    let e := s.dev.entry l
    let differs := !eOverride e || decide (Bytes.le e 48 2 ≠ v.cls ∨ Bytes.at e 50 ≠ v.queue ∨ Bytes.at e 51 % 4 ≠ v.colour)
    let ans := if write && differs then
        let ans := s.writeBack t.core t.chan t.hgen (decide ((s.dev.chan t.chan).keyKind = 2)) t.key v
        let s := ans.1
        let ok := ans.2
        (s.deepCount 11 (b2n ok), ok)
      else (s, false)
    let s := ans.1
    let written := ans.2
    let tokens := (hTokens h + 1) % 2 ^ 32
    let s := if !keep then s.releaseFlow t.core l
      else
        let s := s.writeStates t g
        let h := s.dev.slotHdr t.core t.stateSlot
        let h := Bytes.patch (setInflight false (setFresh bad (Bytes.patch h 8 [byte g.gen]))) 24 (toLE 4 tokens)
        let s := s.setSlotHdr t.core t.stateSlot h
        if bad then s.setEvent pgDeep 5 else s
    ((s.tokenLog t v written (!keep) tokens).deepCount 6 1).dropToken k

/-- A head decision is acted on, as the events of higher precedence have left its flow (R352, R353). A token that finds the CHECK of its slot header
failed is abandoned, and its flow is released (R338). -/
def State.headAct (k : Nat) (bad : Bool) (s : State) : State :=
  match s.dev.token? k with
  | none => s
  | some t => match s.dev.gen? true t.dm t.gen, t.decided with
    | some g, some a =>
      let s := s.useVault t.core 64
      if slotHdrGood (s.dev.slotHdr t.core t.stateSlot) then s.headDecision k t g a bad
      else match s.dev.tokenLoc { t with tenancy := hTenancy (s.dev.slotHdr t.core t.stateSlot) } with
        | some l => (s.abandon k).releaseFlow t.core l
        | none => s.headDecision k t g a bad
    | _, _ => s

/-- A token that was formed in the ply begins, unless its flow is released in it (R343, R344, R346, R353). -/
def State.tokenForms (k : Nat) (stale badState : Bool) (s : State) : State :=
  match s.dev.token? k with
  | none => s
  | some t => match s.dev.gen? true t.dm t.gen with
    | none => s.dropToken k
    | some g =>
      if (s.dev.tokenLoc t).isNone then s.dropToken k
      else
        let s := (if stale then s.deepCount 13 1 else s).deepCount 5 1
        let s := if badState then s.setEvent pgDeep 5 else s
        let s := match (if g.export then Table.get? s.dev.compute.exports g.target else none) with
          | some r =>
            (s.ringPut r { tokenItem (s.dev.chanHandle t.chan) t.core t.stateSlot t.tenancy g.gen t.number t.codes with info := s.now }).1
          | none => s
        s.queueToken k t g

/-- EMIT_STATE (R352): each decided token of the slot is acted on. The write-back has the precedence of a learning insertion, so the decision waits
for the events before it in the ply (R49, R353). -/
def issueEmitState (core ctx : Nat) (bad : Bool) (s : State) : Host.Outcome State Fault Refusal :=
  .next (s.issueCommit core ctx 8 (fun b => decide (b = 3)) fun x e s =>
    State.each (x.slots e) (fun i s =>
      match s.dev.slotToken x i with
      | none => s
      | some (k, t, _) => if t.decided.isSome then s.flowDue (.head k bad) else s) s)

/-- Cancel the contexts of a core whose deep task has no token left (R381). -/
def State.cancelEmpty (core : Nat) (s : State) : State :=
  s.onCore core fun x => { x with
    ctxs := x.ctxs.map fun e => (e.1, if e.2.task.owner = 2 ∧ e.2.state ≠ .free ∧ e.2.task.items.all (fun k => (s.dev.token? k).isNone) then
      { e.2 with cancel := true } else e.2)
    tasks := x.tasks.filter fun k => !(decide (k.owner = 2) && k.items.all fun i => (s.dev.token? i).isNone) }

/-- TOKEN_ABANDONED (R348): TOKEN_LIMIT plies have passed since the token formed, or its flow has been released. -/
def execTokenAbandoned (k : Nat) (s : State) : Host.Outcome State Fault Refusal :=
  match s.dev.token? k with
  | none => .next s
  | some t =>
    let limit := match s.dev.gen? true t.dm t.gen with
      | some g => g.tokenLimit
      | none => 0
    if t.formed + limit ≤ s.now ∨ (s.dev.tokenLoc t).isNone then .next ((s.abandon k).cancelEmpty t.core) else .next s

/-! ### The end of a ply (R49) -/

def FlowOp.isVisit (o : FlowOp) : Bool := match o with
  | .visit _ _ _ => true
  | _ => false

def FlowOp.isForm (o : FlowOp) : Bool := match o with
  | .form _ _ _ => true
  | _ => false

/-- Carry out an event that has waited. -/
def State.flowOp (o : FlowOp) (s : State) : State := match o with
  | .visit direct unit pos => s.scan (if direct then .direct unit pos else .exact unit pos)
  | .agent die => s.learn die
  | .insert core direct i => s.present core direct i
  | .move core => s.moveSecond core
  | .stash core => s.stashIn core
  | .promote core n hg key dm => s.promoteFlow core n hg key dm
  | .head k bad => s.headAct k bad
  | .form k stale bad => s.tokenForms k stale bad

/-- Does a slice have something to go on with by itself: a slot that an entry left in an earlier ply, or an insertion and no move under way? -/
def Slice.busy (now : Nat) (x : Slice) : Bool :=
  x.latch.isNone && (x.running.isSome || !x.waiting.isEmpty || x.left.any fun e => decide (e.2 < now))

/-- The flow-table events of a ply that wait for the others take place: removals by the scanner, then insertions and their moves, promotions and
write-backs (R49, R51, R353). A reset of the ply discards them. Slices then check their stash for slots left in an earlier ply and go on with their
insertions. Last come the tokens that form: a release of the ply comes before them (R353). -/
def State.settleFlow (s : State) : State :=
  let ops := s.dev.flow.due
  let s := if ops.isEmpty then s else s.onFlow fun x => { x with due := [] }
  if s.resetNow then s
  else
    let s := State.each (ops.filter FlowOp.isVisit) State.flowOp s.flushLimit
    let s := State.each (ops.filter fun o => !o.isVisit && !o.isForm) State.flowOp s
    let s := State.each ((s.dev.flow.slices.filter fun e => e.2.busy s.now).map (·.1)) (fun c s => (s.stashIn c).runSlice c 34) s
    State.each (ops.filter FlowOp.isForm) State.flowOp s

/-! ### Team frames (R355 to R358) -/

/-- A received team frame, authenticated (R355): the sender, plaintext, and the state that has noted its SEQ; none where it is dropped. -/
def State.openTeam (port : Nat) (f : Bytes) (h : SelidHead) (s : State) : State × Option (Nat × Bytes) :=
  let t := s.start.team
  let bad (s : State) : State × Option (Nat × Bytes) := (s.deepCount 16 1, none)
  if t.members = 0 ∨ h.session = 0 ∨ t.members < h.session ∨ h.session - 1 = t.self ∨ h.fragIndex ≠ 0 ∨ h.fragLast ≠ 0 ∨ f.length < 64 then bad s
  else match Config.gcmOpen t.key (t.salt ++ toLE 8 h.seq) h.header h.payload with
    | none => bad s
    | some plain =>
      let w := Table.get {} s.dev.team.rx port
      if !w.ok h.seq then bad s
      else
        let s := s.onTeam fun t => { t with rx := Table.put t.rx port (w.note h.seq) }
        if Bytes.le plain 0 2 ≠ t.id then ((s.deepCount 16 1).setEvent pgDeep 3, none) else (s, some (h.session - 1, plain))

/-- Length of a record of a TEAM_DATA frame. -/
def Dev.recordLen (d : Dev) (g : Generation) (op layer : Nat) (b : Bytes) : Nat :=
  if op = 1 then
    let x := d.expertE 0 g layer (Bytes.le b 0 2)
    let up := d.layerUp x.core g layer x.up
    let n := (if up.a4 then (g.dWidth + 1) / 2 else g.dWidth) + (g.dWidth + up.gIn - 1) / up.gIn
    16 + (n + 15) / 16 * 16
  else 16 + 4 * g.dWidth

/-- Deliver one record of a TEAM_DATA frame. -/
def State.teamRecord (port : Nat) (g : Generation) (op layer : Nat) (b : Bytes) (s : State) : State :=
  let q : ExpertReq :=
    { dm := g.target, gen := g.gen, layer, expert := Bytes.le b 0 2, homeMember := Bytes.at b 2 % 16, homeCore := Bytes.le b 4 2
      stateSlot := Bytes.le b 6 2, tenancy := Bytes.le b 8 2, token := Bytes.le b 10 2, sent := s.now }
  if op = 1 then
    let x := s.dev.expertE 0 g layer q.expert
    let up := s.dev.layerUp x.core g layer x.up
    let to_ := coreDie x.core
    (s.onCompute fun c => { c with reqFlight := c.reqFlight ++
      [{ q with x := unpackVec up.a4 up.gIn g.dWidth (b.drop 16), parcel := s.dev.parcelNo (portDieNo port) to_ }] }).sendParcel clsStream s.now
        (s.dev.recordLen g op layer b) (portDieNo port) to_
  else
    let to_ := coreDie q.homeCore
    (s.onCompute fun c => { c with resFlight := c.resFlight ++
      [{ q with y := (List.range g.dWidth).map fun i => sext 32 (Bytes.le b (16 + 4 * i) 4), parcel := s.dev.parcelNo (portDieNo port) to_ }] }).sendParcel
        clsStream s.now (s.dev.recordLen g op layer b) (portDieNo port) to_

/-- The records of a TEAM_DATA frame, one after another. -/
def State.teamRecords (port : Nat) (g : Generation) (op layer n : Nat) (b : Bytes) (s : State) : State :=
  match n with
  | 0 => s
  | k + 1 => (s.teamRecord port g op layer b).teamRecords port g op layer k (b.drop (s.dev.recordLen g op layer b))

/-- A team frame as a peer port takes it: counted, and of the KIND asked for. -/
def State.takePeer (port kind : Nat) (f : Bytes) (s : State) : State × Option SelidHead :=
  if !s.start.takesPeer port f then (s, none)
  else
    let h := selidHead f 14
    if h.kind ≠ kind ∨ !s.subUp port 0 then (s, none)
    else
      let ans := s.rxCheck port 0 f
      let s' := ans.1
      let ok := ans.2
      (s', if ok then some h else none)

/-- TEAM_DATA (R355, R356): its records set out from the port die for expert queues or home cores (R34); the sender's credit is renewed (R357). -/
def execTeamData (port : Nat) (f : Bytes) (s : State) : Host.Outcome State Fault Refusal :=
  let ans := s.takePeer port 8 f; match ans.2 with
  | none => let s := ans.1; .next s
  | some h =>
    let s := ans.1
    let ans := s.openTeam port f h; match ans.2 with
    | none => let s := ans.1; .next s
    | some (m, p) =>
      let s := ans.1
      let op := Bytes.at p 2 / 16
      let s := s.grantTeam port m (units f.length)
      match s.dev.gen? true (Bytes.at p 2 % 16) (Bytes.at p 3) with
      | none => .next ((s.deepCount 16 1).setEvent pgDeep 3)
      | some g =>
        if Bytes.le p 4 4 ≠ g.imageTag then .next ((s.deepCount 16 1).setEvent pgDeep 3)
        else if op ≠ 1 ∧ op ≠ 2 ∨ Bytes.at p 9 = 0 ∨ 32 < Bytes.at p 9 then .next (s.deepCount 16 1)
        else .next ((s.teamRecords port g op (Bytes.at p 8) (Bytes.at p 9) (p.drop 16)).deepCount 15 1)

/-- TEAM_CREDIT (R357): the latest GRANT of the member on the port. -/
def execTeamCredit (port : Nat) (f : Bytes) (s : State) : Host.Outcome State Fault Refusal :=
  let ans := s.takePeer port 9 f; match ans.2 with
  | none => let s := ans.1; .next s
  | some h =>
    let s := ans.1
    let ans := s.openTeam port f h; match ans.2 with
    | none => let s := ans.1; .next s
    | some (m, p) =>
      let s := ans.1
      let g := Bytes.le p 4 4
      .next (s.onTeam fun t =>
        { t with grant := if laterThan 32 g (Table.get 0 t.grant (teamKey port m)) then Table.put t.grant (teamKey port m) g else t.grant })

/-! ### The deep-tier page (R360, R361) -/

def Dev.teamReach (d : Dev) : Nat :=
  if d.team.members = 0 then 0
  else maskOf ((List.range d.team.members).filter fun m => decide (m = d.team.self) || !(d.teamUp m).isEmpty)

def Dev.deepRead (d : Dev) (off : Nat) : Word :=
  BitVec.ofNat 32 (
    if off = 0x40 then d.rg pgDeep 0x40
    else if off = 0x44 then d.team.id * 65536 + d.team.self % 16 * 256 + d.team.members % 32
    else if off = 0x48 then d.teamReach
    else if off = 0x4C then d.compute.promoted.length
    else if 0x50 ≤ off ∧ off < 0x90 then
      match d.currentGen true ((off - 0x50) / 4) with
      | some g => g.gen * 256 + b2n g.export * 2 + 1
      | none => 0
    else if 0x90 ≤ off ∧ off < 0xD0 then
      match Table.get? d.compute.exports ((off - 0x90) / 4) with
      | some r => d.ringHandle r
      | none => 0
    else 0)

/-- Write of DEEP_CFG.EN (R361): 1 is refused if a vault lacks the room for its pool, 0 while a flow is promoted or a deep-model slot holds a
generation. -/
def State.deepWrite (off : Nat) (v : Word) (s : State) : State :=
  if off ≠ 0x40 then s
  else if v.getLsbD 0 then (if s.start.deepEn || !s.start.poolShort then s.setReg (addrOf pgDeep 0x40) 1 else s)
  else if s.start.compute.promoted.isEmpty ∧ (s.start.objects.gens.all fun e => decide (e.2.kind ≠ 2)) then s.setReg (addrOf pgDeep 0x40) 0
  else s

end Sys2Proof.Machine
end

