-- ==== Sys2Proof/Machine/ArrayOps.lean ====
section
/-! DEFINITION. Array work of a task (R314 to R330, R351, R373): ARRAY, MVEC and RESCALE entries, adjournment and its sealed move, array faults,
adaptation steps, and the array page. -/
namespace Sys2Proof.Machine

/-- Counter `e` of a core's array page (R329), with the event bit it goes with. -/
def State.arrayCount (c e n : Nat) (s : State) : State := if n = 0 then s else s.coreBump tArray c (0x80 + 8 * e) n
def State.arrayNote (c e b n : Nat) (s : State) : State := if n = 0 then s else (s.coreBump tArray c (0x80 + 8 * e) n).coreEvent tArray c b

/-! ### Vectors of a task -/

/-- Write `v` into a list from a position, padding with zeros. -/
def writeAt (l : List Int) (i : Nat) (v : List Int) : List Int :=
  l.take i ++ List.replicate (i - l.length) 0 ++ v ++ l.drop (i + v.length)

/-- Does column tile `j` of the layer at `a` begin a layer for a slot? -/
def Ctx.begins (x : Ctx) (i a j : Nat) : Bool := decide (j = 0 ∨ Table.get? x.layers i ≠ some a)

/-- The vector a slot's layer reads: the outputs of the layer before it. -/
def Ctx.inputVec (x : Ctx) (i a j : Nat) : Vec := if x.begins i a j then Table.get {} x.vecs i else Table.get {} x.inputs i

/-- Store the outputs of column tile `j` for a slot. -/
def Ctx.store (i a : Nat) (l : LayerD) (j : Nat) (out : Vec) (x : Ctx) : Ctx :=
  let fresh := x.begins i a j
  let old : Vec := if fresh then {} else Table.get {} x.vecs i
  let v : Vec :=
    { raw := if out.raw.isEmpty then old.raw else writeAt old.raw (l.w * j) out.raw
      codes := if out.codes.isEmpty then old.codes else writeAt old.codes (l.w * j) out.codes
      exps := if out.exps.isEmpty then old.exps else writeAt old.exps (l.w * j / l.gOut) out.exps
      a4 := if out.codes.isEmpty then old.a4 else out.a4 }
  { x with
    inputs := if fresh then Table.put x.inputs i (Table.get {} x.vecs i) else x.inputs
    vecs := Table.put x.vecs i v, layers := Table.put x.layers i a }

/-- Batch slots of a task. -/
def Ctx.batch (x : Ctx) : Nat := if x.task.owner = 3 then x.task.reqs.length else x.task.items.length

/-- The descriptor's reader of bytes on a core. -/
def Dev.reader (d : Dev) (core : Nat) (x : Ctx) : Nat → Byte := d.taskByte core x.task.sched x.task.gen

/-- The layer descriptor an entry names. -/
def Dev.layerAt (d : Dev) (core : Nat) (x : Ctx) (a : Nat) : LayerD := layerD (d.taskBytes core x.task.sched x.task.gen a 64)

/-- UP and DOWN of an expert batch's expert, with its layer. -/
def Dev.batchExpert (d : Dev) (core : Nat) (x : Ctx) (i : Nat) : Option (ExpertReq × Generation × ExpertE) :=
  if x.task.owner ≠ 3 then none
  else match x.task.reqs[i]? with
    | some q => (d.gen? true q.dm q.gen).map fun g => (q, g, d.expertE core g q.layer q.expert)
    | none => none

/-- A slot's input (R306, R307, R345, R349). -/
def Dev.passInput (d : Dev) (core : Nat) (x : Ctx) (i a j : Nat) (l : LayerD) : Input :=
  let other : Input :=
    if l.isrc = 2 then let w := x.work i; l.features w.codes w.shifts
    else if l.isrc = 1 then l.wide (fun _ => l.inBase) (x.inputVec i a j).raw
    else l.coded (x.inputVec i a j)
  match d.slotToken x i with
  | some (_, t, g) =>
    let t := t.join
    match g.layerOf t.cur a with
    | some (m, k) => if g.lType m = 1 then l.features t.codes t.shifts else l.wide (fun _ => l.inBase) (t.wideIn m k)
    | none => other
  | none => match d.batchExpert core x i with
    | some (q, _, e) => if e.up = a then l.coded q.x else other
    | none => other

/-! ### Passes -/

/-- One column tile on the matrix-vector path (R321): the rows of each reduction tile are streamed, and no array holds them. The accumulators, tile
passes in which a column clamps, and invalid bytes. -/
def LayerD.streamed (l : LayerD) (rd : Nat → Byte) (x : Input) (j : Nat) (acc : List Int) : List Int × Nat × Nat :=
  (List.range l.tiles).foldl (fun (a : List Int × Nat × Nat) k =>
    let rows := l.tileAt rd j 0 k
    let r := ((l.channels j).zip a.1).map fun e => l.tilePass rows x k (l.column e.1) e.2
    (r.map (·.1), a.2.1 + b2n (r.any (·.2)), a.2.2 + badBytes rows)) (acc, 0, 0)

/-- The logical core whose vault holds a model address (R398, R421). -/
def Dev.pageCore (d : Dev) (core sched gen a : Nat) : Nat :=
  if bits a 62 61 = 1 then bits a 46 37
  else match d.schedGen sched gen with
    | none => core
    | some g =>
      let page := a % 2 ^ 47 / 2097152
      let die := coreDie core
      match g.pageSec page with
      | some p => if p.place = 2 then p.core else if p.place = 1 then 200 * die + Config.frameCore g.key page die % 200
          else Config.frameCore g.key page 0 % 800
      | none => core

/-- Start values of the channels (R314). -/
def LayerD.starts (l : LayerD) (rd : Nat → Byte) (chs : List Nat) : List Int := chs.map (l.startOf rd)

/-- Key of an output channel's adaptation state. -/
def scaleKey (gen scale ch : Nat) : Nat := (gen * 2 ^ 47 + scale % 2 ^ 47) * 2 ^ 24 + ch

/-- Generation key of a task. -/
def Ctx.genOf (d : Dev) (x : Ctx) : Nat := match d.schedGen x.task.sched x.task.gen with
  | some g => g.key
  | none => 0

/-- The core's working copy of a channel's scale entry (R305): what the image holds until it is made. -/
def CoreState.copyOf (x : CoreState) (key : Nat) (e : ScaleCopy) : ScaleCopy := (Table.get? x.scale key).getD e

/-- Rescale one accumulator of a channel (R293), with the shift in force as the copy holds it. -/
def ScaleCopy.rescale (c : ScaleCopy) (acc : Int) : Int := rescaleY acc c.m c.bits.shift

/-- A rescale is observed in the working copy of an adaptive channel (R296, R318). -/
def ScaleCopy.observe (a4 : Bool) (y : Int) (c : ScaleCopy) : ScaleCopy := if c.adapt then { c with bits := c.bits.observe a4 y } else c

/-- The scale entries of a task's generation as staging has accepted them, whatever becomes of the pages (R305, R430). -/
def Dev.scaleReader (d : Dev) (core : Nat) (x : Ctx) : Nat → Byte := match d.schedGen x.task.sched x.task.gen with
  | some g => g.imageByte
  | none => d.reader core x

/-- Narrow a slot's accumulators (R293, R295, R296, R317) with the shifts in force at the start of the ply (R298): the outputs, and the state that has
made the working copies, observed and counted. `rd` reads the scale entries. -/
def State.narrow (core gen : Nat) (l : LayerD) (a4 : Bool) (relu : Bool) (rd : Nat → Byte) (chs : List Nat) (acc : List Int) (s : State) :
    State × Vec :=
  let rows := (chs.zip acc).map fun e =>
    let key := scaleKey gen l.scale e.1
    let c := scaleEntry rd l.scale e.1 l.adaptLog
    (key, c, ((s.start.core core).copyOf key c).rescale e.2)
  let codes := rows.map fun r => let c := rescaleCode a4 r.2.2; if relu ∧ c < 0 then 0 else c
  let s := s.arrayNote core 6 4 (rows.countP fun r => rescaleSat a4 r.2.2)
  let s := State.each rows (fun r s => s.onCore core fun x =>
    { x with scale := Table.put x.scale r.1 ((x.copyOf r.1 r.2.1).observe a4 r.2.2) }) s
  (s, { codes, exps := groupExps l.gOut l.outExp codes, a4 })

/-- What a whole layer's outputs do beyond the task's vectors: a token's layer (R345), or an expert batch's result (R349). -/
def State.layerEnd (core ctx i a : Nat) (s : State) : State :=
  let x := s.ctx core ctx
  let out := Table.get {} x.vecs i
  match s.dev.slotToken x i with
  | some (k, t, g) =>
    let t := t.join
    match g.layerOf t.cur a with
    | some (m, n) => s.onToken k fun t => t.join.layerDone g m n out.raw
    | none => s
  | none => match s.dev.batchExpert core x i with
    | some (_, _, e) => if e.down = a then s.onCtx core ctx fun x => { x with results := Table.put x.results i out.raw } else s
    | none => s

/-- The outputs of one slot's column tile (R314, R317): rescaled, or raw with OFMT 2. -/
def State.finish (core ctx : Nat) (x : Ctx) (i a j : Nat) (l : LayerD) (acc : List Int) (s : State) : State :=
  let chs := l.channels j
  let rd := s.dev.scaleReader core x
  let relu := match s.dev.batchExpert core x i with
    | some (q, g, e) => decide (e.up = a) && g.lRelu q.layer
    | none => false
  let ans := if l.ofmt = 2 then (s, ({ raw := acc } : Vec)) else s.narrow core (x.genOf s.dev) l (decide (l.ofmt = 1)) relu rd chs acc
  let s := ans.1
  let out := ans.2
  let s := s.onCtx core ctx (Ctx.store i a l j out)
  if l.n ≤ l.w * (j + 1) then s.layerEnd core ctx i a else s

/-- Count what a pass showed (R279, R283, R288, R290): invalid weight bytes, unused codes, clamped groups, and tile passes that clamped. -/
def State.passCounts (core bad unused groupSat clamps : Nat) (s : State) : State :=
  (((s.arrayNote core 2 0 bad).arrayNote core 3 1 unused).arrayNote core 4 2 groupSat).arrayNote core 5 3 clamps

/-- Column tile of an ARRAY entry (R373). -/
def Ctx.tile (x : Ctx) (e : Entry) : Nat := e.operand / 2 ^ 48 + x.index e

/-- Batch slots of an ARRAY entry's pass (R315), and those that it acts on (R375): with IDX_EN, all or none by the bit of the iteration index. -/
def Ctx.passBatch (x : Ctx) (l : LayerD) : Nat := min l.batch x.batch
def Ctx.passSlots (x : Ctx) (e : Entry) (l : LayerD) : List Nat :=
  (List.range (x.passBatch l)).filter fun i => x.unmasked e (if e.idxEn then x.index e else i)

/-- Do no tokens of a deep task wait for results (R345, R358)? -/
def Dev.tokensReady (d : Dev) (x : Ctx) : Bool :=
  (List.range x.task.items.length).all fun i => match d.slotToken x i with
    | some (_, t, _) => !t.waits
    | none => true

/-- A result or a miss of the present ply is seen from the next (R46). -/
def State.tokensReady (s : State) (x : Ctx) : Bool := s.dev.tokensReady x && s.start.tokensReady x

/-- May an ARRAY entry take its unit? Judged at the start of the ply (R328, R502). -/
def State.arrayReady (core : Nat) (s : State) (x : Ctx) (e : Entry) : Bool :=
  let l := s.dev.layerAt core x (x.addr e)
  s.tokensReady x && ((s.start.core core).place l).isSome && ((s.dev.core core).place l).isSome

/-- May an MVEC entry take the matrix-vector path: no other request is under way on it (R321, R368)? -/
def State.mvecReady (core : Nat) (s : State) (x : Ctx) : Bool := s.tokensReady x && (s.dev.core core).running.all fun r => !r.mvec

/-- Tasks join their tokens' answered requests before they go on (R345). -/
def State.joinTokens (x : Ctx) (s : State) : State :=
  State.each (List.range x.task.items.length) (fun i s => match s.dev.slotToken x i with
    | some (k, _, _) => s.onToken k Token.join
    | none => s) s

/-- What an ARRAY entry is charged: its ENERGY once, and the reading back of a sealed move (R377, R455). -/
def arrayCost (x : Ctx) (e : Entry) : Nat := match x.move with
  | some m => m.units
  | none => if x.restarts = 0 then e.energy else 0

/-- First tile of a pass: that of its sealed move, or 0 (R314, R324). -/
def Ctx.firstTile (x : Ctx) : Nat := match x.move with
  | some m => m.nextTile
  | none => 0

/-- Accumulators of a pass as it begins, by batch slot: from its sealed move, or the start values. -/
def Ctx.passAcc (x : Ctx) (l : LayerD) (rd : Nat → Byte) (j : Nat) : List (List Int) :=
  let fresh := l.starts rd (l.channels j)
  (List.range (x.passBatch l)).map fun n => match x.move with
    | some m => m.acc.getD n fresh
    | none => fresh

/-- The tiles of a context's pass from where it stands up to tile `upTo` (R314, R324), on the registers of its region. What it reads is as it stood at
the start of the ply (R48). -/
def State.runPass (core : Nat) (x : Ctx) (e : Entry) (arr region upTo : Nat) (s : State) : Pass :=
  let a := x.addr e
  let l := s.dev.layerAt core x a
  let rd := s.start.reader core x
  l.passTiles rd (x.tile e) arr ((x.passSlots e l).map fun i => (i, s.dev.passInput core x i a (x.tile e) l))
    ((List.range (upTo - x.firstTile)).map (· + x.firstTile)) ((s.dev.core core).passOf region (x.passAcc l rd (x.tile e)))

/-- A pass has run its tiles: its registers stay in its region, and what it showed is counted. -/
def State.passRan (core : Nat) (l : LayerD) (j arr region : Nat) (slots : List Nat) (p : Pass) (s : State) : State :=
  (s.onCore core (CoreState.keep l j arr region slots p)).passCounts core p.badBytes p.unused p.groupSat p.clamps

/-- The pass of a context has ended: a request of the governor for it is over. -/
def CoreState.unseal (ctx : Nat) (x : CoreState) : CoreState := if x.adjourn = some ctx then { x with adjourn := none } else x

/-- Steps that a pass has taken (R329). -/
def State.stepsTaken (core : Nat) (r : ArrayRun) (s : State) : Nat := (s.clock - 16 * r.began) / s.dev.stepOf core

/-- A pass or request is over: it leaves its region or path, and with `scrap` its registers are discarded (R310, R322, R326). -/
def State.leaveRegion (core : Nat) (r : ArrayRun) (scrap : Bool) (s : State) : State :=
  s.onCore core fun y => ((if scrap then y.scrap r else y).dropRun r.ctx).unseal r.ctx

/-- A stopped task's pass is discarded, without a restart (R382). -/
def State.discardRun (core ctx : Nat) (s : State) : State := match (s.dev.core core).runOf ctx with
  | none => s
  | some r => (if r.mvec then s else s.arrayCount core 0 (s.stepsTaken core r)).leaveRegion core r true

/-! ### Array faults (R325 to R328) -/

/-- Mark an array of a core SUSPECT (R311, R327): its page is FAULTED until a self-test has judged it (R62, R502). -/
def State.markSuspect (core arr : Nat) (s : State) : State :=
  let s := s.onCore core fun y => y.onArray arr fun a => { a with suspect := true }
  match s.dev.corePage tArray core with
  | some p => s.setFaulted p true
  | none => s

/-- What a pass had shown when a fault of `kind` struck it: the tiles that were done, of which there is one at least where the fault is found at the
end of a tile pass (R279, R283, R288, R325). A pass that is being sealed has counted them. -/
def State.struckTiles (core kind : Nat) (r : ArrayRun) (x : Ctx) (e : Entry) (s : State) : State :=
  let l := s.dev.layerAt core x (x.addr e)
  let slots := x.passSlots e l
  let k := max (b2n (decide (kind = 1 ∨ kind = 4))) (l.tilesIn slots.length x.firstTile (s.stepsTaken core r - r.lead))
  if r.sealing.isSome then s
  else s.passRan core l (x.tile e) r.arr r.region slots (s.runPass core x e r.arr r.region (min l.tiles (x.firstTile + k)))

/-- A fault aborts a pass (R326, R327): it is discarded, and restarts when its task is next granted the array, or ends its task at the limit. -/
def State.abortRun (core kind arr limit : Nat) (r : ArrayRun) (s : State) : State :=
  let x := s.ctx core r.ctx
  let n := s.stepsTaken core r
  let s := match s.dev.entryOf x with
    | some e => s.struckTiles core kind r x e
    | none => s
  let s := ((s.arrayCount core 0 n).leaveRegion core r true).onCtx core r.ctx fun x => { x with move := none, restarts := x.restarts + 1 }
  if limit ≤ x.restarts then
    ((s.onCtx core r.ctx fun x => { x with fault := if x.fault.isNone then some 1 else x.fault }).coreEvent tArray core 6).markSuspect core arr
  else s.arrayCount core 10 1

/-- A fault of `kind` is attributed to array `arr` and `region`, and to the pass of context `ctx` (R325, R330): status, events and counters, and every
pass that it aborts: with kind 3 in simul mode each pass of the array (R326). -/
def State.passFails (core ctx kind arr region : Nat) (s : State) : State :=
  let pg := s.dev.corePage tArray core
  let whole := decide (kind = 3 ∨ kind = 4)
  let w := BitVec.ofNat 32 (kind * 2 ^ 28 + arr * 2 ^ 27 + region % 4 * 2 ^ 25 + b2n whole * 2 ^ 24 + ctx % 16)
  let limit := match pg with
    | some p => s.start.rg p 0x4C % 16
    | none => 3
  let s := match pg with
    | some p =>
      let old := s.dev.reg (addrOf p 0x48)
      (if s.setThisPly p 5 && !old.getLsbD 27 && decide (arr = 1) then s else s.setReg (addrOf p 0x48) w).setFaulted p true
    | none => s
  let s := s.arrayNote core 9 5 1
  let s := if kind = 4 then ((s.arrayNote core 14 8 1).markSuspect core 0).markSuspect core 1 else s
  let s := if kind = 5 then s.arrayNote core 13 7 1 else s
  State.each ((s.dev.core core).arrayRuns.filter fun r => decide (r.ctx = ctx ∨ (kind = 3 ∧ r.onArray arr))) (State.abortRun core kind arr limit) s

/-- May a fault of `kind`, attributed to array `arr` and `region`, be one of this pass (R311, R325)? -/
def ArrayRun.strikes (r : ArrayRun) (twin resumed : Bool) (kind arr region : Nat) : Bool :=
  !r.mvec && decide (1 ≤ kind ∧ kind ≤ 5 ∧ arr ≤ 1) && r.holds arr region && decide (r.mode = 2 ∨ region = 0) && (decide (kind ≠ 4) || twin) &&
    (decide (kind ≠ 5) || resumed)

/-- ARRAY_FAULT (R325 to R327): a fault of `kind` strikes the array pass of a context, attributed to array `arr` and `region`. -/
def execArrayFault (core ctx kind arr region : Nat) (s : State) : Host.Outcome State Fault Refusal :=
  let x := s.ctx core ctx
  match (s.dev.core core).runOf ctx, s.dev.entryOf x with
  | some r, some e =>
    let l := s.dev.layerAt core x (x.addr e)
    .next (if r.strikes (decide (l.mode = 1) && l.twinCheck) x.move.isSome kind arr region then s.passFails core ctx kind arr region else s)
  | _, _ => .next s

/-! ### Passes under way (R314 to R319, R321, R324) -/

/-- An array pass, or the rest of a sealed one, takes its region (R308 to R310, R324); the fault that an earlier attempt left is over (R62; log entry
166). A sealed move whose CHECK fails is found as it is read back. -/
def State.startPass (core ctx : Nat) (x : Ctx) (e : Entry) (s : State) : State :=
  let l := s.dev.layerAt core x (x.addr e)
  let slots := x.passSlots e l
  let y := s.dev.core core
  match y.place l with
  | none => s
  | some (arr, region) =>
    let back := match x.move with
      | some m => m.steps
      | none => 0
    let lead := b2n (!y.shaped l arr) + back
    let r : ArrayRun :=
      { ctx, arr, region, mode := l.mode, regions := l.regions, began := s.now, lead
        ready := s.clock + (lead + l.tilesSteps slots.length x.firstTile) * s.dev.stepOf core }
    let s := ((s.joinTokens x).onCore core fun y => { y.enter l arr with running := y.running ++ [r] }).arrayCount core 12 (b2n x.move.isSome)
    let s := match s.dev.corePage tArray core with
      | some p => if x.restarts ≠ 0 ∧ !y.array0.suspect ∧ !y.array1.suspect then s.setFaulted p false else s
      | none => s
    match x.move with
    | some m => if m.check = m.sum then s else s.passFails core ctx 5 arr region
    | none => s

/-- ARRAY (R314, R324, R375): the pass begins; one whose every slot is masked completes at once, without work. -/
def issueArray (core ctx : Nat) (s : State) : Host.Outcome State Fault Refusal :=
  .next (s.issueRun arrayCost core ctx 1 (s.arrayReady core) fun x e s =>
    if (x.passSlots e (s.dev.layerAt core x (x.addr e))).isEmpty then (s.pass core ctx x).passAhead core ctx else s.startPass core ctx x e)

/-- MVEC (R321, R351): a MODE 3 descriptor on the slot's vector. The rows come from their vault, after what it owes already (R21, R22). -/
def issueMvec (core ctx : Nat) (s : State) : Host.Outcome State Fault Refusal :=
  .next (s.issueRun (fun _ e => e.energy) core ctx 7 (fun x _ => s.mvecReady core x) fun x e s =>
    if (x.slots e).isEmpty then (s.pass core ctx x).passAhead core ctx
    else
      let l := s.dev.layerAt core x (x.addr e)
      let vault := s.dev.pageCore core x.task.sched x.task.gen l.weights
      let owed := if bit l.weights 63 then 0 else 16 * Table.get 0 s.dev.compute.vaults vault / vaultPly
      let s := if bit l.weights 63 then s else s.useVault vault (104 * l.d * l.k * ((l.n + l.w - 1) / l.w))
      let r : ArrayRun := { ctx, mvec := true, mode := 3, began := s.now, vault := if bit l.weights 63 then 800 else vault, ready := s.clock + owed + l.mvecSteps * s.dev.stepOf core }
      (s.joinTokens x).onCore core fun y => { y with running := y.running ++ [r] })

/-- The entry of a pass or request has completed: the task goes on to the next one. -/
def State.runDone (core : Nat) (r : ArrayRun) (s : State) : State :=
  (((s.leaveRegion core r false).onCtx core r.ctx fun x => { x with move := none }).goTo core r.ctx ((s.ctx core r.ctx).idx + 1)).passAhead core r.ctx

/-- An array pass ends (R314): its tiles, then its outputs in ascending order of slots. -/
def State.passEnds (core : Nat) (r : ArrayRun) (x : Ctx) (e : Entry) (s : State) : State :=
  let l := s.dev.layerAt core x (x.addr e)
  let slots := x.passSlots e l
  let p := s.runPass core x e r.arr r.region l.tiles
  let steps := r.lead + l.steps (x.tile e) slots.length x.firstTile
  let s := s.passRan core l (x.tile e) r.arr r.region slots p
  let s := State.each slots (fun i s => s.finish core r.ctx x i (x.addr e) (x.tile e) l (p.acc.getD i [])) s
  (s.arrayCount core 0 steps).arrayCount core 1 1

/-- A request of the matrix-vector path ends (R321, R351): every column tile of its slot. -/
def State.mvecEnds (core : Nat) (r : ArrayRun) (x : Ctx) (e : Entry) (s : State) : State :=
  let a := x.addr e
  let l := s.dev.layerAt core x a
  let rd := s.start.reader core x
  State.each (x.slots e) (fun i s =>
    let inp := s.dev.passInput core x i a 0 l
    let s := s.passCounts core 0 inp.unused.length inp.clamped.length 0
    State.each (List.range ((l.n + l.w - 1) / l.w)) (fun j s =>
      let ans := l.streamed rd inp j (l.starts rd (l.channels j))
      (s.passCounts core ans.2.2 0 0 ans.2.1).finish core r.ctx x i a j l ans.1) s) s

/-- The last word of a sealed move is written (R322, R323): its region is free, and its task is adjourned and leaves the committed sum (R451, R455).
-/
def State.sealed (core : Nat) (r : ArrayRun) (m : SealedMove) (s : State) : State :=
  let m := { m with sealPly := s.now }
  ((s.arrayCount core 0 (s.stepsTaken core r)).leaveRegion core r true).onCtx core r.ctx (fun x =>
    { x with state := .adjourned, move := some { m with check := m.sum }, rate := 0 }) |>.arrayCount core 11 1

/-- A pass or request whose time is over ends. -/
def State.runEnds (core : Nat) (r : ArrayRun) (s : State) : State :=
  match r.sealing with
  | some m => s.sealed core r m
  | none =>
    let x := s.ctx core r.ctx
    match s.dev.entryOf x with
    | none => s.leaveRegion core r true
    | some e => (if r.mvec then s.mvecEnds core r x e else s.passEnds core r x e).runDone core r

/-- Passes and requests in the order in which the rescale unit serves those of one ply (R319): array 0's regions, array 1's, the matrix-vector path.
-/
def CoreState.inOrder (x : CoreState) : List ArrayRun :=
  (List.range 9).flatMap fun k => x.running.filter fun r => decide ((if r.mvec then 8 else 4 * r.arr + r.region) = k)

/-- The rescale unit takes one that has reached it, for all of its slots (R316, R319). -/
def State.rescales (core : Nat) (r : ArrayRun) (s : State) : State :=
  let x := s.ctx core r.ctx
  match s.dev.entryOf x with
  | none => s
  | some e =>
    let l := s.dev.layerAt core x (x.addr e)
    let n := if r.mvec then (x.slots e).length * ((l.n + 63) / 64) else l.rescaleSteps (x.tile e) (x.passSlots e l).length
    let ends := max r.ready (s.dev.core core).rescaleFree + n * s.dev.stepOf core
    s.onCore core fun y => { y.onRun r.ctx fun r => { r with ends := some ends } with rescaleFree := ends }

/-- The passes and requests of every core go on with the ply: the rescale unit serves those that have reached it, and those whose time is over end. -/
def State.settleArrays (s : State) : State :=
  State.each ((s.dev.compute.cores.filter fun e => !e.2.running.isEmpty).map (·.1)) (fun c s =>
    let s := State.each ((s.dev.core c).inOrder.filter fun r => r.ends.isNone && decide (r.ready ≤ s.clock)) (State.rescales c) s
    State.each ((s.dev.core c).inOrder.filter fun r => match r.ends with
      | some t => decide (t ≤ s.clock)
      | none => false) (State.runEnds c) s) s

/-- Group size and exponent of a RESCALE entry's codes, which its operand does not give: a group of 32, 64 or 128, and an exponent from −31 to +31
(R285, R293; log entry 28). -/
def rescaleGroup (operand : Nat) : Nat := 32 * 2 ^ (Config.rescaleGroup operand % 3)
def rescaleExp (operand : Nat) : Int := ((Config.rescaleExp operand % 63 : Nat) : Int) - 31

/-- The next ARRAY or MVEC entry that the task comes to, with its layer descriptor (R295); `fuel` bounds the entries passed. -/
def Dev.nextLayer (d : Dev) (core fuel : Nat) (x : Ctx) : Option LayerD := match fuel with
  | 0 => none
  | k + 1 => match d.entryOf x with
    | none => none
    | some e =>
      if e.op = 1 ∨ e.op = 7 then some (d.layerAt core x (x.addr e)) else if e.op = 0 then none else d.nextLayer core k (x.after e)

/-- The form of a RESCALE entry's codes (R295): in groups of the G_IN of the layer that reads them next. -/
def Dev.rescaleForm (d : Dev) (core : Nat) (x : Ctx) (e : Entry) (n : Nat) : LayerD :=
  { n, scale := x.addr e, outExp := rescaleExp e.operand
    gOut := match d.nextLayer core (d.wayLength x) (x.after e) with
      | some l => l.gIn
      | none => rescaleGroup e.operand }

/-- Batch slots a RESCALE entry acts on (R375). -/
def Ctx.rescaleSlots (x : Ctx) (e : Entry) : List Nat := if e.idxEn then x.slots e else (List.range x.batch).filter (x.unmasked e)

/-- Is the rescale unit free (R319, R368)? -/
def State.unitFree (core : Nat) (s : State) : Bool := decide ((s.dev.core core).rescaleFree ≤ s.clock + 15)

/-- The rescale unit is taken for `n` channels, 64 in each step (R317). -/
def State.takeUnit (core n : Nat) (s : State) : State :=
  let t := s.clock + (n + 63) / 64 * s.dev.stepOf core
  s.onCore core fun y => { y with rescaleFree := max y.rescaleFree t }

/-- RESCALE (R293, R345, R373): the decay step of a token's state, or the narrowing of the task's wide values through a scale table. -/
def issueRescale (core ctx : Nat) (s : State) : Host.Outcome State Fault Refusal :=
  .next (s.issue core ctx 6 (fun b => decide (b = 0)) (fun x _ => s.tokensReady x && s.unitFree core) fun x e s =>
    let a := x.addr e
    let s := s.joinTokens x
    let rd := s.start.reader core x
    State.each (x.rescaleSlots e) (fun i s =>
      let narrow (s : State) : State :=
        let v := Table.get {} (s.ctx core ctx).vecs i
        let ans := (s.takeUnit core v.raw.length).narrow core (x.genOf s.dev) (s.dev.rescaleForm core x e v.raw.length) (Config.rescaleA4 e.operand)
          false (s.dev.scaleReader core x) (List.range v.raw.length) v.raw
        let s := ans.1
        let out := ans.2
        s.onCtx core ctx fun x => { x with vecs := Table.put x.vecs i { out with raw := v.raw } }
      match s.dev.slotToken x i with
      | some (k, t, g) => match g.layerOf t.cur a with
        | some (m, 2) => (s.takeUnit core (g.lH m)).onToken k (Token.decay (fun n => Bytes.le [rd (a + 2 * n), rd (a + 2 * n + 1)] 0 2) m)
        | _ => narrow s
      | none => narrow s) s)

/-! ### Adjournment (R322, R323, R453 to R455) -/

/-- DEADLINE of the task of a pass. -/
def State.deadlineOf (core : Nat) (s : State) (r : ArrayRun) : Nat := (s.ctx core r.ctx).task.deadline

/-- The array pass of a core whose task has the latest DEADLINE (R453, R454); among equals the first. -/
def State.latestRun (core : Nat) (s : State) : Option ArrayRun :=
  (s.dev.core core).arrayRuns.foldl (fun b r => match b with
    | some q => if s.deadlineOf core q < s.deadlineOf core r then some r else b
    | none => some r) none

/-- Can a pass still be adjourned: it is not being sealed, and not in its rescale stage (R322)? -/
def State.canSeal (r : ArrayRun) (s : State) : Bool := r.sealing.isNone && r.ends.isNone && decide (s.clock < r.ready)

/-- Is an ARRAY entry of a context issuable except for a region (R368, R453)? -/
def State.lacksRegion (core ctx : Nat) (s : State) : Bool :=
  let x := s.ctx core ctx
  s.canIssue core x && ((s.dev.core core).runOf ctx).isNone && (match s.dev.entryOf x with
    | some e => decide (e.op = 1) && s.tokensReady x && ((s.dev.core core).place (s.dev.layerAt core x (x.addr e))).isNone &&
        (s.grant core x.task.cls (arrayCost x e)).isSome
    | none => false)

/-- Does the chess clock ask a context's pass to adjourn (R453): its task has the latest DEADLINE, a task whose ARRAY entry lacks a region has an
earlier one than every pass, 512 plies of its DUR are left, and no other request of the core is outstanding? -/
def State.clockAsks (core ctx : Nat) (s : State) : Bool :=
  let y := s.dev.core core
  match s.latestRun core, s.dev.entryOf (s.ctx core ctx) with
  | some r, some e => decide (r.ctx = ctx ∧ s.now + 512 ≤ r.began + e.dur) && y.adjourn.isNone && (y.running.all fun q => q.sealing.isNone) &&
      y.ctxs.any fun w => s.lacksRegion core w.1 && y.arrayRuns.all fun q => decide (w.2.task.deadline < s.deadlineOf core q)
  | _, _ => false

/-- Charge a task energy that no entry's issue carries (R455): its pool gives what it has. -/
def State.charge (core ctx n : Nat) (s : State) : State :=
  ((s.grant core (s.ctx core ctx).task.cls n).getD s).onCtx core ctx fun x => { x with energy := x.energy + n }

/-- ADJOURNMENT (R322, R453, R454): at the request of the chess clock or of the governor, an array pass stops after reduction tile `tiles` − 1, the
one in progress or the last that is done, and its sealed move is written. -/
def execAdjournment (core ctx tiles : Nat) (s : State) : Host.Outcome State Fault Refusal :=
  let x := s.ctx core ctx
  match (s.dev.core core).runOf ctx, s.dev.entryOf x with
  | some r, some e =>
    let a := x.addr e
    let l := s.dev.layerAt core x a
    let j := x.tile e
    let slots := x.passSlots e l
    let asked := (s.dev.core core).adjourn
    let done := x.firstTile + l.tilesIn slots.length x.firstTile (s.stepsTaken core r - r.lead)
    if r.mvec || !s.canSeal r || x.cancel || x.fault.isSome || l.tiles ≤ tiles || tiles < done || done + 1 < tiles ||
        !(asked = some ctx || s.clockAsks core ctx) then .next s
    else
      let p := s.runPass core x e r.arr r.region tiles
      let m : SealedMove :=
        { mode := l.mode, regions := l.regions, array := r.arr, region := r.region, slots := x.passBatch l, nextTile := tiles, colTile := j
          cols := (l.channels j).length, thread := ctx, layer := a, acc := p.acc }
      let ends := s.clock + (l.d + 2 + m.steps) * s.dev.stepOf core
      let s := (s.passRan core l j r.arr r.region slots p).charge core ctx m.units
      let s := s.onCore core fun y => (y.onRun ctx fun r => { r with sealing := some m, ends := some ends }).unseal ctx
      .next (s.tempoCount (coreDie core) 5 (b2n (decide (asked ≠ some ctx))))
  | _, _ => .next s

/-! ### Adaptation steps (R296 to R298, R320) -/

/-- A channel's step ends (R297): its shift for the next one, with the bits cleared. -/
def State.stepEnd (core key : Nat) (s : State) : State :=
  match Table.get? (s.core core).scale key with
  | none => s
  | some c =>
    let d := scaleStep c.bits c.lo c.hi
    let s := (s.arrayCount core 7 (b2n (decide (d = 1)))).arrayCount core 8 (b2n (decide (d = -1)))
    s.onCore core fun x => { x with scale := Table.put x.scale key { c with bits := c.bits.renew d } }

/-- The working copies of a core whose step ends with ply `p`: by their layers' ADAPT_LOG2 (R320), or as a command has said. -/
def CoreState.stepsEnding (x : CoreState) (p : Nat) (told : List (Nat × Nat)) : List Nat :=
  (x.scale.filter fun e => e.2.adapt && (lastOfWindow e.2.log p || told.any fun r => decide (r.1 ≤ e.1 ∧ e.1 < r.1 + r.2))).map (·.1)

/-- At the end of a ply the steps that end with it are judged, with every observation of the ply (R298). -/
def State.settleSteps (s : State) : State :=
  let told := s.dev.compute.steps
  let l := s.dev.compute.cores.flatMap fun e =>
    (e.2.stepsEnding s.now ((told.filter fun t => decide (t.1 = e.1)).map (·.2))).map fun k => (e.1, k)
  let s := if told.isEmpty then s else s.onCompute fun x => { x with steps := [] }
  State.each l (fun e s => s.stepEnd e.1 e.2) s

/-- RESCALE_STEP_END (R297, R320): the present ply is the last of an adaptation step of the layer whose descriptor lies at `a`; the core judges its
channels at the end of the ply (R298). -/
def execRescaleStepEnd (core : Nat) (deep : Bool) (target gen a : Nat) (s : State) : Host.Outcome State Fault Refusal :=
  match s.dev.gen? deep target gen with
  | none => .next s
  | some g =>
    let rd (k : Nat) : Byte := s.dev.taskByte core ((if deep then 2 else 1) * 2 ^ 28 + target * 65536) gen k
    let l := layerD ((List.range 64).map fun i => rd (a + i))
    .next (if !lastOfWindow l.adaptLog s.now then s
      else s.onCompute fun x => { x with steps := x.steps ++ [(core, scaleKey g.key l.scale 0, l.n)] })

/-! ### The array page (R329, R330) -/

def Dev.arrayRead (d : Dev) (core off : Nat) : Word :=
  let x := d.core core
  BitVec.ofNat 32 (
    if off = 0x40 then maskOf (x.busy.map (·.1)) * 65536 + x.array1.regions % 4 * 16 + x.array0.regions % 4 * 4 + x.mode % 4
    else if off = 0x44 then (x.busy.map fun e => e.2 % 16 * 16 ^ e.1).sum
    else match d.corePage tArray core with
      | some p => if off = 0x48 ∨ off = 0x4C then d.rg p off else 0
      | none => 0)

def Dev.arrayStatus (d : Dev) (core : Nat) : Nat := b2n (d.core core).array0.suspect + 2 * b2n (d.core core).array1.suspect

/-- Write of RETRY_CFG (R330). -/
def State.arrayWrite (page off : Nat) (v : Word) (s : State) : State := if off = 0x4C then s.setReg (addrOf page off) (v &&& 15) else s

end Sys2Proof.Machine
end

