-- ==== Sys2Proof/Machine/Streams.lean ====
section
/-! DEFINITION. Streams and vaults (R394 to R419): stream descriptors and commands, pieces and tags, page faults, peer sends, and the stream and
page-map pages. -/
namespace Sys2Proof.Machine

/-! ### Shapes and pieces (R404, R405) -/

def CoreState.stream (x : CoreState) (n : Nat) : Stream := Table.get {} x.streams n
def State.onStream (c n : Nat) (f : Stream → Stream) (s : State) : State :=
  s.onCore c fun x => { x with streams := Table.modify {} x.streams n f }
def State.streamCount (c e n : Nat) (s : State) : State := if n = 0 then s else s.coreBump tStream c (0x80 + 8 * e) n

/-- Bytes of a shape. -/
def Stream.total (t : Stream) : Nat := t.len0 * (t.counts.getD 0 1) * (t.counts.getD 1 1) * (t.counts.getD 2 1)

/-- Memory address of byte `k` of the shape's sequence, modulo 2^64 (R404). -/
def Stream.addrAt (t : Stream) (k : Nat) : Nat :=
  let r := k / max 1 t.len0
  let c1 := max 1 (t.counts.getD 0 1)
  let c2 := max 1 (t.counts.getD 1 1)
  let a : Int := (t.base : Int) + ((k % max 1 t.len0 : Nat) : Int) + ((r % c1 : Nat) : Int) * t.strides.getD 0 0 +
    ((r / c1 % c2 : Nat) : Int) * t.strides.getD 1 0 + ((r / (c1 * c2) : Nat) : Int) * t.strides.getD 2 0
  toTwos 64 a

/-- Length of the piece at byte `k`: to the end of the run, and to a 256-byte boundary of the address (R405). -/
def Stream.pieceLen (t : Stream) (k : Nat) : Nat := min (t.len0 - k % max 1 t.len0) (256 - t.addrAt k % 256)

/-- The ring slot that holds slot number `k`, and the slot numbers a piece covers. -/
def Stream.slotAt (t : Stream) (k : Nat) : Slot := t.slots.getD (k % max 1 t.slots.length) {}
def Stream.onSlot (k : Nat) (f : Slot → Slot) (t : Stream) : Stream := { t with slots := t.slots.modify (k % max 1 t.slots.length) f }
def Stream.covers (t : Stream) (off len : Nat) : List Nat :=
  let a := off / t.slotBytes
  (List.range ((off + len - 1) / t.slotBytes - a + 1)).map (· + a)

/-- Bytes of slot number `k` within a shape, and within a piece. -/
def Stream.extent (t : Stream) (k : Nat) : Nat := min t.slotBytes (t.total - k * t.slotBytes)
def Stream.share (t : Stream) (off len k : Nat) : Nat := min (off + len) ((k + 1) * t.slotBytes) - max off (k * t.slotBytes)

/-- Scratch address of byte `k` of the sequence. -/
def Stream.scratchAt (t : Stream) (k : Nat) : Nat :=
  (t.ring + (k / t.slotBytes % max 1 t.slots.length) * t.slotBytes + k % t.slotBytes) % 2097152

/-- Has a stream a piece ready (R407, R408)? -/
def Stream.ready (t : Stream) : Bool :=
  let len := t.pieceLen t.issued
  t.armed && !t.stopped && decide (t.issued < t.total) &&
    (if t.ty = 0 then (t.covers t.issued len).all fun k => let s := t.slotAt k; decide (s.state = .empty ∨ s.state = .busy ∧ s.seq = k)
     else decide (t.ty = 1 ∧ t.issued + len ≤ min t.total (t.handed * t.slotBytes)))

/-- The run-dry ply (R407). -/
def Stream.runDry (t : Stream) : Nat :=
  t.lastUse + (if t.ty = 0 then (t.slots.countP fun s => decide (s.state = .full)) else t.slots.countP fun s => decide (s.state = .empty)) * t.period

/-! ### Pages (R399, R413) -/

/-- The retired generation that a schedule identifier and a generation number name. -/
def Dev.schedGone (d : Dev) (sched gen : Nat) : Option Generation :=
  if sched / 2 ^ 28 = 1 ∨ sched / 2 ^ 28 = 2 then
    Table.get? d.objects.gone (genKey (decide (sched / 2 ^ 28 = 2)) (sched / 65536 % 4096) gen)
  else none

/-- A byte of a frame that holds a page of a generation, whatever state the page is in (R413). -/
def Generation.frameByte (g : Generation) (die a : Nat) : Byte := match g.pageSec (a / 2097152) with
  | some p =>
    let i := if a - p.addr < p.length then Mem.read g.image (p.offset + (a - p.addr)) else 0
    i ^^^ Mem.read g.work ((if p.place = 1 then die * 2 ^ 48 else 0) + a)
  | none => Config.unmapped a

/-- A byte that a piece moves, from the frame that it was issued to (R413). -/
def Dev.pieceByte (d : Dev) (core sched gen a : Nat) : Byte :=
  if bits a 62 61 = 1 then d.devByte a
  else match (d.schedGen sched gen).or (d.schedGone sched gen) with
    | some g => g.frameByte (coreDie core) (a % 2 ^ 47)
    | none => Config.unmapped a

/-- How a piece finds its page: 1 present, or the state code of FAULT_LAST (R417). -/
def Dev.pageCheck (d : Dev) (sched gen a : Nat) (write : Bool) : Nat :=
  if bits a 60 47 ≠ 0 ∨ 1 < bits a 62 61 then pgUnmapped
  else if bits a 62 61 = 1 then (if !d.devMapped a then pgUnmapped else if write ∧ bits a 36 33 ≠ 2 then 6 else pgPresent)
  else match d.schedGen sched gen with
    | none => match d.schedGone sched gen with
      | some g => if (g.pageSec (a % 2 ^ 47 / 2097152)).isSome then pgRetired else pgUnmapped
      | none => pgUnmapped
    | some g =>
      let page := a % 2 ^ 47 / 2097152
      let st := d.pageState g page
      let ro : Bool := match g.pageSec page with
        | some p => !p.writable
        | none => true
      if st = pgPresent ∧ write ∧ ro then 6 else st

/-- Write one byte at a SPACE 0 address of a generation, as the difference from its image (R399), or in a state pool (R398). -/
def State.writeModel (core sched gen a : Nat) (v : Byte) (s : State) : State :=
  if bits a 62 61 = 1 then
    s.onFlow fun x => { x with stateMem := Mem.write x.stateMem (bits a 46 37 * 32768 * 8192 + a % 2 ^ 33) v }
  else match (s.dev.schedGen sched gen).or (s.dev.schedGone sched gen) with
    | none => s
    | some g =>
      let p := a % 2 ^ 47
      match g.pageSec (p / 2097152) with
      | none => s
      | some q =>
        let i := if p - q.addr < q.length then Mem.read g.image (q.offset + (p - q.addr)) else 0
        let at_ := (if q.place = 1 then coreDie core * 2 ^ 48 else 0) + p
        let put (l : Table Generation) : Table Generation := match Table.get? l g.key with
          | some h => Table.put l g.key { h with work := Mem.write h.work at_ (i ^^^ v) }
          | none => l
        if (s.dev.schedGen sched gen).isSome then s.onObjects fun o => { o with gens := put o.gens } else s.onObjects fun o => { o with gone := put o.gone }

/-- Fault codes of a piece: state, SPACE, page. -/
def faultOf (st a : Nat) : Nat × Nat × Nat := (st, bits a 62 61, bits a 46 21)

/-! ### Issue and completion of pieces -/

/-- Mark the slots of a piece as begun. -/
def Stream.begin (off len : Nat) (t : Stream) : Stream :=
  (t.covers off len).foldl (fun t k => t.onSlot k fun s =>
    if s.state = .empty then { state := .busy, seq := k } else s) t

/-- Bytes of a piece are in their slots, or acknowledged: a slot that has all of its bytes is full, or empty again. -/
def Stream.finish (off len : Nat) (t : Stream) : Stream :=
  (t.covers off len).foldl (fun t k =>
    let ext := t.extent k
    let n := t.share off len k
    t.onSlot k fun s =>
      let d := s.doneBytes + n
      if d < ext then { s with doneBytes := d } else if t.ty = 0 then { s with state := .full, doneBytes := d } else {}) t

/-- Re-armed and every slot empty, of a read shape that has been fetched whole: the next shape begins at slot 0 (R408). -/
def Stream.settle (t : Stream) : Stream := match t.next with
  | [] => t
  | q :: r =>
    if (t.ty = 0 ∧ t.issued < t.total) ∨ t.slots.any (fun s => decide (s.state ≠ .empty)) then t
    else { t with base := q.base, len0 := q.len0, counts := q.counts, strides := q.strides, next := r
                  issued := 0, handed := 0, oldest := 0, claimNext := 0 }

/-- May the next `n` slots to claim be claimed of the present shape: of one that another follows, only as many as it has (R408)? -/
def Stream.within (t : Stream) (n : Nat) : Bool := t.next.isEmpty || decide ((t.claimNext + n) * t.slotBytes < t.total + t.slotBytes)

/-- A fault marks the slot of a piece, and the stream issues no more (R409). -/
def Stream.faulted (off st a : Nat) (t : Stream) : Stream :=
  { (t.onSlot (off / t.slotBytes) fun s => { s with fault := some (faultOf st a) }) with stopped := true }

/-- Move the data of a read piece into its slots; a slot's bytes beyond the sequence become 0 (R404). -/
def State.readData (c n off len : Nat) (bytes : Bytes) (s : State) : State :=
  s.onCore c fun x =>
    let t := x.stream n
    let m := (List.range len).foldl (fun m i => Mem.write m (t.scratchAt (off + i)) (bytes.getD i 0)) x.scratch
    let t := t.finish off len
    let last := off + len
    let pad := if last = t.total then (List.range ((t.slotBytes - last % t.slotBytes) % t.slotBytes)).foldl
      (fun m i => Mem.write m (t.scratchAt (last + i)) 0) m else m
    { x with scratch := pad, streams := Table.set {} x.streams n t }

/-- Perform a write piece: its bytes leave the slots for memory. -/
def State.writeData (c n sched gen off len a : Nat) (s : State) : State :=
  let x := s.dev.core c
  let t := x.stream n
  let s := State.each (List.range len) (fun i s =>
    let v := Mem.read x.scratch (t.scratchAt (off + i))
    if bit a 63 then s.onCore c fun y => { y with scratch := Mem.write y.scratch ((a + i) % 2097152) v }
    else s.writeModel c sched gen (a + i) v) s
  s.onStream c n fun t => (t.finish off len).settle

/-- Frame length of a team frame of `n` plaintext bytes, and the port that a peer slot's frame would take, of the ports up for its member (R357,
R358). -/
def Dev.peerPort (d : Dev) (p : PeerSlot) : Option Nat :=
  let ports := d.teamUp p.member
  ports[p.homeCore % max 1 ports.length]?

/-- May a peer slot be dealt with now: sent with credit, or freed where no port is up (R357, R358)? -/
def Dev.peerGoes (d : Dev) (p : PeerSlot) : Bool := match d.peerPort p with
  | none => true
  | some port =>
    let key := teamKey port p.member
    creditOk (Table.get 0 d.team.sent key) (Table.get 0 d.team.grant key) (units (mirrorLen p.plain.length))

/-- Streams that have a piece ready, by number: a read or write stream as it was at the start of the ply and still is, a peer stream whose oldest
released slot may go. -/
def State.readyStreams (c : Nat) (s : State) : List Nat :=
  let peers := (s.dev.core c).peer
  ((s.dev.core c).streams.filter fun e =>
    e.2.ready && ((s.start.core c).stream e.1).ready ||
      match peers.find? fun p => p.stream.any fun k => decide (k.1 = e.1) with
      | some p => s.dev.peerGoes p
      | none => false).map (·.1)

/-- The stream of the earliest run-dry ply, the lowest number among equals (R407). -/
def CoreState.nextStream (x : CoreState) (l : List Nat) : Option Nat :=
  l.foldl (fun b n => match b with
    | none => some n
    | some k => if (x.stream n).runDry < (x.stream k).runDry then some n else b) none

/-- Tags of a core in use (R406): those of its pieces, and of its team frames until they are sent. -/
def Dev.tags (d : Dev) (core : Nat) : Nat :=
  let mine (w : Waiting) : Bool := decide (w.core = some core)
  (d.core core).pieces.length + d.traffic.waiting.countP mine + d.net.flits.countP fun f => match f.cargo with
    | .send w => mine w
    | _ => false

/-- A stopping context is free once its last piece has returned its tag (R382). -/
def State.freeStopped (core : Nat) (s : State) : State :=
  s.onCore core fun x => { x with ctxs := (x.ctxs.map fun e =>
    if e.2.state = .stopping ∧ x.pieces.all (fun p => decide (p.stream / 4 ≠ e.1)) then (e.1, {}) else e).filter fun e => decide (e.2 ≠ {}) }

/-- The engine has had its step (R407). -/
def State.pieceStep (core : Nat) (s : State) : State := s.onCore core fun x => { x with lastPiece := some s.now }

/-- A piece for another die's vault crosses the links (R413): the data of a read comes back over the way that its request has taken. -/
def State.launchPiece (core : Nat) (p : Piece) (s : State) : State :=
  let a := coreDie core
  let b := coreDie p.owner
  if a = b then s
  else
    let ways := if p.write then dieRoute a b else dieRoute b a
    let ready := if p.write then s.now else s.now + 10 * ways.length
    s.onNet fun n => { n with flits := n.flits ++
      [{ cls := clsStream, order := p.runDry, die := if p.write then a else b, route := ways, ready, bytes := 256, cargo := .piece core p.issued }] }

/-- PIECE_ISSUE (R405 to R407): the engine issues the next piece, at most one a step, or waits for a tag. -/
def execPieceIssue (core : Nat) (s : State) : Host.Outcome State Fault Refusal :=
  let x := s.dev.core core
  match (if x.lastPiece = some s.now then none else x.nextStream (s.readyStreams core)) with
  | none => .next s
  | some n =>
    if (x.stream n).ty = 2 then .next s else
    let t := x.stream n
    let task := (x.ctx (n / 4)).task
    let off := t.issued
    let a := t.addrAt off
    let len := t.pieceLen off
    let write := decide (t.ty = 1)
    let go (t : Stream) : Stream := { t.begin off len with issued := off + len }
    let count (s : State) : State := (s.streamCount core (b2n write) 1).streamCount core 2 (b2n (decide (len < 256)))
    let order := t.runDry
    if s.dev.halted then .next s
    else if bit a 63 then
      let s := s.pieceStep core
      if bits a 62 21 ≠ 0 then .next (s.onStream core n (Stream.faulted off pgUnmapped a))
      else
        let s := count (s.onStream core n go)
        if write then .next (s.writeData core n task.sched task.gen off len a)
        else .next (s.readData core n off len (Mem.readBytes x.scratch (a % 2097152) len))
    else if 64 ≤ s.dev.tags core then .next ((s.pieceStep core).streamCount core 6 1)
    else
      let st := s.start.pageCheck task.sched task.gen a write
      if st ≠ pgPresent ∧ st ≠ pgLoading then .next (s.onStream core n (Stream.faulted off st a))
      else
        let owner := s.dev.pageCore core task.sched task.gen a
        let s := count (s.onStream core n go)
        let s := s.streamCount core 3 (b2n (decide (owner ≠ core ∧ coreDie owner = coreDie core)))
        let s := s.streamCount core 4 (b2n (decide (coreDie owner ≠ coreDie core)))
        let p : Piece := { stream := n, off, len, addr := a, write, sched := task.sched, gen := task.gen, owner, issued := s.now, runDry := order
                           retry := if st = pgLoading then some s.now else none }
        let s := if st = pgLoading then s else s.launchPiece core p
        .next ((s.pieceStep core).onCore core fun x => { x with pieces := x.pieces ++ [p] })

/-- A page becomes retired under R396. -/
def State.retirePage (g : Generation) (page : Nat) (s : State) : State :=
  if s.dev.compute.retired.contains (g.key, page) then s
  else
    let s := s.onCompute fun c => { c with retired := c.retired ++ [(g.key, page)] }
    let s := s.setReg (addrOf pgPageMap 0x4C) (BitVec.ofNat 32 (g.kind * 2 ^ 28 + g.target * 65536 + g.gen * 256))
    if g.state = .current then s.setEvent pgPageMap 0 else s

/-- Retire a page of the model generation that a schedule handle and a generation number name, where it is held. -/
def State.retireAt (sched gen page : Nat) (s : State) : State := match s.dev.schedGen sched gen with
  | some g => s.retirePage g page
  | none => s

/-- The piece `p` at place `tag` of a core's list completes with error kind `err`: what the error counts and retires, then its data. -/
def State.pieceEnds (core tag err : Nat) (p : Piece) (s : State) : State :=
  let owner := p.owner
  let s := (s.onCore core fun x => { x with pieces := x.pieces.eraseIdx tag }).freeStopped core
  let s := s.lineErr owner (pageLine p.addr) err
  let gone := err = 2 ∧ bits p.addr 62 61 = 0
  let s := if gone then s.retireAt p.sched p.gen (bits p.addr 46 21) else s
  if p.discarded then s.streamCount core 8 1
  else if gone then s.onStream core p.stream (Stream.faulted p.off pgRetired p.addr)
  else (s.readData core p.stream p.off p.len ((List.range p.len).map fun i => s.dev.pieceByte core p.sched p.gen (p.addr + i))).onStream core p.stream
    fun t => { t with came := (s.now, (if t.came.1 = s.now then t.came.2 else 0) + 1) }

/-- Has a piece had its turn (R21, R407, R413): it has crossed the links, the vault has bandwidth left, and no piece of any core that waits there and
was issued in an earlier ply carries an earlier run-dry ply? -/
def Dev.served (d : Dev) (now core : Nat) (p : Piece) : Bool :=
  d.reached now (.piece core p.issued) && d.vaultFree p.owner &&
    d.compute.cores.all fun e => e.2.pieces.all fun q =>
      !(q.retry.isNone && decide (q.owner = p.owner ∧ q.issued < now ∧ q.runDry < p.runDry) && d.reached now (.piece e.1 q.issued))

/-- A piece takes its 256 bytes of the vault (R405), and leaves the links. -/
def State.takeVault (core : Nat) (p : Piece) (s : State) : State := (s.useVault p.owner 256).landed (.piece core p.issued)

/-- PIECE_COMPLETE (R396, R406): the data of the piece at a place of the tag list reaches its slot; `err` is 1 for a corrected line and 2 for an
uncorrectable one. -/
def execPieceComplete (core tag err : Nat) (s : State) : Host.Outcome State Fault Refusal :=
  match (s.dev.core core).pieces[tag]? with
  | none => .next s
  | some p => .next (if p.write || p.retry.isSome || !s.dev.served s.now core p then s else (s.takeVault core p).pieceEnds core tag err p)

/-- WRITE_ACK (R411): the vault acknowledges the write piece at a place of the tag list; pieces to one line are acknowledged in issue order. -/
def execWriteAck (core tag : Nat) (s : State) : Host.Outcome State Fault Refusal :=
  let x := s.dev.core core
  match x.pieces[tag]? with
  | none => .next s
  | some p =>
    let earlier := (x.pieces.take tag).any fun q => q.write && decide (q.stream = p.stream) &&
      decide (q.addr / 64 ≤ (p.addr + p.len - 1) / 64 ∧ p.addr / 64 ≤ (q.addr + q.len - 1) / 64)
    if !p.write || p.retry.isSome || earlier || !s.dev.served s.now core p then .next s
    else
      let s := s.takeVault core p
      .next (((s.onCore core fun x => { x with pieces := x.pieces.eraseIdx tag }).writeData core p.stream p.sched p.gen p.off p.len p.addr).freeStopped core)

/-- PIECE_RETRY (R410): 1,024 plies after its last try a held piece is tried again, on the page as at the start of the ply (R415). -/
def execPieceRetry (core tag : Nat) (s : State) : Host.Outcome State Fault Refusal :=
  let x := s.dev.core core
  match x.pieces[tag]? with
  | none => .next s
  | some p => match p.retry with
    | none => .next s
    | some r =>
      if s.now < r + 1024 then .next s
      else
        let st := s.start.pageCheck p.sched p.gen p.addr p.write
        if st = pgPresent ∨ st = pgLoading then
          let s := if st = pgPresent then s.launchPiece core p else s
          .next (s.onCore core fun x => { x with pieces := x.pieces.modify tag fun p =>
            { p with retry := if st = pgLoading then some s.now else none } })
        else
          let s := (s.onCore core fun x => { x with pieces := x.pieces.eraseIdx tag }).freeStopped core
          .next (if p.discarded then s else s.onStream core p.stream (Stream.faulted p.off st p.addr))

/-! ### Page faults raised (R409) -/

/-- Raise a page fault in a context: an abort of kind 2. When several contexts of a core raise one in a ply, the lowest is recorded. -/
def State.pageFault (core ctx : Nat) (f : Nat × Nat × Nat) (s : State) : State :=
  let s := match s.dev.corePage tStream core with
    | some p =>
      let lower := ((List.range ctx).any fun t => decide ((s.dev.core core |>.ctx t).fault = some 2 ∧ (s.start.core core |>.ctx t).fault ≠ some 2))
      if lower then s else s.setReg (addrOf p 0x4C) (BitVec.ofNat 32 (f.1 % 8 * 2 ^ 29 + f.2.1 * 2 ^ 27 + f.2.2))
    | none => s
  ((s.streamCount core 7 1).coreEvent tStream core 0).onCtx core ctx fun x => { x with fault := some 2, page := some (f.2.1 * 2 ^ 61 + f.2.2 * 2097152) }

/-! ### Stream descriptors (R401) and commands (R402) -/

structure StreamD where
  cmd : Nat
  stream : Nat
  ty : Nat
  reg : Nat
  idx : Bool
  slots : Nat
  slotBytes : Nat
  member : Nat
  ring : Nat
  n : Nat
  addr : Nat
  len0 : Nat
  counts : List Nat
  strides : List Int
  idxStride : Int
  period : Nat
  deriving DecidableEq, Repr

def streamD (b : Bytes) : StreamD :=
  { cmd := Bytes.at b 0 / 16, stream := Bytes.at b 1 % 4, ty := Bytes.at b 1 / 4 % 4, reg := Bytes.at b 1 / 16 % 8, idx := bit (Bytes.at b 1) 7
    slots := Bytes.at b 2 % 16, slotBytes := 2 ^ (8 + Bytes.at b 2 / 16), member := Bytes.at b 3 % 16, ring := Bytes.le b 4 3 % 2097152
    n := Bytes.at b 7, addr := Bytes.le b 8 8, len0 := Bytes.le b 16 4
    counts := [Bytes.le b 20 2, Bytes.le b 22 2, Bytes.le b 24 2]
    strides := [sext 32 (Bytes.le b 28 4), sext 32 (Bytes.le b 32 4), sext 32 (Bytes.le b 36 4)]
    idxStride := sext 32 (Bytes.le b 40 4), period := Bytes.le b 44 4 }

/-- Faults among slots. -/
def Stream.faultAmong (t : Stream) (ks : List Nat) : Option (Nat × Nat × Nat) :=
  (ks.map fun k => (t.slotAt k).fault).findSome? id

/-- Slot numbers an ACQUIRE claims. -/
def Stream.claims (t : Stream) (n : Nat) : List Nat := (List.range n).map (· + t.claimNext)

/-- Slots of a write stream whose writes have faulted. -/
def Stream.writeFault (t : Stream) : Option (Nat × Nat × Nat) := if t.ty = 0 then none else (t.slots.map (·.fault)).findSome? id

/-- Are the slots to claim ready: full, or empty for a write or peer stream? -/
def Stream.claimable (t : Stream) (n : Nat) : Bool :=
  t.within n && (t.claims n).all fun k => decide ((t.slotAt k).state = (if t.ty = 0 then SlotState.full else .empty))

/-- The fault that an ACQUIRE of `n` slots raises (R409). -/
def Stream.claimFault (t : Stream) (n : Nat) : Option (Nat × Nat × Nat) := match t.writeFault with
  | some f => some f
  | none => if t.ty = 0 ∧ t.within n then t.faultAmong (t.claims n) else none

/-- Has every released slot been acknowledged or sent (R411)? -/
def Stream.quiet (t : Stream) : Bool := t.slots.all fun s => decide (s.state ≠ .busy)

/-- Does a command find its stream as it needs it, with its condition met (R402)? -/
def Stream.accepts (q : StreamD) (t : Stream) : Bool := match q.cmd with
  | 0 => !t.armed
  | 1 => t.armed && decide (t.ty ≠ 2)
  | 2 => t.armed && ((t.claimFault q.n).isSome || t.claimable q.n)
  | 3 => t.armed && decide (t.oldest + q.n ≤ t.claimNext)
  | 4 => t.armed && decide (t.ty = 1) && (t.quiet || t.writeFault.isSome)
  | 5 => t.armed && (decide (t.ty = 0) || t.quiet || t.writeFault.isSome)
  | _ => false

/-- The descriptor a STREAM entry names, and the number of its stream. -/
def Dev.streamOf (d : Dev) (core ctx : Nat) (x : Ctx) (e : Entry) : StreamD × Nat :=
  let q := streamD (d.taskBytes core x.task.sched x.task.gen (x.addr e) 64)
  (q, 4 * ctx + q.stream)

/-- Effective base of a shape (R404). -/
def StreamD.baseOf (q : StreamD) (x : Ctx) (e : Entry) : Nat :=
  toTwos 64 (((x.task.ba.getD q.reg 0 + q.addr : Nat) : Int) + (if q.idx then ((x.index e : Nat) : Int) * q.idxStride else 0))

/-- Is a STREAM entry's command ready, an ACQUIRE at the start of the ply too (R402, R415)? -/
def State.streamReady (core ctx : Nat) (s : State) (x : Ctx) (e : Entry) : Bool :=
  let ans := s.dev.streamOf core ctx x e
  let q := ans.1
  let n := ans.2
  Stream.accepts q ((s.dev.core core).stream n) && (decide (q.cmd ≠ 2) || Stream.accepts q ((s.start.core core).stream n))

/-- Does a STREAM entry act: is not every slot of its batch masked (R375)? -/
def Ctx.streams (x : Ctx) (e : Entry) : Bool := x.acts e (max 1 (x.task.lc.getD 0 1))

/-- Issue the next STREAM entry of a context, ahead of other entries where run-ahead lets it (R370), when it is of command `cmd` and ready. -/
def State.streamEntry (core ctx cmd : Nat) (run : Ctx → Entry → StreamD → Nat → State → State) (s : State) : State :=
  s.issueFrom (s.dev.streamPlace (s.ctx core ctx)) (fun _ e => e.energy) core ctx 5 (fun b => decide (b = 0))
    (fun x e => decide ((s.dev.streamOf core ctx x e).1.cmd = cmd) && (!x.streams e || s.streamReady core ctx x e))
    fun x e s =>
      let ans := s.dev.streamOf core ctx x e
      let q := ans.1
      let n := ans.2
      if x.streams e then run x e q n s else s

/-- ARM (R402, R404, R408). -/
def issueArm (core ctx : Nat) (s : State) : Host.Outcome State Fault Refusal :=
  .next (s.streamEntry core ctx 0 fun x e q n s =>
    s.onStream core n fun _ =>
      { armed := true, ty := q.ty, slotBytes := q.slotBytes, ring := q.ring, member := q.member, base := q.baseOf x e, len0 := q.len0
        counts := q.counts, strides := q.strides, period := q.period, slots := List.replicate q.slots {}, lastUse := s.now })

/-- REARM (R408): a new shape from the same ring, begun once every slot of the previous one is empty. -/
def issueRearm (core ctx : Nat) (s : State) : Host.Outcome State Fault Refusal :=
  .next (s.streamEntry core ctx 1 fun x e q n s =>
    s.onStream core n fun t =>
      Stream.settle { t with next := t.next ++ [{ base := q.baseOf x e, len0 := q.len0, counts := q.counts, strides := q.strides }] })

/-- ACQUIRE (R402, R409, R410): the next N slots are claimed, or a faulted one raises its fault; a claim that waits notes its ply. -/
def issueAcquire (core ctx : Nat) (s : State) : Host.Outcome State Fault Refusal :=
  let x := s.ctx core ctx
  let waits : Option Nat := match s.dev.streamPlace x with
    | some (y, e) =>
      let ans := s.dev.streamOf core ctx y e
      let q := ans.1
      let n := ans.2
      if s.canIssue core x && decide (q.cmd = 2) && y.streams e && ((s.dev.core core).stream n).armed && !s.streamReady core ctx y e then some n
      else none
    | none => none
  match waits with
  | some n => .next (s.onStream core n fun t => if t.claimPly.isNone then { t with claimPly := some s.now } else t)
  | none =>
    .next (s.streamEntry core ctx 2 fun _ _ q n s =>
      let t := (s.dev.core core).stream n
      match t.claimFault q.n with
      | some f => s.pageFault core ctx f
      | none => s.onStream core n fun t =>
          let t := (t.claims q.n).foldl (fun t k => t.onSlot k fun s => { s with state := .claimed }) t
          { t with claimNext := t.claimNext + q.n, claimPly := none, lastUse := if t.ty = 0 then s.now else t.lastUse })

/-- Plaintext of a peer-send slot (R414): 16 bytes and COUNT records. -/
def State.peerPlain (core : Nat) (t : Stream) (k : Nat) (s : State) : Bytes :=
  let b := (List.range t.slotBytes).map fun i => Mem.read (s.dev.core core).scratch (t.scratchAt (k * t.slotBytes + i))
  match s.dev.gen? true (Bytes.at b 2 % 16) (Bytes.at b 3) with
  | some g => b.take (16 + Bytes.at b 9 * s.dev.recordLen g (Bytes.at b 2 / 16) (Bytes.at b 8) (b.drop 16))
  | none => b

/-- RELEASE (R402): the oldest claimed slots are freed, written or sent. -/
def issueRelease (core ctx : Nat) (s : State) : Host.Outcome State Fault Refusal :=
  .next (s.streamEntry core ctx 3 fun _ _ q n s =>
    let t := (s.dev.core core).stream n
    let ks := (List.range q.n).map (· + t.oldest)
    let s := if t.ty = 2 then State.each ks (fun k s =>
        let plain := s.peerPlain core t k
        s.onCore core fun x => { x with peer := x.peer ++
          [{ member := t.member, homeCore := Bytes.le plain 20 2, plain, stream := some (n, k) }] }) s else s
    s.onStream core n fun t =>
      let t := ks.foldl (fun t k => t.onSlot k fun _ =>
        if t.ty = 0 then {} else { state := .busy, seq := k, doneBytes := 0 }) t
      Stream.settle { t with oldest := t.oldest + q.n, handed := if t.ty = 0 then t.handed else t.handed + q.n
                             lastUse := if t.ty = 0 then t.lastUse else s.now })

/-- FLUSH (R411): completes when every released write slot is acknowledged; a faulted one raises its fault. -/
def issueFlush (core ctx : Nat) (s : State) : Host.Outcome State Fault Refusal :=
  .next (s.streamEntry core ctx 4 fun _ _ _ n s =>
    match ((s.dev.core core).stream n).writeFault with
    | some f => s.pageFault core ctx f
    | none => s)

/-- Close a stream: its read pieces complete into discarded slots, and its write pieces complete (R412). -/
def State.closeStream (core n : Nat) (s : State) : State :=
  s.onCore core fun x =>
    { x with streams := Table.modify {} x.streams n fun t => { t with armed := false, stopped := true }
             pieces := x.pieces.map fun p => if p.stream = n ∧ !p.write then { p with discarded := true } else p
             peer := x.peer.filter fun p => match p.stream with
               | some (k, _) => decide (k ≠ n)
               | none => true }

/-- STREAM_CLOSE (R402). -/
def issueStreamClose (core ctx : Nat) (s : State) : Host.Outcome State Fault Refusal :=
  .next (s.streamEntry core ctx 5 fun _ _ _ n s =>
    match ((s.dev.core core).stream n).writeFault with
    | some f => s.pageFault core ctx f
    | none => s.closeStream core n)

/-- The held piece that a context's next entry waits for (R410): one that covers a slot to claim, the slot's write included; any write piece of the
stream for a FLUSH or the CLOSE of a write stream, and of the context for END. -/
def Dev.heldFor (d : Dev) (core ctx : Nat) (x : Ctx) : Option Piece :=
  let c := d.core core
  let held (p : Piece) : Bool := p.retry.isSome && !p.discarded
  match d.placeOf x, d.streamPlace x with
  | some (_, e), none => if e.op = 0 then c.pieces.find? fun p => held p && p.write && decide (p.stream / 4 = ctx) else none
  | _, some (y, e) =>
    let ans := d.streamOf core ctx y e
    let q := ans.1
    let n := ans.2
    let t := c.stream n
    if !t.armed || !y.streams e then none
    else if q.cmd = 2 then c.pieces.find? fun p => held p && decide (p.stream = n) &&
      (t.claims q.n).any fun k => (t.covers p.off p.len).any fun j => decide (j % max 1 t.slots.length = k % max 1 t.slots.length)
    else if q.cmd = 4 ∨ q.cmd = 5 then c.pieces.find? fun p => held p && p.write && decide (p.stream = n)
    else none
  | none, none => none

/-- LOADING_TIMEOUT (R410): a claim that waits for a held piece notes its ply; 100 µs after it, the page still is not present, so the fault is
raised. A page that has become present by then is not waited for in vain: the next retry finds it. -/
def execLoadingTimeout (core ctx : Nat) (s : State) : Host.Outcome State Fault Refusal :=
  let x := s.ctx core ctx
  match s.dev.heldFor core ctx x with
  | none => .next s
  | some p =>
    if !s.canIssue core x then .next s
    else match ((s.dev.core core).stream p.stream).claimPly with
      | none => .next (s.onStream core p.stream fun t => { t with claimPly := some s.now })
      | some w =>
        let st := s.start.pageCheck p.sched p.gen p.addr p.write
        if w + plies100us ≤ s.now ∧ st ≠ pgPresent then .next (s.pageFault core ctx (faultOf st p.addr)) else .next s

/-! ### Peer sends (R358, R414) -/

/-- Every request of a TEAM_DATA plaintext is missed. -/
def State.missAll (g : Generation) (op layer n : Nat) (b : Bytes) (s : State) : State :=
  match n with
  | 0 => s
  | k + 1 =>
    let s := match s.dev.compute.tokens.find? fun e => decide (op = 1 ∧ e.2.core = Bytes.le b 4 2 ∧ e.2.stateSlot = Bytes.le b 6 2 ∧
        e.2.tenancy = Bytes.le b 8 2 ∧ e.2.number % 65536 = Bytes.le b 10 2) with
      | some (t, _) => s.missed t layer (Bytes.le b 0 2)
      | none => s
    s.missAll g op layer k (b.drop (s.dev.recordLen g op layer b))

/-- The place of the peer slot that is next (R407): the oldest slot of the engine's stream, when that is a peer stream; else the oldest request
that no stream carries. -/
def State.nextPeer (core : Nat) (s : State) : Option Nat :=
  let x := s.dev.core core
  let of_ (n : Nat) : Option Nat := x.peer.findIdx? fun p => p.stream.any fun k => decide (k.1 = n)
  match if x.lastPiece = some s.now then none else x.nextStream (s.readyStreams core) with
  | some n => if (x.stream n).ty = 2 then of_ n else x.peer.findIdx? fun p => p.stream.isNone
  | none => x.peer.findIdx? fun p => p.stream.isNone

/-- The requests of a slot that leaves unsent are missed (R358, R414). -/
def State.missSlot (p : PeerSlot) (s : State) : State :=
  match s.dev.gen? true (Bytes.at p.plain 2 % 16) (Bytes.at p.plain 3) with
  | some g => s.missAll g (Bytes.at p.plain 2 / 16) (Bytes.at p.plain 8) (Bytes.at p.plain 9) (p.plain.drop 16)
  | none => s

/-- The slot at place `i` leaves the queue, and its stream has it back. -/
def State.freePeer (core i : Nat) (p : PeerSlot) (s : State) : State :=
  let s := s.onCore core fun x => { x with peer := x.peer.eraseIdx i }
  match p.stream with
  | some (n, k) => (s.onStream core n fun t => (t.onSlot k fun _ => {}).settle).pieceStep core
  | none => s

/-- PEER_SEND (R357, R358, R407, R414): the next peer-send slot of a core is framed and sent when credit and a tag allow, or freed unsent when no port
is up, or when its frame is longer than the port's MAX_FRAME (R356; log entry 168). -/
def execPeerSend (core : Nat) (s : State) : Host.Outcome State Fault Refusal :=
  match s.nextPeer core with
  | none => .next s
  | some i => match (s.dev.core core).peer[i]? with
    | none => .next s
    | some p => match s.dev.peerPort p with
      | none => .next ((s.freePeer core i p).missSlot p)
      | some port =>
        let key := teamKey port p.member
        let n := mirrorLen p.plain.length
        if s.maxFrame port < n then .next ((s.freePeer core i p).missSlot p)
        else if s.dev.tags core < 64 ∧ s.dev.peerGoes p then
          let order := match p.stream with
            | some (k, _) => ((s.dev.core core).stream k).runDry
            | none => p.order
          let s := s.onTeam fun t => { t with sent := Table.put t.sent key ((Table.get 0 t.sent key + units n) % 2 ^ 32) }
          .next ((((s.sendTeamAs (some core) order (coreDie core) port 8 p.plain).freePeer core i p).streamCount core 5 1).deepCount 14 1)
        else .next s

/-! ### What the engines do with the tick -/

/-- A ply in which the engine of a core waits for a tag is counted (R406). -/
def State.tagWaits (core : Nat) (s : State) : State :=
  let x := s.dev.core core
  if x.lastPiece = some s.now ∨ s.dev.halted ∨ s.dev.tags core < 64 then s
  else match x.nextStream (s.readyStreams core) with
    | none => s
    | some n => if bit ((x.stream n).addrAt (x.stream n).issued) 63 && decide ((x.stream n).ty ≠ 2) then s else (s.pieceStep core).streamCount core 6 1

/-! ### The stream and page-map pages (R416 to R419) -/

def Dev.streamRead (d : Dev) (core off : Nat) : Word :=
  let x := d.core core
  BitVec.ofNat 32 (
    if off = 0x40 then maskOf ((List.range 32).filter fun n => (x.stream n).armed)
    else if off = 0x44 then maskOf ((List.range 32).filter fun n => (x.stream (n + 32)).armed)
    else if off = 0x48 then d.tags core
    else if off = 0x4C then (match d.corePage tStream core with
      | some p => d.rg p 0x4C
      | none => 0)
    else 0)

/-- Pages of a generation's image that this member holds. -/
def Dev.ownPages (d : Dev) (g : Generation) : Nat :=
  ((pagesOf g.image).map fun p => if d.storesPages (decide (g.kind = 2)) p then (p.length + 2097151) / 2097152 else 0).sum

/-- Pages that a staging operation has begun to write into frames (R425). -/
def Dev.stagedPages (d : Dev) (g : StageOp) : Nat :=
  if g.state = .free ∨ prefixLen g.got < imgDirEnd g.image ∨ 64 < imgSections g.image then 0
  else ((pagesOf g.image).map fun p => if d.storesPages g.chan.isNone p then g.pagesHeld p else 0).sum

def Dev.pageMapRead (d : Dev) (off : Nat) : Word :=
  let gens := d.objects.gens.map (·.2)
  let all := (gens.map d.ownPages).sum
  let staged := (d.objects.stages.map fun e => d.stagedPages e.2).sum
  BitVec.ofNat 32 (match off with
    | 0x40 => all - d.compute.retired.length - d.compute.loading.length
    | 0x44 => d.compute.loading.length + staged
    | 0x48 => d.compute.retired.length
    | 0x4C => d.rg pgPageMap 0x4C
    | _ => 0)

end Sys2Proof.Machine
end

