-- ==== Sys2Proof/Machine/Sequencer.lean ====
section
/-! DEFINITION. The sequencer (R362 to R393): pawn queues and batches, dispatch and admission, table copies, the end of a task, loops, barriers,
cancels and aborts, watchdogs, and the sequencer and book pages. -/
namespace Sys2Proof.Machine

/-! ### Task descriptors -/

/-- Draw `n` free values. -/
def State.frees (n : Nat) (s : State) : List Nat × State :=
  match n with
  | 0 => ([], s)
  | k + 1 =>
    let ans := s.free
    let v := ans.1
    let s := ans.2
    let ans := s.frees k
    let l := ans.1
    let s := ans.2
    (v :: l, s)

/-- Where a pawn batch's header vectors lie in scratch SRAM (R366): the manual does not say where, so the place is the model compiler's. -/
def vectorsAt (sched : Nat) : Nat := Config.tableBase sched 0 % (2097152 - 65536)

/-- Base register `i` of a task (R364): BA0 of a pawn batch points at its header vectors (R366); those of an expert batch that its table uses for the
purpose hold the addresses of the expert's UP and DOWN (R349). -/
def Dev.taskBase (d : Dev) (t : TaskDesc) (i : Nat) : Nat :=
  if t.owner = 0 ∧ i = 0 then 2 ^ 63 + vectorsAt t.sched
  else
    let own := Config.tableBase t.sched i % 2 ^ 64
    match t.reqs.head? with
    | none => own
    | some q => match d.gen? true q.dm q.gen with
      | none => own
      | some g =>
        let e := d.expertE q.homeCore g q.layer q.expert
        match Config.expertBase t.sched i with
        | 0 => e.up
        | 1 => e.down
        | _ => own

/-- Complete a descriptor (R364): the loop counts its block does not state lie within LOOP_MAX; masks and base registers are as the block sets them.
The manual states none of these values, so they are free values (log entries 50 and 51). -/
def State.fillTask (v : Volume) (o : Nat) (t : TaskDesc) (s : State) : TaskDesc × State :=
  let ans := s.frees 6
  let f := ans.1
  let s := ans.2
  let n := t.lc.length
  let lc := t.lc ++ ((List.range (4 - n)).map fun i => f.getD i 0 % (tblLoopMax v o (n + i) + 1))
  ({ t with lc, masks := ((f.drop 3).take 3).map (· % 2 ^ 32), ba := (List.range 8).map (s.dev.taskBase t) }, s)

/-- Is a descriptor acceptable (R365)? -/
def tableAccepts (v : Volume) (o : Nat) (classes : List Nat) (lc : List Nat) : Bool :=
  classes.contains (tblClass v o) && (List.range 4).all fun i => decide (lc.getD i 0 ≤ tblLoopMax v o i)

/-- The stage that sheds a task, if the die's stage is that high (R457): the counter of the tempo page that counts it. -/
def sheds (stage owner cls : Nat) : Option Nat :=
  if 1 ≤ stage ∧ (owner = 2 ∨ owner = 3) then some 6
  else if 2 ≤ stage ∧ (owner = 1 ∨ cls = 1) then some 7
  else if 3 ≤ stage ∧ owner = 0 ∧ cls = 0 then some 8
  else none

/-- Count a shed task: the tasks of stage 3 are not counted, only its header vectors (R461). -/
def State.countShed (die k : Nat) (s : State) : State := if k = 8 then s else s.tempoCount die k 1

/-- Place a task in a context: fetching, and cancelled from the next ply if the die's stage already sheds it (R459). What an idle core has released of
the pawn pool stays released for the window (R31, R450). -/
def State.place (core ctx : Nat) (t : TaskDesc) (rate : Nat) (s : State) : State :=
  let shed := sheds (s.dev.tempo (coreDie core)).stage t.owner t.cls
  let s := match shed with
    | some k => s.countShed (coreDie core) k
    | none => s
  let s := if ctx < 4 then s.noteRelease core else s
  (s.onCtx core ctx fun _ =>
    { state := .fetching, task := t, iter := [0, 0, 0, 0], since := s.now + 1, watch := s.watchCfg core, rate, cancel := shed.isSome }).seqCount core 0 1

/-- Is a context free in the ply and at its start (R384)? -/
def State.ctxFree (s : State) (core ctx : Nat) : Bool :=
  decide (((s.start.core core).ctx ctx).state = .free) && decide ((s.ctx core ctx).state = .free)

/-! ### Packets of a batch -/

/-- The packets of a list take no further part at the core: their default comes at the deadline (R26). -/
def State.dropPackets (l : List Nat) (s : State) : State :=
  State.each l (fun k s => match s.dev.packet? k with
    | some p => if p.stage = .running ∨ p.stage = .queued ∨ p.stage = .vector then (s.onPacket k fun p => { p with stage := .none }).settle k else s
    | none => s) s

/-! ### The core that takes a vector (R505) -/

/-- Is logical core `c` available to a packet whose frame's start was sampled in ply `p` (R503, R505, R509)? -/
def Dev.serves (d : Dev) (c p : Nat) : Bool :=
  d.coreActive c && (match Table.get? d.reliab.activated c with
    | some a => decide (a < p)
    | none => true)

/-- The core that takes a packet's header vector: the one steering names, or its substitute. -/
def Dev.receiver (d : Dev) (p : Packet) : Option Nat := (p.core :: p.order.drop 1).find? fun k => d.serves k p.start

/-- The die on which a header vector stands: none when it crosses no link. -/
def Dev.vectorDie (d : Dev) (k : Nat) : Option Nat := (d.net.flits.find? fun f => decide (f.cargo = .vector k)).map (·.die)

/-! ### Batches of streamed channels (R29) -/

/-- The pawn table of a channel's generation: its schedule identifier, volume and offset (R387, R423). -/
def Dev.pawnTable (d : Dev) (n : Nat) (g : Generation) : Nat × Option (Volume × Nat) :=
  let sched := 2 ^ 28 + n * 65536 + g.pawnTable % 4096
  (sched, d.table sched g.gen)

/-- Earliest deadline among packets. -/
def State.earliest (l : List Nat) (s : State) : Nat :=
  (l.filterMap fun k => (s.dev.packet? k).map (Packet.due s.now)).foldl (fun a b => if a = 0 ∨ b < a then b else a) 0

/-- Plies of the return path in the table of R27. -/
abbrev returnPath := 320

/-- An open batch closes (R29) once it is full, or once only its evaluation and return time are left. At shedding stage 2 it is discarded (R457). -/
def State.closeDue (core n gen : Nat) (s : State) : State :=
  let key := n * 256 + gen
  let l := Table.get [] (s.dev.core core).open_ key
  match s.dev.gen? false n gen with
  | none => s
  | some g =>
    match (s.dev.pawnTable n g).2 with
    | none =>
      if l.isEmpty then s
      else (s.dropPackets l).onCore core fun x => { x with open_ := Table.erase x.open_ key }
    | some (v, o) =>
      let limit := max 1 (min 512 (tblLoopMax v o 0))
      let batch := l.take limit
      if batch.isEmpty ∨ batch.length < limit ∧ s.now + tblWorst v o + returnPath < s.earliest batch then s
      else
        let s := s.onCore core fun x => { x with open_ := Table.set [] x.open_ key (l.drop limit) }
        if 2 ≤ (s.start.tempo (coreDie core)).stage then (s.dropPackets batch).tempoCount (coreDie core) 7 1
        else s.onCore core fun x => { x with closed := x.closed ++ [{ chan := n, gen, items := batch }] }

/-- BATCH_CLOSE (R29). -/
def execBatchClose (core n gen : Nat) (s : State) : Host.Outcome State Fault Refusal := .next (s.closeDue core n gen)

/-- The open batches of every core that are due to close. -/
def State.settleBatches (s : State) : State :=
  State.each s.dev.compute.cores (fun e s => State.each e.2.open_ (fun b s => s.closeDue e.1 (b.1 / 256) (b.1 % 256)) s) s

/-! ### Header vectors (R366, R505) -/

/-- A streamed channel's vector joins its open batch; one whose closing point has come takes no more (R29). -/
def State.joinBatch (core n gen k : Nat) (s : State) : State :=
  ((s.closeDue core n gen).onCore core fun x => { x with open_ := Table.modify [] x.open_ (n * 256 + gen) fun l => l ++ [k] }).onPacket k
    fun p => { p with stage := .queued }

/-- HEADER_VECTOR (R366): packet `k`'s header vector reaches its core. -/
def execHeaderVector (k : Nat) (s : State) : Host.Outcome State Fault Refusal :=
  match s.dev.packet? k with
  | none => .next s
  | some p =>
    match p.chan, s.dev.packetGen p with
    | some (n, _), some (_, g) =>
      if p.stage ≠ .vector ∨ s.dev.underWay s.now (.vector k) then .next s
      else
        let c := s.dev.chan n
        match s.start.receiver p with
        | none => .next ((s.dropPackets [k]).landed (.vector k))
        | some r =>
          let pinned := c.pinned
          let at_ := (s.dev.vectorDie k).getD (coreDie r)
          let s := s.landed (.vector k)
          if at_ ≠ coreDie r then .next (s.launch clsPawn p.deadline vectorBytes (dieRoute at_ (coreDie r)) at_ (.vector k))
          else if pinned ∧ 3 ≤ (s.start.tempo (coreDie r)).stage then .next ((s.dropPackets [k]).tempoCount (coreDie r) 8 1)
          else
            let s := if r = p.core ∨ p.held then s else s.bump (pageOf tReliab (coreDie p.core)) (0x480 + 8 * 3) 1
            let x := s.dev.core r
            let first := s.noteRelease r
            if pinned then
              if x.pawn.length < 64 then
                .next ((first.onCore r fun x => { x with pawn := x.pawn ++ [k] }).onPacket k fun p => { p with stage := .queued })
              else if p.held then .next s
              else .next (((s.seqCount r 8 1).coreEvent tSeq r 4).onPacket k fun p => { p with held := true })
            else
              .next (first.joinBatch r n g.gen k)
    | _, _ => .next s

/-- The oldest vectors of a pawn queue that make one task. -/
def Dev.pawnBatch (d : Dev) (q : List Nat) (limit : Nat) : List Nat :=
  match q with
  | [] => []
  | k :: r =>
    let same (a : Packet) (j : Nat) : Bool := match d.packet? j with
      | some b => decide (a.chan = b.chan ∧ a.gen = b.gen)
      | none => false
    match d.packet? k with
    | none => [k]
    | some p => k :: (r.takeWhile (same p)).take (limit - 1)

/-- The header vectors of a pawn batch are put in scratch SRAM, at BA0 (R366). -/
def State.putVectors (core : Nat) (t : TaskDesc) (s : State) : State :=
  let b := t.items.flatMap fun k => match s.dev.packet? k with
    | some p => Bytes.slice p.vector 0 128
    | none => zeros 128
  s.onCore core fun x => { x with scratch := Mem.writeBytes x.scratch (vectorsAt t.sched) b }

/-- PAWN_DISPATCH (R366): a pinned batch goes to context 0 or 1, a closed streamed batch to context 2 or 3. -/
def execPawnDispatch (core ctx : Nat) (s : State) : Host.Outcome State Fault Refusal :=
  let x := s.dev.core core
  let stage := (s.start.tempo (coreDie core)).stage
  let refuse (l : List Nat) (s : State) : State := (s.dropPackets l).seqCount core 9 1
  let run (n gen cls : Nat) (l : List Nat) (s : State) : State :=
    match s.dev.gen? false n gen with
    | none => refuse l s
    | some g =>
      let ans := s.dev.pawnTable n g
      let sched := ans.1
      let t := ans.2
      match t with
      | none => refuse l s
      | some (v, o) =>
        if !tableAccepts v o [cls] [l.length] then refuse l s
        else
          let ans := s.fillTask v o { sched, gen, owner := 0, cls, lc := [l.length], deadline := s.earliest l, items := l }
          let t := ans.1
          let s := ans.2
          let s := State.each l (fun k s => s.onPacket k fun p => { p with stage := .running }) s
          (s.putVectors core t).place core ctx t 0
  if 4 ≤ ctx ∨ !s.ctxFree core ctx ∨ !s.dev.coreActive core ∨ s.dev.halted then .next s
  else if ctx ≤ 1 then
    match x.pawn with
    | [] => .next s
    | k :: _ =>
      if 3 ≤ stage then .next s
      else match s.dev.packet? k with
        | none => .next (s.onCore core fun x => { x with pawn := x.pawn.drop 1 })
        | some p => match p.chan with
          | none => .next (s.onCore core fun x => { x with pawn := x.pawn.drop 1 })
          | some (n, _) =>
            let limit := match s.dev.gen? false n p.gen with
              | some g => match (s.dev.pawnTable n g).2 with
                | some (v, o) => max 1 (tblLoopMax v o 0)
                | none => 1
              | none => 1
            let l := s.dev.pawnBatch x.pawn limit
            .next (run n p.gen 0 l (s.onCore core fun x => { x with pawn := x.pawn.drop l.length }))
  else
    match x.closed with
    | [] => .next s
    | b :: _ =>
      if 2 ≤ stage then .next s
      else .next (run b.chan b.gen 1 b.items (s.onCore core fun x => { x with closed := x.closed.drop 1 }))

/-! ### Stopping a task (R382, R383) -/

/-- Forget a context's arrivals that wait at barriers. -/
def State.leaveBarriers (core ctx : Nat) (s : State) : State :=
  s.onCompute fun x => { x with barriers := x.barriers.map fun e => (e.1, { e.2 with waiting := e.2.waiting.filter fun w => decide (w ≠ (core, ctx)) }) }

/-- Stop a context (R382, R412): its array or matrix-vector pass and a sealed move are discarded, its streams close, packets without a verdict are
left to their deadline, and the context is free once the last of its pieces is done. -/
def State.stop (core ctx : Nat) (s : State) : State :=
  let x := s.ctx core ctx
  let came := ((List.range 4).map fun i => let t := (s.dev.core core).stream (4 * ctx + i); if t.came.1 = s.now then t.came.2 else 0).sum
  let s := State.each (List.range 4) (fun i s => s.closeStream core (4 * ctx + i)) (s.streamCount core 8 came)
  let s := ((((s.discardRun core ctx).leaveBarriers core ctx).onCore core (CoreState.unseal ctx)).onCore core (CoreState.endWindow ctx)).onCtx core ctx fun x =>
    { x with state := .stopping, move := none, rate := 0, fault := none, cancel := false, ended := false }
  let s := if x.task.owner = 0 then s.dropPackets x.task.items else s
  s.freeStopped core

/-- Return a token to the state in which it formed, for another run of its task (R383). -/
def Dev.restart (d : Dev) (t : Token) : Token :=
  match d.gen? true t.dm t.gen with
  | some g => { t with cur := 0, r := [], u := [], scores := [], h := d.oldStates t.core t.stateSlot g t.fresh, reqs := [], decided := none }
  | none => t

/-- What the owner of an aborted task does (R383). -/
def State.ownerAbort (core kind : Nat) (t : TaskDesc) (page : Option Nat) (s : State) : State :=
  let again (s : State) : State :=
    s.onCore core fun x => { x with tasks := x.tasks ++ [{ t with lc := t.lc.take 1, masks := [], ba := [], page, fails := 0 }] }
  if t.owner = 1 then (if kind = 2 ∧ s.now ≤ t.deadline then again s else s)
  else if t.owner = 2 then
    if kind = 2 then again (State.each t.items (fun k s => s.onToken k s.dev.restart) s)
    else State.each t.items (fun k s => s.abandon k) s
  else s

/-- The abort of a task of `kind` is recorded (R382, R392). -/
def State.recordAbort (core ctx kind : Nat) (t : TaskDesc) (s : State) : State :=
  let w := BitVec.ofNat 32 (kind * 2 ^ 28 + ctx % 16 * 2 ^ 24 + t.owner % 16 * 2 ^ 20 + t.sched % 4096)
  let s := match s.dev.corePage tSeq core with
    | some p =>
      let lower := s.setThisPly p 0 && decide (bits (s.dev.rg p 0x4C) 27 24 < ctx)
      if lower then s else s.setReg (addrOf p 0x4C) w
    | none => s
  let s := if kind = 2 then s.seqCount core 6 1 else s
  (s.seqCount core 3 1).coreEvent tSeq core 0

/-- A context holds a task that has not been stopped. -/
def Ctx.holds (x : Ctx) : Bool := decide (x.state ≠ .free ∧ x.state ≠ .stopping)

/-- A context whose task a fault has struck stops, and its owner acts (R382, R383). -/
def State.abortTask (core ctx : Nat) (s : State) : State :=
  let x := s.ctx core ctx
  match x.fault with
  | none => s
  | some k => if !x.holds then s else ((s.recordAbort core ctx k x.task).stop core ctx).ownerAbort core k x.task x.page

/-- A cancelled task stops without further effect, but for its tokens, which are abandoned (R348, R381 to R383). -/
def State.cancelTask (core ctx : Nat) (s : State) : State :=
  let x := s.ctx core ctx
  if !x.holds ∨ !x.cancel then s
  else
    let s := (s.stop core ctx).seqCount core 2 1
    if x.task.owner = 2 then State.each x.task.items (fun k s => s.abandon k) s else s

/-- A task whose END has issued completes (R373, R384): its streams close, and the context is free from the next ply. -/
def State.endTask (core ctx : Nat) (s : State) : State :=
  let x := s.ctx core ctx
  if !x.ended then s
  else
    let s := State.each (List.range 4) (fun i s => s.closeStream core (4 * ctx + i)) s
    let s := if x.task.owner = 0 then s.dropPackets x.task.items else s
    let s := if x.task.owner = 0 ∧ x.task.cls = 1 then s.coreBump tTree core (0x80 + 8 * 8) 1 else s
    ((s.onCore core (CoreState.endWindow ctx)).onCore core fun y => { y with ctxs := Table.erase y.ctxs ctx }).seqCount core 1 1

/-- ABORT (R382 to R384): a context whose task a fault has struck stops, and its owner acts. -/
def execAbort (core ctx : Nat) (s : State) : Host.Outcome State Fault Refusal := .next (s.abortTask core ctx)

/-- CANCEL (R381, R382): the control complex withdraws a control task, which stops with the end of the ply unless its END completes (R384). -/
def execCancel (core ctx : Nat) (s : State) : Host.Outcome State Fault Refusal :=
  let x := s.ctx core ctx
  .next (if x.holds ∧ x.fault.isNone ∧ x.task.owner = 4 then s.onCtx core ctx fun x => { x with cancel := true } else s)

/-- With the end of the ply the tasks that it aborts, completes or cancels have stopped, in that order (R382, R384). -/
def State.settleTasks (s : State) : State :=
  State.each s.dev.compute.cores (fun e s => State.each e.2.ctxs (fun x s => ((s.abortTask e.1 x.1).endTask e.1 x.1).cancelTask e.1 x.1) s) s

/-! ### Admission (R451, R452, R455) -/

/-- Committed rate of a die (R451). -/
def Dev.committed (d : Dev) (die : Nat) : Nat :=
  ((d.compute.cores.filter fun e => decide (coreDie e.1 = die)).map fun e => (e.2.ctxs.map fun c => c.2.rate).sum).sum

/-- Tasks queued on a core that the chess clock sees: the first 64 (R367). -/
def CoreState.queue (x : CoreState) : List TaskDesc := x.tasks.take 64

/-- Rate of a queued task. -/
def Dev.rateOf (d : Dev) (t : TaskDesc) : Nat := match d.table t.sched t.gen with
  | some (v, o) => tblRate v o
  | none => 0

/-- The earlier of two tasks; among equals the first stays. -/
def earlierTask (a : Option TaskDesc) (b : TaskDesc) : Option TaskDesc := match a with
  | none => some b
  | some a => if b.deadline < a.deadline then some b else some a

/-- The queued or adjourned task with the earliest deadline on a die (R452). -/
def Dev.dieFirst (d : Dev) (die : Nat) : Option TaskDesc :=
  ((d.compute.cores.filter fun e => decide (coreDie e.1 = die)).flatMap fun e =>
    e.2.queue ++ ((e.2.ctxs.filter fun c => decide (c.2.state = .adjourned)).map fun c => c.2.task)).foldl earlierTask none

/-- May a task be admitted: its rate fits the general pool, and no earlier one that failed 64 times is passed over (R451, R452)? -/
def Dev.tryAdmit (d : Dev) (die : Nat) (t : TaskDesc) : Bool :=
  decide (d.rateOf t + d.committed die ≤ (d.tempo die).general) &&
    (match d.dieFirst die with
     | some f => !(decide (64 ≤ f.fails ∧ f.deadline < t.deadline))
     | none => true)

/-- May a queued task be dispatched at all: its class is not shed, and the page it waits for is present (R383, R457)? -/
def State.eligible (core : Nat) (s : State) (t : TaskDesc) : Bool :=
  (sheds (s.start.tempo (coreDie core)).stage t.owner t.cls).isNone &&
    (match t.page with
     | some a => decide (s.start.pageCheck t.sched t.gen a false = pgPresent)
     | none => true)

/-- TASK_ADMIT (R367, R451, R455): the chess clock dispatches a queued task to a free context 4 to 15, or admits an adjourned one again. -/
def execTaskAdmit (core ctx : Nat) (s : State) : Host.Outcome State Fault Refusal :=
  let die := coreDie core
  let x := s.ctx core ctx
  if 16 ≤ ctx ∨ !s.dev.coreActive core ∨ s.dev.halted then .next s
  else if x.state = .adjourned then
    if x.fault.isNone ∧ !x.cancel ∧ s.dev.tryAdmit die x.task then
      .next (s.onCtx core ctx fun x => { x with state := .running, rate := s.dev.rateOf x.task, since := s.now + 1 })
    else .next s
  else if ctx < 4 ∨ !s.ctxFree core ctx then .next s
  else
    match ((s.dev.core core).queue.filter fun t => s.eligible core t && s.dev.tryAdmit die t).foldl earlierTask none with
    | none => .next s
    | some t =>
      let s := s.onCore core fun y => { y with tasks := y.tasks.eraseIdx (y.tasks.findIdx fun u => decide (u = t)) }
      match s.dev.table t.sched t.gen with
      | none => .next (((s.seqCount core 9 1).recordAbort core ctx 6 t).ownerAbort core 6 t none)
      | some (v, o) =>
        if !tableAccepts v o [if t.owner = 4 then 3 else 2] t.lc then .next (((s.seqCount core 9 1).recordAbort core ctx 6 t).ownerAbort core 6 t none)
        else
          let rate := tblRate v o
          let ans := s.fillTask v o t
          let t := ans.1
          let s := ans.2
          .next (s.place core ctx { t with cls := tblClass v o } rate)

/-! ### The table area (R390) -/

/-- Length of a table (R388). -/
def Dev.tableLen (d : Dev) (sched gen : Nat) : Nat := match d.volume sched gen with
  | some v => v.le (16 + 8 * (sched % 4096) + 4) 4
  | none => 0

/-- Bytes of the area held by class 0 and 1 tables of the generations that run on the core: those swapped in with it in their core set (R390). -/
def Dev.heldTables (d : Dev) (core : Nat) : Nat :=
  ((d.objects.gens.filter fun e => decide (e.2.kind = 1) && e.2.cores.contains core).map fun e =>
    let base := 2 ^ 28 + e.2.target * 65536
    match d.volume base e.2.gen with
    | some v => ((List.range (v.le 2 2)).map fun t => if tblClass v (v.le (16 + 8 * t) 4) ≤ 1 then v.le (16 + 8 * t + 4) 4 else 0).sum
    | none => 0).sum

/-- Replace tables, the least recently used first, until the rest fit in `room` bytes. -/
def Dev.fitArea (d : Dev) (room : Nat) (l : List (Nat × Nat)) : List (Nat × Nat) :=
  match l with
  | [] => []
  | a :: r => if ((a :: r).map fun t => d.tableLen t.1 t.2).sum ≤ room then a :: r else d.fitArea room r

/-- TABLE_FETCH (R390): the task's table is copied into the table area unless it is there and its check passes (`stale` says that it fails), and the
task runs; a copy that fails (`fail`) aborts it with kind 5. -/
def execTableFetch (core ctx : Nat) (stale fail : Bool) (s : State) : Host.Outcome State Fault Refusal :=
  let x := s.ctx core ctx
  if x.state ≠ .fetching ∨ s.now < x.since then .next s
  else
    let key := (x.task.sched, x.task.gen)
    let held := decide (x.task.cls ≤ 1) || (s.dev.core core).area.contains key
    let copies := stale || !held
    let s := if copies then s.seqCount core 7 1 else s
    if copies ∧ fail then
      .next (((s.coreEvent tSeq core 3).setEvent pgBook 0).onCtx core ctx fun x => { x with fault := some 5 })
    else
      let rest := (s.dev.core core).area.filter fun k => decide (k ≠ key)
      let room := 262144 - s.dev.heldTables core - (if x.task.cls ≤ 1 then 0 else s.dev.tableLen key.1 key.2)
      let rest := s.dev.fitArea room rest
      let s := s.onCore core fun y => { y with area := if x.task.cls ≤ 1 then rest else rest ++ [key] }
      .next (s.onCtx core ctx fun x => { x with state := .running, since := s.now + 1 })

/-! ### The end of a task -/

/-- Streams of a context. -/
def CoreState.ctxStreams (x : CoreState) (ctx : Nat) : List Stream := (List.range 4).map fun i => x.stream (4 * ctx + i)

/-- Has every write piece of a context been acknowledged, and every released write slot been written (R378, R411)? -/
def CoreState.written (x : CoreState) (ctx : Nat) : Bool :=
  x.pieces.all (fun p => !(p.write && decide (p.stream / 4 = ctx))) && (x.ctxStreams ctx).all fun t => decide (t.ty ≠ 1) || !t.armed || t.quiet

/-- A write fault of a context's streams (R409). -/
def CoreState.writeFaults (x : CoreState) (ctx : Nat) : Option (Nat × Nat × Nat) :=
  ((x.ctxStreams ctx).map fun t => if t.armed then t.writeFault else none).findSome? id

/-- END (R373, R411): the task completes after every earlier entry and every write; a faulted write aborts it (R409). -/
def issueEnd (core ctx : Nat) (s : State) : Host.Outcome State Fault Refusal :=
  .next (s.issue core ctx 0 (fun b => decide (b = 0))
    (fun _ _ => ((s.dev.core core).writeFaults ctx).isSome || (s.dev.core core).written ctx && (s.start.core core).written ctx) fun _ _ s =>
      match (s.dev.core core).writeFaults ctx with
      | some f => s.pageFault core ctx f
      | none => s.onCtx core ctx fun x => { x with ended := true })

/-! ### Loops (R374) -/

/-- A context goes on where `y` stands. -/
def State.follow (core ctx : Nat) (y : Ctx) (s : State) : State := (s.onCtx core ctx fun x => { x with iter := y.iter }).goTo core ctx y.idx

/-- LOOP: iteration 0 begins, or a loop with count 0 is skipped. -/
def issueLoop (core ctx : Nat) (s : State) : Host.Outcome State Fault Refusal :=
  .next (s.issue core ctx 10 (fun _ => true) (fun _ _ => true) fun x e s => s.follow core ctx (x.after e))

/-- NEXT: the next iteration begins after the LOOP, or the loop is done. -/
def issueNext (core ctx : Nat) (s : State) : Host.Outcome State Fault Refusal :=
  .next (s.issue core ctx 11 (fun _ => true) (fun _ _ => true) fun x e s => s.follow core ctx (x.after e))

/-! ### Barriers (R378, R379) -/

def Dev.barrier (d : Dev) (k : Nat) : Barrier := Table.get {} d.compute.barriers k
def State.onBarrier (k : Nat) (f : Barrier → Barrier) (s : State) : State :=
  s.onCompute fun x => { x with barriers := Table.modify {} x.barriers k f }

/-- Contexts that run again from the next ply (R378). -/
def State.wake (l : List (Nat × Nat)) (s : State) : State :=
  State.each l (fun w s => s.onCtx w.1 w.2 fun x => if x.state = .barrier then { x with state := .running, since := s.now + 1 } else x) s

/-- A break that aborts tasks of cores sets their event; it is counted once for each core of the barrier's die (R379, R391). -/
def State.breakCounts (die : Nat) (cores : List Nat) (b : Barrier) (s : State) : State :=
  State.each cores (fun c s => (if coreDie c = die ∧ !b.hit.contains c then s.seqCount c 5 1 else s).coreEvent tSeq c 2) s

/-- An arrival at a barrier: `wait` is SUB 0. -/
def State.arrive (core ctx : Nat) (wait : Bool) (x : Ctx) (e : Entry) (s : State) : State :=
  let key := bits e.operand 11 10 * 1024 + e.operand % 1024
  let need := bits e.operand 25 16
  let limit := match s.dev.table x.task.sched x.task.gen with
    | some (v, o) => tblBarrierLimit v o
    | none => 0
  let b := s.dev.barrier key
  if b.broken.isSome then ((s.onCtx core ctx fun x => { x with fault := some 4 }).breakCounts (key / 1024) [core] b).onBarrier key fun b =>
    { b with hit := (core :: b.hit).eraseDups }
  else if b.released = some s.now then (if wait then s.onCtx core ctx fun x => { x with since := s.now + 1 } else s)
  else
    let n := b.count + 1
    let s := if wait then s.onCtx core ctx fun x => { x with state := .barrier } else s
    let waiting := if wait then b.waiting ++ [(core, ctx)] else b.waiting
    if need ≤ n then (s.wake waiting).onBarrier key fun _ => { released := some s.now }
    else s.onBarrier key fun b =>
      { b with count := n, first := if b.count = 0 then s.now else b.first, limit := if b.count = 0 then limit else b.limit, need, waiting
               released := none }

/-- Issue a BARRIER entry once the task's writes are acknowledged; the arrival is sent in the ply after the acknowledgement (R378, R415). -/
def State.barrierEntry (core ctx sub : Nat) (s : State) : State :=
  s.issue core ctx 9 (fun b => decide (b = sub)) (fun _ _ => (s.dev.core core).written ctx && (s.start.core core).written ctx) fun x e s =>
    s.arrive core ctx (decide (sub = 0)) x e

/-- BARRIER_WAIT (R378): arrive and wait. -/
def issueBarrierWait (core ctx : Nat) (s : State) : Host.Outcome State Fault Refusal := .next (s.barrierEntry core ctx 0)

/-- BARRIER_ARRIVE (R378): arrive only. -/
def issueBarrierArrive (core ctx : Nat) (s : State) : Host.Outcome State Fault Refusal := .next (s.barrierEntry core ctx 1)

/-- BARRIER_BREAK (R379): the phase has not released BARRIER_LIMIT plies after its first arrival. -/
def execBarrierBreak (die number : Nat) (s : State) : Host.Outcome State Fault Refusal :=
  let key := die % 4 * 1024 + number % 1024
  let b := s.dev.barrier key
  if b.count = 0 ∨ b.broken.isSome ∨ s.now < b.first + b.limit then .next s
  else
    let s := State.each b.waiting (fun w s => s.onCtx w.1 w.2 fun x => if x.state = .barrier then { x with fault := some 4 } else x) s
    let cores := (b.waiting.map (·.1)).eraseDups
    .next ((s.breakCounts (die % 4) cores b).onBarrier key fun _ => { limit := b.limit, broken := some s.now, hit := cores })

/-- BARRIER_REOPEN (R379): BARRIER_LIMIT plies after the break, the barrier holds count 0 and takes arrivals again. -/
def execBarrierReopen (die number : Nat) (s : State) : Host.Outcome State Fault Refusal :=
  let key := die % 4 * 1024 + number % 1024
  let b := s.dev.barrier key
  match b.broken with
  | none => .next s
  | some p => if s.now < p + b.limit then .next s else .next (s.onBarrier key fun _ => {})

/-! ### Watchdogs (R385, R386, R458) -/

/-- Is the core's floor broken (R54)? -/
def Dev.floorBroken (d : Dev) (core : Nat) : Bool := match d.siteOf core with
  | some x => (Table.get? (d.tempo (siteDie x)).broken (x % 208)).isSome
  | none => false

/-- Has the next entry of a context been issued to its unit and not completed there: a pass or request under way, or a transfer that the stream engine
has not ready (R369, R385; log entry 44)? -/
def State.onUnit (core ctx : Nat) (s : State) (x : Ctx) (e : Entry) : Bool :=
  ((s.dev.core core).runOf ctx).isSome || decide (e.op = 5) && !s.streamReady core ctx x e

/-- MULT and SLACK for an entry (R385, R392): those at its issue for a pass or request, else those in force. -/
def State.watchOf (core ctx : Nat) (s : State) (x : Ctx) : Nat :=
  if ((s.dev.core core).runOf ctx).isSome then x.watch else s.watchCfg core

/-- Has the watchdog of a context's entry run out (R385)? -/
def State.overrun (core ctx : Nat) (s : State) : Bool :=
  let x := s.ctx core ctx
  match s.dev.entryOf x with
  | some e =>
    let held := s.dev.floorBroken core || decide (e.op = 5) && (s.dev.core core).overDemand.isSome
    let w := s.watchOf core ctx x
    decide (x.state = .running) && x.fault.isNone && !held && s.onUnit core ctx x e &&
      decide (x.since + w % 16 * e.dur + 256 * bits w 19 8 < s.now)
  | none => false

/-- The watchdog of a context's entry expires (R385, R386). -/
def State.watchdog (core ctx : Nat) (s : State) : State :=
  if !s.overrun core ctx then s
  else
      let two : Bool := match (s.dev.core core).lastWatchdog with
        | some q => decide (s.now ≤ q + plies1s)
        | none => false
      let s := ((s.seqCount core 4 1).coreEvent tSeq core 1).onCtx core ctx fun x => { x with fault := some 3 }
      s.onCore core fun y => { y with lastWatchdog := some s.now, failed := if two ∧ y.failed.isNone then some 1 else y.failed }

/-- WATCHDOG (R385): the context's entry has not completed within MULT × DUR + 256 × SLACK plies. It expires with the ply, unless the entry
completes in it (R384; log entry 139). -/
def execWatchdog (core ctx : Nat) (s : State) : Host.Outcome State Fault Refusal :=
  .next (if s.overrun core ctx then s.onCore core fun y => { y with dogs := y.dogs ++ [ctx] } else s)

/-- The watchdogs that expire with the ply (R384). -/
def State.settleDogs (s : State) : State :=
  State.each (s.dev.compute.cores.filter fun e => !e.2.dogs.isEmpty) (fun e s =>
    (State.each e.2.dogs (fun t s => s.watchdog e.1 t) s).onCore e.1 fun y => { y with dogs := [] }) s

/-! ### The order of issue (R31, R368) -/

/-- Can the unit of an entry of a context take it (R310, R368, R402), and are its other conditions met? -/
def State.entryReady (core ctx : Nat) (s : State) (x : Ctx) (e : Entry) : Bool :=
  let written := (s.dev.core core).written ctx && (s.start.core core).written ctx
  match e.op with
  | 0 => decide (e.sub = 0) && (((s.dev.core core).writeFaults ctx).isSome || written)
  | 1 => decide (e.sub = 0) && s.arrayReady core x e
  | 6 => decide (e.sub = 0) && s.tokensReady x && s.unitFree core
  | 7 => decide (e.sub = 0) && s.mvecReady core x
  | 2 => match s.streamedPass x e with
    | some (key, g, next) => (s.treeSegments core ctx e.sub false key next g).isSome
    | none => true
  | 3 | 10 | 11 => true
  | 4 => decide (e.sub ≤ 1)
  | 5 => decide (e.sub = 0) && s.streamReady core ctx x e
  | 8 => decide (e.sub ≤ 3)
  | 9 => decide (e.sub ≤ 1) && written
  | _ => false

/-- What an entry is charged (R377, R455). -/
def entryCost (x : Ctx) (e : Entry) : Nat := if e.op = 1 then arrayCost x e else e.energy

/-- The entries of a context that may be the next to issue: its own next entry, and the STREAM entry that run-ahead reaches (R370). -/
def Dev.places (d : Dev) (x : Ctx) : List (Ctx × Entry) := ((d.entryOf x).map fun e => (x, e)).toList ++ (d.streamPlace x).toList

/-- The state after the grant of an issuable entry of a context (R368): none when the context has no issuable entry. -/
def State.issuing (core ctx : Nat) (s : State) : Option State :=
  let x := s.ctx core ctx
  if !s.canIssue core x then none
  else ((s.dev.places x).filter fun p => (s.dev.core core).entryFree ctx p.2 && s.entryReady core ctx p.1 p.2).findSome? fun p => s.grant core x.task.cls (entryCost p.1 p.2)

/-- Has a context an issuable entry (R368)? -/
def State.issuable (core ctx : Nat) (s : State) : Bool := (s.issuing core ctx).isSome

/-- Does context `a`, number `m`, come before context `b`, number `n`, in the order of issue (R368)? -/
def Ctx.ranks (a b : Ctx) (m n : Nat) : Bool :=
  let c := min 2 (m / 2)
  let d := min 2 (n / 2)
  decide (c < d) || decide (c = d) && (decide (c < 2 ∧ m < n) || decide (c = 2 ∧ (a.task.deadline < b.task.deadline ∨
    a.task.deadline = b.task.deadline ∧ m < n)))

/-- Would what an entry of context `ctx` takes of the general pool be missing to a ready task of the die with an earlier deadline (R31)? -/
def State.spares (core ctx : Nat) (s : State) : Bool :=
  let x := s.ctx core ctx
  match (if 4 ≤ ctx then s.issuing core ctx else none) with
  | none => true
  | some t => (s.dev.compute.cores.filter fun e => decide (coreDie e.1 = coreDie core ∧ e.1 ≠ core)).all fun e =>
      e.2.ctxs.all fun y => decide (y.1 < 4) || !decide (y.2.task.deadline < x.task.deadline) || !s.issuable e.1 y.1 || t.issuable e.1 y.1

/-- Is it a context's turn to issue an entry: none of its core with an issuable entry comes before it (R368), and it takes no energy from an earlier
task (R31; log entry 137)? -/
def State.turn (core ctx : Nat) (s : State) : Bool :=
  ((List.range 16).all fun t => !(s.ctx core t).ranks (s.ctx core ctx) t ctx || !s.issuable core t) && s.spares core ctx

/-- A context issues an entry when it is its turn. -/
def State.inTurn (core ctx : Nat) (run : State → Host.Outcome State Fault Refusal) (s : State) : Host.Outcome State Fault Refusal :=
  if s.turn core ctx then run s else .next s

/-- Has a core issued nothing in the ply though a running context has an issuable entry and the floor holds (R386)? -/
def State.stalls (core : Nat) (s : State) : Bool :=
  decide ((s.dev.core core).lastIssue ≠ some s.now) && !s.dev.floorBroken core && (s.dev.core core).ctxs.any fun e => s.issuable core e.1

/-- ISSUE_STALL (R386): with the present ply the core has stalled for 4,096 plies. -/
def execIssueStall (core : Nat) (s : State) : Host.Outcome State Fault Refusal :=
  let y := s.dev.core core
  if s.stalls core ∧ 4096 ≤ y.stall + 1 ∧ y.failed.isNone then .next (s.onCore core fun y => { y with failed := some 1 }) else .next s

/-- With the end of a ply: the plies that a core has stalled (R386), and the time of entries that no unit has taken, which no watchdog counts (R369,
R385). -/
def State.settleWaits (s : State) : State :=
  State.each s.dev.compute.cores (fun e s =>
    let n := if s.stalls e.1 then (s.dev.core e.1).stall + 1 else 0
    let waits (c : Nat × Ctx) : Bool := decide (c.2.state = .running) && match s.dev.entryOf c.2 with
      | some k => !s.onUnit e.1 c.1 c.2 k
      | none => false
    s.onCore e.1 fun y => { y with stall := n, ctxs := y.ctxs.map fun c => (c.1, if waits c then { c.2 with since := s.now + 1 } else c.2) }) s

/-! ### The sequencer and book pages (R391 to R393) -/

def CtxState.code (c : CtxState) : Nat := match c with
  | .free => 0 | .fetching => 1 | .running => 2 | .barrier => 3 | .adjourned => 4 | .stopping => 5

def Dev.seqRead (d : Dev) (core off : Nat) : Word :=
  let x := d.core core
  let states (b : Nat) : Nat := ((List.range 8).map fun i => (x.ctx (b + i)).state.code * 16 ^ i).sum
  BitVec.ofNat 32 (
    if off = 0x40 then states 0
    else if off = 0x44 then states 8
    else if off = 0x48 then x.pawn.length * 256 + x.queue.length
    else match d.corePage tSeq core with
      | some p => if off = 0x4C ∨ off = 0x50 then d.rg p off else 0
      | none => 0)

/-- STATUS.WD_HELD (R392). -/
def Dev.seqStatus (d : Dev) (core : Nat) : Nat := b2n (d.floorBroken core || (d.core core).overDemand.isSome)

/-- A write of WD_CFG: SLACK 0 and MULT 0 and 1 are refused. -/
def State.seqWrite (page off : Nat) (v : Word) (s : State) : State :=
  let n := v.toNat
  if off = 0x50 ∧ bits n 19 8 ≠ 0 ∧ 2 ≤ n % 16 then s.setReg (addrOf page 0x50) (BitVec.ofNat 32 (bits n 19 8 * 256 + n % 16)) else s

def Dev.bookRead (d : Dev) (off : Nat) : Word :=
  if !d.startUp.bookLoaded then 0
  else BitVec.ofNat 32 (if off = 0x40 then Bytes.le d.book 4 4 else if off = 0x44 then Bytes.le d.book 2 2 else 0)

end Sys2Proof.Machine
end

