-- ==== Sys2Proof/Machine/Issue.lean ====
section
/-! DEFINITION. The commands that issue an entry of a schedule table (R368, R373): each issues the entry of its context when it is the context's
turn in the order of issue. -/
namespace Sys2Proof.Machine

/-- END (R373, R411), in its turn. -/
def execEnd (core ctx : Nat) (s : State) : Host.Outcome State Fault Refusal := s.inTurn core ctx (issueEnd core ctx)

/-- LOOP (R374), in its turn. -/
def execLoop (core ctx : Nat) (s : State) : Host.Outcome State Fault Refusal := s.inTurn core ctx (issueLoop core ctx)

/-- NEXT (R374), in its turn. -/
def execNext (core ctx : Nat) (s : State) : Host.Outcome State Fault Refusal := s.inTurn core ctx (issueNext core ctx)

/-- BARRIER_WAIT (R378), in its turn. -/
def execBarrierWait (core ctx : Nat) (s : State) : Host.Outcome State Fault Refusal := s.inTurn core ctx (issueBarrierWait core ctx)

/-- BARRIER_ARRIVE (R378), in its turn. -/
def execBarrierArrive (core ctx : Nat) (s : State) : Host.Outcome State Fault Refusal := s.inTurn core ctx (issueBarrierArrive core ctx)

/-- FRONT (R246), in its turn. -/
def execFront (core ctx : Nat) (s : State) : Host.Outcome State Fault Refusal := s.inTurn core ctx (issueFront core ctx)

/-- LOOKUP (R210 to R213, R342), in its turn. -/
def execLookup (core ctx : Nat) (bad1 bad2 badState overflow : Bool) (s : State) : Host.Outcome State Fault Refusal := s.inTurn core ctx (issueLookup core ctx bad1 bad2 badState overflow)

/-- EMIT_TOKEN (R345, R349), in its turn. -/
def execEmitToken (core ctx : Nat) (s : State) : Host.Outcome State Fault Refusal := s.inTurn core ctx (issueEmitToken core ctx)

/-- EMIT_RESULT (R349), in its turn. -/
def execEmitResult (core ctx : Nat) (s : State) : Host.Outcome State Fault Refusal := s.inTurn core ctx (issueEmitResult core ctx)

/-- EMIT_STATE (R352), in its turn. -/
def execEmitState (core ctx : Nat) (bad : Bool) (s : State) : Host.Outcome State Fault Refusal := s.inTurn core ctx (issueEmitState core ctx bad)

/-- TREE (R261, R263, R264, R271), in its turn. -/
def execTree (core ctx : Nat) (rows comps : List Nat) (corrected : Nat) (s : State) : Host.Outcome State Fault Refusal := s.inTurn core ctx (issueTree core ctx rows comps corrected)

/-- EMIT_VERDICT (R264, R380), in its turn. -/
def execEmitVerdict (core ctx : Nat) (s : State) : Host.Outcome State Fault Refusal := s.inTurn core ctx (issueEmitVerdict core ctx)

/-- ARRAY (R314, R324), in its turn. -/
def execArray (core ctx : Nat) (s : State) : Host.Outcome State Fault Refusal := s.inTurn core ctx (issueArray core ctx)

/-- MVEC (R321, R351), in its turn. -/
def execMvec (core ctx : Nat) (s : State) : Host.Outcome State Fault Refusal := s.inTurn core ctx (issueMvec core ctx)

/-- RESCALE (R293, R345, R373), in its turn. -/
def execRescale (core ctx : Nat) (s : State) : Host.Outcome State Fault Refusal := s.inTurn core ctx (issueRescale core ctx)

/-- ARM (R402, R404, R408), in its turn. -/
def execArm (core ctx : Nat) (s : State) : Host.Outcome State Fault Refusal := s.inTurn core ctx (issueArm core ctx)

/-- REARM (R408), in its turn. -/
def execRearm (core ctx : Nat) (s : State) : Host.Outcome State Fault Refusal := s.inTurn core ctx (issueRearm core ctx)

/-- ACQUIRE (R402, R409, R410), in its turn. -/
def execAcquire (core ctx : Nat) (s : State) : Host.Outcome State Fault Refusal := s.inTurn core ctx (issueAcquire core ctx)

/-- RELEASE (R402), in its turn. -/
def execRelease (core ctx : Nat) (s : State) : Host.Outcome State Fault Refusal := s.inTurn core ctx (issueRelease core ctx)

/-- FLUSH (R411), in its turn. -/
def execFlush (core ctx : Nat) (s : State) : Host.Outcome State Fault Refusal := s.inTurn core ctx (issueFlush core ctx)

/-- STREAM_CLOSE (R402), in its turn. -/
def execStreamClose (core ctx : Nat) (s : State) : Host.Outcome State Fault Refusal := s.inTurn core ctx (issueStreamClose core ctx)

end Sys2Proof.Machine
end

