-- ==== Sys2Proof/Machine/Power.lean ====
section
/-! DEFINITION. Power, heat and the tempo governor (R443 to R463): speed reports, the governor interval with its voltage, thermal scale, budget window
and shedding stage, thermal trips and rail faults, and the tempo and thermal pages. -/
namespace Sys2Proof.Machine

/-! ### Readings (R443, R462) -/

/-- A temperature in units of 0.25 °C from its 12 bits. -/
def temp (v : Nat) : Int := sext 12 v

/-- A temperature in °C, in units of 0.25 °C. -/
def degrees (c : Nat) : Int := ((4 * c : Nat) : Int)

/-- The highest reading, and the site that gives it; 800h before a value. -/
def hottest (t : Table Nat) : Nat × Nat := t.foldl (fun b e => if temp b.2 < temp e.2 then e else b) (0, 0x800)

/-- Active sites of a die that have reported a step, with the step. -/
def Dev.dieSteps (d : Dev) (die : Nat) : List (Nat × Nat) :=
  (d.tempo die).steps.filter fun e => decide ((d.site (208 * die + e.1)).state = .active)

/-- The slowest step of a die and its local site. -/
def slowest (l : List (Nat × Nat)) : Nat × Nat := l.foldl (fun b e => if b.2 < e.2 then e else b) (0, 0)

/-- Is an active core's floor broken on the die (R54)? -/
def Dev.dieBroken (d : Dev) (die : Nat) : Bool :=
  (d.tempo die).broken.any fun e => decide ((d.site (208 * die + e.1)).state = .active)

/-- A site's step is now `step` sixteenths of a ply: above 32 its floor is broken, and otherwise it is regained (R54, R385). -/
def State.setStep (site step : Nat) (s : State) : State :=
    let die := siteDie site
    let i := site % 208
    let was := Table.get? (s.dev.tempo die).broken i
    let active := decide ((s.dev.site site).state = .active)
    let s := s.onTempo die fun t => { t with steps := Table.put t.steps i step }
    if 32 < step then
      if was.isSome then s
      else
        let s := s.onTempo die fun t => { t with broken := Table.put t.broken i s.now }
        if active then s.setEvent (pageOf tTempo die) 2 else s
    else
      match was with
      | none => s
      | some p =>
        let s := s.onTempo die fun t => { t with broken := Table.erase t.broken i }
        match s.dev.coreAt site with
        | some c => s.onCore c fun x =>
            { x with ctxs := x.ctxs.map fun e => (e.1, if e.2.state = .running then e.2.resume p s.now else e.2) }
        | none => s

/-- SPEED_REPORT (R54, R443): a site reports its step in 1/16 ply. -/
def execSpeedReport (site step : Nat) (s : State) : Host.Outcome State Fault Refusal :=
  if 832 ≤ site ∨ 256 ≤ step ∨ s.dev.halted then .next s else .next (s.setStep site step)

/-! ### The governor interval (R445 to R457) -/

/-- The governor's configuration of a die, as at the start of the ply (R459). -/
structure GovCfg where
  cap : Nat
  pawn : Nat
  bg : Nat
  logicLimit : Int
  logicHigh : Int
  dramLimit : Int
  dramHigh : Int
  clears : Nat
  guard : Nat
  target : Nat
  deriving DecidableEq, Repr

def Dev.govCfg (d : Dev) (die : Nat) : GovCfg :=
  let p := d.rg (pageOf tTempo die) 0x48
  let t := d.rg (pageOf tTempo die) 0x4C
  let g := d.rg (pageOf tTempo die) 0x50
  { cap := p / 65536, pawn := bits p 15 8, bg := p % 256, logicLimit := degrees (t / 2 ^ 24), logicHigh := degrees (bits t 23 16)
    dramLimit := degrees (bits t 15 8), dramHigh := degrees (t % 256), clears := g / 65536, guard := bits g 15 8, target := g % 256 }

/-- VCORE after an interval (R447), in 5 mV units: 120 to 180. It stays while no active core has reported a step. -/
def nextVcore (c : GovCfg) (s : Nat) (logic dram : Int) (watts v : Nat) : Nat :=
  let up := if v < 180 then v + 1 else v
  let down := if 120 < v then v - 1 else v
  if s = 0 then v
  else if c.guard < s then (if logic < c.logicLimit then up else v)
  else if c.target < s ∧ logic < c.logicHigh ∧ dram < c.dramHigh ∧ watts ≤ c.cap then up
  else if s + 2 < c.target then down
  else if (c.logicHigh ≤ logic ∨ c.dramHigh ≤ dram) ∧ s + 2 < c.guard then down
  else v

/-- SCALE after an interval (R448). -/
def nextScale (c : GovCfg) (logic dram : Int) (k : Nat) : Nat :=
  if c.logicHigh ≤ logic ∨ c.dramHigh ≤ dram then max 32 (k - 4)
  else if logic + 12 ≤ c.logicHigh ∧ dram + 12 ≤ c.dramHigh then min 128 (k + 1)
  else k

/-- The pools of a window (R449): pawn, background, general. What a background task takes of its pool is not stated (log entry 141). -/
def pools (cap scale pawnShare bgShare : Nat) : Nat × Nat × Nat :=
  let b := cap * 10240 * scale / 128
  let p := b * pawnShare / 256
  let g := b * bgShare / 256
  (p, g, b - p - g)

/-- The emergency and the clear condition of R456. -/
def emergency (c : GovCfg) (broken : Bool) (logic dram : Int) (watts : Nat) : Bool :=
  broken || decide (c.logicLimit ≤ logic ∨ c.dramLimit ≤ dram ∨ 11 * c.cap < 10 * watts)

def clearCond (c : GovCfg) (s : Nat) (logic dram : Int) (watts : Nat) : Bool :=
  decide (s ≤ c.guard ∧ logic + 20 ≤ c.logicLimit ∧ dram + 12 ≤ c.dramLimit ∧ watts ≤ c.cap)

/-- The stage after an interval, and the clear intervals counted (R456). -/
def nextStage (c : GovCfg) (broken emerg clear : Bool) (stage n : Nat) : Nat × Nat :=
  if emerg then (if stage < 2 then stage + 1 else if broken then 3 else stage, 0)
  else if clear ∧ 0 < stage then (if c.clears ≤ n + 1 then (stage - 1, 0) else (stage, n + 1))
  else (stage, 0)

/-- Shed what a stage sheds (R457): tasks are cancelled, and from stage 2 on closed streamed batches are discarded. -/
def State.shed (die stage : Nat) (s : State) : State :=
  let cores := (s.dev.compute.cores.filter fun e => decide (coreDie e.1 = die)).map (·.1)
  State.each cores (fun c s =>
    let x := s.dev.core c
    let hit := x.ctxs.filter fun e =>
      decide (e.2.state ≠ .free ∧ e.2.state ≠ .stopping) && !e.2.cancel && e.2.fault.isNone && (sheds stage e.2.task.owner e.2.task.cls).isSome
    let s := State.each hit (fun e s =>
      match sheds stage e.2.task.owner e.2.task.cls with
      | some k => (s.onCtx c e.1 fun y => { y with cancel := true }).countShed die k
      | none => s) s
    if 2 ≤ stage ∧ !x.closed.isEmpty then
      ((s.dropPackets (x.closed.flatMap fun b => b.items)).onCore c fun y => { y with closed := [] }).tempoCount die 7 x.closed.length
    else s) s

/-- Change the tasks of a core that wait for admission. -/
def CoreState.markTasks (mark : TaskDesc → TaskDesc) (x : CoreState) : CoreState :=
  let adj (y : Ctx) : Ctx := if y.state = .adjourned then { y with task := mark y.task } else y
  { x with tasks := x.tasks.map mark, ctxs := x.ctxs.map fun y => (y.1, adj y.2) }

/-- A die's earliest queued task is tested at the window's start (R452): failures in succession are kept with the task. -/
def State.windowTest (die : Nat) (s : State) : State :=
  match s.dev.dieFirst die with
  | none => s
  | some f =>
    let fails := decide ((s.dev.tempo die).general < s.dev.rateOf f + s.dev.committed die)
    let mark (t : TaskDesc) : TaskDesc := if t = f ∧ fails then { t with fails := t.fails + 1 } else { t with fails := 0 }
    let cores := (s.dev.compute.cores.filter fun e => decide (coreDie e.1 = die)).map (·.1)
    let s := State.each cores (fun c => State.onCore c (CoreState.markTasks mark)) s
    if fails ∧ 64 ≤ f.fails + 1 then s.tempoCount die 4 1 else s

/-- While the committed rate exceeds the new window's general pool, the governor asks one array pass of each core to adjourn: the one whose task has
the latest DEADLINE (R454). -/
def State.askSeals (die : Nat) (s : State) : State :=
  if s.dev.committed die ≤ (s.dev.tempo die).general then s
  else
    State.each (s.dev.compute.cores.filter fun e => decide (coreDie e.1 = die) && e.2.adjourn.isNone) (fun e s =>
      match s.latestRun e.1 with
      | some r => if s.canSeal r ∧ !(s.ctx e.1 r.ctx).cancel then (s.onCore e.1 fun x => { x with adjourn := some r.ctx }).tempoCount die 5 1 else s
      | none => s) s

/-- An interval of a compute die ends (R445, R447 to R457), with new readings and the die's power. -/
def State.endInterval (die : Nat) (logic dram : List (Nat × Nat)) (watts : Nat) (s : State) : State :=
    let page := pageOf tTempo die
    let c := s.start.govCfg die
    let t0 := s.dev.tempo die
    let readings (t : Table Nat) (l : List (Nat × Nat)) : Table Nat := l.foldl (fun t e => Table.put t (e.1 % 208) (e.2 % 4096)) t
    let lt := readings t0.logic logic
    let dt := readings t0.dram dram
    let lmax := temp (hottest lt).2
    let dmax := temp (hottest dt).2
    -- refresh (R445)
    let hot := (dt.filter fun e => decide (340 ≤ temp e.2) || t0.hot.contains e.1 && decide (328 < temp e.2)).map (·.1)
    let begins := hot.any fun v => !t0.hot.contains v
    -- voltage, scale and stage
    let st := (slowest (s.dev.dieSteps die)).2
    let broken := s.dev.dieBroken die
    let vcore := nextVcore c st lmax dmax watts t0.vcore
    let scale := nextScale c lmax dmax t0.scale
    let ans := nextStage c broken (emergency c broken lmax dmax watts) (clearCond c st lmax dmax watts) t0.stage t0.clears
    let stage := ans.1
    let clears := ans.2
    -- the new window's budget, with SCALE as at its first ply
    let ans := pools c.cap (s.start.tempo die).scale c.pawn c.bg
    let pawn := ans.1
    let bg := ans.2.1
    let general := ans.2.2
    let s := s.onTempo die fun t =>
      { t with
        logic := lt, dram := dt, hot, vcore, scale, stage, clears
        pawn, bg, general := general - min t.debt general
        pawnSpent := 0, relSpent := 0, genSpent := 0, bgSpent := 0, debt := 0, window := t.window + 1, interval := some s.now, watts
        logicHigh := decide (c.logicHigh ≤ lmax), dramHigh := decide (c.dramHigh ≤ dmax)
        stage3 := if stage = 3 then t.stage3 + 1 else 0 }
    let ev (b : Bool) (k : Nat) : Word := if b then oneBit k else 0
    let up := decide (t0.stage < stage)
    let s := s.setEvents page (ev up 0 ||| ev (decide (stage < t0.stage)) 1 ||| ev (decide (c.logicHigh ≤ lmax) && !t0.logicHigh) 3 |||
      ev (decide (c.dramHigh ≤ dmax) && !t0.dramHigh) 4 ||| ev begins 5)
    let s := (((((s.tempoCount die 0 1).tempoCount die 2 (b2n (decide (0 < t0.debt)))).tempoCount die 9 (b2n broken)).tempoCount die 10
      (b2n (!hot.isEmpty))).tempoCount die 11 (b2n up)).windowTest die
    let s := if up then s.shed die stage else s
    let wear (w : Table Nat) : Table Nat :=
      (lt.filter fun e => decide (340 ≤ temp e.2)).foldl (fun w e => Table.modify 0 w (die * 208 + e.1) (· + 1)) w
    (s.onReliab fun r => { r with wear := wear r.wear }).askSeals die

/-- Does a die's interval end in this ply, and has it not ended yet (R447)? -/
def State.intervalDue (die : Nat) (s : State) : Bool := decide (s.now % 1024 = 0 ∧ (s.dev.tempo die).interval ≠ some s.now) && !s.dev.halted

/-- GOVERNOR_INTERVAL (R447): an interval of a compute die ends. `logic` and `dram` are the new readings by local site, `watts` the die's power, and
`pkg`, `port0` and `port1` the package power and the port dies' readings (R463). -/
def execGovernorInterval (die : Nat) (logic dram : List (Nat × Nat)) (watts pkg port0 port1 : Nat) (s : State) : Host.Outcome State Fault Refusal :=
  if 4 ≤ die || !s.intervalDue die then .next s
  else
    let s := s.endInterval die logic dram watts
    let ev (b : Bool) (k : Nat) : Word := if b then oneBit k else 0
    let p := s.dev.power
    let s := s.setEvents pgThermal (ev (decide (temp p.port0 < 420 ∧ 420 ≤ temp port0)) 0 ||| ev (decide (temp p.port1 < 420 ∧ 420 ≤ temp port1)) 1)
    .next (s.onPower fun p => { p with watts := pkg % 65536, port0 := port0 % 4096, port1 := port1 % 4096 })

/-- Intervals that no command has ended end with the ply, on the readings that the die has (R447; log entry 135). -/
def State.settleIntervals (s : State) : State :=
  State.each (List.range 4) (fun die s => if s.intervalDue die then s.endInterval die [] [] (s.dev.tempo die).watts else s) s

/-! ### Trips and rail faults (R446, R564, R566) -/

/-- Squelch every transmitter; links that lose their transmitter go down (R140, log entry 46). -/
def State.squelchAll (s : State) : State :=
  State.each allPorts (fun p s => (s.portDown p).onPort p fun q => { q with squelched := true }) s

/-- THERMAL_TRIP (R446): `kind` 0 a logic reading, 1 a DRAM reading, 2 a port-die reading; `die` and `site` give the place. -/
def execThermalTrip (kind die site reading : Nat) (s : State) : Host.Outcome State Fault Refusal :=
  let limit := if kind = 1 then 400 else 460
  if temp reading < limit ∨ s.dev.power.tripped ∨ !s.dev.startUp.powerGood then .next s
  else
    let s := if kind = 0 then s.onTempo die fun t => { t with logic := Table.put t.logic (site % 208) (reading % 4096) }
      else if kind = 1 then s.onTempo die fun t => { t with dram := Table.put t.dram (site % 208) (reading % 4096) }
      else s.onPower fun p => if die = 0 then { p with port0 := reading % 4096 } else { p with port1 := reading % 4096 }
    .next ((s.onPower fun p => { p with tripped := true }).squelchAll)

/-- RAIL_FAULT (R564): rail `rail` of R562 has stayed out of range for more than 1 µs. -/
def execRailFault (rail : Nat) (s : State) : Host.Outcome State Fault Refusal :=
  if 7 ≤ rail ∨ !s.dev.startUp.powerGood ∨ bit s.dev.power.rails rail then .next s
  else .next ((s.onPower fun p => { p with rails := p.rails + 2 ^ rail }).squelchAll)

/-- FAULT_N is asserted (R566). -/
def Dev.faultN (d : Dev) : Bool := d.power.tripped || decide (d.power.rails ≠ 0) || d.power.noSlot || d.power.bookFailed

/-! ### The tempo and thermal pages (R461 to R463) -/

def Dev.tempoRead (d : Dev) (die off : Nat) : Word :=
  let t := d.tempo die
  let ans := slowest (d.dieSteps die)
  let site := ans.1
  let step := ans.2
  let ans := hottest t.logic
  let lg := ans.2
  let ans := hottest t.dram
  let v := ans.1
  let dr := ans.2
  BitVec.ofNat 32 (
    if off = 0x40 then t.stage % 4 * 2 ^ 30 + b2n (d.dieBroken die) * 2 ^ 29 + b2n (!t.hot.isEmpty) * 2 ^ 28 +
      (if step = 0 then 0 else 208 * die + site) % 1024 * 2 ^ 18 + step % 256 * 256 + t.vcore % 256
    else if off = 0x44 then lg * 2 ^ 20 + dr * 256 + v % 256
    else if 0x48 ≤ off ∧ off ≤ 0x50 then d.rg (pageOf tTempo die) off
    else if off = 0x54 then t.scale % 256 * 2 ^ 24 + (t.general - t.genSpent) % 2 ^ 24
    else 0)

/-- Writes of the tempo page: a value outside its range is refused (R462). -/
def State.tempoWrite (page off : Nat) (v : Word) (s : State) : State :=
  let n := v.toNat
  let ok :=
    if off = 0x48 then decide (100 ≤ n / 65536 ∧ n / 65536 ≤ 300 ∧ 4 ≤ n % 256 ∧ bits n 15 8 + n % 256 ≤ 224)
    else if off = 0x4C then
      decide (80 ≤ n / 2 ^ 24 ∧ n / 2 ^ 24 ≤ 105 ∧ bits n 23 16 < n / 2 ^ 24 ∧ 70 ≤ bits n 15 8 ∧ bits n 15 8 ≤ 95 ∧ n % 256 < bits n 15 8)
    else if off = 0x50 then
      decide (1 ≤ n / 65536 ∧ 16 ≤ n % 256 ∧ n % 256 ≤ 29 ∧ n % 256 < bits n 15 8 ∧ bits n 15 8 ≤ 31)
    else false
  if ok then s.setReg (addrOf page off) v else s

/-- STAGES (R463): two bits a die. -/
def Dev.stages (d : Dev) : Nat := ((List.range 4).map fun k => (d.tempo k).stage % 4 * 4 ^ k).sum

def Dev.thermalRead (d : Dev) (off : Nat) : Word :=
  BitVec.ofNat 32 (if off = 0x40 then d.power.watts % 65536 else if off = 0x44 then d.power.port1 % 4096 * 65536 + d.power.port0 % 4096 else 0)

end Sys2Proof.Machine
end

