-- ==== Sys2Proof/Machine/Signatures.lean ====
section
/-! DEFINITION. The HSS parameter sets the device accepts (R465), in the formats of RFC 8554. -/
namespace Sys2Proof.Machine

/-- Height of an accepted LMS type: SHA-256, 32 bytes, H5 to H25. -/
def lmsHeight (ty : Nat) : Option Nat := if 5 ≤ ty ∧ ty ≤ 9 then some (5 * (ty - 4)) else none

/-- Bytes of a signature of an accepted LM-OTS type: W1, W2, W4, W8. -/
def otsLen (ty : Nat) : Option Nat := match ty with
  | 1 => some (4 + 32 * 266)
  | 2 => some (4 + 32 * 134)
  | 3 => some (4 + 32 * 68)
  | 4 => some (4 + 32 * 35)
  | _ => none

/-- The first refused field of an HSS public key, by its offset in the key: levels, LMS type, LM-OTS type. -/
def hssKeyBad (key : Bytes) : Option Nat :=
  if Bytes.be key 0 4 = 0 ∨ 4 < Bytes.be key 0 4 then some 0
  else if (lmsHeight (Bytes.be key 4 4)).isNone then some 4
  else if (otsLen (Bytes.be key 8 4)).isNone then some 8
  else none

/-- Does the rest of a signature, from one level's LMS signature at offset `o` under a key of the given types, use accepted sets throughout?
`more` is the number of levels below. -/
def hssLevels (sig : Bytes) (more lms ots o : Nat) : Bool :=
  match lmsHeight lms, otsLen ots with
  | some h, some n =>
    let next := o + 4 + n + 4 + 32 * h
    decide (Bytes.be sig (o + 4) 4 = ots ∧ Bytes.be sig (o + 4 + n) 4 = lms) &&
      match more with
      | 0 => decide (next = sig.length)
      | k + 1 => hssLevels sig k (Bytes.be sig next 4) (Bytes.be sig (next + 4) 4) (next + 56)
  | _, _ => false

/-- Does a signature verify under a key, both with accepted parameter sets (R465)? -/
def hssGood (key msg sig : Bytes) : Bool :=
  (hssKeyBad key).isNone && decide (key.length = 60) && decide (Bytes.be sig 0 4 + 1 = Bytes.be key 0 4) &&
    hssLevels sig (Bytes.be sig 0 4) (Bytes.be key 4 4) (Bytes.be key 8 4) 4 && Config.hssVerify key msg sig

end Sys2Proof.Machine
end

