-- ==== Sys2Proof/Machine/ImageChecks.lean ====
section
/-! DEFINITION. What staging checks of a model image (R426): steps 1 (R420 to R422) and 5 (R423, R240, R268, R281, R303, R305, R331, R334, R351, R374,
R376, R403). Each check gives the offsets, in the image, of the structures it refuses. -/
namespace Sys2Proof.Machine

/-- The least of a list of offsets. -/
def least (l : List Nat) : Option Nat :=
  l.foldl (fun b n => match b with
    | none => some n
    | some k => some (min k n)) none

/-- The offset when the structure there is refused. -/
def refuseIf (bad : Bool) (off : Nat) : List Nat := if bad then [off] else []

/-- Are `n` bytes of an image all 0? -/
def imgZero (m : Mem) (a n : Nat) : Bool := decide (img m a n = 0)

/-! ### Header and directory (R420, R421) -/

/-- A directory entry. -/
structure DirE where
  ty : Nat
  flags : Nat
  member : Nat
  core : Nat
  resv : Nat
  off : Nat
  len : Nat
  addr : Nat
  deriving DecidableEq, Repr

def dirE (m : Mem) (i : Nat) : DirE :=
  let a := 64 + 32 * i
  { ty := img m a 2, flags := img m (a + 2) 1, member := img m (a + 3) 1, core := img m (a + 4) 2, resv := img m (a + 6) 2
    off := img m (a + 8) 8, len := img m (a + 16) 8, addr := img m (a + 24) 8 }

def dirAll (m : Mem) : List DirE := (List.range (min 64 (imgSections m))).map (dirE m)

def imgSigAt (m : Mem) : Nat := img m 16 8

/-- The header is malformed: kind 1 for a channel, 2 for a deep model. -/
def headerBad (m : Mem) (len kind : Nat) : Bool :=
  let sig := imgSigAt m
  decide (img m 0 4 ≠ 0x4D49574B ∨ img m 4 2 ≠ 1 ∨ img m 6 1 ≠ kind ∨ 15 < img m 7 1 ∨ (kind = 1 ∧ img m 7 1 ≠ 0) ∨ imgSections m = 0 ∨
    64 < imgSections m ∨ sig % 8 ≠ 0 ∨ sig < imgDirEnd m ∨ len < sig + 4 ∨ img m 24 8 ≠ len) ||
    !imgZero m 14 2 || !imgZero m 32 32

/-- Pages a PAGES section covers. -/
def DirE.pages (e : DirE) : Nat × Nat := (e.addr / 2097152, (e.addr + e.len + 2097151) / 2097152)

/-- A directory entry is malformed; `before` are the entries before it, `members` the team's MEMBERS. -/
def dirBad (m : Mem) (kind members : Nat) (before : List DirE) (e : DirE) : Bool :=
  let place := e.flags / 2 % 4
  let meets (f : DirE) : Bool := decide (0 < e.len ∧ 0 < f.len ∧ e.off < f.off + f.len ∧ f.off < e.off + e.len)
  let shares (f : DirE) : Bool := decide (f.ty = secPages ∧ 0 < e.len ∧ 0 < f.len ∧ e.pages.1 < f.pages.2 ∧ f.pages.1 < e.pages.2)
  let others : Nat := ((before ++ [e]).map fun f => if f.ty = secPages then 0 else f.len).sum
  decide (e.ty = 0 ∨ 6 < e.ty ∨ 7 < e.flags ∨ 15 < e.member ∨ e.resv ≠ 0 ∨ e.off % 8 ≠ 0 ∨ e.off < imgDirEnd m ∨ imgSigAt m < e.off + e.len) ||
    (if e.ty = secPages then
      decide (place = 3 ∨ (place = 2 ∧ 800 ≤ e.core) ∨ (place ≠ 2 ∧ e.core ≠ 0) ∨ (kind = 1 ∧ e.member ≠ 0) ∨ (members = 0 ∧ e.member ≠ 0) ∨
        2 ^ 47 < e.addr + e.len ∨ e.addr % 2097152 ≠ 0) || before.any shares
     else decide (e.flags ≠ 0 ∨ e.member ≠ 0 ∨ e.core ≠ 0 ∨ e.addr ≠ 0) || decide (536870912 < others)) || before.any meets

/-- Check the entries in order. -/
def dirRefused (m : Mem) (kind members : Nat) (before : List DirE) (i : Nat) (l : List DirE) : List Nat :=
  match l with
  | [] => []
  | e :: r => refuseIf (dirBad m kind members before e) (64 + 32 * i) ++ dirRefused m kind members (before ++ [e]) (i + 1) r

/-- Sections are there as often as R421's table states. -/
def countsBad (kind : Nat) (l : List DirE) : Bool :=
  let n (ty : Nat) : Nat := l.countP fun e => decide (e.ty = ty)
  let one (k : Nat) : Nat := if kind = k then 1 else 0
  decide (n secBinding ≠ one 1 ∨ n secFeatures ≠ one 1 ∨ n secEnsemble ≠ one 1 ∨ n secVolume ≠ 1 ∨ n secDeep ≠ one 2)

/-- Step 1 of R426: the refused structure that begins lowest. -/
def step1 (m : Mem) (len kind members : Nat) : Option Nat :=
  if headerBad m len kind then some 0
  else
    let l := dirAll m
    least (refuseIf (countsBad kind l) 64 ++ dirRefused m kind members [] 0 l ++
      refuseIf (decide (len ≠ imgSigAt m + 4 + img m (imgSigAt m) 4)) (imgSigAt m))

/-- Length of the section of a type. -/
def secLen (m : Mem) (ty : Nat) : Nat := match sectionOf? m ty with
  | some (_, n) => n
  | none => 0

/-! ### Channel binding (R423) -/

def bindingBad (d : Dev) (g : Generation) (pinned : Bool) : Bool :=
  let m := g.image
  let o := secAt m secBinding
  let f := img m (o + 2) 1
  let deep := bit f 3
  let new := bit f 4
  let bound := img m (o + 4) 4
  let n := img m (o + 20) 1
  let cores := Mem.readBytes m (o + 88) 100
  let sched := 2 ^ 28 + g.target * 65536 + g.pawnTable
  let v : Volume := .image m (secAt m secVolume)
  let t := v.le (16 + 8 * (sched % 4096)) 4
  decide (secLen m secBinding ≠ 192 ∨ img m o 2 ≠ 1 ∨ 31 < f ∨ 15 < img m (o + 3) 1) || decide (bit f 0 ≠ pinned) ||
    (!deep && (!imgZero m (o + 3) 1 || !imgZero m (o + 20) 1)) ||
    decide (bound = 0 ∨ (if pinned then 3125 else 62500) < bound) || (pinned && !imgZero m (o + 8) 4) ||
    decide (15625000 < img m (o + 12) 4 ∨ 1024 < img m (o + 18) 2 ∨ 64 < n) || !imgZero m (o + 21) 3 || !imgZero m (o + 188) 4 ||
    !imgZero m (o + 24 + min n 64) (64 - min n 64) ||
    (List.range n).any (fun j => decide (g.featCount ≤ g.tokenMap j)) ||
    (if new then (coreList cores).isEmpty || (coreList cores).any d.vacant else !allZero cores) ||
    decide (v.le 2 2 ≤ g.pawnTable) || decide (tblClass v t ≠ (if pinned then 0 else 1) ∨ tblLoopMax v t 0 = 0)

/-! ### Feature program (R238 to R240) -/

def featHeaderBad (g : Generation) : Bool :=
  let m := g.image
  let o := secAt m secFeatures
  let n := g.featCount
  let adaptive := (List.range n).any g.ftAdapt
  let tl := img m (o + 8) 4
  decide (img m o 2 ≠ 1 ∨ n = 0 ∨ 256 < n ∨ tl % 8 ≠ 0 ∨ 262144 < tl ∨ secLen m secFeatures ≠ 16 + 32 * n + tl) || !imgZero m (o + 5) 3 ||
    !imgZero m (o + 12) 4 || (if adaptive then decide (g.windowLog < 16 ∨ 30 < g.windowLog) else decide (g.windowLog ≠ 0))

/-- Feature entry `i` is malformed. -/
def featEntryBad (g : Generation) (i : Nat) : Bool :=
  let f (off n : Nat) : Nat := g.ft i off n
  let b0 := f 0 1
  let src := b0 % 8
  let tr := b0 / 8 % 8
  let adapt := bit b0 6
  let cross := decide (src = 4)
  let a := f 1 1
  let bt := f 2 1
  let w := f 3 1
  let p := f 16 1
  let lo := f 17 1
  let hi := f 18 1
  let e := sext 8 (f 19 1)
  let toff := f 20 4
  let tl := img g.image (secAt g.image secFeatures + 8) 4
  let field := decide (src ≤ 1)
  decide (128 ≤ b0 ∨ 4 < src ∨ 2 < tr ∨ (cross ∧ tr ≠ 0) ∨ 8 ≤ bt ∨ 64 ≤ w ∨ (!cross ∧ f 4 1 ≠ 0) ∨ 32 ≤ f 5 1 ∨ (16 ≤ f 5 1 ∧ f 5 1 ≠ 31)) ||
    (adapt && (decide (tr ≠ 0) || cross)) || (field && (decide (w = 0 ∨ 32 < w) || decide ((if src = 0 then 1024 else 512) < 8 * a + bt + w))) ||
    (decide (src = 3) && decide (64 ≤ a ∨ e < -32 ∨ 31 < e)) || (!cross && decide (tr ≠ 2) && decide (f 10 2 ≠ 0)) || (cross && decide (f 10 2 ≠ 0)) ||
    (!cross && decide (tr = 0) && decide (31 < p)) ||
    (!cross && decide (tr = 1) && decide (p = 0 ∨ 64 < p)) || (!cross && decide (tr = 2) && decide (p = 0 ∨ 12 < p)) ||
    decide (31 < lo ∨ 31 < hi) || (adapt && decide (p < lo ∨ hi < p)) || decide (toff % 8 ≠ 0) || decide (f 28 4 ≠ 0) ||
    (cross && decide (f 24 4 = 0 ∨ 65536 < f 24 4 ∨ 8 * (i / 8) ≤ a ∨ 8 * (i / 8) ≤ f 4 1)) ||
    (!cross && decide (tr = 1) && decide (tl < toff + 8 * p)) || (!cross && decide (tr = 2) && decide (tl < toff + 2 * 2 ^ p))

/-- A bin table is not strictly ascending, or holds a value outside its range (R240). -/
def featTableBad (g : Generation) (i : Nat) : Bool :=
  let toff := g.ft i 20 4
  let n := g.ft i 16 1
  let v (k : Nat) : Int := sext 64 (g.ftTable (toff + 8 * k) 8)
  decide (g.ftSource i ≠ 4 ∧ g.ftTransform i = 1) &&
    ((List.range n).any (fun k => decide (v k < -(2 ^ 32) ∨ 2 ^ 32 - 1 < v k)) || (List.range (n - 1)).any fun k => decide (v (k + 1) ≤ v k))

def featRefused (g : Generation) : List Nat :=
  let o := secAt g.image secFeatures
  let n := g.featCount
  refuseIf (featHeaderBad g) o ++
    (if 256 < n then [] else (List.range n).flatMap fun i =>
      refuseIf (featEntryBad g i) (o + 16 + 32 * i) ++
        refuseIf (!featEntryBad g i && featTableBad g i) (o + 16 + 32 * n + g.ft i 20 4))

/-! ### Tree ensemble (R265 to R268, R331) -/

def inRange24 (v : Int) : Bool := decide (-8388608 ≤ v ∧ v ≤ 8388607)

def ensHeaderBad (g : Generation) (pinned : Bool) : Bool :=
  let m := g.image
  let o := secAt m secEnsemble
  let k := g.classes
  let n := img m (o + 6) 1
  decide (img m o 2 ≠ 1 ∨ g.segments = 0 ∨ (if pinned then 4 else 1024) < g.segments ∨ k = 0 ∨ 16 < k ∨ 64 ≤ img m (o + 4) 1 ∨ 16 ≤ img m (o + 5) 1 ∨
    n = 0 ∨ 32 < n ∨ n ≤ g.defaultAction ∨ secLen m secEnsemble ≠ 208 + 98816 * g.segments) || !imgZero m (o + 12) 4 || !inRange24 g.thresh ||
    (List.range 16).any (fun c => !inRange24 (g.bias c) || decide (k ≤ c) && decide (g.bias c ≠ 0)) ||
    (if g.decideThresh then decide (n < 2 ∨ k ≤ g.threshClass) else decide (n < k ∨ g.threshClass ≠ 0))

/-- Action entry `a` is malformed; PROMOTE needs a deep-model slot (R331). -/
def actionBad (g : Generation) (a : Nat) : Bool :=
  let w := g.rd secEnsemble (80 + 4 * a) 4
  if g.rd secEnsemble 6 1 ≤ a then decide (w ≠ 0) else decide (2 ^ 28 ≤ w ∨ bits w 25 24 = 3) || (bit w 26 && !g.usesDeep)

/-- A leaf-value or default word is malformed. -/
def wordBad (g : Generation) (w : Nat) : Bool := decide (g.classes ≤ bits w 19 16 ∨ 2 ^ 20 ≤ w)

/-- Refused structures of segment `i`. -/
def segRefused (g : Generation) (i : Nat) : List Nat :=
  let o := secAt g.image secEnsemble + 208 + 98816 * i
  let gang (j : Nat) : Nat := g.gang i j
  let gangBad := (List.range 64).any fun j =>
    decide (gang j = 1 ∧ gang (j / 2 * 2 + (1 - j % 2)) ≠ 1) || decide (gang j = 2) && (List.range 4).any fun q => decide (gang (j / 4 * 4 + q) ≠ 2)
  let head (j : Nat) : Bool := decide (gang j = 1 ∧ j % 2 = 0 ∨ gang j = 2 ∧ j % 4 ≠ 3)
  refuseIf gangBad o ++ refuseIf (!imgZero g.image (o + 16) 16) (o + 16) ++
    (List.range 64).flatMap (fun j => refuseIf (wordBad g (g.sg i (32 + 4 * j) 4)) (o + 32 + 4 * j)) ++
    refuseIf (!imgZero g.image (o + 288) 224) (o + 288) ++
    (List.range 4096).flatMap (fun e =>
      let w := g.sg i (512 + 4 * e) 4
      let f := bits w 23 16
      refuseIf (decide (2 ^ 25 ≤ w) || bit w 24 && (decide (gang (e / 64) = 3 ∨ g.featCount ≤ f) || decide (e % 64 = 63) && !head (e / 64) || g.ftAdapt f))
        (o + 512 + 4 * e)) ++
    (List.range 4096).flatMap (fun e =>
      let a := 16896 + 16 * e
      let v := g.sg i a 8
      let c := g.sg i (a + 8) 8
      refuseIf (decide (v &&& c ≠ v) || decide (gang (e / 64) = 3) && g.live i (e / 64) (e % 64)) (o + a)) ++
    (List.range 4096).flatMap fun e => refuseIf (wordBad g (g.sg i (82432 + 4 * e) 4)) (o + 82432 + 4 * e)

def ensRefused (g : Generation) (pinned : Bool) : List Nat :=
  let o := secAt g.image secEnsemble
  if ensHeaderBad g pinned then [o]
  else (List.range 32).flatMap (fun a => refuseIf (actionBad g a) (o + 80 + 4 * a)) ++ (List.range g.segments).flatMap (segRefused g)

/-! ### Layer descriptors (R301 to R307, R281, R351) -/

/-- Offset in the image of a model address that a PAGES section of it covers. -/
def pageOffset (m : Mem) (a : Nat) : Option Nat :=
  ((pagesOf m).find? fun p => decide (p.addr ≤ a % 2 ^ 47 ∧ a % 2 ^ 47 < p.addr + p.length)).map fun p => p.offset + (a % 2 ^ 47 - p.addr)

/-- A byte of the model as the image gives it; a page's bytes beyond its section are 0. -/
def modelByte (m : Mem) (a : Nat) : Byte := match pageOffset m a with
  | some o => Mem.read m o
  | none => 0

/-- A signed 6-bit exponent whose code 100000b is refused. -/
def expBad (v : Nat) : Bool := decide (64 ≤ v ∨ v = 32)

/-- The descriptor's 64 bytes break R301, R303 or R351; `n` is the number of codes ISRC 2 reads. -/
def layerBad (b : Bytes) (n : Nat) : Bool :=
  let f2 := Bytes.at b 2
  let f3 := Bytes.at b 3
  let mode := f2 % 4
  let regions := f2 / 4 % 4
  let ofmt := f3 / 8 % 4
  let isrc := f3 / 32 % 4
  let g := Bytes.at b 4 % 4
  let k := Bytes.le b 8 4
  let c := Bytes.le b 12 4
  let adapt := Bytes.at b 17
  decide (Bytes.le b 0 2 ≠ 1 ∨ 64 ≤ f2 ∨ regions = 3 ∨ (mode ≠ 2 ∧ regions ≠ 0) ∨ (bit f2 4 ∧ mode ≠ 1) ∨ f3 % 4 = 0 ∨ ofmt = 3 ∨ isrc = 3 ∨ 128 ≤ f3 ∨
    g = 3 ∨ Bytes.at b 4 / 4 % 4 = 3 ∨ 16 ≤ Bytes.at b 4 ∨ k = 0 ∨ 16777216 < k ∨ c = 0 ∨ 16777216 < c ∨ Bytes.at b 16 = 0 ∨ 32 < Bytes.at b 16) ||
    expBad (Bytes.at b 5) || expBad (Bytes.at b 6) || expBad (Bytes.at b 7) || decide (ofmt = 2 ∧ Bytes.at b 6 ≠ 0) ||
    decide (isrc ≠ 1 ∧ Bytes.at b 7 ≠ 0) || decide (isrc = 2 ∧ n < k) || decide (adapt ≠ 0 ∧ (adapt < 16 ∨ 30 < adapt)) || !allZero (Bytes.slice b 18 6) ||
    !allZero (Bytes.slice b 48 16) || decide (ofmt = 2 ∧ Bytes.le b 32 8 ≠ 0) || decide (!bit f2 5 ∧ Bytes.le b 40 8 ≠ 0) ||
    decide (mode = 2 ∧ (regions = 2 ∧ g ≠ 0 ∨ regions = 1 ∧ 1 < g)) || decide (mode = 3 ∧ Bytes.at b 16 ≠ 1)

/-- A scale entry breaks R305, or adapts where the layer does not (R303). -/
def scaleBad (b : Bytes) (adaptLog : Nat) : Bool :=
  let f := Bytes.at b 2
  let s := f % 64
  let lo := Bytes.at b 4
  let hi := Bytes.at b 5
  decide (128 ≤ f ∨ Bytes.at b 3 ≠ 0 ∨ 64 ≤ lo ∨ 64 ≤ hi ∨ Bytes.le b 6 2 ≠ 0) ||
    (if bit f 6 then decide (adaptLog = 0 ∨ s < lo ∨ hi < s) else decide (lo ≠ 0 ∨ hi ≠ 0))

/-- With ISRC 2 over a channel's features, a group's shifts could differ by more than 15 (R303, R307). -/
def shiftsBad (g : Generation) (l : LayerD) : Bool :=
  let range (i : Nat) : Nat × Nat :=
    if g.ftSource i ≠ 4 ∧ g.ftTransform i = 0 then
      (if g.ftAdapt i then (g.ft i 17 1, g.ft i 18 1) else (g.ftParam i, g.ftParam i)) else (0, 0)
  (groups l.gIn l.k (List.range l.k)).any fun idx =>
    let r := idx.map range
    decide (((r.map (·.1)).foldl min 63) + 15 < (r.map (·.2)).foldl max 0)

/-- Refused structures of the layer whose descriptor lies at model address `a`: the descriptor, its scale table's entries and its weight planes.
`n` is the number of codes, `feats` whether they are the channel's features. A descriptor that lies in no section is a fault of the structure at
`from_` that names it. -/
def layerRefused (g : Generation) (a from_ n : Nat) (feats : Bool) : List Nat :=
  let m := g.image
  match pageOffset m a with
  | none => [from_]
  | some o =>
    let b := (List.range 64).map fun i => modelByte m (a + i)
    let l := layerD b
    let adapts := decide (l.ofmt ≠ 2) && (List.range l.n).any fun c => bit (modelByte m (l.scale + 8 * c + 2)).toNat 6
    if layerBad b n || (feats && decide (l.isrc = 2) && shiftsBad g l) || (decide (l.adaptLog ≠ 0) && !adapts) then [o]
    else
      let scale := if l.ofmt = 2 then [] else (List.range l.n).flatMap fun c =>
        let at_ := l.scale + 8 * c
        refuseIf (scaleBad ((List.range 8).map fun i => modelByte m (at_ + i)) l.adaptLog) ((pageOffset m at_).getD o)
      let t := (l.n + l.stored - 1) / l.stored
      let rows := (List.range (l.d * t * l.k)).flatMap fun r =>
        let at_ := l.weights + 104 * r
        refuseIf ((List.range 103).any fun i => decide (243 ≤ (modelByte m (at_ + i)).toNat)) ((pageOffset m l.weights).getD o)
      scale ++ rows

/-! ### Schedule tables (R371 to R376, R401 to R403, R388) -/

/-- Base register `r` of tasks of a table, as the compiler has it (log entry 51). -/
def baseOf (sched r : Nat) : Nat := Config.tableBase sched r % 2 ^ 64

/-- Model address of an entry's operand. -/
def operandAt (sched : Nat) (e : Entry) : Nat := (baseOf sched e.base + e.operand % 2 ^ 48) % 2 ^ 64

def descAt (m : Mem) (a : Nat) : Bytes := (List.range 64).map fun i => modelByte m (a + i)

/-- Steps P of an array pass from a column tile on (R316), or of the matrix-vector path (R351): a later tile is no wider. -/
def passSteps (l : LayerD) (tile : Nat) : Nat :=
  if l.mode = 3 then l.mvecSteps + (l.n + 63) / 64 else l.steps tile l.batch 0

/-- The shortest DUR that staging accepts (R373). -/
def leastDur (g : Generation) (sched : Nat) (e : Entry) : Nat :=
  if e.op = 1 ∨ e.op = 7 then 2 * passSteps (layerD (descAt g.image (operandAt sched e))) (bits e.operand 63 48)
  else if e.op = 2 then 2 * (((List.range 4).countP fun i => bit e.sub i) + 16)
  else if e.op = 3 then 2 * (18 + (g.featCount + 7) / 8)
  else if e.op = 4 then 470
  else if e.op = 6 then 2 * ((Config.rescaleCount e.operand + 63) / 64)
  else if e.op = 8 then 15
  else 2

/-- Greatest SUB of an operation. -/
def subMax (op : Nat) : Nat :=
  if op = 2 then 15 else if op = 4 ∨ op = 9 then 1 else if op = 8 ∨ op = 10 ∨ op = 11 then 3 else 0

/-- An entry breaks R372, R373 or R376. -/
def tableEntryBad (v : Volume) (g : Generation) (sched o k : Nat) : Bool :=
  let e := entryAt v o k
  decide (11 < e.op ∨ subMax e.op < e.sub ∨ e.dur < max 2 (leastDur g sched e) ∨ 8 ≤ v.le (o + 32 + 16 * k + 5) 1) ||
    (e.commit && !e.wait) || decide ((e.op = 0 ∨ e.op = 4) ∧ e.operand ≠ 0) ||
    decide (e.op = 9 ∧ (bits e.operand 25 16 < 2 ∨ 800 < bits e.operand 25 16)) ||
    decide ((e.op = 1 ∨ e.op = 7) ∧ (e.op = 7 ∧ (layerD (descAt g.image (operandAt sched e))).mode ≠ 3 ∨
      e.op = 1 ∧ (layerD (descAt g.image (operandAt sched e))).mode = 3))

/-- Do LOOP and NEXT entries pair and nest (R374)? `open_` holds the loops open so far: register, index, index of the matching NEXT. -/
def loopsPair (v : Volume) (o : Nat) (ks : List Nat) (open_ : List (Nat × Nat × Nat)) : Bool :=
  match ks with
  | [] => open_.isEmpty
  | k :: r =>
    let e := entryAt v o k
    if e.op = 10 then
      decide (open_.length < 4) && open_.all (fun x => decide (x.1 ≠ e.sub)) && loopsPair v o r ((e.sub, k, e.operand) :: open_)
    else if e.op = 11 then
      match open_ with
      | (reg, i, n) :: rest => decide (reg = e.sub ∧ i = e.operand ∧ n = k) && loopsPair v o r rest
      | [] => false
    else loopsPair v o r open_

/-- Where execution goes after entry `k` (R374): the next index and the iteration indices. -/
def follow (e : Entry) (k : Nat) (lc iter : List Nat) : Nat × List Nat :=
  if e.op = 10 then (if lc.getD e.sub 0 = 0 then (e.operand + 1, iter) else (k + 1, iter.set e.sub 0))
  else if e.op = 11 then
    let i := iter.getD e.sub 0 + 1
    if i < lc.getD e.sub 0 then (e.operand + 1, iter.set e.sub i) else (k + 1, iter)
  else (k + 1, iter)

/-- What the reference timing has come to (R376). -/
structure Timing where
  issue : Nat := 0
  done : Nat := 0
  units : Table Nat := []
  energy : Nat := 0
  deriving DecidableEq, Repr

/-- Operations whose entries wait for the task's previous entry on the same unit. -/
def unitOf (op : Nat) : Option Nat := if op = 1 ∨ op = 2 ∨ op = 3 ∨ op = 6 ∨ op = 7 then some op else none

/-- The reference timing from entry `k` on: completion ply of END, and the energy; none where execution does not end. -/
def refTiming (v : Volume) (o : Nat) (lc : List Nat) (fuel k : Nat) (iter : List Nat) (first : Bool) (t : Timing) : Option (Nat × Nat) :=
  match fuel with
  | 0 => none
  | fuel + 1 =>
    if tblEntries v o ≤ k then none
    else
      let e := entryAt v o k
      let a := if first then 0 else t.issue + 2
      let a := if e.wait ∨ e.op = 0 then max a t.done else a
      let a := match unitOf e.op with
        | some u => max a (Table.get 0 t.units u)
        | none => a
      let c := a + e.dur
      let t := { issue := a, done := max t.done c, energy := t.energy + e.energy
                 units := match unitOf e.op with
                   | some u => Table.put t.units u c
                   | none => t.units : Timing }
      if e.op = 0 then some (c, t.energy)
      else
        let ans := follow e k lc iter
        let k' := ans.1
        let iter' := ans.2
        refTiming v o lc fuel k' iter' false t

/-- A bound on the entries that a run of a table issues. -/
def runFuel (v : Volume) (o : Nat) : Nat := (tblEntries v o + 1) * (((List.range 4).map fun i => tblLoopMax v o i + 1).foldl (· * ·) 1)

/-- A stream in the course of a table: closed, or armed with its type and SLOTS and the slots held. -/
structure StreamRun where
  ty : Nat
  slots : Nat
  held : Nat
  deriving DecidableEq, Repr

/-- A stream descriptor breaks R401; the fields its command does not read are 0. -/
def streamBad (b : Bytes) : Bool :=
  let q := streamD b
  let arm := decide (q.cmd = 0)
  let shape := decide (q.cmd ≤ 1)
  let count := decide (q.cmd = 2 ∨ q.cmd = 3)
  decide (Bytes.at b 0 % 16 ≠ 1 ∨ 5 < q.cmd ∨ 16 ≤ Bytes.at b 3 ∨ 32 ≤ Bytes.at b 6 ∨ Bytes.le b 26 2 ≠ 0) || !allZero (Bytes.slice b 48 16) ||
    (if arm then decide (q.ty = 3 ∨ q.slots < 3 ∨ 8 < q.slots ∨ 8 < Bytes.at b 2 / 16 ∨ q.ring % q.slotBytes ≠ 0 ∨ Bytes.le b 44 4 = 0)
     else decide (q.ty ≠ 0 ∨ Bytes.at b 2 ≠ 0 ∨ q.ring ≠ 0 ∨ Bytes.le b 44 4 ≠ 0)) ||
    decide (!arm ∧ q.member ≠ 0) ||
    (if shape then decide (q.len0 = 0 ∨ 16777216 < q.len0) || q.counts.any (fun c => decide (c = 0))
     else decide (q.reg ≠ 0 ∨ q.idx ∨ q.addr ≠ 0 ∨ q.len0 ≠ 0 ∨ q.idxStride ≠ 0) || q.counts.any (fun c => decide (c ≠ 0)) ||
       q.strides.any fun c => decide (c ≠ 0)) ||
    (if count then decide (q.n = 0) else decide (q.n ≠ 0))

/-- Follow a table's STREAM entries (R402, R403); none where a command finds its stream in another state than it needs. -/
def streamRun (v : Volume) (m : Mem) (sched o : Nat) (lc : List Nat) (fuel k : Nat) (iter : List Nat) (st : Table StreamRun) : Bool :=
  match fuel with
  | 0 => true
  | fuel + 1 =>
    if tblEntries v o ≤ k then true
    else
      let e := entryAt v o k
      if e.op = 0 then true
      else
        let ans := follow e k lc iter
        let k' := ans.1
        let iter' := ans.2
        let go (st : Table StreamRun) : Bool := streamRun v m sched o lc fuel k' iter' st
        if e.op ≠ 5 then go st
        else
          let q := streamD (descAt m (operandAt sched e))
          match q.cmd, Table.get? st q.stream with
          | 0, none => go (Table.put st q.stream { ty := q.ty, slots := q.slots, held := 0 })
          | 1, some x => decide (x.ty ≠ 2) && go st
          | 2, some x => decide (x.held + q.n ≤ x.slots) && go (Table.put st q.stream { x with held := x.held + q.n })
          | 3, some x => decide (q.n ≤ x.held) && go (Table.put st q.stream { x with held := x.held - q.n })
          | 4, some x => decide (x.ty = 1) && go st
          | 5, some _ => go (Table.erase st q.stream)
          | _, _ => false

/-- Every dispatch whose loop counts lie within LOOP_MAX keeps to R403. -/
def streamsOk (v : Volume) (m : Mem) (sched o : Nat) : Bool :=
  let up (i : Nat) : List Nat := List.range (tblLoopMax v o i + 1)
  let any := (List.range (tblEntries v o)).any fun k => decide ((entryAt v o k).op = 5)
  !any || (up 0).all fun a => (up 1).all fun b => (up 2).all fun c => (up 3).all fun d =>
    streamRun v m sched o [a, b, c, d] (runFuel v o) 0 [0, 0, 0, 0] []

/-- A table's header or its timing is malformed (R371, R376). -/
def tableBad (v : Volume) (m : Mem) (sched o len : Nat) : Bool :=
  let n := tblEntries v o
  let barrier := (List.range n).any fun k => decide ((entryAt v o k).op = 9)
  decide (v.le o 2 ≠ 1 ∨ n = 0 ∨ 1024 < n ∨ len ≠ 32 + 16 * n ∨ 3 < tblClass v o ∨ v.le (o + 5) 3 ≠ 0 ∨ v.le (o + 28) 4 ≠ 0) ||
    (!barrier && decide (tblBarrierLimit v o ≠ 0)) || !loopsPair v o (List.range n) [] ||
    (match refTiming v o ((List.range 4).map (tblLoopMax v o)) (runFuel v o) 0 [0, 0, 0, 0] true {} with
     | some (w, e) => decide (w ≠ tblWorst v o ∨ e ≠ tblEnergy v o)
     | none => true) || !streamsOk v m sched o

/-- Refused structures of a table: its entries, the descriptors they name, and the table. -/
def tableRefused (g : Generation) (v : Volume) (base sched o len : Nat) (codes : Nat) (feats : Bool) : List Nat :=
  let n := min 1024 (tblEntries v o)
  let m := g.image
  refuseIf (tableBad v m sched o len) (base + o) ++
    (List.range n).flatMap fun k =>
      let e := entryAt v o k
      let a := operandAt sched e
      refuseIf (tableEntryBad v g sched o k) (base + o + 32 + 16 * k) ++
        (if e.op = 1 ∨ e.op = 7 then layerRefused g a (base + o + 32 + 16 * k) codes feats
         else if e.op = 5 then refuseIf (streamBad (descAt m a)) ((pageOffset m a).getD (base + o + 32 + 16 * k))
         else [])

/-- Refused structures of the volume (R388, R421). -/
def volumeRefused (g : Generation) (codes : Nat) (feats : Bool) : List Nat :=
  let m := g.image
  let base := secAt m secVolume
  let len := secLen m secVolume
  let v : Volume := .image m base
  let n := v.le 2 2
  let span (t : Nat) : Nat × Nat := (v.le (16 + 8 * t) 4, v.le (16 + 8 * t + 4) 4)
  if v.le 0 2 ≠ 1 ∨ n = 0 ∨ 4096 < n ∨ v.le 8 8 ≠ 0 ∨ len < 16 + 8 * n then [base]
  else
    let spans := (List.range n).map span
    let last := (spans.map fun t => t.1 + t.2).foldl max 0
    let sched := (if g.kind = 2 then 2 else 1) * 2 ^ 28 + g.target * 65536
    refuseIf (decide (last ≠ len)) base ++
      (List.range n).flatMap fun t =>
        let ans := span t
        let o := ans.1
        let k := ans.2
        if k < 32 ∨ len < o + k then [base + 16 + 8 * t] else tableRefused g v base (sched + t) o k codes feats

/-! ### Deep-model part (R332 to R334, R347, R351, R354) -/

/-- The deep-model part as IMAGE_TAG hashes it: with the tag itself as 0 (log entry 62). -/
def Generation.tagged (g : Generation) : Bytes :=
  let b := Mem.readBytes g.image (secAt g.image secDeep) (secLen g.image secDeep)
  b.take 28 ++ zeros 4 ++ b.drop 32

/-- The deep-model header is malformed. The section ends with the expert tables (R332, R421; log entry 52). -/
def deepHeaderBad (g : Generation) : Bool :=
  let m := g.image
  let o := secAt m secDeep
  let n := g.dLayers
  let len := secLen m secDeep
  let experts := ((List.range n).map fun l => if g.lType l = 3 then g.lExperts l else 0).sum
  decide (g.dp 0 2 ≠ 1 ∨ n < 2 ∨ 64 < n ∨ 4 ≤ g.dp 3 1 ∨ g.dWidth < 128 ∨ 2048 < g.dWidth ∨ g.dWidth % 128 ≠ 0 ∨ g.dp 7 1 = 0 ∨ 16 < g.dp 7 1 ∨
    g.stateBytes < 64 ∨ 8192 < g.stateBytes ∨ g.stateBytes % 64 ≠ 0 ∨ g.tokenEvery = 0 ∨ 1048576 < g.expertHold ∨ g.remoteLimit < 1563 ∨
    15625000 < g.remoteLimit ∨ g.tokenLimit < 15625 ∨ 1562500000 < g.tokenLimit) || expBad (g.dp 6 1) || !imgZero m (o + 32) 32 ||
    decide (len ≠ 192 + 48 * n + 32 * experts ∨ g.imageTag ≠ Bytes.le (Config.sha256 g.tagged) 0 4)

/-- A deep action entry is malformed (R347). -/
def deepActionBad (g : Generation) (k : Nat) : Bool := let w := g.dp (64 + 4 * k) 4; decide (2 ^ 29 ≤ w ∨ bits w 25 24 = 3)

/-- A layer record is malformed in itself (R333). -/
def recordBad (g : Generation) (l : Nat) : Bool :=
  let t := g.lType l
  let f := g.lr l 1 1
  let moe := decide (t = 3)
  let ssm := decide (t = 2)
  decide (t = 0 ∨ 4 < t ∨ 16 ≤ f ∨ g.lr l 3 1 ≠ 0 ∨ g.lr l 9 1 ≠ 0 ∨ g.lr l 12 4 ≠ 0 ∨ g.lr l 40 8 ≠ 0) || decide (l = 0 ∧ t ≠ 1) || decide (0 < l ∧ t = 1) ||
    decide (l + 1 = g.dLayers ∧ t ≠ 4) || decide (l + 1 < g.dLayers ∧ t = 4) ||
    (if moe then decide (f / 4 % 4 ≥ 2 ∨ 8 < g.lThin l ∨ g.lExperts l = 0 ∨ 4096 < g.lExperts l) else decide (f % 2 ≠ 0 ∨ f / 4 ≠ 0 ∨ g.lThin l ≠ 0 ∨ g.lExperts l ≠ 0)) ||
    (if ssm then decide (g.lH l < 32 ∨ 2016 < g.lH l ∨ g.lH l % 32 ≠ 0 ∨ g.lStateOff l < 64 ∨ g.lStateOff l % 64 ≠ 0 ∨
        g.stateBytes < g.lStateOff l + 4 * g.lH l) || expBad (g.lr l 8 1)
     else decide (g.lH l ≠ 0 ∨ g.lStateOff l ≠ 0 ∨ g.lr l 8 1 ≠ 0 ∨ g.lDesc l 2 ≠ 0)) ||
    (!moe && !ssm && decide (g.lDesc l 1 ≠ 0)) ||
    (List.range l).any fun k => decide (t = 2 ∧ g.lType k = 2 ∧ g.lStateOff l < g.lStateOff k + 4 * g.lH k ∧ g.lStateOff k < g.lStateOff l + 4 * g.lH l)

/-- A descriptor does not chain as R334's table requires. -/
def chainBad (g : Generation) (a isrc base k n ofmt : Nat) (acc : Option Nat) : Bool :=
  let b := descAt g.image a
  let l := layerD b
  decide (Bytes.at b 3 / 32 % 4 ≠ isrc ∨ (isrc = 1 ∧ Bytes.at b 7 ≠ base) ∨ l.k ≠ k ∨ l.n ≠ n) ||
    (if ofmt = 2 then decide (Bytes.at b 3 / 8 % 4 ≠ 2) else decide (1 < Bytes.at b 3 / 8 % 4)) ||
    (match acc with
     | some x => decide (Bytes.at b 5 ≠ x)
     | none => false) || decide (Bytes.at b 16 ≠ (if Bytes.at b 2 % 4 = 3 then 1 else 32))

/-- Expert entry `e` of layer `l`, as the image gives it: its 32 bytes. -/
def expertBytes (g : Generation) (l e : Nat) : Bytes := (List.range 32).map fun i => modelByte g.image (g.lDesc l 1 + 32 * e + i)

/-- Refused structures of a mixture layer's expert table and of the experts' descriptors. -/
def expertsRefused (d : Dev) (g : Generation) (l : Nat) : List Nat :=
  let m := g.image
  let x0 := layerD (descAt m (Bytes.le (expertBytes g l 0) 8 8))
  let up0 := descAt m (Bytes.le (expertBytes g l 0) 8 8)
  (List.range (g.lExperts l)).flatMap fun e =>
    let b := expertBytes g l e
    let o := (pageOffset m (g.lDesc l 1 + 32 * e)).getD 0
    let mem := Bytes.at b 0
    let up := Bytes.le b 8 8
    let down := Bytes.le b 16 8
    let ub := descAt m up
    refuseIf (decide (16 ≤ mem ∨ (if d.team.members = 0 then mem ≠ 0 else d.team.members ≤ mem) ∨ 800 ≤ Bytes.le b 2 2 ∨ Bytes.at b 1 ≠ 0) ||
      !allZero (Bytes.slice b 4 4) || !allZero (Bytes.slice b 24 8)) o ++
    (if mem ≠ d.team.self ∧ d.team.members ≠ 0 then []
     else
      refuseIf (chainBad g up 0 0 g.dWidth x0.n 0 none || decide (Bytes.at ub 4 % 4 ≠ Bytes.at up0 4 % 4 ∨ Bytes.at ub 3 / 4 % 2 ≠ Bytes.at up0 3 / 4 % 2))
        ((pageOffset m up).getD o) ++ layerRefused g up o 0 false ++
      refuseIf (chainBad g down 0 0 x0.n g.dWidth 2 (some (g.dp 6 1))) ((pageOffset m down).getD o) ++ layerRefused g down o 0 false)

/-- Refused structures of a layer. -/
def layerRecRefused (d : Dev) (g : Generation) (l : Nat) : List Nat :=
  let m := g.image
  let o := secAt m secDeep + 192 + 48 * l
  let res := g.dp 6 1
  let w := g.dWidth
  let check (k isrc base len n : Nat) (acc : Option Nat) (codes : Nat) : List Nat :=
    let a := g.lDesc l k
    refuseIf (chainBad g a isrc base len n 2 acc) ((pageOffset m a).getD o) ++ layerRefused g a o codes false
  if recordBad g l then [o]
  else match g.lType l with
    | 1 => let k := (layerD (descAt m (g.lDesc l 0))).k; refuseIf (decide (67 < k)) o ++ check 0 2 0 k w (some res) 67
    | 2 => check 0 1 res w (g.lH l) (some (g.lr l 8 1)) 0 ++ check 1 1 (g.lr l 8 1) (g.lH l) w (some res) 0
    | 3 => check 0 1 res w (g.lExperts l) none 0 ++ expertsRefused d g l
    | _ => check 0 1 res w g.dClasses none 0

def deepRefused (d : Dev) (g : Generation) : List Nat :=
  let o := secAt g.image secDeep
  if deepHeaderBad g then [o]
  else (List.range 32).flatMap (fun k => refuseIf (deepActionBad g k) (o + 64 + 4 * k)) ++ (List.range g.dLayers).flatMap (layerRecRefused d g)

/-! ### Step 5 -/

/-- Step 5 of R426: the refused structure that begins lowest in the image. -/
def step5 (d : Dev) (g : Generation) (pinned : Bool) : Option Nat :=
  if g.kind = 2 then least (deepRefused d g ++ volumeRefused g 67 false)
  else least (refuseIf (bindingBad d g pinned) (secAt g.image secBinding) ++ featRefused g ++ ensRefused g pinned ++ volumeRefused g g.featCount true)

end Sys2Proof.Machine
end

