-- ==== Sys2Proof/Machine/Staging.lean ====
section
/-! DEFINITION. Staging and live replacement (R424 to R441): the staging commands, the end of a verification with its resource checks, swaps and
the retirement of generations. -/
namespace Sys2Proof.Machine

/-! ### Held ranges -/

/-- Add a range to ascending disjoint ranges (start, end). -/
def coverAdd (a b : Nat) (l : List (Nat × Nat)) : List (Nat × Nat) :=
  match l with
  | [] => [(a, b)]
  | (x, y) :: r => if b < x then (a, b) :: (x, y) :: r else if y < a then (x, y) :: coverAdd a b r else coverAdd (min a x) (max b y) r

/-- Is a byte held? -/
def holds (l : List (Nat × Nat)) (i : Nat) : Bool := l.any fun r => decide (r.1 ≤ i ∧ i < r.2)

/-- Write bytes that are not held yet: bytes already held keep their first value (R425). -/
def Mem.writeNew (m : Mem) (got : List (Nat × Nat)) (a : Nat) (bs : Bytes) : Mem :=
  match bs with
  | [] => m
  | b :: r => Mem.writeNew (if holds got a then m else Mem.write m a b) got (a + 1) r

/-- Take bytes into an operation. -/
def StageOp.put (off : Nat) (bs : Bytes) (g : StageOp) : StageOp :=
  if bs.isEmpty then g else { g with image := Mem.writeNew g.image g.got off bs, got := coverAdd off (off + bs.length) g.got }

/-! ### Handles -/

/-- Handle of a staging slot. -/
def Dev.stageHandle (d : Dev) (k : Nat) : Nat := handleOf 2 (Table.get {} d.objects.stages k).hgen k

/-- The staging slot a handle names, if the handle is current. -/
def Dev.stageOf (d : Dev) (h : Nat) : Option (Nat × StageOp) :=
  let k := h % 4096
  let g := Table.get {} d.objects.stages k
  if h / 16777216 = 2 ∧ k < 16 ∧ g.state ≠ .free ∧ h / 4096 % 4096 = g.hgen then some (k, g) else none

def State.onStage (k : Nat) (f : StageOp → StageOp) (s : State) : State :=
  s.onObjects fun o => { o with stages := Table.modify {} o.stages k f }

def State.stageCount (e : Nat) (s : State) : State := s.bump pgStaging (0xC0 + 8 * e) 1

/-- Run a staging command of the session: the reserved bytes, `len` of them from `rsv` on, are checked first (R584); then a standby refuses it with
BUSY (R520), and its length is checked. -/
def State.stageCmd (sess op rsv len : Nat) (okLen : Nat → Bool) (run : Session → Cmd → State → State) (s : State) : State :=
  s.command sess op fun x c s =>
    if Bytes.le c.body rsv len ≠ 0 then s.complete sess op stBadField rsv []
    else if s.dev.pair.role = .standby then s.complete sess op stBusy 0 []
    else if !okLen c.body.length then s.complete sess op stBadLength 0 []
    else run x c s

/-! ### STAGE_OPEN and STAGE_DATA -/

/-- Take a staging slot for an image of `len` bytes, for a channel slot or a deep model; the slot taken. -/
def State.openStage (sess : Nat) (chan : Option Nat) (len : Nat) (s : State) : State × Option Nat :=
  match s.dev.objects.stagePool.take 16 with
  | none => (s, none)
  | some (k, pool) =>
    let s := s.onObjects fun o => { o with stagePool := pool }
    ((s.onStage k fun g => { state := .open_, hgen := g.hgen, sess, chan, len : StageOp }).stageCount 0, some k)

/-- STAGE_OPEN (R424). -/
def execStageOpen (sess : Nat) (s : State) : Host.Outcome State Fault Refusal :=
  .next (s.stageCmd sess 0x50 0 0 (fun n => decide (n = 16)) fun x c s =>
    let h := Bytes.le c.body 0 4
    let len := Bytes.le c.body 8 8
    let chan := s.chanOf h
    let refuse (st det : Nat) : State := s.complete sess 0x50 st det []
    if h ≠ 0 ∧ chan.isNone then refuse stBadHandle 0
    else if Bytes.le c.body 4 4 ≠ 0 then refuse stBadField 4
    else if len < 128 ∨ 2 ^ 41 < len then refuse stBadField 8
    else if h ≠ 0 ∧ (s.dev.objects.stages.any fun e => decide (e.2.state ≠ .free ∧ e.2.chan = chan)) then refuse stStageState 0
    else s.sized x c 4 fun s =>
      let ans := s.openStage sess (if h = 0 then none else chan) len; match ans.2 with
      | none => let s := ans.1; s.complete sess 0x50 stNoRoom 0 []
      | some k =>
        let s := ans.1
        let h := s.dev.stageHandle k
        -- a channel destroyed earlier in the ply takes its staging operations with it (R181, R431)
        let gone := match chan with
          | some n => decide ((s.dev.chan n).state = .draining)
          | none => false
        (if gone = true then s.discardStage k else s).complete sess 0x50 stOK 0 (toLE 4 h))

/-- Does data of a length at an offset lie past the directory, with the header or directory not held (R425)? Until SECTIONS is held, the first entry
is all that is known to be of the directory (log entry 169). -/
def StageOp.early (g : StageOp) (off n : Nat) : Bool :=
  let h := prefixLen g.got
  let dirEnd := if holds g.got 12 && holds g.got 13 then imgDirEnd g.image else 96
  decide (0 < n ∧ dirEnd < off + n) && decide (h < 64 ∨ h < imgDirEnd g.image)

/-- STAGE_DATA (R425). A refused command stores none of its bytes. -/
def execStageData (sess : Nat) (s : State) : Host.Outcome State Fault Refusal :=
  .next (s.stageCmd sess 0x51 4 4 (fun n => decide (16 ≤ n)) fun x c s =>
    let refuse (st det : Nat) : State := s.complete sess 0x51 st det []
    let off := Bytes.le c.body 8 8
    let data := c.body.drop 16
    match s.dev.stageOf (Bytes.le c.body 0 4) with
      | none => refuse stBadHandle 0
      | some (k, g) =>
        if g.state ≠ .open_ then refuse stStageState 0
        else if 0 < data.length ∧ g.len < off + data.length then refuse stBadField 8
        else
          let new := g.put off data
          if new.early off data.length then refuse stStageState 0
          else if s.dev.framesShort k new then refuse stNoRoom 0
          else s.sized x c 8 fun s => (s.onStage k fun _ => new).complete sess 0x51 stOK 0 (toLE 8 (prefixLen new.got)))

/-! ### Verification (R426 to R430) -/

/-- The generation a staged image would be. -/
def StageOp.candidate (g : StageOp) : Generation :=
  let m := g.image
  { kind := if g.chan.isSome then 1 else 2
    target := match g.chan with
      | some n => n
      | none => img m 7 1 % 16
    serial := img m 8 4, image := m }

/-- Tables of a volume: class and length. -/
def volTables (m : Mem) : List (Nat × Nat) :=
  let v : Volume := .image m (secAt m secVolume)
  (List.range (v.le 2 2)).map fun t => (tblClass v (v.le (16 + 8 * t) 4), v.le (16 + 8 * t + 4) 4)

/-- Bytes of a volume. -/
def volBytes (m : Mem) : Nat := secLen m secVolume

/-- Class 0 and 1 tables of an image, in bytes. -/
def heldBytes (m : Mem) : Nat := ((volTables m).map fun t => if t.1 ≤ 1 then t.2 else 0).sum

/-- The core set a channel image comes with (R423). -/
def Dev.candCores (d : Dev) (g : Generation) : List Nat :=
  let o := secAt g.image secBinding
  if bit (img g.image (o + 2) 1) 4 then coreList (Mem.readBytes g.image (o + 88) 100) else (d.chan g.target).cores

/-- Other staging operations that are accepted, with their generations. -/
def Dev.acceptedOps (d : Dev) (k : Nat) : List (StageOp × Generation) :=
  (d.objects.stages.filter fun e => decide (e.1 ≠ k ∧ e.2.state = .accepted)).map fun e => (e.2, e.2.candidate)

/-- The greatest of a list. -/
def greatest (l : List Nat) : Nat := l.foldl max 0

/-- Resource 2: quarters short on the worst core (R270). `pinned` is the channel's. -/
def Dev.quartersShort (d : Dev) (pinned : Bool) (g : Generation) (cores : List Nat) : Nat :=
  let need := if pinned then g.segments else 0
  let streamed (c : Nat) : Bool := !pinned || d.usedChans.any fun e => decide (e.2.state = .bound) && !e.2.pinned && e.2.cores.contains c
  greatest (cores.map fun c => need + b2n (streamed c) - (d.windowOf c).length)

/-- Resource 3: KiB of table area short on the worst core (R390). -/
def Dev.tablesShort (d : Dev) (k : Nat) (g : Generation) (cores : List Nat) : Nat :=
  let others (c : Nat) : Nat := d.heldTables c +
    ((d.acceptedOps k).map fun e => if e.2.kind = 1 ∧ (d.candCores e.2).contains c then heldBytes e.2.image else 0).sum
  (greatest (cores.map fun c => others c + heldBytes g.image - 262144) + 1023) / 1024

/-- Resource 4: MiB of book space short (R389); every die's region holds the same. -/
def Dev.bookShort (d : Dev) (k : Nat) (g : Generation) : Nat :=
  let used := d.book.length + (d.objects.gens.map fun e => volBytes e.2.image).sum + ((d.acceptedOps k).map fun e => volBytes e.2.image).sum
  (used + volBytes g.image - 419430400 + 1048575) / 1048576

/-- Barriers that the tables of a volume name on a die. -/
def barriersNamed (m : Mem) (die : Nat) : Nat :=
  let v : Volume := .image m (secAt m secVolume)
  let names : List Nat := (List.range (v.le 2 2)).flatMap fun t =>
    let o := v.le (16 + 8 * t) 4
    (List.range (tblEntries v o)).filterMap fun k =>
      let e := entryAt v o k
      if e.op = 9 ∧ bits e.operand 11 10 = die then some (e.operand % 1024) else none
  names.eraseDups.length

/-- Barriers a generation needs on a die (R423). -/
def Generation.barriers (g : Generation) (die : Nat) : Nat := if g.kind = 1 then g.rd secBinding 18 2 else barriersNamed g.image die

/-- Resource 5: barriers short on the worst die. -/
def Dev.barriersShort (d : Dev) (k : Nat) (g : Generation) : Nat :=
  greatest ((List.range 4).map fun die =>
    (d.objects.gens.map fun e => e.2.barriers die).sum + ((d.acceptedOps k).map fun e => e.2.barriers die).sum + g.barriers die - 1024)

/-- Bytes of the weights of the layer whose descriptor lies at a model address. -/
def weightBytes (m : Mem) (a : Nat) : Nat :=
  let l := layerD (descAt m a)
  104 * l.d * ((l.n + l.stored - 1) / l.stored) * l.k

/-- Bytes of RESIDENT weights in a core's scratch SRAM (R333, R334, R346). -/
def Dev.residentBytes (d : Dev) (g : Generation) (core : Nat) : Nat :=
  let m := g.image
  ((List.range g.dLayers).map fun l =>
    if !bit (g.lr l 1 1) 1 then 0
    else weightBytes m (g.lDesc l 0) + (if g.lType l = 2 then weightBytes m (g.lDesc l 1) else 0) +
      (if g.lType l = 3 then
        ((List.range (g.lExperts l)).map fun e =>
          let b := expertBytes g l e
          if d.team.here (Bytes.at b 0 % 16) ∧ Bytes.le b 2 2 = core then weightBytes m (Bytes.le b 8 8) + weightBytes m (Bytes.le b 16 8) else 0).sum
       else 0)).sum

/-- Resource 6: KiB of scratch short on the worst core (R334), beside what is reserved for deep models held or accepted (R427). -/
def Dev.scratchShort (d : Dev) (k : Nat) (g : Generation) : Nat :=
  let held (c : Nat) : Nat :=
    ((d.objects.gens.filter fun e => decide (e.2.kind = 2)).map fun e => d.residentBytes e.2 c).sum +
      (((d.acceptedOps k).filter fun e => decide (e.2.kind = 2)).map fun e => d.residentBytes e.2 c).sum
  (greatest ((List.range 800).map fun c => held c + d.residentBytes g c - 1048576) + 1023) / 1024

/-- The pawn table of a channel image: WORST and LOOP_MAX[0]. -/
def Generation.pawnShape (g : Generation) : Nat × Nat :=
  let v : Volume := .image g.image (secAt g.image secVolume)
  let o := v.le (16 + 8 * g.pawnTable) 4
  (tblWorst v o, tblLoopMax v o 0)

/-- Streamed occupancy of a generation on each of `n` cores, as a fraction over the plies of 1 ms (R429). -/
structure Frac where
  num : Nat
  den : Nat
  deriving DecidableEq, Repr

def Frac.add (a b : Frac) : Frac := { num := a.num * b.den + b.num * a.den, den := a.den * b.den }
def Frac.lt (a b : Frac) : Bool := decide (a.num * b.den < b.num * a.den)

/-- Occupancy (R429): none for a pinned generation. -/
def occupancy (rate worst p n : Nat) : Frac := if p = 0 ∨ n = 0 then { num := 0, den := 1 } else { num := rate * worst, den := n * p * 1562500 }

/-- Streamed generations of other channels that hold a core, with those of other accepted operations. -/
def Dev.othersOn (d : Dev) (k target core : Nat) : Frac :=
  let one (t rate : Nat) (g : Generation) (cores : List Nat) : Option Frac :=
    if t ≠ target ∧ !(d.chan t).pinned ∧ cores.contains core then
      let ans := g.pawnShape
      let w := ans.1
      let p := ans.2
      some (occupancy rate w p cores.length)
    else none
  let a := d.objects.gens.filterMap fun e => if e.2.kind = 1 then one e.2.target e.2.rate e.2 (d.chan e.2.target).cores else none
  let b := (d.acceptedOps k).filterMap fun e => if e.2.kind = 1 then one e.2.target e.1.rate e.2 (d.candCores e.2) else none
  (a ++ b).foldl Frac.add { num := 0, den := 1 }

/-- R_max (R429). -/
def Dev.rateMax (d : Dev) (k : Nat) (g : Generation) (cores : List Nat) : Nat :=
  let ans := g.pawnShape
  let w := ans.1
  let p := ans.2
  let u := (cores.map (d.othersOn k g.target)).foldl (fun a b => if a.lt b then b else a) { num := 0, den := 1 }
  if w = 0 then 2 ^ 32 - 1 else (2 * u.den - u.num) * cores.length * p * 1562500 / (u.den * w)

/-- The latency a generation requires (R428). -/
def Generation.latency (g : Generation) (pinned : Bool) : Nat :=
  if pinned then 3005 + 2 * (18 + (g.featCount + 7) / 8) + 2 * (g.segments + 16) else 1620 + g.pawnShape.1

/-- Step 6 of R426: the first short resource, with its shortfall. -/
def Dev.shortOf (d : Dev) (k : Nat) (g : Generation) : Option (Nat × Nat) :=
  let chan := decide (g.kind = 1)
  let pinned := chan && (d.chan g.target).pinned
  let cores := if chan then d.candCores g else []
  let bound := g.rd secBinding 4 4
  let rate := g.rd secBinding 8 4
  let late := if chan then g.latency pinned - bound else 0
  let q := if chan then d.quartersShort pinned g cores else 0
  let ta := if chan then d.tablesShort k g cores else 0
  let bk := d.bookShort k g
  let ba := d.barriersShort k g
  let sc := if chan then 0 else d.scratchShort k g
  let sp := if !chan && !d.deepEn then 800 else 0
  let rt := if chan && !pinned then rate - d.rateMax k g cores else 0
  ([(1, late), (2, q), (3, ta), (4, bk), (5, ba), (6, sc), (7, sp), (8, rt)] : List (Nat × Nat)).find? fun e => decide (0 < e.2)

/-- Does SIG verify under the owner's key (R422)? A device without an owner key has none that does. -/
def Dev.sigGood (d : Dev) (m : Mem) : Bool :=
  let at_ := imgSigAt m
  !d.sec.nvm.ownerKey.isEmpty && hssGood d.sec.nvm.ownerKey (Config.sha256 (Mem.readBytes m 0 at_)) (Mem.readBytes m (at_ + 4) (img m at_ 4))

/-- The body of a STAGE_VERIFY response. -/
def verifyBody (res short rate bound : Nat) : Bytes := toLE 2 res ++ [0, 0] ++ toLE 4 (min short (2 ^ 32 - 1)) ++ toLE 4 rate ++ toLE 4 bound

/-- What a verification comes to: status, detail, body, and on acceptance the operation as accepted. -/
structure Verdicted where
  status : Nat
  detail : Nat := 0
  body : Bytes
  op : Option StageOp := none
  deriving DecidableEq, Repr

/-- Steps 1 to 6 of R426 for staging slot `k`. -/
def Dev.verify (d : Dev) (k : Nat) (op : StageOp) : Verdicted :=
  let m := op.image
  let chan := op.chan.isSome
  let bad (off : Nat) : Verdicted := { status := stBadField, detail := 0xFFFF, body := verifyBody 0 off 0 0 }
  let fail (st : Nat) : Verdicted := { status := st, body := verifyBody 0 0 0 0 }
  match step1 m op.len (if chan then 1 else 2) d.team.members with
  | some off => bad off
  | none =>
    let g := op.candidate
    if !d.sigGood m then fail stSigInvalid
    else if (match d.currentGen (!chan) g.target with
      | some cur => decide (g.serial < cur.serial)
      | none => false) then fail stRollback
    else if !chan ∧ ((d.acceptedOps k).any fun e => decide (e.2.kind = 2 ∧ e.2.target = g.target)) then fail stStageState
    else
      let pinned := chan && (d.chan g.target).pinned
      match step5 d g pinned with
      | some off => bad off
      | none =>
        let bound := if chan then g.rd secBinding 4 4 else 0
        let rate := if chan then g.rd secBinding 8 4 else 0
        let cores := if chan then d.candCores g else []
        let quarters := if pinned then cores.flatMap fun c => ((d.windowOf c).take g.segments).map fun q => (c, q) else []
        let yes (r : Nat) (deg : Bool) (body : Bytes) : Verdicted :=
          { status := stOK, body, op := some { op with state := .accepted, bound, rate := r, degradedRate := deg, quarters } }
        match d.shortOf k g with
        | none => yes rate false (verifyBody 0 0 0 bound)
        | some (code, n) =>
          if code = 8 ∧ op.degraded then let r := d.rateMax k g cores; yes r true (verifyBody 8 n r bound)
          else { status := stShort, detail := code, body := verifyBody code n 0 bound }

/-- Remove a range from ascending disjoint ranges. -/
def coverDrop (a b : Nat) (l : List (Nat × Nat)) : List (Nat × Nat) :=
  l.flatMap fun r => if b ≤ r.1 ∨ r.2 ≤ a then [r] else (if r.1 < a then [(r.1, a)] else []) ++ (if b < r.2 then [(b, r.2)] else [])

/-- Pieces of at most 4,096 bytes of ranges. -/
def chunks (l : List (Nat × Nat)) : List (Nat × Nat) :=
  l.flatMap fun r => (List.range ((r.2 - r.1 + 4095) / 4096)).map fun i => (r.1 + 4096 * i, min r.2 (r.1 + 4096 * i + 4096))

/-- The ranges of an image that the primary holds: all of it but PAGES of other members (R519). -/
def Dev.imageRanges (d : Dev) (deep : Bool) (m : Mem) (len : Nat) : List (Nat × Nat) :=
  ((pagesOf m).filter fun p => !d.storesPages deep p).foldl (fun l p => coverDrop p.offset (p.offset + p.length) l) [(0, len)]

/-- The records of an image: IMAGE_OPEN, and its bytes in records of at most 4,096 (R518). -/
def imageRecords (len : Nat) (degraded : Bool) (m : Mem) (l : List (Nat × Nat)) : List (Nat × Bytes) :=
  (3, toLE 8 len ++ [byte (b2n degraded)] ++ zeros 7) :: (chunks l).map fun r => (4, toLE 8 r.1 ++ Mem.readBytes m r.1 (r.2 - r.1))

/-- Mirror an accepted image as the primary received it (R517). -/
def State.mirrorImage (whr : Nat) (op : StageOp) (s : State) : State :=
  if !s.dev.pair.mirrors then s
  else State.each (imageRecords op.len op.degraded op.image [(0, op.len)]) (fun r s => s.mirror r.1 whr r.2) s

/-- WHERE of a target in mirror records (R518). -/
def whereOf (deep : Bool) (target : Nat) : Nat := if deep then 0x1000 + target else target

/-- STAGE_VERIFY (R426). -/
def execStageVerify (sess : Nat) (s : State) : Host.Outcome State Fault Refusal :=
  .next (s.stageCmd sess 0x52 5 3 (fun n => decide (n = 8)) fun x c s =>
    let refuse (st det : Nat) : State := s.complete sess 0x52 st det []
    match s.dev.stageOf (Bytes.le c.body 0 4) with
      | none => refuse stBadHandle 0
      | some (k, g) =>
        if 1 < Bytes.at c.body 4 then refuse stBadField 4
        else s.sized x c 16 fun s =>
          if g.state ≠ .open_ ∨ prefixLen g.got ≠ g.len then s.complete sess 0x52 stStageState 0 []
          else (s.onStage k fun g =>
            { g with state := .verifying, degraded := decide (Bytes.at c.body 4 = 1), verifier := sess }).startCmd sess 0x52)

/-- A standby finds that its mirror is not whole: SYNCED falls (R518, R527). -/
def State.loseSync (s : State) : State :=
  let was := s.dev.pair.synced
  let s := s.onPair fun p => { p with synced := false, resynced := false }
  if was then s.setEvent pgPair 3 else s

/-- What a verification's end does but for the response: the operation is accepted with its reservations, or open again. -/
def State.endVerify (k : Nat) (op : StageOp) (r : Verdicted) (s : State) : State :=
  match r.op with
  | none =>
    let s := ((s.onStage k fun _ => { op with state := .open_, verifier := 0 }).stageCount 3).setEvent pgStaging 0
    if op.sess = 0 then (s.loseSync).discardStage k else s
  | some a =>
    let s := ((s.onStage k fun _ => { a with verifier := 0 }).takeQuarters a.quarters).stageCount 1
    let s := if a.degradedRate then s.stageCount 2 else s
    if op.discard then s else s.mirrorImage (whereOf op.chan.isNone op.candidate.target) a

/-- VERIFICATION_END (R426 to R431): the response is sent, and a discard that waits takes effect. With every control processor stopped no
verification goes on (R23). -/
def execVerificationEnd (stage : Nat) (s : State) : Host.Outcome State Fault Refusal :=
  let op := Table.get {} s.dev.objects.stages stage
  if op.state ≠ .verifying ∨ s.dev.reliab.stopped = 255 then .next s
  else
    let r := s.dev.verify stage op
    let s := (s.endVerify stage op r).complete op.verifier 0x52 r.status r.detail r.body
    .next (if op.discard then
      State.each op.waiters (fun n s => s.complete n 0x54 stOK 0 []) ((s.onStage stage fun g => { g with discard := false }).discardStage stage)
    else s)

/-- STAGE_DISCARD (R431): at once, or when the verification that runs ends. -/
def execStageDiscard (sess : Nat) (s : State) : Host.Outcome State Fault Refusal :=
  .next (s.stageCmd sess 0x54 0 0 (fun n => decide (n = 4)) fun _ c s =>
    match s.dev.stageOf (Bytes.le c.body 0 4) with
    | none => s.complete sess 0x54 stBadHandle 0 []
    | some (k, g) =>
      if g.state = .verifying then ((s.discardStage k).onStage k fun g => { g with waiters := g.waiters ++ [sess] }).startCmd sess 0x54
      else (s.discardStage k).complete sess 0x54 stOK 0 [])

/-! ### Swaps (R432 to R438) -/

/-- The generation number after another: 255 is followed by 1 (R434). -/
def nextGen (n : Nat) : Nat := n % 255 + 1

/-- Generations of a target. -/
def Dev.gensOf (d : Dev) (deep : Bool) (target : Nat) : List Generation :=
  (d.objects.gens.filter fun e => decide (e.2.kind = (if deep then 2 else 1) ∧ e.2.target = target)).map (·.2)

/-- Does the target hold a draining generation at the start of the ply (R432, R439)? -/
def State.drains (deep : Bool) (target : Nat) (s : State) : Bool :=
  (s.start.gensOf deep target).any (fun g => decide (g.state = .draining)) || (s.dev.gensOf deep target).any fun g => decide (g.state = .draining)

/-- Key of a staged image among the page tables. -/
def stageKey (k : Nat) : Nat := 2097152 + k

/-- The last generation number of a target: that of its current generation, 0 where it has had none. -/
def Dev.lastGen (d : Dev) (deep : Bool) (target : Nat) : Nat := match d.currentGen deep target with
  | some g => g.gen
  | none => 0

/-- Adaptive shifts start afresh under a generation key (R437). -/
def CoreState.freshKey (key : Nat) (x : CoreState) : CoreState :=
  { x with feat := x.feat.filter fun e => decide (e.1 / 256 ≠ key), scale := x.scale.filter fun e => decide (e.1 / 2 ^ 24 / 2 ^ 47 ≠ key) }

/-- The swap of staging slot `k` (R433) to generation number `n`: the new generation is current, and the previous one drains. -/
def State.swapAs (n k : Nat) (op : StageOp) (s : State) : State :=
  let c := op.candidate
  let deep := decide (c.kind = 2)
  let cores := s.dev.candCores c
  let g : Generation :=
    { c with
      gen := n, bound := op.bound, rate := op.rate, degraded := op.degradedRate, quarters := op.quarters, cores := if deep then [] else cores }
  let key := genKey deep c.target n
  let s := s.onObjects fun o =>
    { o with
      gens := Table.put (o.gens.map fun e =>
        if e.2.kind = c.kind ∧ e.2.target = c.target ∧ e.2.state = .current then (e.1, { e.2 with state := .draining, drainFrom := s.now }) else e) key g
      stages := Table.set {} o.stages k op.release
      stagePool := o.stagePool.release k }
  let s := s.onCompute fun y =>
    { y with
      cores := (y.cores.map fun e => (e.1, e.2.freshKey key)).filter fun e => decide (e.2 ≠ {})
      retired := y.retired.filter (fun e => decide (e.1 ≠ key))
      loading := y.loading.filter fun e => decide (e.1 ≠ key) }
  let s :=
    if deep then
      if g.export ∧ (Table.get? s.dev.compute.exports c.target).isNone then
        let ans := s.allocRing 0 .token 20 false; match ans.2 with
        | some r => let s := ans.1; s.onCompute fun y => { y with exports := Table.put y.exports c.target r }
        | none => let s := ans.1; s
      else s
    else s.onChan c.target fun q =>
      { q with
        gen := n
        drainGen := if q.state = .bound then some q.gen else none
        bound := op.bound, rate := op.rate, degraded := op.degradedRate
        cores := cores
        state := if q.state = .unbound then .bound else q.state
        boundPly := if q.state = .unbound then s.now else q.boundPly }
  let s := s.mirror 5 (whereOf deep c.target) ([byte n] ++ zeros 7)
  (s.stageCount 4).setEvent pgStaging 1

/-- The swap of a host's staging operation: generations are numbered in turn (R434). -/
def State.swap (k : Nat) (op : StageOp) (s : State) : State × Nat :=
  let n := nextGen (s.dev.lastGen op.chan.isNone op.candidate.target)
  (s.swapAs n k op, n)

/-- STAGE_SWAP (R432, R433). -/
def execStageSwap (sess : Nat) (s : State) : Host.Outcome State Fault Refusal :=
  .next (s.stageCmd sess 0x53 0 0 (fun n => decide (n = 4)) fun x c s =>
    let refuse (st : Nat) : State := s.complete sess 0x53 st 0 []
    match s.dev.stageOf (Bytes.le c.body 0 4) with
    | none => refuse stBadHandle
    | some (k, g) => s.sized x c 16 fun s =>
      let deep := g.chan.isNone
      if g.state ≠ .accepted then s.complete sess 0x53 stStageState 0 []
      else if s.drains deep g.candidate.target then s.complete sess 0x53 stGenDraining 0 []
      else if s.start.compute.retired.any fun e => decide (e.1 = stageKey k) then s.complete sess 0x53 stFault 0 []
      else
        let ans := s.swap k g
        let s := ans.1
        let n := ans.2
        s.complete sess 0x53 stOK 0 ([byte n] ++ zeros 7 ++ toLE 8 s.now))

/-! ### Retirement (R435, R438) -/

/-- Does a packet stamped with the generation still await its verdict? -/
def Dev.awaits (d : Dev) (chan hgen gen : Nat) : Bool :=
  d.traffic.packets.any fun e => decide (e.2.chan = some (chan, hgen) ∧ e.2.gen = gen) && e.2.applied.isNone && !e.2.gone

/-- Does a token of the generation still run? -/
def Dev.tokenOf (d : Dev) (dm gen : Nat) : Bool := d.compute.tokens.any fun e => decide (e.2.dm = dm ∧ e.2.gen = gen)

/-- May a draining generation be retired now? -/
def State.canRetire (deep : Bool) (g : Generation) (s : State) : Bool :=
  decide (g.state = .draining ∧ g.drainFrom < s.now) &&
    (if deep then !s.start.tokenOf g.target g.gen || decide (g.drainFrom + g.tokenLimit + 1 ≤ s.now)
     else decide (g.drainFrom + g.drain < s.now) &&
      (!s.start.awaits g.target (s.dev.chan g.target).hgen g.gen || decide (g.drainFrom + g.drain + g.bound + 1 ≤ s.now)))

/-- A draining generation is retired once it may be (R435, R438). -/
def State.retireDue (deep : Bool) (target gen : Nat) (s : State) : State :=
  match s.dev.gen? deep target gen with
  | none => s
  | some g =>
    if !s.canRetire deep g then s
    else
      let s := s.retireGen deep target gen
      if deep then s else s.onChan target fun q => if q.drainGen = some gen then { q with drainGen := none } else q

/-- GEN_RETIRE (R435, R438). -/
def execGenRetire (deep : Bool) (target gen : Nat) (s : State) : Host.Outcome State Fault Refusal := .next (s.retireDue deep target gen)

/-- Generations that may be retired in the ply are, at its end, commanded or not (R435, R438). -/
def State.settleGens (s : State) : State :=
  State.each s.dev.objects.gens (fun e s => s.retireDue (decide (e.2.kind = 2)) e.2.target e.2.gen) s

/-! ### The staging page (R440, R441) -/

def StageState.code (x : StageState) : Nat := match x with
  | .free => 0 | .open_ => 1 | .verifying => 2 | .accepted => 3

/-- Read of a block register of the staging page. -/
def Dev.stagingRead (d : Dev) (off : Nat) : Word :=
  if 0x40 ≤ off ∧ off < 0x80 then
    let g := Table.get {} d.objects.stages ((off - 0x40) / 4)
    if g.state = .free then 0
    else
      let target := match g.chan with
        | some n => n
        | none => if 8 ≤ prefixLen g.got then img g.image 7 1 % 16 else 0
      BitVec.ofNat 32 (g.state.code * 2 ^ 30 + (if g.chan.isSome then 1 else 2) * 2 ^ 28 + g.hgen * 4096 + target)
  else if off = 0x80 then d.objects.retiredLast
  else if 0xC0 ≤ off ∧ off < 0xC0 + 56 then
    let v := d.ctr pgStaging (off / 8 * 8)
    if off % 8 = 0 then v.setWidth 32 else (v >>> 32).setWidth 32
  else 0

end Sys2Proof.Machine
end

