-- ==== Sys2Proof/Machine/Security.lean ====
section
/-! DEFINITION. Security (R464 to R499): identity signatures and their counter, session setup (R85 to R94), ownership, signed bundles, firmware
transfers, attestation quotes, the random source and the test access port. -/
namespace Sys2Proof.Machine

/-! ### Non-volatile logs and signatures (R473 to R478) -/

/-- One bottom tree's one-time keys. -/
abbrev treeKeys := 1048576

/-- Write one record to a log: `bad` says that it does not read back, `moved` that a block failed and the log moves to a spare block (R474). -/
def State.logWrite (b : Bool) (kind value : Nat) (bad moved : Bool) (s : State) : State × Bool :=
  let x := s.dev.sec.nvm
  let l := if b then x.logB else x.logA
  let lost := bad || (moved && decide (4 ≤ x.logSpares))
  let seq := match l.getLast? with
    | some r => r.seq + 1
    | none => 0
  let l := if lost then l else l ++ [{ kind := kind, seq := seq, value := value }]
  let s := s.onSec fun y =>
    { y with nvm := { y.nvm with
        logA := if b then y.nvm.logA else l, logB := if b then l else y.nvm.logB
        logSpares := if moved ∧ y.nvm.logSpares < 4 then y.nvm.logSpares + 1 else y.nvm.logSpares } }
  (if moved then s.setEvent pgSecurity 1 else s, !lost)

/-- Write a record to both logs; true when both read back. Bits of `nor`: 0 and 1, the record of log A or B does not read back; 2 and 3, a block
of log A or B fails. -/
def State.logBoth (kind value nor : Nat) (s : State) : State × Bool :=
  let ans := s.logWrite false kind value (bit nor 0) (bit nor 2)
  let s := ans.1
  let a := ans.2
  let ans := s.logWrite true kind value (bit nor 1) (bit nor 3)
  let s := ans.1
  let b := ans.2
  (s, a && b)

/-- Begin to prepare the next bottom tree when it is time (R477). -/
def State.prepareTree (s : State) : State :=
  let x := s.dev.sec
  if x.preparing.isNone ∧ (x.prepared + 1) * treeKeys ≤ x.signNext + 262144 ∧ x.prepared + 1 < treeKeys then
    (s.logBoth 2 (x.prepared + 1) 0).1.onSec fun y => { y with preparing := some (y.prepared + 1) }
  else s

/-- TREE_READY (R477). -/
def execTreeReady (s : State) : Host.Outcome State Fault Refusal :=
  match s.dev.sec.preparing with
  | none => .next s
  | some t => .next ((s.onSec fun x => { x with prepared := t, preparing := none }).setEvent pgSecurity 5)

/-- Take the next index for an identity signature, committing first where it must (R475); none when the signature is refused. -/
def State.sign (nor : Nat) (s : State) : State × Option Nat :=
  let x := s.dev.sec
  let c := x.signNext
  if x.signLocked ∨ x.prepared < c / treeKeys then (s.setEvent pgSecurity 0, none)
  else
    let ans := if c = x.signLimit then s.logBoth 1 (c + 4096) nor else (s, true)
    let s := ans.1
    let ok := ans.2
    if !ok then ((s.setEvent pgSecurity 1).setEvent pgSecurity 0, none)
    else
      let s := s.onSec fun y =>
        { y with
          signNext := c + 1, signLimit := if c = y.signLimit then c + 4096 else y.signLimit
          signLocked := decide (2 ^ 40 ≤ c + 1) }
      (s.prepareTree, some c)

/-- SIGN_LIMIT and SIGN_NEXT at boot (R476). -/
def Security.atBoot (x : Security) : Security :=
  let recs := x.nvm.logA ++ x.nvm.logB
  let limits := (recs.filter fun r => decide (r.kind = 1)).map (·.value)
  let trees := (recs.filter fun r => decide (r.kind = 2)).map (·.value)
  let v : Option Nat := match limits, trees with
    | a :: r, _ => some (r.foldl max a)
    | [], a :: r => some ((r.foldl max a + 1) * treeKeys)
    | [], [] => none
  match v with
  | some n => { x with signNext := n, signLimit := n, signLocked := decide (2 ^ 40 ≤ n) }
  | none => { x with signNext := 0, signLimit := 0, signLocked := true }

/-! ### Session setup (R85 to R94) -/

/-- Split a payload into fragments of at most `n` bytes, all but the last of equal length. -/
def fragments (fuel n : Nat) (b : Bytes) : List Bytes :=
  match fuel with
  | 0 => [b]
  | fuel + 1 => if b.length ≤ n then [b] else b.take n :: fragments fuel n (b.drop n)

/-- Send an OFFER in fragments that fit the host's MAX_FRAME (R84). -/
def State.sendOffer (r : Route) (num maxFrame : Nat) (offer : Bytes) (s : State) : State :=
  let parts := fragments 15 (maxFrame - r.overhead) offer
  State.each (parts.zip (List.range parts.length)) (fun p s => s.sendSelid r 1 num 0 p.2 (parts.length - 1) p.1 p.1) s

/-- The session number after the last assigned one, skipping those open or half-open (R93). -/
def Selid.nextNum (x : Selid) : Nat :=
  (((List.range 255).map fun i => (x.lastNum + i) % 255 + 1).find? fun n =>
    x.sessions.all (fun y => decide (y.num ≠ n)) && x.halfOpen.all fun y => decide (y.num ≠ n)).getD 0

/-- Sessions that are open: those whose IDLE seconds have passed have ended (R92, R95). -/
def Dev.openSessions (d : Dev) (now : Nat) : Nat := d.selid.sessions.countP fun x => !x.idled now

/-- Why a HELLO is refused (R92, R494, R552). -/
def Dev.helloBad (d : Dev) (now : Nat) (p : Bytes) : Option Nat :=
  if !d.startUp.ready ∨ !d.sec.entropyOk then some stSetupBusy
  else if p.length ≠ 40 ∨ Bytes.le p 32 2 < 1518 ∨ 9216 < Bytes.le p 32 2 then some stSetupFormat
  else if 32 ≤ d.openSessions now then some stSessionsFull
  else if 4 ≤ (d.selid.halfOpen.countP fun h => decide (now < h.offerPly + plies1s)) ∨ 64 ≤ (d.selid.offers.countP fun o => decide (now < o + plies1s)) then some stSetupBusy
  else none

/-- Bytes 0 to 1,667 of an OFFER (R86). -/
def offerHead (nonce hello : Bytes) (owned : Bool) (idle : Nat) (ek : Bytes) : Bytes :=
  nonce ++ Bytes.slice hello 0 32 ++ deviceId ++ [byte (b2n owned), 0] ++ toLE 2 idle ++ Bytes.slice ek 0 1568

/-- IDLE granted for an IDLE_REQ (R86). -/
def grantIdle (n : Nat) : Nat := if n = 0 then 1 else min n 600

/-- A whole HELLO from a route (R86, R91, R92). -/
def State.hello (r : Route) (p : Bytes) (nor : Nat) (s : State) : State :=
  match s.dev.helloBad s.now p with
  | some st => s.sendReject r st (Bytes.slice p 0 32)
  | none =>
    let ans := s.sign nor; match ans.2 with
    | none => let s := ans.1; s.sendReject r stSignRefused (Bytes.slice p 0 32)
    | some c =>
      let s := ans.1
      let ans := s.draw
      let a := ans.1
      let s := ans.2
      let ans := s.draw
      let b := ans.1
      let s := ans.2
      let ans := Config.kemKeygen b
      let ek := ans.1
      let dk := ans.2
      let head := offerHead (toLE 32 a) p (decide (s.start.sec.nvm.lifecycle ≠ 0)) (grantIdle (Bytes.le p 34 2)) ek
      let sig := Config.hssSign c (Config.sha256 (p ++ head))
      let offer := head ++ toLE 4 5716 ++ Bytes.slice sig 0 5716
      let n := s.dev.selid.nextNum
      let s := s.onSelid fun x =>
        { x with
          lastNum := n, offers := (x.offers.filter fun o => decide (s.now < o + plies1s)) ++ [s.now]
          halfOpen := x.halfOpen ++ [{ num := n, hello := p, offer, dk, offerPly := s.now, route := r }] }
      s.sendOffer r n (Bytes.le p 32 2) offer

/-- HELLO (R92): received whole, with any last fragment. -/
def execHello (port sub : Nat) (f : Bytes) (nor : Nat) (s : State) : Host.Outcome State Fault Refusal :=
  let ans := s.takeSelid port sub f; match ans.2 with
  | none => let s' := ans.1; .next s'
  | some (r, h, _) =>
    let s' := ans.1
    if h.kind ≠ 0 then .next s
    else if h.fragLast < h.fragIndex then .next s'.formatDropped
    else let ans := s'.setupPayload r h; match ans.2 with
      | none => .next s
      | some p => let s' := ans.1; .next (s'.hello r p nor)

/-- Keys of a session (R88): PRK, T, and the two directions' material. -/
def sessionKeys (t secret : Bytes) : Bytes × Bytes :=
  let prk := Config.hkdfExtract t secret
  let ascii (l : List Nat) : Bytes := l.map byte
  (Bytes.slice (Config.hkdfExpand prk (ascii [0x73, 0x65, 0x6C, 0x69, 0x64, 0x20, 0x68, 0x32, 0x64]) 36) 0 36,
   Bytes.slice (Config.hkdfExpand prk (ascii [0x73, 0x65, 0x6C, 0x69, 0x64, 0x20, 0x64, 0x32, 0x68]) 36) 0 36)

/-- A half-open session ends: its decapsulation key goes with it (R492). -/
def State.dropHalf (n : Nat) (s : State) : State := s.onSelid fun x => { x with halfOpen := x.halfOpen.filter fun y => decide (y.num ≠ n) }

/-- Why an ACCEPT for a half-open session is refused (R90, R92): `owned` tells whether the device had an owner at the start of the ply (R497). -/
def Dev.acceptBad (d : Dev) (now : Nat) (owned : Bool) (h : Option HalfOpen) (p : Bytes) : Option Nat :=
  if 32 ≤ d.openSessions now then some stSessionsFull
  else match h with
    | none => some stSetupFormat
    | some x =>
      let n := Bytes.le p 1600 4
      if x.offerPly + plies1s ≤ now ∨ p.length ≠ 1604 + n ∨ Bytes.slice p 0 32 ≠ Bytes.slice x.offer 0 32 then some stSetupFormat
      else if owned ∧ (n = 0 ∨ !hssGood d.sec.nvm.ownerKey (Config.sha256 (x.hello ++ x.offer ++ p.take 1604)) (p.drop 1604)) then
        some stSetupAuth
      else none

/-- A whole ACCEPT for session number `n` from a route (R88 to R92). -/
def State.accept (r : Route) (n : Nat) (p : Bytes) (s : State) : State :=
  let h := s.dev.selid.halfOpen.find? fun y => decide (y.num = n)
  let owned := decide (s.start.sec.nvm.lifecycle ≠ 0)
  match s.dev.acceptBad s.now owned h p, h with
  | none, some x =>
    let t := Bytes.slice (Config.sha256 (x.hello ++ x.offer ++ p)) 0 32
    let ans := sessionKeys t (Config.kemDecaps x.dk (Bytes.slice p 32 1568))
    let up := ans.1
    let down := ans.2
    let maxFrame := Bytes.le x.hello 32 2
    let idle := grantIdle (Bytes.le x.hello 34 2)
    let restricted := !owned
    let s := (s.dropHalf n).onSelid fun y =>
      { y with sessions := y.sessions ++
        [{ num := n, source := r, latest := r, restricted, maxFrame, idle, openPly := s.now, lastAccept := s.now, h2d := up, d2h := down }] }
    let s := s.bump pgGlobal (0x100 + 8 * 2) 1
    let s := s.sendProtected n r (envelope 0x4000 0 0 0
      ([byte n, byte (b2n restricted)] ++ toLE 2 maxFrame ++ toLE 2 idle ++ [0, 0] ++ toLE 8 s.now ++ t))
    -- an ENROL that completed in the ply ends it with the others (R480, R497)
    if restricted ∧ s.dev.sec.nvm.lifecycle ≠ 0 then s.endSession n else s
  | some st, some x => (s.dropHalf n).sendReject r st (Bytes.slice x.hello 0 32)
  | some st, none => s.sendReject r st (zeros 32)
  | none, none => s

/-- ACCEPT (R88). -/
def execAccept (port sub : Nat) (f : Bytes) (s : State) : Host.Outcome State Fault Refusal :=
  let ans := s.takeSelid port sub f; match ans.2 with
  | none => let s' := ans.1; .next s'
  | some (r, h, _) =>
    let s' := ans.1
    if h.kind ≠ 2 then .next s
    else if h.fragLast < h.fragIndex then .next s'.formatDropped
    else let ans := s'.setupPayload r h; match ans.2 with
      | none => .next s
      | some p => let s' := ans.1; .next (s'.accept r h.session p)

/-! ### Ownership (R479 to R481) -/

/-- What a release or an owner clear erases (R481, R496). -/
def Nvm.eraseOwner (x : Nvm) : Nvm := { x with ownerKey := [], serials := [], countersign := false, team := [] }

/-- ENROL's body taken as a request of session `x` (R480). -/
def State.enrol (sess : Nat) (fail : Bool) (x : Session) (c : Cmd) (s : State) : State :=
  let n := Bytes.le c.body 0 4
  let key := c.body.drop 4
  let refuse (st det : Nat) : State := s.complete sess 0x91 st det []
  if c.body.length < 4 ∨ c.body.length ≠ n + 4 then refuse stBadLength 0
  else if s.dev.sec.nvm.lifecycle ≠ 0 then refuse stExists 0
  else if !isHost x.source.port ∨ n ≠ 60 then refuse stBadField 0
  else if (hssKeyBad key).isSome then refuse stBadField (4 + (hssKeyBad key).getD 0)
  else if fail then refuse stFault 0
  else
    let s := (s.onSec fun y => { y with nvm := { y.nvm with lifecycle := 1, ownerKey := key, countersign := false } }).setEvent pgSecurity 6
    let s := s.complete sess 0x91 stOK 0 []
    State.each (s.dev.selid.sessions.map (·.num)) State.endSession s

/-- ENROL (R480): `fail` says that a NOR copy of the key does not read back. -/
def execEnrol (sess : Nat) (fail : Bool) (s : State) : Host.Outcome State Fault Refusal :=
  .next (s.command sess 0x91 fun x c s => s.enrol sess fail x c)

/-! ### Firmware slots (R467 to R469) -/

/-- Steps 1 to 5 of R468 for a slot's bytes: none, or the status of the first failure. -/
def fwBad (f : Bytes) (floor : Nat) : Option Nat :=
  let book := bookAt f
  let fwLen := Bytes.le f 16 4
  let bookLen := Bytes.le f 20 4
  if Bytes.le f 0 4 ≠ 0x57464B5A ∨ Bytes.le f 4 2 ≠ 1 ∨ 2 ≤ Bytes.le f 6 2 ∨ !allZero (Bytes.slice f 148 12) ∨ 65536 < 164 + Bytes.le f 160 4 ∨
      0x1FF0000 < book + bookLen then some stSigInvalid
  else if Bytes.slice (Config.sha256 (Bytes.slice f 88 60)) 0 32 ≠ Bytes.slice Config.zelmundRoot 0 32 then some stSigInvalid
  else if !hssGood (Bytes.slice f 88 60) (Config.sha256 (Bytes.slice f 0 160)) (Bytes.slice f 164 (Bytes.le f 160 4)) then some stSigInvalid
  else if Bytes.le f 8 4 < floor ∨ 64 < Bytes.le f 8 4 then some stRollback
  else if Bytes.slice (Config.sha256 (Bytes.slice f 65536 fwLen)) 0 32 ≠ Bytes.slice f 24 32 ∨
      Bytes.slice (Config.sha256 (Bytes.slice f book bookLen)) 0 32 ≠ Bytes.slice f 56 32 then some stSigInvalid
  else none

/-- SHA-256 of header bytes 0 to 159. -/
def fwHeaderHash (f : Bytes) : Bytes := Bytes.slice (Config.sha256 (Bytes.slice f 0 160)) 0 32

/-! ### Signed bundles (R482 to R484) -/

/-- A bundle in a command body: KIND, SERIAL, lengths and payload. -/
def bKind (b : Bytes) : Nat := Bytes.at b 6
def bSerial (b : Bytes) : Nat := Bytes.le b 8 4
def bPayLen (b : Bytes) : Nat := Bytes.le b 12 4
def bPayload (b : Bytes) : Bytes := (b.drop 64).take (bPayLen b)
def bSig (b : Bytes) : Bytes := b.drop (68 + bPayLen b)
def bSigLen (b : Bytes) : Nat := Bytes.le b (64 + bPayLen b) 4
/-- The SHA-256 that is signed. -/
def bHash (b : Bytes) : Bytes := Config.sha256 (b.take (64 + bPayLen b))

/-- The peer ports named by a mask. -/
def peerPorts (mask : Nat) : List Nat := ((List.range 32).filter fun n => bit mask n).map (· + 32)

/-- Does a mask name a port without the role (1 team, 2 pair)? -/
def Dev.roleBad (d : Dev) (role mask : Nat) : Bool := (peerPorts mask).any fun p => decide (d.attachReg p ≠ role)

/-- Length of a payload is wrong for its kind or count. -/
def payloadLenBad (k : Nat) (p : Bytes) : Bool :=
  match k with
  | 1 => decide (p.length < 4 ∨ p.length ≠ 4 + 12 * Bytes.le p 0 4)
  | 2 => decide (p.length ≠ 104)
  | 3 => decide (p.length ≠ 48)
  | 5 => decide (p.length < 4)
  | 6 => decide (p.length ≠ 80)
  | _ => false

/-- The first field of a payload outside its range, by its offset in the payload. -/
def Dev.payloadBad (d : Dev) (k : Nat) (p : Bytes) : Option Nat :=
  match k with
  | 1 => firstBad ((List.range (Bytes.le p 0 4)).map fun i => (decide (2 ≤ Bytes.le p (4 + 12 * i + 8) 4), 4 + 12 * i + 8))
  | 2 =>
    let n := Bytes.at p 2
    let self := Bytes.at p 3
    firstBad ([(decide (16 < n), 2), (decide (n ≠ 0 ∧ n ≤ self), 3)] ++
      (List.range 16).map fun m => (decide (n ≠ 0) && (d.roleBad 1 (Bytes.le p (40 + 4 * m) 4) || decide (m = self ∧ Bytes.le p (40 + 4 * m) 4 ≠ 0)), 40 + 4 * m))
  | 3 => firstBad [(decide (Bytes.le p 12 4 ≠ 0), 12)]
  | 6 =>
    firstBad [(decide (4 ≤ Bytes.at p 3), 3), (d.roleBad 2 (Bytes.le p 4 4), 4), (decide (Bytes.at p 8 < 4 ∨ 18 < Bytes.at p 8), 8),
      (decide (Bytes.le p 9 3 ≠ 0), 9), (decide (Bytes.slice p 48 32 = deviceId), 48)]
  | _ => none

/-- The serial rule of a kind is "at least". -/
def atLeast (k : Nat) : Bool := decide (k = 1 ∨ k = 2 ∨ k = 6)

/-- The checks of R484 on the bundle of a command body: status and detail of the first failure. -/
def Dev.bundleBad (d : Dev) (body : Bytes) : Option (Nat × Nat) :=
  let b := body.drop 4
  let k := bKind b
  let p := bPayload b
  if body.length < 72 ∨ Bytes.le body 0 4 + 4 ≠ body.length ∨ Bytes.le b 0 4 ≠ 0x444E424B ∨ Bytes.le b 4 2 ≠ 1 ∨
      b.length ≠ 68 + bPayLen b + bSigLen b then some (stBadLength, 0)
  else if k = 0 ∨ 6 < k then some (stBadField, 10)
  else if payloadLenBad k p then some (stBadLength, 0)
  else match firstBad [(decide (Bytes.at b 7 ≠ 0), 11), (decide (k = 5 ∧ bSerial b ≠ 0), 12), (decide (k = 4 ∧ bPayLen b ≠ 0), 16), (!allZero (Bytes.slice b 48 16), 52)] with
    | some o => some (stBadField, o)
    | none => match d.payloadBad k p with
      | some o => some (stBadField, 68 + o)
      | none =>
        if k = 5 ∧ bSigLen b ≠ 0 then some (stBadField, 68 + bPayLen b)
        else if !allZero (Bytes.slice b 16 32) ∧ Bytes.slice b 16 32 ≠ deviceId then some (stBadField, 20)
        else if k ≠ 5 ∧ !hssGood d.sec.nvm.ownerKey (bHash b) (bSig b) then some (stSigInvalid, 0)
        else
          let stored := Table.get? d.sec.nvm.serials k
          let old : Bool := match stored with
            | none => false
            | some n => if atLeast k then decide (bSerial b < n) else decide (bSerial b ≤ n)
          if k ≠ 5 ∧ old then some (stRollback, 0) else none

/-- What every applied bundle does (R484, R489): its serial is stored and CONFIG_HASH extended. -/
def State.noteBundle (b : Bytes) (s : State) : State :=
  let k := bKind b
  if k = 5 then s
  else s.onSec fun x =>
    let more : Bool := match Table.get? x.nvm.serials k with
      | none => true
      | some n => decide (n < bSerial b)
    { x with
      nvm := if more then { x.nvm with serials := Table.put x.nvm.serials k (bSerial b) } else x.nvm
      configHash := Config.sha256 (Bytes.slice x.configHash 0 32 ++ bHash b) }

/-- Refuse a BUNDLE_APPLY. A failure of the checks of R484 sets BUNDLE_REFUSED too; a refusal under another rule does not (log entry 136). -/
def State.refuseBundle (sess st det : Nat) (s : State) : State := s.complete sess 0x92 st det []

/-- Run a BUNDLE_APPLY whose bundle has the given KIND. A bundle whose KIND cannot be told falls to KIND 1. -/
def State.bundle (sess k : Nat) (run : Cmd → Bytes → State → State) (s : State) : State :=
  s.command sess 0x92 fun _ c s' =>
    let b := c.body.drop 4
    let k' := if 2 ≤ bKind b ∧ bKind b ≤ 6 ∧ 72 ≤ c.body.length then bKind b else 1
    if k' ≠ k then s
    else if s'.dev.sec.nvm.lifecycle = 0 then s'.refuseBundle sess stNotOwned 0
    else match s'.dev.bundleBad c.body with
      | some (st, det) => (s'.refuseBundle sess st det).setEvent pgSecurity 3
      | none => run c b s'

/-- REGISTERS_BUNDLE (R485): its writes are performed as a WRITE_BATCH of the session would be; the last one answers. -/
def execRegistersBundle (sess : Nat) (s : State) : Host.Outcome State Fault Refusal :=
  .next (s.bundle sess 1 fun _ b s =>
    let p := bPayload b
    let s := s.noteBundle b
    let n := Bytes.le p 0 4
    if n = 0 then s.complete sess 0x92 stOK 0 []
    else (s.startCmd sess 0x92).onSession sess fun y =>
      { y with
        writes := (List.range n).map fun i =>
          { addr := Bytes.le p (4 + 12 * i) 4, value := BitVec.ofNat 32 (Bytes.le p (8 + 12 * i) 4), seals := decide (Bytes.le p (12 + 12 * i) 4 = 1) }
        estats := [] })

/-- TEAM_BUNDLE (R486). The SEQ and credit counts of the ports go on: they restart only with their links (R355, R357). -/
def execTeamBundle (sess : Nat) (s : State) : Host.Outcome State Fault Refusal :=
  .next (s.bundle sess 2 fun _ b s =>
    let p := bPayload b
    let n := Bytes.at p 2
    let kept : Team := { s.dev.team with id := 0, members := 0, self := 0, key := [], salt := [], ports := [], greet := false }
    let team : Team :=
      if n = 0 then kept
      else
        { kept with
          id := Bytes.le p 0 2, members := n, self := Bytes.at p 3, key := Bytes.slice p 4 32, salt := Bytes.slice p 36 4
          ports := (List.range 16).map fun m => Bytes.le p (40 + 4 * m) 4
          greet := true }
    let s := (s.noteBundle b).onTeam fun _ => team
    let s := s.onSec fun x => { x with nvm := { x.nvm with team := if n = 0 then [] else p.take 4 ++ zeros 36 ++ p.drop 40 } }
    s.complete sess 0x92 stOK 0 [])

/-- FW_MANIFEST_BUNDLE (R487, R488). -/
def execFwManifestBundle (sess : Nat) (s : State) : Host.Outcome State Fault Refusal :=
  .next (s.bundle sess 3 fun _ b s =>
    let p := bPayload b
    let s := (s.noteBundle b).onSec fun x =>
      { x with
        nvm := { x.nvm with countersign := true }
        transfer := some { sess, manifest := b, svn := Bytes.le p 0 4, build := Bytes.le p 4 4, len := Bytes.le p 8 4, headerHash := Bytes.slice p 16 32 } }
    s.complete sess 0x92 stOK 0 [])

/-- The check of a complete firmware image (R487): none, or the status it gives. -/
def FwTransfer.bad (t : FwTransfer) (floor : Nat) (f : Bytes) : Option Nat :=
  match fwBad f floor with
  | some st => some st
  | none => if t.headerHash ≠ fwHeaderHash f ∨ t.svn ≠ Bytes.le f 8 4 ∨ t.build ≠ Bytes.le f 12 4 then some stSigInvalid else none

/-- A slot's bytes: the image, and the manifest bundle from 01FF_0000h; the rest is erased (R467, R487). -/
def slotBytes (img man : Bytes) : Bytes :=
  let a := img.take 0x1FF0000
  let m := man.take 65536
  a ++ List.replicate (0x1FF0000 - a.length) 0xFF ++ m ++ List.replicate (65536 - m.length) 0xFF

/-- FW_DATA_BUNDLE (R487): `fail` says that the slot's write does not read back. -/
def execFwDataBundle (sess : Nat) (fail : Bool) (s : State) : Host.Outcome State Fault Refusal :=
  .next (s.bundle sess 5 fun _ b s =>
    let p := bPayload b
    let off := Bytes.le p 0 4
    let data := p.drop 4
    match s.dev.sec.transfer with
    | none => s.refuseBundle sess stStageState 0
    | some t =>
      if t.sess ≠ sess then s.refuseBundle sess stStageState 0
      else if t.len < off + data.length then s.refuseBundle sess stBadField 68
      else
        let t := if data.isEmpty then t else { t with data := Mem.writeBytes t.data off data, got := coverAdd off (off + data.length) t.got }
        if prefixLen t.got < t.len then (s.onSec fun x => { x with transfer := some t }).complete sess 0x92 stOK 0 []
        else
          let f := Mem.readBytes t.data 0 t.len
          let s := s.onSec fun x => { x with transfer := none }
          match t.bad s.dev.sec.nvm.floor f with
          | some st => s.refuseBundle sess st 0
          | none =>
            if fail then s.refuseBundle sess stFault 0
            else
              let bytes := slotBytes f t.manifest
              let s := s.onSec fun x =>
                { x with nvm := if x.slot = 0 then { x.nvm with slotB := some bytes } else { x.nvm with slotA := some bytes } }
              s.complete sess 0x92 stOK 0 [])

/-- RELEASE_BUNDLE (R481). -/
def execReleaseBundle (sess : Nat) (s : State) : Host.Outcome State Fault Refusal :=
  .next (s.bundle sess 4 fun _ b s =>
    if s.dev.sec.nvm.lifecycle = 2 then s.refuseBundle sess stStageState 0
    else ((s.noteBundle b).onSec fun x => { x with nvm := { x.nvm with lifecycle := 2 } }).complete sess 0x92 stOK 0 [])

/-! ### Attestation quotes (R489 to R491) -/

/-- DIGEST of a generation's image (R490). -/
def Generation.digest (g : Generation) : Bytes := Bytes.slice (Config.sha256 (Mem.readBytes g.image 0 (imgSigAt g.image))) 0 32

/-- Generations in the order of R490. -/
def Dev.quoteGens (d : Dev) : List Generation :=
  let all := d.objects.gens.map (·.2)
  let of (deep : Bool) (t : Nat) : List Generation :=
    let l := all.filter fun g => decide (g.kind = (if deep then 2 else 1) ∧ g.target = t)
    (l.filter fun g => decide (g.state = .current)) ++ l.filter fun g => decide (g.state = .draining)
  let slots := (all.filter fun g => decide (g.kind = 1)).map (·.target)
  (slots.eraseDups.flatMap (of false)) ++ (List.range 16).flatMap (of true)

/-- One record of R490. -/
def Generation.quoteRec (g : Generation) : Bytes :=
  [byte g.kind, 0] ++ toLE 2 g.target ++ [byte g.gen, byte (if g.state = .current then 0 else 1), 0, 0] ++ g.digest

/-- SHA-256 of the owner root key; 0 when unowned. -/
def Dev.ownerHash (d : Dev) : Bytes := if d.sec.nvm.lifecycle = 0 then zeros 32 else Bytes.slice (Config.sha256 d.sec.nvm.ownerKey) 0 32

/-- Bytes 0 to 291 of a quote over the device as it stood at the start of a ply. -/
def Dev.quote (d : Dev) (nonce : Bytes) (ply c : Nat) : Bytes :=
  let x := d.sec
  let gens := d.quoteGens
  let f := d.flash x.slot
  toLE 4 0x5451574B ++ toLE 2 1 ++ [byte x.nvm.lifecycle, byte (b2n (decide (d.team.members ≠ 0)) + 2 * b2n x.tapUsed + 4 * b2n d.deepEn)] ++
    Bytes.slice nonce 0 32 ++ toLE 8 ply ++ toLE 8 c ++ toLE 4 (Bytes.le f 8 4) ++ [byte x.nvm.floor, byte x.slot, byte x.nvm.ownerClears, 0] ++
    fwHeaderHash f ++ Bytes.slice (Config.sha256 d.book) 0 32 ++ d.ownerHash ++ Bytes.slice x.configHash 0 32 ++
    Bytes.slice (Config.sha256 ((gens.map Generation.quoteRec).flatten)) 0 32 ++ toLE 2 gens.length ++ toLE 2 d.team.id ++
    toLE 4 (Table.get 0 x.nvm.serials 1) ++ Bytes.slice Config.identityKey 0 60

/-- ATTEST (R478, R489 to R491). -/
def execAttest (sess nor : Nat) (s : State) : Host.Outcome State Fault Refusal :=
  .next (s.command sess 0x90 fun x c s =>
    if c.body.length ≠ 32 then s.complete sess 0x90 stBadLength 0 []
    else s.sized x c 6012 fun s =>
      if 64 ≤ (s.dev.sec.quotes.countP fun q => decide (s.now < q + plies1s)) then s.complete sess 0x90 stBusy 0 []
      else let ans := s.sign nor; match ans.2 with
        | none => let s := ans.1; s.complete sess 0x90 stSignRefused 0 []
        | some idx =>
          let s := ans.1
          let q := s.start.quote c.body s.now idx
          let s := s.onSec fun y => { y with quotes := (y.quotes.filter fun q => decide (s.now < q + plies1s)) ++ [s.now] }
          s.complete sess 0x90 stOK 0 (q ++ toLE 4 5716 ++ Bytes.slice (Config.hssSign idx (Config.sha256 q)) 0 5716))

/-! ### The random source (R493, R494) -/

/-- Draw the flow-table seeds (R234, R494). -/
def State.drawSeeds (s : State) : State :=
  let ans := s.draw
  let a := ans.1
  let s := ans.2
  let ans := s.draw
  let b := ans.1
  let s := ans.2
  ((s.setReg (addrOf pgFlowCtl 0x40) (BitVec.ofNat 32 a)).setReg (addrOf pgFlowCtl 0x44) (BitVec.ofNat 32 b)).onSec fun x => { x with seedsDue := false }

/-- Is a reseed due while the DRBG serves (R493): after 2^20 requests, and 1 s after the last one? -/
def Dev.reseedDue (d : Dev) (now : Nat) : Bool :=
  d.sec.entropyOk && decide (d.sec.requests + 1048576 ≤ d.draws ∨ d.sec.reseeded + plies1s ≤ now)

/-- A due reseed takes place with the ply, commanded or not (R493). -/
def State.settleReseed (s : State) : State :=
  if s.dev.reseedDue s.now then s.onSec fun x => { x with reseeded := s.now, requests := s.dev.draws } else s

/-- The next bottom tree's preparation begins with the ply in which it is time, after a boot too (R477). -/
def State.settleTree (s : State) : State := if s.dev.halted ∨ s.dev.sec.signLocked ∨ s.dev.startUp.phase < 4 then s else s.prepareTree

/-- DRBG_RESEED (R493, R494): a reseed that passes, after 2^20 requests, 1 s, or while the DRBG serves nothing. -/
def execDrbgReseed (s : State) : Host.Outcome State Fault Refusal :=
  let x := s.dev.sec
  if x.failing.isNone ∧ !s.dev.reseedDue s.now then .next s
  else
    let n := match x.failing with
      | some k => k + 1
      | none => 3
    let s := s.onSec fun y =>
      { y with reseeded := s.now, requests := s.dev.draws, failing := if n < 3 then some n else none, entropyOk := decide (3 ≤ n) }
    .next (if 3 ≤ n ∧ x.seedsDue then s.drawSeeds else s)

/-- ENTROPY_FAIL (R494). -/
def execEntropyFail (s : State) : Host.Outcome State Fault Refusal :=
  .next ((s.onSec fun x => { x with failing := some 0, entropyOk := false }).setEvent pgSecurity 2)

/-! ### The test access port (R495, R496) -/

/-- The register of an instruction that acts as BYPASS: one bit, 0 at first (IEEE 1149.1). -/
def bypassBits (data : Bytes) : Bytes := toLE data.length (2 * Bytes.le data 0 data.length % 256 ^ data.length)

/-- An instruction takes effect when it is allowed; otherwise it acts as BYPASS. -/
def State.tap (data : Bytes) (allowed : Bool) (run : State → State) (s : State) : State :=
  if !s.dev.startUp.powerGood then s
  else if allowed ∧ !s.dev.sec.scanning then (run s).onSec fun x => { x with tapUsed := true }
  else (s.onSec fun x => { x with extest := false }).emit (.tap (bypassBits data))

/-- A captured boundary value, which the manual does not lay out. -/
def State.capture (data : Bytes) (s : State) : State := s.free.2.emit (.tap (toLE data.length s.free.1))

/-- BYPASS (R495). -/
def execBypass (data : Bytes) (s : State) : Host.Outcome State Fault Refusal := .next (s.tap data false id)

/-- IDCODE (R495). -/
def execIdcode (s : State) : Host.Outcome State Fault Refusal :=
  .next (if !s.dev.startUp.powerGood then s else (s.onSec fun x => { x with extest := false }).emit (.tap (toLE 4 0x18800D6B)))

/-- SAMPLE/PRELOAD (R495): the pins are captured and the cells loaded. -/
def execSamplePreload (data : Bytes) (s : State) : Host.Outcome State Fault Refusal :=
  .next (s.tap data s.dev.startUp.resetN fun s => (s.capture data).onSec fun x => { x with cells := data, extest := false })

/-- EXTEST (R495): the cells drive the pins, and the pins are captured. -/
def execExtest (data : Bytes) (s : State) : Host.Outcome State Fault Refusal :=
  .next (s.tap data s.dev.startUp.resetN fun s => (s.capture data).onSec fun x => { x with cells := data, extest := true })

/-- SCAN (R495): entry clears scratch SRAM and the packet buffers. -/
def execScan (data : Bytes) (s : State) : Host.Outcome State Fault Refusal :=
  .next (s.tap data (s.dev.startUp.resetN && decide (s.dev.sec.nvm.lifecycle = 0)) fun s =>
    let s := s.onCompute fun c => { c with cores := (c.cores.map fun e => (e.1, { e.2 with scratch := [] })).filter fun e => decide (e.2 ≠ {}) }
    let s := s.onTraffic fun t => { t with packets := [], egress := [], records := [] }
    (s.capture data).onSec fun x => { x with scanning := true, extest := false })

/-- OWNER_CLEAR (R495, R496). -/
def execOwnerClear (data : Bytes) (s : State) : Host.Outcome State Fault Refusal :=
  let x := s.dev.sec.nvm
  .next (s.tap data (s.dev.startUp.resetN && decide (x.lifecycle ≠ 0 ∧ x.ownerClears < 16)) fun s =>
    let s := s.onSec fun y => { y with extest := false, nvm := { y.nvm.eraseOwner with ownerClears := y.nvm.ownerClears + 1 } }
    s.onStart fun y => { y with cleared := true })

/-! ### The security and endorsement pages (R472, R498, R499) -/

/-- The endorsement's bytes (R472). -/
def endorsementBytes : Bytes :=
  let sig := Config.endorsement.drop 32
  toLE 2 1 ++ [0, 0] ++ toLE 8 Config.serial.toNat ++ Bytes.slice Config.identityKey 0 60 ++ Bytes.slice Config.endorsement 0 32 ++ toLE 4 sig.length ++ sig

/-- Read of a block register of the endorsement page. -/
def endorseRead (off : Nat) : Word :=
  if off = 0x40 then BitVec.ofNat 32 endorsementBytes.length else if 0x44 ≤ off then BitVec.ofNat 32 (Bytes.le endorsementBytes (off - 0x44) 4) else 0

/-- The generation DIGEST_SEL selects. -/
def Dev.digestGen (d : Dev) : Option Generation :=
  let sel := d.rg pgSecurity 0x60
  let deep := bit sel 13
  let slot := sel % 4096
  if deep ∧ 15 < slot then none
  else d.quoteGens.find? fun g => decide (g.kind = (if deep then 2 else 1) ∧ g.target = slot ∧ (g.state = .draining ↔ bit sel 12 = true))

/-- Read of a block register of the security page. -/
def Dev.secRead (d : Dev) (off : Nat) : Word :=
  let x := d.sec
  let f := d.flash x.slot
  BitVec.ofNat 32 (match off with
    | 0x40 => x.nvm.lifecycle * 2 ^ 30 + b2n x.signLocked * 2 ^ 29 + b2n x.entropyOk * 2 ^ 28 + b2n (decide (x.signNext / treeKeys < x.prepared)) * 2 ^ 27 +
        b2n (decide (d.team.members ≠ 0) && !d.team.key.isEmpty) * 2 ^ 26 + b2n x.tapUsed * 2 ^ 25 + x.slot * 2 ^ 24 + x.nvm.floor * 65536 + x.nvm.ownerClears * 256
    | 0x44 => Bytes.le f 8 4
    | 0x48 => Bytes.le f 12 4
    | 0x4C => x.signNext % 2 ^ 32
    | 0x50 => bits x.signNext 39 32
    | 0x54 => x.signLimit % 2 ^ 32
    | 0x58 => bits x.signLimit 39 32
    | 0x5C => Table.get 0 x.nvm.serials 1
    | 0x60 => d.rg pgSecurity 0x60
    | _ => if 0x64 ≤ off ∧ off < 0x84 then
        match d.digestGen with
        | some g => Bytes.le g.digest (off - 0x64) 4
        | none => 0
      else 0)

/-- Write of a block register of the security page. -/
def State.secWrite (off : Nat) (v : Word) (s : State) : State :=
  if off = 0x60 then s.setReg (addrOf pgSecurity 0x60) (v &&& 0x3FFF) else s

end Sys2Proof.Machine
end

