-- ==== Sys2Proof/Machine/Reliability.lean ====
section
/-! DEFINITION. Fault tolerance (R500 to R509, R524, R525): core failures, self-tests, the mapping of spare sites, spare rows, and stopped control
processors. -/
namespace Sys2Proof.Machine

/-! ### Sites -/

/-- Counter `e` and event `b` of a die's reliability page. -/
def State.relCount (die e : Nat) (s : State) : State := s.bump (pageOf tReliab die) (0x480 + 8 * e) 1
def State.relEvent (die b : Nat) (s : State) : State := s.setEvent (pageOf tReliab die) b

/-- Mesh hops between two local sites (16 columns by 13 rows). -/
def meshHops (a b : Nat) : Nat := (a % 16 - b % 16) + (b % 16 - a % 16) + (a / 16 - b / 16) + (b / 16 - a / 16)

def State.setSite (x : Nat) (v : Site) (s : State) : State := s.onReliab fun r => { r with sites := Table.put r.sites x v }

/-- Spare sites of a die, ascending local numbers. -/
def Dev.sparesOf (d : Dev) (die : Nat) : List Nat := (List.range 208).filter fun k => decide ((d.site (die * 208 + k)).state = .spare)

/-- The first of a list that is least by a measure. -/
def leastBy (f : Nat → Nat) (l : List Nat) : Option Nat :=
  l.foldl (fun b x => match b with
    | none => some x
    | some y => if f x < f y then some x else some y) none

/-- The arrays of a core after a site reset: MODE, the REGIONS fields and the marks of ARRAY_STATE take their reset values (R330, R548). -/
def CoreState.resetArrays (x : CoreState) : CoreState := { x with mode := 0, array0 := {}, array1 := {}, running := [], rescaleFree := 0 }

/-- The per-core pages of a site go back to their reset values. -/
def State.clearSite (x : Nat) (s : State) : State :=
  let mine (page : Nat) : Bool := perCorePage page && decide (page % 1024 = x)
  s.onRegs fun r =>
    { r with
      hdr := r.hdr.filter fun e => !mine e.1
      rw := r.rw.filter fun e => !mine (e.1 / 65536)
      ctr := r.ctr.filter fun e => !mine (e.1 / 65536)
      latch := r.latch.filter fun e => !mine (e.1 / 65536) }

/-- A site reset (R547, R548): the per-core pages of the site take their reset values. -/
def State.resetSite (x : Nat) (s : State) : State :=
  let s := match s.dev.coreAt x with
    | some core => s.onCore core CoreState.resetArrays
    | none => s
  ((s.abortWrites x).onReliab fun r => { r with resetPly := Table.put r.resetPly x s.now }).clearSite x

/-! ### What a failed core loses (R503, R504) -/

/-- A request that waits in an expert queue is missed, where its token is this device's (R358). -/
def State.missRequest (q : ExpertReq) (s : State) : State :=
  if !s.dev.team.here q.homeMember then s
  else match s.dev.compute.tokens.find? fun t => decide (t.2.core = q.homeCore ∧ t.2.stateSlot = q.stateSlot ∧ t.2.tenancy = q.tenancy ∧
      t.2.number % 65536 = q.token % 65536) with
    | some t => s.missed t.1 q.layer q.expert
    | none => s

/-- The expert queues of a core: keys and requests. -/
def Dev.coreQueues (d : Dev) (core : Nat) : List (Nat × List ExpertReq) :=
  d.compute.expertQ.filter fun e => match e.2 with
    | [] => false
    | q :: _ => match d.gen? true q.dm q.gen with
      | some g => decide ((d.expertE q.homeCore g q.layer q.expert).core = core)
      | none => false

/-- Everything that runs or waits on a core ends: its contexts abort with kind 7, its queued packets take their defaults, its tokens are abandoned
and the requests in its expert queues are missed (R503). -/
def State.dropCore (core : Nat) (s : State) : State :=
  let x := s.dev.core core
  let s := State.each (x.ctxs.map (·.1)) (fun t s =>
    let c := s.ctx core t
    if c.state = .free ∨ c.state = .stopping then s
    else ((s.recordAbort core t 7 c.task).stop core t).ownerAbort core 7 c.task none) s
  let s := s.dropPackets (x.pawn ++ (x.open_.flatMap (·.2)) ++ x.closed.flatMap (·.items))
  let s := State.each x.tasks (fun t s => s.ownerAbort core 7 t none) s
  let s := State.each ((s.dev.compute.tokens.filter fun t => decide (t.2.core = core)).map (·.1)) State.abandon s
  let qs := s.dev.coreQueues core
  let s := State.each (qs.flatMap (·.2)) State.missRequest s
  s.onCompute fun c =>
    { c with
      expertQ := c.expertQ.filter fun e => !(qs.any fun q => decide (q.1 = e.1))
      cores := Table.erase c.cores core }

/-- Direct entries in the vault of a logical core (R214). -/
def inVault (core k : Nat) : Bool := decide (k / 1048576 = coreDie core ∧ k % 1048576 / 4 % 200 = core % 200)

/-- The slice, direct region and state pool of a core are lost (R203, R504); promoted flows lose their state and promotion. -/
def State.loseSlice (core : Nat) (s : State) : State :=
  let exact := (s.dev.flow.exact.filter fun e => decide (e.1 / 524288 = core)).map fun e => Loc.exact core (e.1 % 524288)
  let direct := (s.dev.flow.direct.filter fun e => inVault core e.1).map fun e => Loc.direct (e.1 / 1048576) (e.1 % 1048576)
  let s := State.each (exact ++ direct) (fun l s => if eValid (s.dev.entry l) then s.removeEntry l else s) s
  let s := s.onFlow fun f =>
    { f with
      exact := f.exact.filter fun e => decide (e.1 / 524288 ≠ core)
      direct := f.direct.filter fun e => !inVault core e.1
      slices := Table.erase f.slices core
      statePools := Table.erase f.statePools core
      stateMem := f.stateMem.filter fun e => decide (e.1 / 268435456 ≠ core) }
  (s.onCompute fun c => { c with promoted := c.promoted.filter fun k => decide (k / 32768 ≠ core) }).relCount (coreDie core) 9

/-- Pages of a generation that a core's vault holds (R421). -/
def Dev.pagesIn (_d : Dev) (g : Generation) (core : Nat) : List Nat :=
  (pagesOf g.image).flatMap fun p =>
    ((List.range ((p.length + 2097151) / 2097152)).map fun i => p.addr / 2097152 + i).filter fun page =>
      if p.place = 2 then decide (p.core = core)
      else if p.place = 1 then decide (Config.frameCore g.key page (coreDie core) % 200 = core % 200)
      else decide (Config.frameCore g.key page 0 % 800 = core)

/-- The whole vault of a core is lost (R504): besides its fixed regions, its model pages retire and its rings are flushed. -/
def State.loseVault (core : Nat) (s : State) : State :=
  let s := s.loseSlice core
  let s := State.each (s.dev.objects.gens.map (·.2)) (fun g s => State.each (s.dev.pagesIn g core) (fun p s => s.retirePage g p) s) s
  let rings := (s.dev.objects.rings.filter fun e => decide (e.2.use ≠ .free ∧ Config.ringCore e.1 % 800 = core)).map (·.1)
  State.each rings (fun n s => s.onRing n (Ring.flush s.now s.dev.objects.ringPace)) s

/-! ### Mapping (R503 to R506) -/

/-- Step 2 of R503: a spare for logical core `core` whose failed site is local site `f`, or the core becomes vacant (R506). -/
def State.mapSpare (die f core : Nat) (vault : Bool) (s : State) : State :=
  let l := s.dev.sparesOf die
  match leastBy (meshHops f) l with
  | some t =>
    let s := (s.setSite (die * 208 + t) { state := .mapping }).onReliab fun r =>
      { r with mapping := Table.put r.mapping die { from_ := f, to_ := t, logical := core, vault, start := s.now } }
    if l.length = 2 then s.relEvent die 6 else s
  | none =>
    let s := s.onReliab fun r => { r with mapping := Table.erase r.mapping die }
    let s := if vault then s else s.loseSlice core
    ((s.onObjects fun o => { o with siteMap := Table.put o.siteMap core none }).relCount die 2).relEvent die 2

/-- Begin the mapping of the failure that has waited longest on a die (R503). -/
def State.nextMapping (die : Nat) (s : State) : State :=
  if (Table.get? s.dev.reliab.mapping die).isSome then s
  else match s.dev.reliab.waiting.find? fun w => decide (siteDie w.1 = die) with
    | some w =>
      let s := s.onReliab fun r => { r with waiting := r.waiting.filter fun v => decide (v ≠ w) }
      match s.dev.coreAt w.1 with
      | some core => s.mapSpare die (w.1 % 208) core (decide (w.2 = 5))
      | none => s
    | none => s

/-- The per-core page of the block in which a core failure of a cause was detected (R62, R500, R525). DESIGN CHOICE (log entry 161): for an error of
the scratch SRAM, which lies in no block of its own, the sequencer page. -/
def failedPage (cause x : Nat) : Nat :=
  pageOf (match cause with
    | 2 => tArray
    | 4 => tTree
    | 5 => tStream
    | _ => tSeq) x

/-- Step 1 of R503 for the site of a logical core, then the mapping begins or waits. -/
def State.failCore (core cause : Nat) (s : State) : State :=
  match s.dev.siteOf core with
  | none => s
  | some x =>
    let die := siteDie x
    let s := (((s.dropCore core).setSite x { state := .retired, cause }).relCount die 0).relEvent die 0
    -- a failed self-test finds its fault after the site reset that the test makes
    let s := if cause = 2 then s.markFaulted (failedPage cause x) else s.setFaulted (failedPage cause x) true
    let s := if cause = 5 then s.loseVault core else s
    let s := match Table.get? s.dev.reliab.mapping die with
      | some m =>
        if m.wear ∧ die * 208 + m.from_ = x then
          ((s.discardHeld (die * 208 + m.to_)).setSite (die * 208 + m.to_) { state := .spare }).onReliab fun r => { r with mapping := Table.erase r.mapping die }
        else s
      | none => s
    (s.onReliab fun r => { r with waiting := r.waiting ++ [(x, cause)] }).nextMapping die

/-- CORE_FAILURE (R500, R503): causes 1, 2 and 4 are reported by the core's own watchdogs, self-test and row repair; 3 and 5 are detected in its
scratch SRAM and vault. -/
def execCoreFailure (core cause : Nat) (s : State) : Host.Outcome State Fault Refusal :=
  if !s.dev.coreActive core ∨ ((s.dev.core core).failed ≠ some cause ∧ cause ≠ 3 ∧ cause ≠ 5) then .next s
  else .next (s.failCore core cause)

/-- SELF_TEST (R501 to R503, R509): a self-test of a site completes. A spare being mapped in passes to the copy, or is retired and the mapping
takes the next spare; a test that fails later stands for the failure of that spare in step 4 or 5. On an active site a pass clears SUSPECT, and a
failure is a core failure. -/
def execSelfTest (site : Nat) (pass : Bool) (s : State) : Host.Outcome State Fault Refusal :=
  let die := siteDie site
  let count (s : State) : State :=
    let s := s.relCount die 4
    if pass then s else (s.relCount die 5).relEvent die 3
  match s.dev.coreAt site, Table.get? s.dev.reliab.mapping die with
  | none, some m =>
    if die * 208 + m.to_ ≠ site ∨ (pass ∧ m.step ≠ 0) then .next s
    else if pass then
      .next ((count (s.resetSite site)).onReliab fun r => { r with mapping := Table.put r.mapping die { m with step := 1 } })
    else
      let s := ((count (s.resetSite site)).setSite site { state := .retired, cause := 2 }).markFaulted (failedPage 2 site)
      if m.wear then .next ((s.onReliab fun r => { r with mapping := Table.erase r.mapping die }).nextMapping die)
      else .next ((s.mapSpare die m.from_ m.logical m.vault).nextMapping die)
  | some core, _ =>
    let x := s.dev.core core
    if !s.dev.coreActive core ∨ (!x.array0.suspect && !x.array1.suspect) then .next s
    else
      let s := count (s.resetSite site)
      .next (s.onCore core fun x => if pass then
          { x with array0 := { x.array0 with suspect := false }, array1 := { x.array1 with suspect := false } }
        else { x with failed := some 2 })
  | none, none => .next s

/-- SPARE_ACTIVATION (R503, R506): the copy and the load done, the mapped spare is activated in this ply, at whose end it becomes active unless a
failure of the ply undoes the mapping (R509). -/
def execSpareActivation (die : Nat) (s : State) : Host.Outcome State Fault Refusal :=
  match Table.get? s.dev.reliab.mapping die with
  | none => .next s
  | some m =>
    if m.step = 0 then .next s
    else .next (s.onReliab fun r => { r with mapping := Table.put r.mapping die { m with active := true } })

/-- The spare of a die's mapping becomes active with the logical number, its arrays as its site reset has left them (R308, R548), and the die's next
mapping begins. -/
def State.activate (die : Nat) (m : Mapping) (s : State) : State :=
  let s := s.setSite (die * 208 + m.to_) { state := .active }
  let s := s.onObjects fun o => { o with siteMap := Table.put o.siteMap m.logical (some (die * 208 + m.to_)) }
  let s := if m.wear then s.setSite (die * 208 + m.from_) { state := .spare, cause := 6 }
    else s.onReliab fun r => { r with activated := Table.put r.activated m.logical s.now }
  let s := (s.onCore m.logical CoreState.resetArrays).onReliab fun r => { r with mapping := Table.erase r.mapping die }
  ((s.relCount die 1).relEvent die 1).nextMapping die

/-- The core failures of a ply that their own commands have not brought (R500, R503). -/
def State.settleFailures (s : State) : State :=
  State.each (s.dev.compute.cores.filterMap fun e => e.2.failed.map fun k => (e.1, k)) (fun e s =>
    if s.dev.coreActive e.1 then s.failCore e.1 e.2 else s) s

/-- The activations of a ply (R503). -/
def State.settleMaps (s : State) : State :=
  State.each (s.dev.reliab.mapping.filter fun e => e.2.active) (fun e s => s.activate e.1 e.2) s

/-! ### Spare rows (R507, R508) -/

/-- AM_REMAP (R507): a spare leaf row (kind 0) or comparator entry (kind 1) takes the place of a failed one; the last spare's use is a core failure.
-/
def execAmRemap (core quarter kind index : Nat) (s : State) : Host.Outcome State Fault Refusal :=
  match s.dev.siteOf core with
  | none => .next s
  | some x =>
    let q := x * 4 + quarter
    let r := s.dev.reliab
    let known := r.amFailed.any fun f => decide (f.1 = q ∧ f.2.1 = kind ∧ f.2.2.1 = index)
    if 4 ≤ quarter ∨ !known then .next s
    else
      let used := Table.get 0 (if kind = 0 then r.rowsUsed else r.compsUsed) q + 1
      let total := if kind = 0 then 64 else 256
      let s := s.onReliab fun r =>
        { r with
          amFailed := r.amFailed.filter fun f => !decide (f.1 = q ∧ f.2.1 = kind ∧ f.2.2.1 = index)
          rowsUsed := if kind = 0 then Table.put r.rowsUsed q used else r.rowsUsed
          compsUsed := if kind = 0 then r.compsUsed else Table.put r.compsUsed q used }
      let s := ((s.relCount (siteDie x) 6).relEvent (siteDie x) 4)
      let s := s.setFaulted (pageOf tTree x) (s.dev.reliab.amFailed.any fun f => decide (f.1 / 4 = x))
      .next (if total ≤ used then s.onCore core fun y => { y with failed := some 4 } else s)

/-- A row or entry that has waited 1 ms gets its spare (R507). -/
def State.settleSpares (s : State) : State :=
  State.each (s.dev.reliab.amFailed.filter fun f => decide (f.2.2.2 + plies1ms ≤ s.now)) (fun f s =>
    match s.dev.coreAt (f.1 / 4) with
    | some core => s.force (execAmRemap core (f.1 % 4) f.2.1 f.2.2.1)
    | none => s) s

/-- Does a vault hold a row that waits for a spare or is being moved, or an uncorrectable line (R62)? -/
def Dev.vaultFaulted (d : Dev) (site : Nat) : Bool :=
  (d.reliab.vaultFailed.any fun f => decide (f.1 = site)) || (d.reliab.moving.any fun m => decide (m.1 = site)) ||
    d.reliab.badLines.any fun f => decide (f.1 = site)

/-- VAULT_REMAP (R508, R410): the row is moved to a spare row, its pages (generation key, page) loading until the second command for the row, which
completes the move. The last spare row's use is a vault failure. -/
def execVaultRemap (site row : Nat) (pages : List (Nat × Nat)) (s : State) : Host.Outcome State Fault Refusal :=
  let r := s.dev.reliab
  let die := siteDie site
  match r.moving.find? fun m => decide (m.1 = site ∧ m.2.1 = row) with
  | some m =>
    let used := Table.get 0 r.vaultUsed site + 1
    let s := s.onReliab fun r =>
      { r with
        moving := r.moving.filter fun n => decide (n ≠ m)
        vaultUsed := Table.put r.vaultUsed site used
        badLines := r.badLines.filter fun f => !decide (f.1 = site ∧ Config.vaultRow f.2.1 = row) }
    let s := s.onCompute fun c => { c with loading := c.loading.filter fun p => !m.2.2.contains p }
    let s := (s.relCount die 7).relEvent die 5
    let s := s.setFaulted (pageOf tStream site) (s.dev.vaultFaulted site)
    .next (if 512 ≤ used then match s.dev.coreAt site with
        | some core => s.onCore core fun y => { y with failed := some 5 }
        | none => s
      else s)
  | none =>
    if !(r.vaultFailed.any fun f => decide (f.1 = site ∧ f.2.1 = row)) then .next s
    else
      let s := s.onReliab fun r =>
        { r with
          vaultFailed := r.vaultFailed.filter fun f => !decide (f.1 = site ∧ f.2.1 = row)
          rowErrors := Table.erase r.rowErrors (site * 2 ^ 32 + row)
          moving := r.moving ++ [(site, row, pages)] }
      .next (s.onCompute fun c => { c with loading := c.loading ++ pages.filter fun p => !c.loading.contains p })

/-! ### Control processors (R500) -/

/-- CP_STOPPED (R500): control processor `stop.1` of the eight fails its check; the sessions `stop.2` it terminates end. -/
def execCpStopped (stop : Nat × List Nat) (s : State) : Host.Outcome State Fault Refusal :=
  if 8 ≤ stop.1 ∨ bit s.dev.reliab.stopped stop.1 then .next s
  else
    let s := ((s.onReliab fun r => { r with stopped := r.stopped + 2 ^ stop.1 }).setEvent pgGlobal 3).setFaulted pgGlobal true
    .next (State.each stop.2 State.endSession s)

/-! ### The reliability page (R524, R525) -/

def SiteState.code (x : SiteState) : Nat := match x with
  | .active => 0 | .spare => 1 | .retired => 2 | .mapping => 3

/-- INST_STATE of a per-core page (R62). -/
def Dev.instState (d : Dev) (site : Nat) : SiteState := (d.site site).state

/-- SITE_s. -/
def Dev.siteReg (d : Dev) (x : Nat) : Nat :=
  let v := d.site x
  (v.state.code) * 2 ^ 30 + (match d.coreAt x with
    | some c => if v.state = .active then c else 0x3FF
    | none => 0x3FF) * 2 ^ 20 + v.cause * 65536

/-- Vacant logical cores of a die. -/
def Dev.vacancies (d : Dev) (die : Nat) : Nat := (List.range 200).countP fun k => d.vacant (200 * die + k)

/-- Read of a block register of a reliability page. -/
def Dev.relRead (d : Dev) (die off : Nat) : Word :=
  let worst (t : Table Nat) (per : Nat) : Nat := ((t.filter fun e => decide (siteDie (e.1 / per) = die)).map (·.2)).foldl max 0
  BitVec.ofNat 32 (
    if off = 0x40 then
      (d.sparesOf die).length * 2 ^ 28 + d.vacancies die * 2 ^ 20 + (match Table.get? d.reliab.mapping die with
        | some m => 2 ^ 19 + m.step % 4 * 2 ^ 17 + m.from_ * 256 + m.to_
        | none => 0)
    else if off = 0x44 then (64 - worst d.reliab.rowsUsed 4) * 65536 + (512 - worst d.reliab.vaultUsed 1)
    else if 0x100 ≤ off ∧ off < 0x440 then d.siteReg (die * 208 + (off - 0x100) / 4)
    else if 0x480 ≤ off ∧ off < 0x480 + 80 then
      let v := (d.ctr (pageOf tReliab die) (off / 8 * 8)).toNat
      if off % 8 = 0 then v % 2 ^ 32 else v / 2 ^ 32
    else 0)

end Sys2Proof.Machine
end

