-- ==== Sys2Proof/Machine/Pairs.lean ====
section
/-! DEFINITION. Pairs (R510 to R523, R526, R527): the PAIR bundle, heartbeats and roles, castling, mirroring with its credit, resends, resyncs and
checkpoints, and the adoption of stored entries. -/
namespace Sys2Proof.Machine

/-- Counter `e` and event `b` of the pair page. -/
def State.pairCount (e n : Nat) (s : State) : State := s.bump pgPair (0x80 + 8 * e) n
def State.pairEvent (b : Nat) (s : State) : State := s.setEvent pgPair b

/-- A heartbeat interval: 10 µs (R513). -/
abbrev hbPlies := 15625

/-- PAIR_STATE.SYNCED (R527): the standby's own, or on a primary the partner's last. -/
def Pair.syncedBit (p : Pair) : Bool := match p.role with
  | .standby => p.synced
  | .primary => p.pSynced
  | _ => false

/-- SYNC_LOST is set when PAIR_STATE.SYNCED falls (R527). -/
def State.watchSync (f : State → State) (s : State) : State :=
  let t := f s
  if s.dev.pair.syncedBit && !t.dev.pair.syncedBit then t.pairEvent 3 else t

/-! ### Line transmitters (R510, R515, R516) -/

def linePorts : List Nat := List.range 32

/-- Squelch the line transmitters. -/
def State.holdLines (s : State) : State :=
  State.each linePorts (fun p s => (s.portDown p).onPort p fun q => { q with squelched := true }) s

/-- Release the transmitters of the enabled line ports. -/
def State.releaseLines (s : State) : State :=
  State.each linePorts (fun p s => s.onPort p fun q => if q.enabled then { q with squelched := s.dev.ref.expired || s.dev.halted } else q) s

/-! ### The PAIR bundle (R510) -/

/-- The pair that a payload describes, in the starting role from the following ply (R511). Counts of frames and credit stay with their ports. -/
def Pair.ofPayload (now : Nat) (old : Pair) (p : Bytes) : Pair :=
  { id := Bytes.le p 0 2, priority := Bytes.at p 2, standbyLines := bit (Bytes.at p 3) 0, autoYield := bit (Bytes.at p 3) 1
    ports := Bytes.le p 4 4, missLimit := Bytes.at p 8, salt := Bytes.le p 12 4, key := Bytes.slice p 16 32, partner := Bytes.slice p 48 32
    role := .starting, startPly := now + 1, greet := true, tx := old.tx, rx := old.rx, sent := old.sent, grant := old.grant, granted := old.granted }

/-- Apply a PAIR payload (R510, R511): the new pair is in force from the following ply. -/
def State.applyPair (p : Bytes) (s : State) : State :=
  let held := s.dev.linesHeld
  let s := s.watchSync fun s => s.onPair fun old => if Bytes.le p 0 2 = 0 then {} else Pair.ofPayload s.now old p
  if held then s.releaseLines else s

/-- Is the pair that was in force at the start of the ply still the device's pair (R523)? -/
def State.samePair (s : State) : Bool := decide (s.dev.pair.id = s.start.pair.id ∧ s.dev.pair.startPly = s.start.pair.startPly)

/-- PAIR_BUNDLE (R510): non-volatile memory keeps the payload without its key (R549). -/
def execPairBundle (sess : Nat) (s : State) : Host.Outcome State Fault Refusal :=
  .next (s.bundle sess 6 fun _ b s =>
    let p := bPayload b
    let s := (s.noteBundle b).onSec fun x =>
      { x with nvm := { x.nvm with pair := if Bytes.le p 0 2 = 0 then [] else p.take 16 ++ zeros 32 ++ p.drop 48 } }
    (s.applyPair p).complete sess 0x92 stOK 0 [])

/-! ### Heartbeats (R512, R513) -/

/-- Active logical cores of the device. -/
def Dev.activeCount (d : Dev) : Nat := ((List.range 4).map fun k => (d.activeCores k).length).sum

/-- The cases in which AUTO_YIELD sets YIELD (R513). -/
def Dev.autoYields (d : Dev) : Bool :=
  d.pair.autoYield && ((List.range 4).any (fun k => decide (64 ≤ (d.tempo k).stage3)) ||
    (d.pair.pSynced && decide (d.activeCount + 8 ≤ d.pair.pCores)))

def Role.code (r : Role) : Nat := match r with
  | .unpaired => 0 | .primary => 1 | .standby => 2 | .starting => 3

/-- The plaintext of a HEARTBEAT (R513). -/
def Dev.heartbeat (d : Dev) (now : Nat) : Bytes :=
  let p := d.pair
  let primary := decide (p.role = .primary)
  toLE 2 p.id ++ [byte (p.role.code + 4 * b2n (decide (p.role = .standby) && p.synced) + 8 * b2n (primary && p.yield_)), byte p.priority] ++
    toLE 2 d.activeCount ++ [0, 0] ++ toLE 8 now ++ toLE 4 p.epoch ++ toLE 4 (if primary then p.ckpt else p.ckptDone) ++ deviceId

/-- HEARTBEAT_SEND (R513): on every pair port that is up, in every ply whose counter value is a multiple of 15,625. -/
def execHeartbeatSend (s : State) : Host.Outcome State Fault Refusal :=
  let p := s.dev.pair
  if s.start.pair.id = 0 ∨ s.start.pair.key.isEmpty ∨ !s.samePair ∨ s.now % hbPlies ≠ 0 ∨ p.hbSent = some s.now then .next s
  else
    let yields := decide (s.start.pair.role = .primary ∧ p.role = .primary) && s.start.autoYields
    let s := s.onPair fun x => { x with hbSent := some s.now, yield_ := x.yield_ || yields }
    let d : Dev := { s.start with pair := { s.start.pair with yield_ := s.start.pair.yield_ || yields } }
    let plain := d.heartbeat s.now
    .next (State.each s.dev.pairUp (fun q s => (s.sendPair q 0xA plain).pairCount 0 1) s)

/-- A received pair frame, authenticated (R512): its plaintext and the state that has noted its SEQ; none where it is dropped. The key in force at
the start of the ply judges it (R523). -/
def State.openPair (port : Nat) (h : SelidHead) (s : State) : State × Option Bytes :=
  let p := s.start.pair
  let drop (s : State) : State × Option Bytes := (s.pairCount 2 1, none)
  if p.id = 0 ∨ p.key.isEmpty ∨ !p.portList.contains port ∨ 0xD ≤ h.kind ∨ h.session ≠ 1 ∨ h.fragIndex ≠ 0 ∨ h.fragLast ≠ 0 ∨ h.dir ≠ 0 then drop s
  else match Config.gcmOpen p.key (p.saltOf p.partner ++ toLE 8 h.seq) h.header h.payload with
    | none => drop s
    | some plain =>
      let w := Table.get {} s.dev.pair.rx port
      if !w.ok h.seq then drop s
      else
        let s := s.onPair fun x => { x with rx := Table.put x.rx port (w.note h.seq) }
        if Bytes.le plain 0 2 ≠ p.id ∨ (h.kind = 0xA ∧ Bytes.slice plain 24 32 ≠ p.partner) then drop s
        else (s, if s.samePair then some plain else none)

/-- Take a frame of a KIND on a peer port. -/
def State.takePair (port : Nat) (kinds : List Nat) (f : Bytes) (s : State) : State × Option SelidHead :=
  match kinds with
  | [] => (s, none)
  | k :: r => let ans := s.takePeer port k f; match ans.2 with
    | some h => let s' := ans.1; (s', some h)
    | none => let s' := ans.1; if (selidHead f 14).kind = k then (s', none) else s.takePair port r f

/-! ### Roles (R511, R514 to R516) -/

/-- Does this device come first in R511's order: the higher PRIORITY, and then the lower DEVICE_ID? -/
def Pair.first (p : Pair) (priority : Nat) : Bool :=
  decide (priority < p.priority) || (decide (priority = p.priority) && decide (Bytes.be deviceId 0 32 < Bytes.be p.partner 0 32))

/-- Locations of promoted entries. -/
def Dev.promotedLocs (d : Dev) : List Loc :=
  ((d.flow.exact.filter fun e => ePromoted e.2).map fun e => Loc.exact (e.1 / 524288) (e.1 % 524288)) ++
    (d.flow.direct.filter fun e => ePromoted e.2).map fun e => Loc.direct (e.1 / 1048576) (e.1 % 1048576)

/-- The device becomes the standby (R516). -/
def State.becomeStandby (s : State) : State :=
  s.watchSync fun s =>
    let yielded := decide (s.dev.pair.role = .primary) && s.dev.pair.yield_
    let s := s.onPair fun p =>
      { p with
        role := .standby, synced := false, resynced := false, yield_ := false, yieldPly := none, castlePly := none, missPly := none, records := [], ckptFlows := []
        ckptOpen := false, resyncDue := false, stateSent := [], applied := 0, ckptDone := 0, store := [], images := [], swaps := []
        adoptFrom := none }
    let s := if s.dev.pair.standbyLines then s.holdLines else s
    let s := State.each s.dev.promotedLocs (fun l s => s.releaseFlow (s.dev.ownerOf l (s.dev.entry l)) l) s
    if yielded then s.pairEvent 0 else s

/-- A starting device becomes primary (R511). Its records are numbered on from the last (R518). -/
def Pair.lead (now : Nat) (p : Pair) : Pair :=
  { p with role := .primary, yield_ := false, synced := false, resynced := false, records := [], ack := p.nextSeq - 1, ackPly := now, stateSent := [] }

/-- Castling (R515): `missed` tells that missed heartbeats caused it. State slots of stored promoted entries are set aside until adoption. -/
def State.castle (missed : Bool) (s : State) : State :=
  s.watchSync fun s =>
    let s := State.each (s.dev.objects.stages.filter fun e => decide (e.2.sess = 0 ∧ e.2.state ≠ .free)) (fun e s => s.discardStage e.1) s
    let s := s.onPair fun p =>
      { Pair.lead s.now p with
        epoch := (p.epoch + 1) % 2 ^ 32, adoptFrom := some s.now, yieldPly := none, castlePly := none, missPly := none, images := [], swaps := [] }
    let s := if s.dev.pair.standbyLines then s.releaseLines else s
    let s := State.each (s.dev.pair.store.filter fun m => ePromoted m.entry) (fun m s => s.onFlow fun x =>
      { x with statePools := Table.modify {} x.statePools m.core fun p => p.claim (eState m.entry % 32768) }) s
    let s := if missed then s.pairEvent 1 else s
    (s.pairEvent 0).pairCount 3 1

/-- Have MISS_LIMIT intervals passed since a ply? -/
def Pair.missedSince (p : Pair) (now ply : Nat) : Bool := decide (ply + p.missLimit * hbPlies ≤ now)

/-- Has the limit of missed heartbeats been reached: since the last valid one, or while starting since the role was entered (R511, R514)? -/
def Pair.missed (p : Pair) (now : Nat) : Bool := match p.role, p.lastHb with
  | .starting, q => p.missedSince now (max (q.getD 0) p.startPly)
  | .standby, some q => p.missedSince now q
  | _, _ => false

/-- What the missed heartbeats of a ply, and a heartbeat with YIELD or a CASTLE write of the ply before, lead to at the ply's end (R511, R514): a
heartbeat of the ply has come first, its MIRROR records have been applied, and its packets were judged as the standby's (R523). -/
def State.castleDue (s : State) : State :=
  let p := s.dev.pair
  let before (x : Option Nat) : Bool := match x with
    | some q => decide (q < s.now)
    | none => false
  let missed := decide (p.missPly = some s.now) && p.missed s.now
  if p.role = .standby ∧ (missed ∨ before p.yieldPly ∨ before p.castlePly) then s.castle missed
  else if p.role = .starting ∧ missed then s.onPair (Pair.lead s.now)
  else s

/-- A primary with AUTO_YIELD yields in the cases of R513. -/
def State.yieldDue (s : State) : State :=
  if s.start.pair.role = .primary ∧ s.dev.pair.role = .primary ∧ s.start.autoYields then s.onPair fun p => { p with yield_ := true } else s

/-- What a valid heartbeat does to the roles (R511, R516). -/
def State.settleRoles (b : Bytes) (s : State) : State :=
  let theirs := Bytes.at b 2 % 4
  let first := s.dev.pair.first (Bytes.at b 3)
  match s.dev.pair.role with
  | .starting =>
    if theirs = 1 then s.becomeStandby
    else if theirs = 3 then (if first then s.onPair (Pair.lead s.now) else s.becomeStandby)
    else s
  | .primary =>
    if theirs ≠ 1 then s
    else
      let e := Bytes.le b 16 4
      let mine := s.dev.pair.epoch
      if (if e = mine then first else laterThan 32 mine e) then s
      else
        let yielded := s.dev.pair.yield_
        let s := s.becomeStandby
        if yielded then s else s.pairEvent 2
  | .standby => if bit (Bytes.at b 2) 3 then s.onPair fun p => { p with yieldPly := some s.now } else s
  | .unpaired => s

/-- HEARTBEAT (R512 to R516): also the way of a frame of KIND Dh to Fh, which is dropped. -/
def execHeartbeat (port : Nat) (f : Bytes) (s : State) : Host.Outcome State Fault Refusal :=
  let ans := s.takePair port [0xA, 0xD, 0xE, 0xF] f; match ans.2 with
  | none => let s := ans.1; .next s
  | some h =>
    let s := ans.1
    let ans := s.openPair port h; match ans.2 with
    | none => let s := ans.1; .next s
    | some b =>
      let s := ans.1
      let s := s.watchSync fun s => s.onPair fun p =>
        { p with
          lastHb := some s.now, hbPly := s.now, pRole := Bytes.at b 2 % 4, pSynced := bit (Bytes.at b 2) 2, pYield := bit (Bytes.at b 2) 3
          pPriority := Bytes.at b 3, pCores := Bytes.le b 4 2 % 1024 }
      .next ((s.pairCount 1 1).settleRoles b)

/-- STARTING_TIMEOUT (R511): a starting device has received no valid heartbeat for MISS_LIMIT intervals, and becomes primary at the end of the ply
unless a heartbeat comes first. -/
def execStartingTimeout (s : State) : Host.Outcome State Fault Refusal :=
  .next (if s.dev.pair.role = .starting ∧ s.dev.pair.missed s.now then s.onPair fun p => { p with missPly := some s.now } else s)

/-- HEARTBEAT_MISS (R514): the miss limit is reached, and the standby castles at the end of the ply unless a heartbeat sampled in it comes first
(R523). -/
def execHeartbeatMiss (s : State) : Host.Outcome State Fault Refusal :=
  .next (if s.dev.pair.role = .standby ∧ s.dev.pair.missed s.now then s.onPair fun p => { p with missPly := some s.now } else s)

/-! ### The primary's side: checkpoints and resyncs (R517 to R521) -/

/-- The STATE record of a promoted flow, by core × 2^15 + slot: STATE_BYTES of its slot (R518). -/
def Dev.stateBody (d : Dev) (k : Nat) : Bytes :=
  let h := d.slotHdr (k / 32768) (k % 32768)
  let n := match d.currentGen true (Bytes.le h 4 2 / 4096) with
    | some g => g.stateBytes
    | none => 64
  toLE 2 (k % 32768) ++ zeros 6 ++ Mem.readBytes d.flow.stateMem (slotBase (k / 32768) (k % 32768)) n

/-- What tells that a flow's state has changed: its tenancy and TOKENS (R521). -/
def Dev.stateMark (d : Dev) (k : Nat) : Nat :=
  let h := d.slotHdr (k / 32768) (k % 32768)
  hTenancy h * 2 ^ 32 + hTokens h

/-- End the checkpoint in progress: CKPT_END with its number (R521). -/
def State.endCkpt (s : State) : State :=
  let n := (s.dev.pair.ckpt + 1) % 2 ^ 32
  (s.onPair fun p => { p with ckpt := n, ckptOpen := false, ckptFlows := [] }).mirror 9 0 (toLE 4 n ++ zeros 4)

/-- Send the checkpoint's records while credit lasts, and then its end. -/
def State.pumpCkpt (l : List Nat) (s : State) : State :=
  match l with
  | [] => if s.dev.pair.ckptOpen then s.endCkpt else s
  | k :: r =>
    let body := s.dev.stateBody k
    if !s.dev.compute.promoted.contains k then (s.onPair fun p => { p with ckptFlows := r }).pumpCkpt r
    else match s.dev.pairRoom none (24 + body.length) with
      | none => s
      | some _ =>
        let m := s.dev.stateMark k
        ((s.onPair fun p => { p with ckptFlows := r, stateSent := Table.put p.stateSent k m }).mirror 8 (k / 32768) body).pumpCkpt r

/-- CHECKPOINT (R521): in a ply whose counter value is a multiple of 15,625,000. Flows that the last checkpoint did not reach are carried into it. -/
def execCheckpoint (s : State) : Host.Outcome State Fault Refusal :=
  if !s.dev.pair.mirrors ∨ s.now % 15625000 ≠ 0 ∨ s.dev.pair.ckptPly = some s.now then .next s
  else
    let s := s.onPair fun p => { p with ckptPly := some s.now }
    let s := if s.dev.pair.ckptOpen then (s.pairCount 10 s.dev.pair.ckptFlows.length).endCkpt else s
    let l := s.dev.compute.promoted.filter fun k => decide (Table.get? s.dev.pair.stateSent k ≠ some (s.dev.stateMark k))
    .next ((s.onPair fun p => { p with ckptOpen := true, ckptFlows := l }).pumpCkpt l)

/-- The records of the whole mirrored state (R517, R519). -/
def Dev.wholeState (d : Dev) : List (Nat × Nat × Bytes) :=
  let image (deep : Bool) (target : Nat) (degraded : Bool) (m : Mem) : List (Nat × Nat × Bytes) :=
    (imageRecords (img m 24 8) degraded m (d.imageRanges deep m (img m 24 8))).map fun r => (r.1, whereOf deep target, r.2)
  let gens := (d.objects.gens.filter fun e => decide (e.2.state = .current)).map (·.2)
  let staged := (d.objects.stages.filter fun e => decide (e.2.state = .accepted)).map (·.2)
  let good (e : Bytes) : Bool := eValid e && !entryFailed e
  ((d.objects.channels.filter fun e => e.2.live).map fun e => (1, 0, toLE 4 (d.chanHandle e.1) ++ zeros 4 ++ e.2.desc)) ++
    (gens.flatMap fun g => let deep := decide (g.kind = 2)
      image deep g.target g.degraded g.image ++ [(5, whereOf deep g.target, [byte g.gen] ++ zeros 7)]) ++
    (staged.flatMap fun o => image o.chan.isNone o.candidate.target o.degraded o.image) ++
    ((d.flow.direct.filter fun e => good e.2).map fun e => (6, e.1 / 1048576, Bytes.slice e.2 0 64)) ++
    ((d.flow.exact.filter fun e => good e.2 && (ePromoted e.2 || eOverride e.2)).map fun e => (7, e.1 / 524288, Bytes.slice e.2 0 64)) ++
    (d.compute.promoted.map fun k => (8, k / 32768, d.stateBody k))

/-- Send RESYNC, the whole mirrored state and RESYNC_DONE (R519). -/
def State.resync (s : State) : State :=
  let l := [(10, 0, zeros 8)] ++ s.dev.wholeState ++ [(11, 0, zeros 8)]
  let p := s.dev.pair
  let recs : List MirrorRec := l.zipIdx.map fun e => { seq := p.nextSeq + e.2, ty := e.1.1, whr := e.1.2.1, body := e.1.2.2 }
  let marks := s.dev.compute.promoted.foldl (fun t k => Table.put t k (s.dev.stateMark k)) ([] : Table Nat)
  let s := s.onPair fun p =>
    { p with
      records := recs, nextSeq := p.nextSeq + l.length, resyncEnd := p.nextSeq + l.length - 1, resyncDue := false, ackPly := s.now
      stateSent := marks, ckptFlows := [], ckptOpen := false }
  ((s.pairEvent 3).pairCount 7 1).sendRecords recs

/-- A resync that is due begins (R519). -/
def State.resyncNow (s : State) : State := if s.dev.pair.resyncDue ∧ s.dev.pair.mirrors then s.resync else s

/-- MIRROR_CREDIT (R519): the latest GRANT on the port, and on a primary the records acknowledged. -/
def execMirrorCredit (port : Nat) (f : Bytes) (s : State) : Host.Outcome State Fault Refusal :=
  let ans := s.takePair port [0xC] f; match ans.2 with
  | none => let s := ans.1; .next s
  | some h =>
    let s := ans.1
    let ans := s.openPair port h; match ans.2 with
    | none => let s := ans.1; .next s
    | some b =>
      let s := ans.1
      let g := Bytes.le b 4 4
      let a := Bytes.le b 8 8
      let s := s.onPair fun p =>
        { p with grant := if laterThan 32 g (Table.get 0 p.grant port) then Table.put p.grant port g else p.grant }
      if !s.dev.pair.mirrors then .next s
      else
        let s := s.onPair fun p =>
          if p.ack < a ∧ a < p.nextSeq then { p with ack := a, ackPly := s.now, records := p.records.filter fun r => decide (a < r.seq) } else p
        let s := s.sendRecords s.dev.pair.records
        .next (s.pumpCkpt s.dev.pair.ckptFlows)

/-- MIRROR_RESEND (R519): records whose port has gone down, or all when ACK has not advanced for 1,562,500 plies, are sent again from ACK + 1. -/
def execMirrorResend (s : State) : Host.Outcome State Fault Refusal :=
  let p := s.dev.pair
  let stalled : Bool := !p.records.isEmpty && decide (p.ackPly + plies1ms ≤ s.now)
  let due (r : MirrorRec) : Bool := match r.sentOn with
    | none => false
    | some (port, _) => stalled || !s.subUp port 0
  if !p.mirrors ∨ !(p.records.any due) then .next s
  else
    let s := s.onPair fun x =>
      { x with
        ackPly := if stalled then s.now else x.ackPly
        records := x.records.map fun r => if due r then { r with sentOn := none, avoid := r.sentOn.map (·.1) } else r }
    .next (s.sendRecords s.dev.pair.records)

/-! ### The standby's side (R518) -/

/-- One record as received. -/
structure RecordIn where
  ty : Nat
  whr : Nat
  body : Bytes
  deriving DecidableEq, Repr

/-- The records of a MIRROR plaintext, at most `n`. -/
def recordsIn (n : Nat) (b : Bytes) : List RecordIn :=
  match n with
  | 0 => []
  | k + 1 =>
    let len := Bytes.le b 2 2
    if b.length < 8 ∨ len < 8 ∨ b.length < len ∨ len % 8 ≠ 0 then []
    else { ty := Bytes.at b 0, whr := Bytes.le b 4 2, body := (b.take len).drop 8 } :: recordsIn k (b.drop len)

/-- Do two entries hold one flow: channel slot, handle generation and key? -/
def sameFlow (a b : Bytes) : Bool := decide (eSlot a = eSlot b ∧ eChGen a = eChGen b ∧ eKey a = eKey b)

/-- The room of the mirror store, in entries (R518). -/
abbrev storeRoom := 16777216

/-- Remove the first entry that a test names. -/
def removeFirst {α : Type} (f : α → Bool) (l : List α) : List α := match l with
  | [] => []
  | x :: r => if f x then r else x :: removeFirst f r

/-- Keep an entry in the mirror store, or take it out when VALID is 0 (R518). -/
def State.store (direct : Bool) (core : Nat) (e : Bytes) (s : State) : State :=
  let same (m : MirrorEntry) : Bool := decide (m.direct = direct ∧ (m.core = core ∨ m.direct ∧ m.core / 200 = core / 200)) && sameFlow m.entry e
  let old := s.dev.pair.store.filter fun m => !same m
  let m : MirrorEntry := { direct, core, entry := e, ply := s.now }
  if !eValid e then s.onPair fun p => { p with store := old }
  else if old.length < storeRoom then s.onPair fun p => { p with store := old ++ [m] }
  else if old.any fun m => !ePromoted m.entry then
    s.onPair fun p => { p with store := removeFirst (fun m => !ePromoted m.entry) old ++ [m] }
  else s.loseSync

/-- Swap an image that a SWAP record names, if R432 allows it now; false while it must wait. -/
def State.mirrorSwap (whr gen : Nat) (s : State) : State × Bool :=
  match Table.get? s.dev.pair.images whr with
  | none => (s.loseSync, true)
  | some k =>
    let op := Table.get {} s.dev.objects.stages k
    if op.state ≠ .accepted ∨ s.drains (decide (0x1000 ≤ whr)) (whr % 0x1000) ∨
        s.start.compute.retired.any (fun e => decide (e.1 = stageKey k)) then (s, false)
    else ((s.swapAs gen k op).onPair fun p => { p with images := Table.erase p.images whr }, true)

/-- The swaps that wait, each as soon as R432 allows. -/
def State.mirrorSwaps (s : State) : State :=
  State.each s.dev.pair.swaps (fun w s =>
    let ans := s.mirrorSwap w.1 w.2.1; match ans.2 with
    | true => let s := ans.1; s.onPair fun p => { p with swaps := p.swaps.filter fun v => decide (v ≠ w) }
    | false => let s := ans.1; s) s

/-- Discard an image that is being staged for a target. -/
def State.dropImage (whr : Nat) (s : State) : State :=
  match Table.get? s.dev.pair.images whr with
  | none => s
  | some k => (s.discardStage k).onPair fun p =>
      { p with images := Table.erase p.images whr, swaps := p.swaps.filter fun w => decide (w.1 ≠ whr) }

/-- RESYNC on the standby: all mirrored state is discarded (R518): channels with their rings and generations, deep models, images, direct-indexed
entries and the mirror store. -/
def State.dropMirrored (s : State) : State :=
  let s := State.each (s.dev.pair.images.map (·.1)) State.dropImage s
  let s := State.each (s.dev.objects.gens.map (·.2)) (fun g s => s.retireGen (decide (g.kind = 2)) g.target g.gen) s
  let s := State.each s.dev.usedChans (fun e s =>
    let s := s.destroyChan e.1
    let s := State.each [e.2.result, e.2.log, e.2.input] (fun r s => match r with | some k => s.freeRing k | none => s) s
    s.onObjects fun o =>
      { o with channels := Table.set {} o.channels e.1 { hgen := (e.2.hgen + 1) % 4096 }, chanPool := o.chanPool.release e.1 }) s
  (s.onFlow fun x => { x with direct := [] }).onPair fun p => { p with store := [], swaps := [], images := [] }

/-- CREATE: the channel of the primary, in the same slot with the same handle generation. -/
def State.mirrorCreate (b : Bytes) (s : State) : State :=
  let h := Bytes.le b 0 4
  let n := h % 4096
  let desc := Bytes.slice b 8 144
  if h / 16777216 ≠ 1 ∨ (s.chan n).state ≠ .free ∨ s.dev.noRoom desc then s.loseSync
  else
    let s := s.onObjects fun o => { o with chanPool := o.chanPool.claim n }
    (s.onChan n fun q => { q with hgen := h / 4096 % 4096 }).setupChan n desc

/-- IMAGE_OPEN: a staging slot of the standby's own (R424). -/
def State.mirrorOpen (whr : Nat) (b : Bytes) (s : State) : State :=
  let s := s.dropImage whr
  let deep := decide (0x1000 ≤ whr)
  if !deep && !(s.chan (whr % 0x1000)).live then s.loseSync
  else let ans := s.openStage 0 (if deep then none else some (whr % 0x1000)) (Bytes.le b 0 8); match ans.2 with
    | none => let s := ans.1; s.loseSync
    | some k => let s := ans.1; (s.onStage k fun g => { g with degraded := decide (Bytes.at b 8 = 1) }).onPair fun p => { p with images := Table.put p.images whr k }

/-- IMAGE_DATA: the bytes are stored, and a whole image is verified (R425, R426). -/
def State.mirrorData (whr : Nat) (b : Bytes) (s : State) : State :=
  match Table.get? s.dev.pair.images whr with
  | none => s.loseSync
  | some k =>
    let g := Table.get {} s.dev.objects.stages k
    let off := Bytes.le b 0 8
    let data := (b.drop 8).take (g.len - off)
    if g.state ≠ .open_ then s
    else
      let new := g.put off data
      if s.dev.framesShort k new then s.loseSync
      else s.onStage k fun _ => if prefixLen new.got = g.len then { new with state := .verifying, verifier := 0 } else new

/-- DIRECT: the entry goes into the die's copy with the ply of application as its time-stamp (R517). A standby takes part in no promotion (R520):
a promotion waits in the mirror store for castling. -/
def State.mirrorDirect (die : Nat) (e : Bytes) (s : State) : State :=
  let t := Bytes.le (flowKeyOf e) 0 3 % 1048576
  let key := Bytes.slice e 0 64
  let loc : Loc := .direct (die % 4) t
  if !eValid e then (s.setEntry loc (eFlag 12 false key)).store true (200 * (die % 4)) e
  else
    let v := Bytes.patch (eFlag 13 false (Bytes.patch key 44 (toLE 3 s.stamp))) 60 [0, 0]
    (s.setEntry loc v).store true (s.dev.ownerOf loc e) (if ePromoted e then e else eFlag 12 false e)

/-- Apply one record (R518). -/
def State.applyRecord (seq : Nat) (r : RecordIn) (s : State) : State :=
  match r.ty with
  | 1 => s.mirrorCreate r.body
  | 2 => match s.dev.chanOf (Bytes.le r.body 0 4) with
    | some n => s.destroyChan n
    | none => s
  | 3 => s.mirrorOpen r.whr r.body
  | 4 => s.mirrorData r.whr r.body
  | 5 =>
    let gen := Bytes.at r.body 0
    let ans := s.mirrorSwap r.whr gen; match ans.2 with
    | true => let s := ans.1; s
    | false => let s := ans.1; s.onPair fun p => { p with swaps := p.swaps ++ [(r.whr, gen, seq)] }
  | 6 => s.mirrorDirect r.whr r.body
  | 7 => s.store false r.whr (Bytes.slice r.body 0 64)
  | 8 => s.onFlow fun x =>
      { x with stateMem := Mem.writeBytes x.stateMem (slotBase r.whr (Bytes.le r.body 0 2 % 32768)) ((r.body.drop 8).take 8192) }
  | 9 => s.onPair fun p => { p with ckptDone := Bytes.le r.body 0 4 }
  | 10 => (s.dropMirrored).watchSync fun s => s.onPair fun p => { p with synced := false, resynced := false }
  | 11 => s.onPair fun p => { p with resynced := true }
  | _ => s

/-- Take a numbered record: in sequence it is applied, an earlier one has been, and a later one shows a gap. RESYNC starts the sequence anew. -/
def State.takeRecord (seq : Nat) (r : RecordIn) (s : State) : State :=
  let a := s.dev.pair.applied
  if r.ty = 10 ∧ a < seq ∨ seq = a + 1 then (s.applyRecord seq r).onPair fun p => { p with applied := seq }
  else if seq ≤ a then s
  else s.loseSync

/-- SYNCED rises once RESYNC_DONE has been applied and no image is incomplete (R518, R519). -/
def State.settleSync (s : State) : State :=
  let p := s.dev.pair
  let whole := p.images.all fun e => decide ((Table.get {} s.dev.objects.stages e.2).state ≠ .open_)
  if p.role = .standby ∧ p.resynced ∧ !p.synced ∧ whole then (s.onPair fun p => { p with synced := true }).pairEvent 4 else s

/-- MIRROR (R518, R519): the records are applied in sequence, and the port's credit is renewed with an acknowledgement. -/
def execMirror (port : Nat) (f : Bytes) (s : State) : Host.Outcome State Fault Refusal :=
  let ans := s.takePair port [0xB] f; match ans.2 with
  | none => let s := ans.1; .next s
  | some h =>
    let s := ans.1
    let ans := s.openPair port h; match ans.2 with
    | none => let s := ans.1; .next s
    | some b =>
      let s := ans.1
      if s.dev.pair.role ≠ .standby then .next s
      else
        let s := s.pairCount 5 1
        let l := (recordsIn b.length (b.drop 16)).zipIdx
        let s := State.each l (fun e s => s.takeRecord (Bytes.le b 8 8 + e.2) e.1) s
        .next (s.settleSync.grantPair port (units f.length))

/-! ### After castling (R522) -/

/-- The sweep visits a stored entry, which the matching flow entry adopts if there is one (R522). -/
def State.sweepEntry (m : MirrorEntry) (s : State) : State :=
  let n := eSlot m.entry
  if !(s.chan n).live ∨ (s.chan n).hgen ≠ eChGen m.entry then s
  else match (s.dev.find m.core n (eChGen m.entry) m.direct (flowKeyOf m.entry) false false).1 with
    | some l => s.adopt m.core l
    | none => s

/-- MIRROR_STORE_SWEEP (R522): the sweep visits stored entry `k`. -/
def execMirrorStoreSweep (k : Nat) (s : State) : Host.Outcome State Fault Refusal :=
  match s.dev.pair.adoptFrom, s.dev.pair.store[k]? with
  | some _, some m => .next (s.sweepEntry m)
  | _, _ => .next s

/-- Has a stored entry not been adopted within AGE_LIMIT of its table since castling in ply `c` (R522)? -/
def State.storeExpired (c : Nat) (m : MirrorEntry) (s : State) : Bool :=
  decide (c + s.rg pgFlowCtl (if m.direct then 0x4C else 0x48) % 16777216 * 65536 ≤ s.now)

/-- Discard a stored entry, which frees its state slot (R522). -/
def State.expireEntry (m : MirrorEntry) (s : State) : State :=
  let s := s.onPair fun p => { p with store := p.store.filter fun k => decide (k ≠ m) }
  let s := if ePromoted m.entry then
      s.onFlow fun x => { x with statePools := Table.modify {} x.statePools m.core fun p => p.release (eState m.entry % 32768) }
    else s
  s.pairCount 9 1

/-- What is due of the mirror store at the end of a ply: entries that have expired, and the end of the sweep, 1 s after castling (R522). -/
def State.settleStore (s : State) : State :=
  match s.dev.pair.adoptFrom with
  | none => s
  | some c =>
    let s := State.each (s.dev.pair.store.filter fun m => s.storeExpired c m) State.expireEntry s
    if s.now = c + plies1s then State.each s.dev.pair.store State.sweepEntry s else s

/-- ADOPT_EXPIRE (R522): stored entry `k` has not been adopted within AGE_LIMIT of its table since castling; it frees its state slot. -/
def execAdoptExpire (k : Nat) (s : State) : Host.Outcome State Fault Refusal :=
  match s.dev.pair.adoptFrom, s.dev.pair.store[k]? with
  | some c, some m => .next (if s.storeExpired c m then s.expireEntry m else s)
  | _, _ => .next s

/-! ### The pair page (R526, R527) -/

def Dev.pairRead (d : Dev) (off : Nat) : Word :=
  let p := d.pair
  let up := maskOf ((p.portList.zipIdx.filter fun e => ((d.port e.1).subp 0).up).map (·.2))
  let unacked := ((p.records.filter fun r => r.sentOn.isSome).map fun r => r.bytes.length).sum
  BitVec.ofNat 32 (match off with
    | 0x40 => p.role.code * 2 ^ 30 + b2n p.syncedBit * 2 ^ 29 + b2n (decide (p.role = .primary) && p.yield_) * 2 ^ 28 + b2n d.linesHeld * 2 ^ 27 +
        up % 16 * 2 ^ 16 + p.id
    | 0x48 => p.epoch
    | 0x4C => p.pRole * 2 ^ 30 + b2n p.pSynced * 2 ^ 29 + b2n p.pYield * 2 ^ 28 + p.pCores * 2 ^ 16 + p.pPriority * 256
    | 0x50 => p.hbPly % 2 ^ 32
    | 0x54 => p.hbPly / 2 ^ 32
    | 0x58 => if p.role = .primary then unacked / 1024 else 0
    | _ => 0)

/-- Write of PAIR_CTRL (R527). -/
def State.pairWrite (off : Nat) (v : Word) (s : State) : State :=
  if off ≠ 0x44 then s
  else
    let s := if v.getLsbD 1 ∧ s.start.pair.mirrors then s.onPair fun p => { p with resyncDue := true } else s
    if !v.getLsbD 0 then s
    else match s.start.pair.role with
      | .primary => s.onPair fun p => if p.role = .primary then { p with yield_ := true } else p
      | .standby => s.onPair fun p => if p.role = .standby then { p with castlePly := some s.now } else p
      | _ => s

end Sys2Proof.Machine
end

