-- ==== Sys2Proof/Machine/Scoresheet.lean ====
section
/-! DEFINITION. The scoresheet and replay (R528 to R536, R545). -/
namespace Sys2Proof.Machine

/-! ### Recording (R528, R529, R531, R532) -/

/-- Release a ring of the scoresheet. -/
def State.freeOpt (r : Option Nat) (s : State) : State := match r with
  | some k => s.freeRing k
  | none => s

/-- Is there no storage for a scoresheet ring of 2^v words once the earlier one is released? -/
def Dev.scoreShort (d : Dev) (v : Nat) : Bool :=
  let old := match d.score.ring with
    | some r => ringFramesOf (d.ring r).size
    | none => 0
  decide (800 * d.framesEach < d.framesUsed 16 {} - old + ringFramesOf v)

/-- SCORE_START (R528): recording begins in the following ply, or with WHAT 0 it ends. -/
def execScoreStart (sess : Nat) (s : State) : Host.Outcome State Fault Refusal :=
  .next (s.command sess 0x70 fun x c s =>
    let what := Bytes.le c.body 0 4
    let mode := s.dev.score.mode
    if 16 ≤ what then s.complete sess 0x70 stBadField 0 []
    else if c.body.length ≠ 4 then s.complete sess 0x70 stBadLength 0 []
    else if what = 0 ∧ mode = 0 then s.complete sess 0x70 stBadField 0 []
    else if mode = 2 ∨ what ≠ 0 ∧ mode ≠ 0 then s.complete sess 0x70 stStageState 0 []
    else s.sized x c 8 fun s =>
      if what = 0 then (s.onScore fun y => { y with mode := 0, ran := false }).complete sess 0x70 stOK 0 (toLE 8 s.now)
      else
        let cfg := s.rg pgScore 0x40
        let v := cfg % 64
        if s.dev.scoreShort v then s.complete sess 0x70 stNoRoom 0 []
        else let ans := (s.freeOpt s.dev.score.ring).allocRing 0 .score v false; match ans.2 with
          | none => s.complete sess 0x70 stNoRoom 0 []
          | some r =>
            let t := ans.1
            (t.onScore fun y => { y with mode := 1, what, capture := bits cfg 13 8, startPly := s.now + 1, ring := some r, ran := false }).complete
              sess 0x70 stOK 0 (toLE 8 (s.now + 1)))

/-- SCORE_STOP (R532). -/
def execScoreStop (sess : Nat) (s : State) : Host.Outcome State Fault Refusal :=
  .next (s.command sess 0x71 fun x c s =>
    if c.body.length ≠ 0 then s.complete sess 0x71 stBadLength 0 []
    else if s.dev.score.mode ≠ 1 then s.complete sess 0x71 stStageState 0 []
    else s.sized x c 16 fun s =>
      let held := match s.dev.score.ring with
        | some r => (s.ring r).held.length
        | none => 0
      (s.onScore fun y => { y with mode := 0 }).complete sess 0x71 stOK 0 (toLE 8 s.now ++ toLE 8 held))

/-- What orders the items of a ply (R529). -/
def ScoreItem.before (a b : ScoreItem) : Bool :=
  decide (a.info < b.info) || decide (a.info = b.info) && (decide (a.kind < b.kind) || decide (a.kind = b.kind) &&
    (decide (a.port < b.port) || decide (a.port = b.port) && (decide (a.sess < b.sess) || decide (a.sess = b.sess ∧ a.die < b.die))))

/-- Put an item after those that do not come after it. -/
def insertItem (i : ScoreItem) (l : List ScoreItem) : List ScoreItem := match l with
  | [] => [i]
  | j :: r => if i.before j then i :: j :: r else j :: insertItem i r

/-- The arbiter record of a pairing on an object (R530). -/
def arbiterItem (now : Nat) (a b : Touch) : ScoreItem :=
  { kind := 4, die := a.die, info := now, len := 3
    body := [4, byte a.die, byte (min a.prec b.prec), byte (max a.prec b.prec), byte a.obj, 0, 0, 0] ++ toLE 8 a.id }

/-- The pairings among the events of a ply: of different precedence on one object (R51, R196). -/
def pairings (now : Nat) (l : List Touch) : List ScoreItem := match l with
  | [] => []
  | a :: r => ((r.filter fun b => decide (b.obj = a.obj ∧ b.id = a.id ∧ b.die = a.die ∧ b.prec ≠ a.prec)).map (arbiterItem now a)) ++ pairings now r

/-- Write the items of a ply into the ring; one that finds its port die's write buffer full, or that the ring refuses, is dropped (R531). -/
def State.putItems (l : List ScoreItem) (used0 used1 : Nat) (s : State) : State :=
  match l, s.dev.score.ring with
  | i :: r, some q =>
    let n := 16 * i.len
    let die := if i.kind = 4 then i.die % 2 else portDie i.port
    let full := decide (1048576 < (if die = 0 then used0 else used1) + n)
    let ans := if full then (s, false) else s.ringPut q { len := i.len, kind := 0x14, info := i.info, body := i.body }
    let s' := ans.1
    let ok := ans.2
    let s' := if ok then s'.scoreCount 0 else (s'.scoreCount 1).setEvent pgScore 0
    s'.putItems r (if die = 0 ∧ !full then used0 + n else used0) (if die ≠ 0 ∧ !full then used1 + n else used1)
  | _, _ => s

/-- At the end of a ply, its items leave for the ring in order (R529); a SCORE_START of the ply has released the ring they were for (R528). -/
def State.scoreFlush (s : State) : State :=
  let x := s.dev.score
  if x.buf.isEmpty ∧ x.touched.isEmpty then s
  else
    let items := (x.buf ++ pairings s.now x.touched.eraseDups).foldl (fun l i => insertItem i l) []
    let s := if x.startPly = s.now + 1 then s else s.putItems items 0 0
    s.onScore fun y => { y with buf := [], touched := [] }

/-! ### Replay (R533 to R535) -/

/-- The ingress records of a range that the ring holds. -/
def Dev.recorded (d : Dev) (a b : Nat) : List Item :=
  match d.score.ring with
  | none => []
  | some r => (d.ring r).held.filter fun i => decide (i.kind = 0x14 ∧ Bytes.at i.body 0 = 1 ∧ a ≤ i.info ∧ i.info ≤ b)

/-- REPLAY_START (R533). -/
def execReplayStart (sess : Nat) (s : State) : Host.Outcome State Fault Refusal :=
  .next (s.command sess 0x72 fun x c s =>
    if c.body.length ≠ 16 then s.complete sess 0x72 stBadLength 0 []
    else if s.dev.score.mode ≠ 0 then s.complete sess 0x72 stStageState 0 []
    else
      let a := Bytes.le c.body 0 8
      let l := s.dev.recorded a (Bytes.le c.body 8 8)
      if l.isEmpty then s.complete sess 0x72 stNotFound 0 []
      else s.sized x c 8 fun s =>
        let ans := (s.freeOpt s.dev.score.replayRing).allocRing 0 .score 20 false; match ans.2 with
        | none => s.complete sess 0x72 stNoRoom 0 []
        | some r =>
          let t := ans.1
          let go := s.now + 1
          (t.onScore fun y =>
            { y with
              mode := 2, replayRing := some r, ran := true, compared := 0, mismatched := 0, lastDeadline := 0
              items := l.map fun i => { due := go + (i.info - a), body := i.body } }).complete sess 0x72 stOK 0 (toLE 8 go))

/-- Replay ends: REPLAY_DONE is set (R535). -/
def State.endReplay (s : State) : State := (s.onScore fun y => { y with mode := 0, items := [] }).setEvent pgScore 2

/-- REPLAY_STOP (R535). -/
def execReplayStop (sess : Nat) (s : State) : Host.Outcome State Fault Refusal :=
  .next (s.command sess 0x73 fun x c s =>
    let r := s.dev.score
    if c.body.length ≠ 0 then s.complete sess 0x73 stBadLength 0 []
    else if !r.ran then s.complete sess 0x73 stStageState 0 []
    else s.sized x c 16 fun s =>
      let s := if r.mode = 2 then s.endReplay else s
      s.complete sess 0x73 stOK 0 (toLE 8 r.compared ++ toLE 8 r.mismatched))

/-- What becomes of a frame of the replay when it is injected (R534, R535): the number of its packet, or none when it is not evaluated. -/
def State.inject (b : Bytes) (s : State) : State × Option Nat :=
  let port := Bytes.at b 1 % 64
  let cap := Bytes.slice b 16 (Bytes.le b 2 2)
  let flen := Bytes.le b 4 2
  let skip : Bool := match s.dev.recordOf b with
    | none => false
    | some r => match s.start.chanOf (Bytes.le r 4 4) with
      | none => true
      | some n => decide ((s.start.chan n).gen ≠ Bytes.at r 3)
  if skip ∨ s.start.pairMode port = 0 then (s, none)
  else
    let id := s.dev.traffic.nextPacket
    let s := s.ingress
      { port, sub := Bytes.at b 1 / 64, inline := false, wire := cap, frame := cap, parsed := cap
        last := if cap.length = flen then cap.length - 4 else cap.length, frameLen := flen, origLen := flen, good := true, replay := true }
    (s, if s.dev.traffic.nextPacket = id then none else some id)

/-- REPLAY_INJECT (R534): the replay's frame `index` is injected in its ply. A frame that R78 would recognise is not injected. -/
def execReplayInject (index : Nat) (s : State) : Host.Outcome State Fault Refusal :=
  match s.dev.score.items[index]? with
  | none => .next s
  | some i =>
    if s.dev.score.mode ≠ 2 ∨ i.packet.isSome ∨ s.now < i.due then .next s
    else
      let remove (s : State) : State := s.onScore fun y => { y with items := y.items.eraseIdx index }
      let port := Bytes.at i.body 1 % 64
      if (s.start.recognise port (Bytes.at i.body 1 / 64) (Bytes.slice i.body 16 (Bytes.le i.body 2 2))).isSome then .next (remove s)
      else let ans := (s.scoreCount 2).inject i.body; match ans.2 with
        | none => let s := ans.1; .next (remove (s.scoreCount 6))
        | some k =>
          let s := ans.1
          let d := match s.dev.packet? k with
            | some p => p.due s.now
            | none => 0
          .next (s.onScore fun y =>
            { y with items := y.items.modify index fun i => { i with packet := some k }, lastDeadline := max y.lastDeadline d })

/-- REPLAY_END (R535): every frame has been injected, and the last deadline has passed. -/
def execReplayEnd (s : State) : Host.Outcome State Fault Refusal :=
  let x := s.dev.score
  if x.mode = 2 ∧ x.items.all (fun i => i.packet.isSome) ∧ x.lastDeadline < s.now then .next s.endReplay else .next s

/-- The frames of a replay are injected in their plies, and the replay ends in the ply after its last deadline (R533, R535). -/
def State.settleReplay (s : State) : State :=
  if s.dev.score.mode ≠ 2 then s
  else
    let due := s.dev.score.items.filter fun i => i.packet.isNone && decide (i.due ≤ s.now)
    let s := State.each due (fun i s => match s.dev.score.items.findIdx? fun j => decide (j = i) with
      | some k => s.force (execReplayInject k)
      | none => s) s
    s.force execReplayEnd

/-! ### The scoresheet page (R545) -/

def Dev.scoreRead (d : Dev) (off : Nat) : Word :=
  let handle (r : Option Nat) : Nat := match r with
    | some k => d.ringHandle k
    | none => 0
  if 0x40 ≤ off ∧ off ≤ 0x48 then d.reg (addrOf pgScore off)
  else BitVec.ofNat 32 (if off = 0x4C then handle d.score.ring else if off = 0x50 then handle d.score.replayRing else 0)

/-- Writes of the scoresheet page: a value out of range is refused. -/
def State.scoreWrite (off : Nat) (v : Word) (s : State) : State :=
  let n := v.toNat
  let a := addrOf pgScore off
  if off = 0x40 then
    if 4 ≤ bits n 13 8 ∧ bits n 13 8 ≤ 16 ∧ 20 ≤ n % 64 ∧ n % 64 ≤ 32 then s.setReg a (v &&& 0x3F3F) else s
  else if off = 0x44 ∨ off = 0x48 then s.setReg a v
  else s

end Sys2Proof.Machine
end

