-- ==== Sys2Proof/Machine/Background.lean ====
section
/-! DEFINITION. Background work (R537 to R544, R546): scrubs, adaptation, calibration, wear moves, leaf-row rotation and telemetry. -/
namespace Sys2Proof.Machine

/-- Counter `e` of the background page. -/
def State.backCount (e : Nat) (s : State) : State := s.bump pgBackground (0x80 + 8 * e) 1

/-- 64-byte lines of a vault's usable capacity (R394). -/
abbrev vaultLines := 42949672

/-! ### Scrubs (R538, R539) -/

/-- What a scrubbed line's error does (R396): `pages` are the model pages (generation key, page) that the line belongs to. -/
def State.scrubError (site line err : Nat) (pages : List (Nat × Nat)) (s : State) : State :=
  if err = 1 then (s.backCount 1).siteLineErr site line 1
  else if err = 2 then
    let s := s.siteLineErr site line 2
    State.each pages (fun p s => match Table.get? s.dev.objects.gens p.1 with
      | some g => s.retirePage g p.2
      | none => s) s
  else s

/-- Has the vault of a site cycles that no other requester takes, which is all that the scrub may use (R21, R22, R537)? -/
def Dev.scrubFree (d : Dev) (site : Nat) : Bool := match d.coreAt site with
  | some core => d.vaultIdle core && (d.core core).overDemand.isNone &&
    d.compute.cores.all fun e => e.2.pieces.all fun p => decide (p.owner ≠ core) || p.retry.isSome
  | none => true

/-- Has the line that the scrubber comes to, which may lie in one of the pages named, been found bad in this ply? It is skipped then, and the fault
is reported once (R51, R415). -/
def State.scrubSkips (site line : Nat) (pages : List (Nat × Nat)) (s : State) : Bool :=
  s.dev.reliab.badLines.any fun f => decide (f.1 = site ∧ f.2.2 = s.now) &&
    (decide (f.2.1 = line) || pages.any fun p => decide (2 ^ 41 ≤ f.2.1 ∧ (f.2.1 - 2 ^ 41) / 32768 % 2 ^ 26 = p.2))

/-- DRAM_SCRUB (R538): the scrubber of a vault reads its next line; `err` is 1 for a corrected line and 2 for an uncorrectable one. Errors of a row
are counted within one pass (R500). PASS_S is taken into use as a pass begins. -/
def execDramScrub (site err : Nat) (pages : List (Nat × Nat)) (s : State) : Host.Outcome State Fault Refusal :=
  if 832 ≤ site ∨ !s.dev.scrubFree site then .next s
  else
    let line := Table.get 0 s.dev.back.line site
    let limit := if line = 0 then s.now + s.rg pgBackground 0x44 % 65536 * plies1s else Table.get 0 s.dev.back.pass site
    let s := if line = 0 then s.onReliab fun r => { r with rowErrors := r.rowErrors.filter fun e => decide (e.1 / 2 ^ 32 ≠ site) } else s
    let s := match s.dev.coreAt site with
      | some core => s.useVault core 64
      | none => s
    let s := (s.backCount 0).scrubError site line (if s.scrubSkips site line pages then 0 else err) pages
    let last := decide (vaultLines ≤ line + 1)
    .next (s.onBack fun b =>
      { b with
        line := Table.set 0 b.line site (if last then 0 else line + 1)
        pass := if last then Table.erase b.pass site else Table.put b.pass site limit })

/-- A pass that has not completed within PASS_S seconds sets SCRUB_LATE, and goes on (R538). -/
def State.settleScrub (s : State) : State :=
  if s.dev.back.pass.any fun e => decide (e.2 = s.now) then s.setEvent pgBackground 0 else s

/-- AM_SCRUB (R539): the scrubber reads an entry (kind 1) or leaf row (kind 0) of a core's quarter; `result` is 1 for a comparator error that was
corrected, and 2 for a failed check. -/
def execAmScrub (core quarter kind index result : Nat) (s : State) : Host.Outcome State Fault Refusal :=
  if 800 ≤ core ∨ 4 ≤ quarter ∨ 2 ≤ kind then .next s
  else
    let s := s.backCount 2
    let loading := match (s.core core).window with
      | some l => l.ended.isNone && l.quarters.contains quarter
      | none => false
    .next (if loading then s else if result = 2 then s.amFail core quarter kind index
      else if result = 1 ∧ kind = 1 then s.treeCount core 5 1 else s)

/-! ### SerDes adaptation (R540, R544) -/

/-- A lane's attempt fails: three in succession are a lane failure (R138). -/
def State.tuneFail (port lane : Nat) (s : State) : State :=
  let n := ((s.port port).lane lane).attempts + 1
  let s := (s.onPort port fun q => q.onLane lane fun l => { l with attempts := n, tuning := false }).backCount 4
  let s := s.setEvent pgBackground 2
  if 3 ≤ n then (s.onPort port fun q => q.onLane lane fun l => { l with attempts := 0 }).laneFail port lane else s

/-- ADAPTATION (R540): a 100 ms window of a lane ends with a pre-FEC bit error ratio of `ber` × 10⁻⁶, which is judged at the end of the ply. -/
def execAdaptation (port lane ber : Nat) (s : State) : Host.Outcome State Fault Refusal :=
  .next (if 66 ≤ port ∨ 4 ≤ lane ∨ !(s.port port).enabled ∨ ((s.port port).lane lane).failed then s
    else s.onPort port fun q => q.onLane lane fun l => { l with window := some ber })

/-- A window of a lane judges the attempt that waits for it, and one above 24 × 10⁻⁶ starts an attempt unless another of the port waits. An attempt
that ends in the ply in which the lane's link goes down counts as failed (R540, R544). -/
def State.judgeWindow (port lane ber : Nat) (s : State) : State :=
  let l := (s.port port).lane lane
  let s := s.onPort port fun q => q.onLane lane fun l => { l with window := none }
  if !(s.port port).enabled ∨ l.failed then s
  else
    let fell := (List.range 4).any fun i => bit ((s.start.port port).subp i).lanes lane && ((s.start.port port).subp i).up && !s.subUp port i
    let s := if !l.tuning then s
      else if fell ∨ 240 ≤ ber then s.tuneFail port lane
      else s.onPort port fun q => q.onLane lane fun l => { l with attempts := 0, tuning := false }
    let busy := (List.range 4).any fun i => ((s.port port).lane i).tuning
    if 24 < ber ∧ !busy ∧ !((s.port port).lane lane).failed then
      (s.onPort port fun q => q.onLane lane fun l => { l with tuning := true }).backCount 3
    else s

/-- The windows that end in a ply, by port and lane. -/
def State.settleWindowsOf (s : State) : State :=
  State.each (s.dev.ports.map (·.1)) (fun p s => State.each [0, 1, 2, 3] (fun i s =>
    match ((s.port p).lane i).window with
    | some ber => s.judgeWindow p i ber
    | none => s) s) s

/-! ### Calibration (R541) -/

/-- CALIBRATION (R541): the correction of a core's speed sensor makes its reading `step` sixteenths of a ply. -/
def execCalibration (core step : Nat) (s : State) : Host.Outcome State Fault Refusal :=
  match s.dev.siteOf core with
  | none => .next s
  | some x =>
    if !s.dev.coreActive core then .next s
    else
      let die := siteDie x
      let old := Table.get? (s.dev.tempo die).steps (x % 208)
      let s := (s.setStep x (step % 256)).backCount 5
      let shifted := match old with
        | some o => decide (1 < (o - step % 256) + (step % 256 - o))
        | none => false
      .next (if shifted then s.setEvent pgBackground 1 else s)

/-! ### Wear (R542) -/

/-- Plies in a day. -/
abbrev pliesDay := 86400 * plies1s

/-- Has a cadence come round since the ply of the last time? The first time after a reset may come at once. -/
def dueSince (now : Nat) (last : Option Nat) (every : Nat) : Bool := match last with
  | some p => decide (p + every ≤ now)
  | none => true

/-- WEAR_MOVE (R542, R506): the active site with the most time at 85 °C or more moves to the spare with the least. -/
def execWearMove (die : Nat) (s : State) : Host.Outcome State Fault Refusal :=
  let days := s.rg pgBackground 0x48 % 256
  let base := die * 208
  let wear (k : Nat) : Nat := Table.get 0 s.dev.reliab.wear (base + k)
  let active := (List.range 208).filter fun k => decide ((s.dev.site (base + k)).state = .active)
  if 4 ≤ die ∨ days = 0 ∨ 0 < (s.start.tempo die).stage ∨ (Table.get? s.dev.reliab.mapping die).isSome ∨
      !dueSince s.now (Table.get? s.dev.back.moved die) (days * pliesDay) then .next s
  else match leastBy (fun k => 2 ^ 64 - wear k) active, leastBy wear (s.dev.sparesOf die) with
    | some f, some t => match s.dev.coreAt (base + f) with
      | none => .next s
      | some core =>
        let s := (s.setSite (base + t) { state := .mapping }).onReliab fun r =>
          { r with mapping := Table.put r.mapping die { from_ := f, to_ := t, logical := core, wear := true, start := s.now } }
        let s := s.onBack fun b => { b with moved := Table.put b.moved die s.now }
        let s := if (s.dev.sparesOf die).length = 1 then s.relEvent die 6 else s
        .next (s.backCount 6)
    | _, _ => .next s

/-- AM_ROTATION (R542): leaf row `index` of a quarter is copied to a spare row, and the two exchange their roles. -/
def execAmRotation (core quarter index : Nat) (s : State) : Host.Outcome State Fault Refusal :=
  match s.dev.siteOf core with
  | none => .next s
  | some x =>
    let q := x * 4 + quarter
    if 4 ≤ quarter ∨ 4096 ≤ index ∨ !bit (s.rg pgBackground 0x48) 8 ∨ 64 ≤ Table.get 0 s.dev.reliab.rowsUsed q ∨
        !dueSince s.now (Table.get? s.dev.back.rotated q) pliesDay then .next s
    else .next (((s.onBack fun b => { b with rotated := Table.put b.rotated q s.now }).backCount 7).relCount (siteDie x) 8)

/-! ### Telemetry (R543) -/

/-- The body of a die's telemetry item. -/
def Dev.telemetry (d : Dev) (die : Nat) : Bytes :=
  let t := d.tempo die
  let ans := slowest (d.dieSteps die)
  let step := ans.2
  let energy := (d.ctr (pageOf tTempo die) (0x80 + 8)).toNat
  [byte die, byte (t.stage % 4 + 4 * b2n (d.dieBroken die) + 8 * b2n (!t.hot.isEmpty) + 16 * (d.sparesOf die).length), byte t.vcore, byte t.scale] ++
    toLE 2 ((hottest t.logic).2 % 4096) ++ toLE 2 ((hottest t.dram).2 % 4096) ++ [byte step, byte (d.activeCores die).length] ++
    toLE 2 d.power.watts ++ toLE 4 (min (2 ^ 32 - 1) ((energy + 2 ^ 64 - t.markEnergy) % 2 ^ 64)) ++ toLE 4 (min (2 ^ 32 - 1) t.lines) ++ zeros 12

/-- TELEMETRY (R543): one item for each compute die, with the values at the start of the ply. -/
def execTelemetry (s : State) : Host.Outcome State Fault Refusal :=
  let cfg := s.start.rg pgBackground 0x4C
  match s.dev.back.telem with
  | none => .next s
  | some r =>
    if !bit cfg 8 ∨ s.now % 2 ^ (cfg % 64) ≠ 0 ∨ s.dev.back.told = some s.now then .next s
    else .next ((State.each [0, 1, 2, 3] (fun die s =>
      let ans := s.ringPut r { len := 3, kind := 0x16, info := s.now, body := s.start.telemetry die }
      let s := ans.1
      let ok := ans.2
      let s := s.backCount (if ok then 8 else 9)
      let e := (s.start.ctr (pageOf tTempo die) (0x80 + 8)).toNat
      let n := (s.start.tempo die).lines
      s.onTempo die fun t => { t with markEnergy := e, lines := t.lines - n }) s).onBack fun b => { b with told := some s.now })

/-! ### The background page (R546) -/

def Dev.backRead (d : Dev) (off : Nat) : Word :=
  if 0x40 ≤ off ∧ off ≤ 0x4C then d.reg (addrOf pgBackground off)
  else if off = 0x50 then BitVec.ofNat 32 (match d.back.telem with
    | some r => d.ringHandle r
    | none => 0)
  else 0

/-- Writes of the background page: a value out of range is refused. -/
def State.backWrite (off : Nat) (v : Word) (s : State) : State :=
  let n := v.toNat
  let a := addrOf pgBackground off
  let set (ok : Bool) (m : Word) : State := if ok then s.setReg a (v &&& m) else s
  match off with
  | 0x40 => set (decide (bits n 29 24 + bits n 23 18 + bits n 17 12 + bits n 11 6 + n % 64 ≤ 64)) 0x3FFFFFFF
  | 0x44 => set (decide (10 ≤ n / 65536 ∧ n / 65536 ≤ 1000 ∧ 60 ≤ n % 65536)) 0xFFFFFFFF
  | 0x48 => set true 0x1FF
  | 0x4C => set (decide (20 ≤ n % 64 ∧ n % 64 ≤ 34)) 0x13F
  | _ => s

end Sys2Proof.Machine
end

