-- ==== Sys2Proof/Machine/Pages.lean ====
section
/-! DEFINITION. Register pages (R55 to R73, R77, R574 to R583): reading any register, the lock rules, and writing any register. -/
namespace Sys2Proof.Machine

/-! ### The common header -/

/-- EVENT bits that the pages of a type define (R63), LOCK_REFUSED included. -/
def eventBits (t : Nat) : Word :=
  0x80000000 ||| match t with
    | 0 => 0xF | 2 => 1 | 3 => 0x7FFFF | 4 => 3 | 6 => 3 | 7 => 0xFF | 8 => 3 | 9 => 0x1F | 10 => 0x1FF | 11 => 0x1F | 12 => 3 | 13 => 1
    | 14 => 1 | 15 => 0x3F | 16 => 7 | 17 => 0x3F | 18 => 3 | 19 => 0x7F | 21 => 0x7F | 22 => 0x3F | 23 => 7 | 24 => 7 | 25 => 7 | 32 => 0xF
    | 40 => 0xFFFFFF | _ => 0

/-- CONTROL bits that the pages of a type define: SINK_SET, HOLDOFF and REPORT_EN, and bits 4:1 of a port page (R66, R143). -/
def controlBits (t : Nat) : Word := if t = 3 then 0xFF00001F else 0xFF000001

/-- Is it a per-core-site page? -/
def perCore (t : Nat) : Bool := decide (9 ≤ t ∧ t ≤ 12)

/-- DIE of PAGE_ID (R60, R575): of a channel page, the die of its rings, and port die 0 where it has none (log entry 146). -/
def Dev.ownerDie (d : Dev) (page : Nat) : Nat :=
  match pageKind page with
  | some (32, n) =>
    match [(d.chan n).result, (d.chan n).log, (d.chan n).input].findSome? id with
    | some r => 4 + r / 32768
    | none => 4
  | _ => pageDie page

/-- STATUS.BLOCK. -/
def Dev.blockStatus (d : Dev) (t i : Nat) : Nat :=
  match t with
  | 0 => b2n d.ref.lost
  | 3 => d.portStatus i
  | 6 => d.flowCtlStatus
  | 7 => d.stashMax i
  | 10 => (match d.coreAt i with
    | some c => d.arrayStatus c
    | none => 0)
  | 11 => (match d.coreAt i with
    | some c => d.seqStatus c
    | none => 0)
  | 15 => b2n d.deepEn
  | 17 => (d.tempo i).stage % 4
  | 18 => d.stages
  | 23 => d.score.mode
  | _ => 0

/-- EVENT_PENDING (R62). -/
def PageHdr.pendingEvent (h : PageHdr) : Bool := decide (h.event &&& ~~~h.mask ≠ 0)

/-- STATUS (R62). -/
def Dev.status (d : Dev) (page : Nat) : Word :=
  let h := d.hdr page
  match pageKind page with
  | none => 0
  | some (t, i) =>
    BitVec.ofNat 32 (b2n (decide (h.lock ≠ .unlocked)) * 2 ^ 31 + b2n h.pendingEvent * 2 ^ 30 + b2n h.faulted * 2 ^ 29 +
      (if perCore t then (d.instState i).code else 0) * 2 ^ 26 + d.blockStatus t i)

def LockState.code (l : LockState) : Nat := match l with
  | .unlocked => 0 | .locked => 1 | .sealed => 2

/-- Read of a header register (R59 to R68). -/
def Dev.headerRead (d : Dev) (page off : Nat) : Word :=
  let h := d.hdr page
  match off with
  | 0x00 => BitVec.ofNat 32 (d.ownerDie page * 65536 + page)
  | 0x04 => 0x100
  | 0x08 => d.status page
  | 0x0C => h.event
  | 0x10 => h.mask
  | 0x18 => h.control
  | 0x1C => BitVec.ofNat 32 (h.owner * 256 + h.lock.code)
  | 0x20 => h.count
  | _ => 0

/-! ### Pages of this chapter (R577 to R582) and the reset page (R558, R559) -/

/-- CP_ALIVE (R578): the control processors that run firmware, which they do from phase 2 of a start and again once a restart is under way. -/
def Dev.cpAlive (d : Dev) : Nat :=
  if 2 ≤ d.startUp.phase ∨ d.startUp.restart.isSome then
    ((List.range 8).map fun n => if bit d.reliab.stopped n then 0 else 2 ^ n).sum
  else 0

/-- Read of a block register of the global control page; the ply counter stands apart. -/
def Dev.globalRead (d : Dev) (off : Nat) : Word :=
  if off = 0x48 then d.reg (addrOf pgGlobal off)
  else if off = 0x4C then
    BitVec.ofNat 32 (d.cpAlive * 65536 + d.selid.halfOpen.length * 256 + d.selid.sessions.length)
  else if 0x50 ≤ off ∧ off < 0x90 ∧ off % 0x20 ≠ 0x0C then d.reg (addrOf pgGlobal off)
  else 0

/-- Vacant logical cores. -/
def Dev.vacantCount (d : Dev) : Nat := (List.range 800).countP d.vacant

/-- Read of a block register of the identification page (R580). -/
def Dev.identRead (d : Dev) (off : Nat) : Word :=
  BitVec.ofNat 32 (match off with
    | 0x40 => 0x88004B10
    | 0x44 => Config.serial.toNat
    | 0x48 => Config.serial.toNat / 2 ^ 32
    | 0x4C => d.vacantCount * 1024 + d.activeCount
    | 0x70 => 0x00013D66
    | _ => if 0x50 ≤ off ∧ off < 0x70 then Bytes.le deviceId (off - 0x50) 4 else 0)

/-- Read of a block register of a die identification page (R581). -/
def dieRead (die off : Nat) : Word :=
  let four (k : Nat) : Nat := ((List.range 4).map fun j => (mfgSpares die).getD (k + j) 0 % 256 * 256 ^ j).sum
  BitVec.ofNat 32 (
    if off = 0x40 then (if die < 4 then 2 ^ 24 + 0x10 * 65536 + 208 * 256 else 2 ^ 25 + 0x10 * 65536 + 132)
    else if 4 ≤ die then 0
    else if off = 0x44 then four 0
    else if off = 0x48 then four 4
    else 0)

/-- Read of a block register of the event routing page (R582). -/
def Dev.routingRead (d : Dev) (off : Nat) : Word :=
  if 0x40 ≤ off ∧ off < 0x80 then
    let l := (Table.get [] d.selid.sinks ((off - 0x40) / 4)).map (·.sess)
    BitVec.ofNat 32 ((List.range 4).map fun j => l.getD j 0 * 256 ^ j).sum
  else 0

/-- RESET_CAUSE (R559). -/
def StartUp.cause (x : StartUp) : Nat := x.kind * 2 ^ 28 + b2n x.fault * 2 ^ 27 + x.faultDie % 8 * 2 ^ 24 + x.resets

/-- Read of a block register of the reset page (R558, R559). -/
def Dev.resetRead (d : Dev) (off : Nat) : Word :=
  let x := d.startUp
  BitVec.ofNat 32 (match off with
    | 0x40 => x.cause
    | 0x48 => b2n x.ready * 16 + x.phase
    | 0x4C => x.readyPly
    | 0x50 => x.readyPly / 2 ^ 32
    | _ => 0)

/-- Half of a 64-bit counter. -/
def half (c : BitVec 64) (off : Nat) : Word := if off % 8 = 0 then c.setWidth 32 else (c >>> 32).setWidth 32

/-- The counters of a page, by the offset where its type lays them: each type's pages keep the highest counters they have. -/
def Dev.counterRead (d : Dev) (t page off : Nat) : Word :=
  let base := if t = 0 ∨ t = 2 ∨ t = 15 then 0x100 else 0x80
  if base ≤ off ∧ off < base + 0x100 then half (d.ctr page (off / 8 * 8)) off else 0

/-! ### Reading a register -/

/-- A block register of a per-core-site page (R77): 0 on a spare or retired site; a site being mapped in holds its writable registers and counters. -/
def Dev.coreRead (d : Dev) (t i page off : Nat) : Word :=
  match d.instState i with
  | .spare => 0
  | .retired => 0
  | _ =>
    if 0x80 ≤ off then d.counterRead t page off
    else match d.coreAt i with
      | some c =>
        if t = 9 then d.treeRead c off else if t = 10 then d.arrayRead c off else if t = 11 then d.seqRead c off else d.streamRead c off
      | none => if (t = 10 ∧ off = 0x4C) ∨ (t = 11 ∧ off = 0x50) then d.reg (addrOf page off) else 0

/-- A block register of any page that exists, at its version's offsets; any other offset reads 0 (R57). -/
def Dev.blockRead (d : Dev) (now t i page off : Nat) : Word :=
  match t with
  | 0 => if off = 0x40 then BitVec.ofNat 32 now else if off = 0x44 then BitVec.ofNat 32 (now / 2 ^ 32)
    else if off < 0x100 then d.globalRead off else d.counterRead t page off
  | 1 => d.identRead off
  | 2 => if off < 0x100 then d.routingRead off else d.counterRead t page off
  | 3 => d.portRead i off
  | 4 => d.parserRead i off
  | 5 => dieRead i off
  | 6 => d.flowCtlRead off
  | 7 => d.counterRead t page off
  | 8 => if off = 0x40 ∨ off = 0x44 then d.reg (addrOf page off) else d.counterRead t page off
  | 13 => d.bookRead off
  | 14 => d.pageMapRead off
  | 15 => if off < 0x100 then d.deepRead off else d.counterRead t page off
  | 16 => d.stagingRead off
  | 17 => if off < 0x80 then d.tempoRead i off else d.counterRead t page off
  | 18 => d.thermalRead off
  | 19 => d.secRead off
  | 20 => endorseRead off
  | 21 => d.relRead i off
  | 22 => if off < 0x80 then d.pairRead off else d.counterRead t page off
  | 23 => if off < 0x80 then d.scoreRead off else d.counterRead t page off
  | 24 => if off < 0x80 then d.backRead off else d.counterRead t page off
  | 25 => d.resetRead off
  | 32 => d.chanRead i off
  | 40 => d.ringRead i off
  | _ => if perCore t then d.coreRead t i page off else 0

/-- The value of a register of a page that exists, at the start of ply `now`. -/
def Dev.regValue (d : Dev) (now page off : Nat) : Word :=
  match pageKind page with
  | none => 0
  | some (t, i) => if off < 0x40 then d.headerRead page off else d.blockRead now t i page off

/-- Low halves whose read samples the whole value (R39): the ply counter, counters, READY_PLY, SIGN_NEXT and SIGN_LIMIT. -/
def lowHalf (t off : Nat) : Bool :=
  let counters (base : Nat) : Bool := decide (base ≤ off ∧ off % 8 = 0 ∧ off < base + 0x100)
  match t with
  | 0 => decide (off = 0x40) || counters 0x100
  | 2 => counters 0x100
  | 3 => decide (0x100 ≤ off ∧ off < 0x300 ∧ off % 8 = 0)
  | 4 => counters 0x100
  | 15 => counters 0x100
  | 16 => counters 0xC0
  | 19 => decide (off = 0x4C ∨ off = 0x54)
  | 21 => counters 0x480
  | 25 => decide (off = 0x4C)
  | 32 => decide (0x80 ≤ off ∧ off < 0xC0 ∧ off % 8 = 0)
  | 7 => counters 0x80
  | 8 => counters 0x80
  | 17 => counters 0x80
  | 22 => counters 0x80
  | 23 => counters 0x80
  | 24 => counters 0x80
  | _ => perCore t && counters 0x80

/-- Entry status of a read (R104): absent page, then misaligned. -/
def readStatus (addr : Nat) : Nat :=
  if (pageKind (addr / 65536)).isNone then 2 else if addr % 4 ≠ 0 then 1 else 0

/-- A host read of a register that exists: the value at the start of the ply (R48); a low half samples its high half (R39). -/
def State.readReg (addr : Nat) (s : State) : State × Word :=
  let page := addr / 65536
  let off := addr % 65536
  let v := s.start.regValue s.now page off
  match pageKind page with
  | none => (s, 0)
  | some (t, _) =>
    if lowHalf t off then
      (s.onRegs fun r => { r with latch := Table.put r.latch (addr + 4) (s.start.regValue s.now page (off + 4)) }, v)
    else if 4 ≤ off ∧ lowHalf t (off - 4) then (s, (Table.get? s.dev.regs.latch addr).getD v)
    else (s, v)

/-! ### Writing a register -/

/-- Write of a block register of the global control page (R577, R578). -/
def State.globalWrite (off : Nat) (v : Word) (s : State) : State :=
  let a := addrOf pgGlobal off
  let et := v.toNat % 65536
  if off = 0x48 then
    if v.toNat / 65536 = 0 ∨ et < 0x600 ∨ et = s.rg (parserPage 0) 0x40 % 65536 ∨ et = s.rg (parserPage 1) 0x40 % 65536 then
      s.setEvent pgGlobal 2
    else s.setReg a v
  else if off = 0x50 ∨ off = 0x70 then if v.getLsbD 0 then s.setEvent pgGlobal 2 else s.setReg a v
  else if off = 0x54 ∨ off = 0x74 then s.setReg a (v &&& 0xFFFF)
  else if 0x58 ≤ off ∧ off < 0x90 ∧ off % 0x20 ≠ 0x0C then s.setReg a v
  else s

/-- The resets a write of RESET_CTRL requests (R556, R559): some true for a device reset, some false for a control reset. -/
def resetAsked (v : Word) : Option Bool :=
  if v.toNat / 65536 ≠ 0x4B52 then none
  else match v.getLsbD 0, v.getLsbD 1 with
    | true, false => some true
    | false, true => some false
    | _, _ => none

/-- Write of RESET_CTRL: the reset falls due 1 ms later (R556). -/
def State.resetWrite (off : Nat) (v : Word) (s : State) : State :=
  match (if off = 0x44 then resetAsked v else none) with
  | some dev => s.onStart fun x => { x with due := x.due ++ [(s.now + plies1ms, dev)] }
  | none => s

/-- Write of a block register of any page: an undefined, reserved or read-only one takes no effect (R11, R57). -/
def State.blockWrite (t i page off : Nat) (v : Word) (s : State) : State :=
  match t with
  | 0 => s.globalWrite off v
  | 3 => s.portWrite i off v
  | 4 => s.parserWrite i off v
  | 6 => s.flowCtlWrite off v
  | 10 => s.arrayWrite page off v
  | 11 => s.seqWrite page off v
  | 15 => s.deepWrite off v
  | 17 => s.tempoWrite page off v
  | 19 => s.secWrite off v
  | 22 => s.pairWrite off v
  | 23 => s.scoreWrite off v
  | 24 => s.backWrite off v
  | 25 => s.resetWrite off v
  | 40 => s.ringPageWrite i off v
  | _ => s

/-- Write of CONTROL (R66); on a port page PORT_EN enables or disables the port (R121, R143). -/
def State.controlWrite (t i page : Nat) (v : Word) (s : State) : State :=
  let old := (s.hdr page).control
  let s := s.onHdr page fun h => { h with control := v &&& controlBits t }
  -- what LOOPBACK has not returned is gone when it ends
  let s := if t = 3 ∧ old.getLsbD 2 ∧ !v.getLsbD 2 then s.onPort i fun q => [0, 1, 2, 3].foldl (fun q k => q.onSub k fun x => { x with loop := [] }) q else s
  if t ≠ 3 ∨ old.getLsbD 1 = v.getLsbD 1 then s else if v.getLsbD 1 then s.enablePort i else s.disablePort i

/-- Write of EVENT (R63): bits that the block sets in the same ply stay set (R51). -/
def PageHdr.clearBits (p : Nat) (v : Word) (h : PageHdr) : PageHdr :=
  let keep := if h.setPly = p then h.setBits else 0
  { h with event := h.event &&& ~~~(v &&& ~~~keep) }

/-- Write of EVENT_MASK (R64): an unmask of a flag that is 1 triggers a frame (R74). -/
def PageHdr.writeMask (p : Nat) (v : Word) (h : PageHdr) : PageHdr :=
  { h with mask := v, trigger := if h.event &&& h.mask &&& ~~~v = 0 then h.trigger else some p }

/-- The lock write that R69 allows a session: the new state and owner, or none where it is refused. -/
def lockWrite (state : LockState) (owner n w : Nat) : Option (LockState × Nat) :=
  match state, w with
  | .unlocked, 0 => some (.unlocked, 0)
  | .unlocked, 1 => some (.locked, n)
  | .unlocked, 2 => some (.sealed, n)
  | .locked, 0 => if owner = n then some (.unlocked, 0) else none
  | .locked, 1 => if owner = n then some (.locked, owner) else none
  | .locked, 2 => if owner = n then some (.sealed, owner) else none
  | _, _ => none

/-- Does the lock let a session write this offset (R70)? LOCK writes are judged by `lockWrite`. -/
def lockAllows (state : LockState) (owner n off : Nat) : Bool :=
  match state with
  | .unlocked => true
  | .locked => decide (owner = n ∨ off = 0x0C)
  | .sealed => decide (off = 0x0C ∨ off = 0x10)

/-- A write that is performed, of a header or block register. -/
def State.performWrite (addr : Nat) (v : Word) (s : State) : State :=
  let page := addr / 65536
  let off := addr % 65536
  match pageKind page with
  | none => s
  | some (t, i) =>
    match off with
    | 0x0C => s.onHdr page (PageHdr.clearBits s.now v)
    | 0x10 => s.onHdr page (PageHdr.writeMask s.now v)
    | 0x14 => s.onHdr page fun h => { h with forced := v &&& eventBits t, forcePly := s.now }
    | 0x18 => s.controlWrite t i page v
    | _ => if off < 0x40 then s else s.blockWrite t i page off v

/-- A LOCK write by a session: done, or refused with LOCK_REFUSED (R69, R71). -/
def State.writeLock (n page w : Nat) (s : State) : State × Nat :=
  let h := s.start.hdr page
  match lockWrite h.lock h.owner n (w % 4) with
  | some (st, o) =>
    if s.siteResetNow page then (s, 5)
    else if st = .locked ∧ (s.session? n).isNone then
      -- the batch of a session that has ended: what the session locks is unlocked (R72)
      (s.onHdr page fun h => { h with lock := .unlocked, owner := 0 }, 0)
    else (s.onHdr page fun h => { h with lock := st, owner := o }, 0)
  | none => (s.setEvent page 31, 3)

/-- Is the page's site spare or retired, so that block writes are refused (R77)? -/
def Dev.inactiveSite (d : Dev) (page off : Nat) : Bool :=
  match pageKind page with
  | some (t, i) => perCore t && decide (0x40 ≤ off) && decide (d.instState i = .spare ∨ d.instState i = .retired)
  | none => false

/-- Is the page's site being mapped in, so that block writes are held (R77)? -/
def Dev.mappingSite (d : Dev) (page off : Nat) : Bool :=
  match pageKind page with
  | some (t, i) => perCore t && decide (0x40 ≤ off) && decide (d.instState i = .mapping)
  | none => false

/-- A host write sampled in this ply by session `n` (R50, R51, R55, R57, R70, R77, R104): its entry status. -/
def State.hostWrite (n : Nat) (w : BatchWrite) (s : State) : State × Nat :=
  let page := w.addr / 65536
  let off := w.addr % 65536
  match pageKind page with
  | none => (s, 2)
  | some _ =>
    if w.addr % 4 ≠ 0 then (s, 1)
    else if s.start.inactiveSite page off then (s, 4)
    else
      let h := s.start.hdr page
      let s := (s.touchPage page 5).onHdr page fun h => { h with writePly := some s.now }
      if off = 0x1C then s.writeLock n page w.value.toNat
      else if !lockAllows h.lock h.owner n off then (s.setEvent page 31, 3)
      else if s.siteResetNow page then (s, 5)
      else
        let s := s.performWrite w.addr w.value
        (if w.seals then (s.writeLock n page 2).1 else s, 0)

end Sys2Proof.Machine
end

