-- ==== Sys2Proof/Machine/StartUp.lean ====
section
/-! DEFINITION. Resets and start-up (R547 to R559, R565, R467 to R470): what each kind of reset clears and keeps, the phases of start-up, the
board configuration, and the restart after a control reset. -/
namespace Sys2Proof.Machine

/-! ### Resets that reload firmware (R547, R548) -/

/-- A pool with every slot never allocated, and slots that keep only their handle generations (R173): an allocated slot's advances. -/
def keptGens (l : List (Nat × Nat × Bool)) : List (Nat × Nat) :=
  (l.map fun e => (e.1, if e.2.2 then (e.2.1 + 1) % 4096 else e.2.1)).filter fun e => decide (e.2 ≠ 0)

/-- Slots after a pin or device reset. -/
def Objects.afterReset (o : Objects) : Objects :=
  { siteMap := o.siteMap, ringPace := o.ringPace
    channels := (keptGens (o.channels.map fun e => (e.1, e.2.hgen, decide (e.2.state ≠ .free)))).map fun e => (e.1, { hgen := e.2 })
    rings := (keptGens (o.rings.map fun e => (e.1, e.2.hgen, decide (e.2.use ≠ .free)))).map fun e => (e.1, { hgen := e.2 })
    stages := (keptGens (o.stages.map fun e => (e.1, e.2.hgen, decide (e.2.state ≠ .free)))).map fun e => (e.1, { hgen := e.2 }) }

/-- A site after a reset: its role is kept in NOR and CAUSE takes its reset value (R525, R548); a site whose mapping a reset cuts short is a spare
again (R506). -/
def Site.afterReset (x : Site) : Site := { state := if x.state = .mapping then .spare else x.state }

/-- What NOR and fuses keep of security (R548), and what only a power-on reset clears. -/
def Security.afterReset (on : Bool) (x : Security) : Security :=
  { nvm := x.nvm, preparing := x.preparing, prepared := x.prepared
    tapUsed := !on && x.tapUsed, scanning := !on && x.scanning, cells := if on then [] else x.cells, extest := !on && x.extest }

/-- KIND of RESET_CAUSE (R559). -/
def ResetKind.code (k : ResetKind) : Nat := match k with
  | .powerOn => 1 | .pin => 2 | .device => 3 | .control => 4

/-- Page in which an uncorrectable fault was raised in this ply (R557). -/
def State.faultPage (s : State) (cleared : Nat → Bool) : Option Nat :=
  ((s.dev.regs.hdr.filter fun e => e.2.faulted && !(s.start.hdr e.1).faulted && cleared e.1).map (·.1)).head?

/-- RESET_CAUSE after a reset: several in one ply count once. -/
def State.nextCause (s : State) (k : Nat) (again : Bool) (fault : Option Nat) : StartUp :=
  let x := s.dev.startUp
  { x with
    kind := k
    fault := fault.isSome || again && x.fault
    faultDie := match fault with
      | some page => pageDie page
      | none => if again then x.faultDie else 0
    resets := if k = 1 then 0 else if again then x.resets else min 65535 (x.resets + 1) }

/-- Did another reset take place in this ply (R557)? -/
def State.resetAgain (s : State) : Bool := match s.dev.regs.lastReset with
  | some (p, _) => decide (p = s.now)
  | none => false

/-- A power-on, pin or device reset: the device holds its reset values but for what R548 keeps. What a reader of the same ply sees stays as it stood
at the start of the ply (R48). -/
def State.fullReset (k : ResetKind) (s : State) : State :=
  let on := decide (k = .powerOn)
  let d := s.dev
  let cause := s.nextCause k.code s.resetAgain (s.faultPage fun _ => true)
  let dev : Dev :=
    { ref := d.ref, out := d.out, draws := d.draws, opens := d.opens
      -- a reference that stays lost stays a fault of the global page (R578)
      regs := { lastReset := some (s.now, k), hdr := if d.ref.lost then [(pgGlobal, { PageHdr.reset pgGlobal with faulted := true })] else [] }
      objects := if on then { siteMap := d.objects.siteMap, ringPace := d.objects.ringPace } else d.objects.afterReset
      sec := d.sec.afterReset on
      power := if on then {} else { tripped := d.power.tripped, rails := d.power.rails, noSlot := d.power.noSlot }
      reliab := { sites := d.reliab.sites.map fun e => (e.1, e.2.afterReset), wear := d.reliab.wear }
      startUp :=
        { powerGood := d.startUp.powerGood, resetN := d.startUp.resetN, fallPly := d.startUp.fallPly, smbFrom := d.startUp.smbFrom, cleared := d.startUp.cleared
          released := false, kind := cause.kind, fault := cause.fault, faultDie := cause.faultDie, resets := cause.resets } }
  { s with dev }

/-- Release of reset (R565, R552): the ply counter starts at 0 after a power-on reset, and an owner clear takes effect (R495). A device in SCAN
stays there (R495). -/
def State.release (s : State) : State :=
  if s.dev.sec.scanning then s
  else
    let on := decide (s.dev.startUp.kind = 1)
    let s := if s.dev.startUp.cleared then s.onSec fun x => { x with nvm := { x.nvm with lifecycle := 0 } } else s
    let s := s.onStart fun x =>
      { x with
        released := true, cleared := false, releasePly := if on then 0 else s.now
        smbFrom := if on then x.smbFrom - s.now else x.smbFrom }
    let s := if on then { s.onRegs fun r => { r with lastReset := some (0, .powerOn) } with ply := 0 } else s
    if on then { s with start := s.dev } else s

/-- What a reset of this ply leaves at its end: what other events of the ply did after it is discarded (R51). -/
def State.settleReset (s : State) : State :=
  match s.dev.regs.lastReset with
  | some (p, k) =>
    if p ≠ s.now ∨ k = .control then s
    else if s.dev.startUp.released then (s.fullReset k).release else s.fullReset k
  | none => s

/-- PWR_GOOD_FALL (R565): all logic is held in reset and every volatile state is lost. -/
def execPwrGoodFall (s : State) : Host.Outcome State Fault Refusal :=
  if !s.dev.startUp.powerGood then .next s
  else
    .next ((s.fullReset .powerOn).onStart fun x => { x with powerGood := false, fallPly := s.now })

/-- 10 ms, the least time PWR_GOOD is taken low (R565). -/
abbrev pliesStretch := 15625000

/-- POWER_ON_RESET (R547, R565): PWR_GOOD is taken high; reset is released unless RESET_N is asserted. -/
def execPowerOnReset (s : State) : Host.Outcome State Fault Refusal :=
  if s.dev.startUp.powerGood ∨ s.now < s.dev.startUp.fallPly + pliesStretch then .next s
  else
    let s := (s.fullReset .powerOn).onStart fun x => { x with powerGood := true, smbFrom := s.now + plies1ms }
    .next (if s.dev.startUp.resetN then s else s.release)

/-- PIN_RESET (R547, R565): RESET_N has been asserted for 10 µs; while PWR_GOOD is low the pin alone is noted. -/
def execPinReset (s : State) : Host.Outcome State Fault Refusal :=
  if s.dev.startUp.resetN then .next s
  else
    let s := if s.dev.startUp.powerGood then s.fullReset .pin else s
    .next (s.onStart fun x => { x with resetN := true })

/-- RESET_N_RELEASE (R565). -/
def execResetNRelease (s : State) : Host.Outcome State Fault Refusal :=
  if !s.dev.startUp.resetN then .next s
  else
    let s := s.onStart fun x => { x with resetN := false }
    .next (if s.dev.startUp.powerGood then s.release else s)

/-- Requested resets that are due (R556): of the device, and of the control complex. -/
def State.dueReset (device : Bool) (s : State) : Bool := s.dev.startUp.due.any fun e => decide (e.1 ≤ s.now ∧ e.2 = device)

/-- Is the device powered, and out of the reset pins' hold? -/
def Dev.live (d : Dev) : Bool := d.startUp.powerGood && d.startUp.released

/-- DEVICE_RESET_DUE (R548, R556). -/
def execDeviceResetDue (s : State) : Host.Outcome State Fault Refusal :=
  .next (if s.dev.live && s.dueReset true then (s.fullReset .device).release else s)

/-! ### Control resets (R548, R550, R555) -/

/-- Discard every staging operation, whatever its state (R431, R557). -/
def Objects.dropStages (o : Objects) : Objects :=
  let used := (o.stages.filter fun e => decide (e.2.state ≠ .free)).map (·.1)
  { o with
    stages := (o.stages.map fun e => (e.1, if e.2.state ≠ .free then e.2.release else e.2)).filter fun e => decide (e.2 ≠ {})
    stagePool := used.foldl Pool.release o.stagePool
    retiredLast := 0, retiredPly := 0 }

/-- The header of a page that a control reset clears: a sealed lock stays sealed. -/
def PageHdr.controlReset (page : Nat) (h : PageHdr) : PageHdr :=
  let r := PageHdr.reset page
  if h.lock = .sealed then { r with lock := .sealed, owner := h.owner } else r

/-- The control complex's pages after a control reset. -/
def Regs.controlReset (now : Nat) (r : Regs) : Regs :=
  let mine (page : Nat) : Bool := [pgStaging, pgRouting, pgSecurity].contains page
  { r with
    hdr := (r.hdr.map fun e =>
      if mine e.1 then (e.1, e.2.controlReset e.1) else if e.1 = pgReset then (e.1, { e.2 with event := 0 }) else e).filter fun e =>
        decide (e.2 ≠ PageHdr.reset e.1)
    rw := r.rw.filter fun e => !mine (e.1 / 65536)
    ctr := r.ctr.filter fun e => !mine (e.1 / 65536)
    latch := r.latch.filter fun e => !mine (e.1 / 65536)
    lastReset := some (now, .control) }

/-- A control reset: every session ends without a response, the key store is lost, and the control processors restart, the
stopped ones too (log entry 142). -/
def State.controlReset (kind : Nat) (s : State) : State :=
  let fault := s.faultPage fun p => controlPages.contains p
  let cause := s.nextCause kind s.resetAgain fault
  let s := State.each (s.dev.selid.sessions.map (·.num)) State.endSession s
  let s := s.onSelid fun x => { quench := x.quench, qids := x.qids }
  let s := s.loseSync
  let s := s.onPair fun p => { p with key := [], greet := false, images := [], swaps := [] }
  let s := s.onTeam fun t => { t with key := [] }
  let s := s.onObjects Objects.dropStages
  let s := s.onSec fun x =>
    { x with transfer := none, configHash := [], entropyOk := false, failing := none, quotes := [] }
  let s := s.onRegs (Regs.controlReset s.now)
  let s := (s.onReliab fun r => { r with stopped := 0 }).setFaulted pgGlobal s.dev.ref.lost
  s.onStart fun x =>
    { x with
      kind := cause.kind, fault := cause.fault, faultDie := cause.faultDie, resets := cause.resets
      phase := 0, ready := false, restart := some s.now, due := x.due.filter fun e => decide (s.now < e.1) }

/-- CONTROL_RESET_DUE (R555, R556): with a device reset due in the same ply, one device reset (R557). -/
def execControlResetDue (s : State) : Host.Outcome State Fault Refusal :=
  .next (if !s.dev.live || !s.dueReset false then s
    else if s.dueReset true then (s.fullReset .device).release
    else if s.resetNow then s
    else s.controlReset 4)

/-- CONTROL_WATCHDOG (R551): no control processor has completed its health exchange for 1 s, or a takeover has failed. -/
def execControlWatchdog (s : State) : Host.Outcome State Fault Refusal :=
  .next (if !s.dev.live || s.resetNow then s else s.controlReset 5)

/-- SIGN_LIMIT, the DRBG and READY: phases 2, 3 and 9 of the restart (R555). -/
def execControlRestartReady (s : State) : Host.Outcome State Fault Refusal :=
  match s.dev.startUp.restart with
  | none => .next s
  | some p =>
    if s.now ≤ p ∨ s.dev.halted then .next s
    else
      let s := s.onSec fun x => { x.atBoot with entropyOk := true, requests := s.dev.draws, reseeded := s.now }
      let s := s.onStart fun x => { x with phase := 9, ready := true, readyPly := s.now, restart := none }
      .next (s.setEvent pgReset 0)

/-! ### The firmware slots at boot (R467 to R470) -/

/-- The owner's countersignature of a slot (R468, step 6). -/
def Dev.countersigned (d : Dev) (f : Bytes) : Bool :=
  let r := Bytes.slice f 0x1FF0000 65536
  let b := r.take (68 + bPayLen r + bSigLen r)
  let d := { d with sec := { d.sec with nvm := { d.sec.nvm with serials := [] } } }
  decide (bKind b = 3) && (d.bundleBad (toLE 4 b.length ++ b)).isNone && decide (Bytes.slice (bPayload b) 16 32 = fwHeaderHash f)

/-- Does a slot pass R468? -/
def Dev.slotPasses (d : Dev) (k : Nat) : Bool :=
  let f := d.flash k
  (fwBad f d.sec.nvm.floor).isNone && (!d.sec.nvm.countersign || d.countersigned f)

/-- SVN and BUILD of a slot. -/
def Dev.slotSvn (d : Dev) (k : Nat) : Nat := Bytes.le (d.flash k) 8 4
def Dev.slotBuild (d : Dev) (k : Nat) : Nat := Bytes.le (d.flash k) 12 4

/-- The slot that boots (R469): the greater SVN, then the greater BUILD, then slot A. -/
def Dev.bootSlot (d : Dev) : Option Nat :=
  match d.slotPasses 0, d.slotPasses 1 with
  | false, false => none
  | true, false => some 0
  | false, true => some 1
  | true, true =>
    some (if d.slotSvn 0 < d.slotSvn 1 ∨ (d.slotSvn 0 = d.slotSvn 1 ∧ d.slotBuild 0 < d.slotBuild 1) then 1 else 0)

/-! ### Phases of start-up (R552, R553) -/

/-- Phase 2: a pending release is performed, the rollback floor raised, and the DRBG instantiated. Whether a fuse fails to blow is free. -/
def State.startFirmware (s : State) : State :=
  let s := if s.dev.sec.nvm.lifecycle = 2 then
      (s.onSec fun x => { x with nvm := { x.nvm.eraseOwner with lifecycle := 0 } }).setEvent pgSecurity 6
    else s
  let f := s.dev.flash s.dev.sec.slot
  let svn := Bytes.le f 8 4
  let s := if bit (Bytes.le f 6 2) 0 ∧ s.dev.sec.nvm.floor < svn then
      let ans := s.free
      let v := ans.1
      let s := ans.2
      if v % 2 = 1 then s.setEvent pgSecurity 4 else s.onSec fun x => { x with nvm := { x.nvm with floor := svn } }
    else s
  s.onSec fun x => { x with entropyOk := true, requests := s.dev.draws, reseeded := s.now }

/-- Phase 4: the host ports come up, as their PORT_EN has them. -/
def State.startHostPorts (s : State) : State :=
  State.each [64, 65] (fun p s => if (s.hdr (pageOf tPort p)).control.getLsbD 1 then s.enablePort p else s) s

/-- What the phase in progress does by its end; none while it cannot end. -/
def State.endPhase (s : State) : Option State :=
  match s.dev.startUp.phase with
  | 1 => s.dev.bootSlot.map fun k => s.onSec fun x => { x with slot := k }
  | 2 => some s.startFirmware
  | 3 => some (s.onSec Security.atBoot)
  | 4 => if s.dev.ref.lost then none else some s.startHostPorts
  | 6 => some (s.onStart fun x => { x with bookLoaded := true })
  | _ => some s

/-- Does start-up run: reset released, nothing that stops the device, not READY yet? -/
def Dev.starting (d : Dev) : Bool :=
  !d.halted && !d.startUp.ready && d.startUp.restart.isNone && !d.power.noSlot && !d.power.bookFailed

/-- One phase of start-up ends and the next begins, up to phase 7, whose tests end with READY. REF_ABSENT is set as phase 1 begins (R553). -/
def State.bootStep (s : State) : State :=
  if !s.dev.starting || decide (7 ≤ s.dev.startUp.phase) then s
  else match s.endPhase with
    | none => s
    | some s =>
      let s := if s.dev.startUp.phase = 0 ∧ s.dev.ref.lost then s.setEvent pgReset 2 else s
      s.onStart fun x => { x with phase := x.phase + 1 }

/-- A site fails its training (CAUSE 5) or self-test (CAUSE 2) at start-up (R553). -/
def State.retireAtStart (cause x : Nat) (s : State) : State :=
  if (s.dev.site x).state = .active ∨ (s.dev.site x).state = .spare then (s.setSite x { state := .retired, cause }).markFaulted (failedPage cause x) else s

/-- A logical core without an active site takes the nearest spare at once, with nothing to copy, or becomes vacant (R553, R503, R506). -/
def State.fillCore (core : Nat) (s : State) : State :=
  let die := coreDie core
  match s.dev.siteOf core with
  | none => s
  | some x =>
    if (s.dev.site x).state = .active then s
    else
      let l := s.dev.sparesOf die
      match leastBy (meshHops (x % 208)) l with
      | some t =>
        let s := (s.setSite (die * 208 + t) { state := .active }).onObjects fun o =>
          { o with siteMap := Table.put o.siteMap core (some (die * 208 + t)) }
        let s := (s.relCount die 1).relEvent die 1
        if l.length = 2 then s.relEvent die 6 else s
      | none => ((s.onObjects fun o => { o with siteMap := Table.put o.siteMap core none }).relCount die 2).relEvent die 2

/-- Phase 7: every active or spare site is self-tested (R501, R552). -/
def State.startSites (bad untrained : List Nat) (s : State) : State :=
  let s := State.each (List.range 4) (fun die s =>
    let n := (List.range 208).countP fun k =>
      let v := (s.dev.site (208 * die + k)).state
      decide (v = .active ∨ v = .spare) && !untrained.contains (208 * die + k)
    let f := (List.range 208).countP fun k =>
      let v := (s.dev.site (208 * die + k)).state
      decide (v = .active ∨ v = .spare) && bad.contains (208 * die + k) && !untrained.contains (208 * die + k)
    let s := s.bump (pageOf tReliab die) (0x480 + 8 * 4) n
    if f = 0 then s else (s.bump (pageOf tReliab die) (0x480 + 8 * 5) f).relEvent die 3) s
  let s := State.each (untrained.filter fun x => decide (x < 832)) (State.retireAtStart 5) s
  let s := State.each (bad.filter fun x => decide (x < 832)) (State.retireAtStart 2) s
  State.each (List.range 800) State.fillCore s

/-- Registers of a port page that the board configuration may write (R554). -/
def boardOffset (off : Nat) : Bool := [0x18, 0x40, 0x44, 0x48, 0x4C, 0x50].contains off

/-- One entry of the board configuration. -/
def State.boardEntry (addr : Nat) (v : Word) (s : State) : State :=
  match pageKind (addr / 65536) with
  | some (3, _) => if boardOffset (addr % 65536) then s.performWrite addr v else s.setEvent pgReset 1
  | _ => s.setEvent pgReset 1

/-- Phase 8: the board configuration (R554). -/
def State.startBoard (b : Bytes) (s : State) : State :=
  let n := Bytes.le b 6 2
  let good := decide (Bytes.le b 0 4 = 0x43464442 ∧ Bytes.le b 4 2 = 1 ∧ 1 ≤ n ∧ n ≤ 4096) &&
    decide (Bytes.le b (8 + 8 * n) 4 = (crc32c (Bytes.slice b 0 (8 + 8 * n))).toNat)
  if !good then s.setEvent pgReset 1
  else State.each (List.range n) (fun i => State.boardEntry (Bytes.le b (8 + 8 * i) 4) (BitVec.ofNat 32 (Bytes.le b (12 + 8 * i) 4))) s

/-- Phase 9: the learn rings and the telemetry ring are allocated, all for port die 0, and the seeds drawn (R220, R543, R234, R494). -/
def State.startRings (s : State) : State :=
  let s := State.each (List.range 4) (fun _ s =>
    let ans := s.allocRing 0 .learn 20 false; match ans.2 with
    | some n => let s := ans.1; s.onFlow fun x => { x with learnRings := x.learnRings ++ [n] }
    | none => let s := ans.1; s) s
  let s := let ans := s.allocRing 0 .telemetry 20 false; match ans.2 with
    | some n => let s := ans.1; s.onBack fun x => { x with telem := some n }
    | none => let s := ans.1; s
  if s.dev.sec.entropyOk then s.drawSeeds else s.onSec fun x => { x with seedsDue := true }

/-- READY (R552, R553): start-up completes. `bad` and `untrained` are the sites that fail their self-test or their training. -/
def execReady (bad untrained : List Nat) (s : State) : Host.Outcome State Fault Refusal :=
  if !s.dev.starting ∨ s.dev.startUp.phase ≠ 7 ∨ s.dev.ref.lost then .next s
  else
    let s := ((s.startSites bad untrained).startBoard Config.boardConfig).startRings
    let s := s.onStart fun x => { x with phase := 9, ready := true, readyPly := s.now }
    .next (s.setEvent pgReset 0)

/-- BOOT_FAILURE (R469, R553, R566): `kind` 0, no slot passes; `kind` 1, the book copy has failed its check twice. -/
def execBootFailure (kind : Nat) (s : State) : Host.Outcome State Fault Refusal :=
  if !s.dev.starting then .next s
  else if kind = 0 then
    .next (if s.dev.startUp.phase ≤ 1 ∧ s.dev.bootSlot = none then s.onPower fun p => { p with noSlot := true } else s)
  else .next (if s.dev.startUp.phase = 6 then s.onPower fun p => { p with bookFailed := true } else s)

end Sys2Proof.Machine
end

