-- ==== Sys2Proof/Machine/Boundary.lean ====
section
/-! DEFINITION. The package boundary (R564 to R570): the SMBus port, SMB_ALERT_N, and the alert response address. -/
namespace Sys2Proof.Machine

/-- Does the SMBus port answer (R569)? -/
def State.smbAnswers (s : State) : Bool := s.dev.startUp.powerGood && decide (s.dev.startUp.smbFrom ≤ s.now)

/-- Answer a read command with its data bytes, or not at all. -/
def State.smb (data : Bytes) (s : State) : State := if s.smbAnswers then s.emit (.smbus (some data)) else s

/-- STATUS of R569. -/
def Dev.smbStatus (d : Dev) : Nat :=
  b2n d.startUp.ready + 2 * b2n d.faultN + 4 * b2n d.power.tripped + 8 * b2n (decide (d.power.rails ≠ 0)) +
    16 * b2n (d.power.noSlot || d.power.bookFailed)

/-- SMB_STATUS (R569). Reads show the state at the start of the ply. -/
def execSmbStatus (s : State) : Host.Outcome State Fault Refusal := .next (s.smb [byte s.start.smbStatus])

/-- SMB_PHASE (R569). -/
def execSmbPhase (s : State) : Host.Outcome State Fault Refusal := .next (s.smb [byte s.start.startUp.phase])

/-- SMB_LIFECYCLE (R569). -/
def execSmbLifecycle (s : State) : Host.Outcome State Fault Refusal := .next (s.smb [byte s.start.sec.nvm.lifecycle])

/-- SMB_STAGES (R569). -/
def execSmbStages (s : State) : Host.Outcome State Fault Refusal := .next (s.smb [byte s.start.stages])

/-- SMB_RAIL_FAULT (R569). -/
def execSmbRailFault (s : State) : Host.Outcome State Fault Refusal := .next (s.smb [byte s.start.power.rails])

/-- SMB_LOGIC_TEMP (R569): codes 10h to 13h. -/
def execSmbLogicTemp (die : Nat) (s : State) : Host.Outcome State Fault Refusal :=
  .next (if die < 4 then s.smb (toLE 2 ((hottest (s.start.tempo die).logic).2 % 4096)) else s)

/-- SMB_DRAM_TEMP (R569): codes 14h to 17h. -/
def execSmbDramTemp (die : Nat) (s : State) : Host.Outcome State Fault Refusal :=
  .next (if die < 4 then s.smb (toLE 2 ((hottest (s.start.tempo die).dram).2 % 4096)) else s)

/-- SMB_PORT_TEMP (R569): codes 18h and 19h. -/
def execSmbPortTemp (die : Nat) (s : State) : Host.Outcome State Fault Refusal :=
  .next (if die < 2 then s.smb (toLE 2 ((if die = 0 then s.start.power.port0 else s.start.power.port1) % 4096)) else s)

/-- SMB_POWER (R569). -/
def execSmbPower (s : State) : Host.Outcome State Fault Refusal := .next (s.smb (toLE 2 (s.start.power.watts % 65536)))

/-- SMB_VCORE (R569): codes 20h to 23h. -/
def execSmbVcore (die : Nat) (s : State) : Host.Outcome State Fault Refusal :=
  .next (if die < 4 then s.smb [byte (s.start.tempo die).vcore] else s)

/-- SMB_SERIAL (R569): zeros until phase 2 of start-up completes. -/
def execSmbSerial (s : State) : Host.Outcome State Fault Refusal :=
  let x := s.start.startUp
  .next (s.smb (if 3 ≤ x.phase ∨ x.restart.isSome then toLE 8 Config.serial.toNat else zeros 8))

/-- SMB_REFUSED (R569): a write or any other command code is answered with a NACK, and changes nothing else. -/
def execSmbRefused (s : State) : Host.Outcome State Fault Refusal := .next (if s.smbAnswers then s.emit (.smbus none) else s)

/-- SMB_ALERT_N (R570): a shedding stage above 0, a temperature at its HIGH threshold (R444), or FAULT_N. -/
def Dev.smbAlert (d : Dev) : Bool :=
  d.faultN || (List.range 4).any fun k =>
    let t := d.tempo k
    let cfg := d.rg (pageOf tTempo k) 0x4C
    decide (0 < t.stage ∨ degrees (cfg / 2 ^ 24) ≤ temp (hottest t.logic).2 ∨ degrees (bits cfg 15 8) ≤ temp (hottest t.dram).2)

/-- SMB_ALERT_RESPONSE (R570): the device answers the alert response address with its own address while it asserts the line. -/
def execSmbAlertResponse (s : State) : Host.Outcome State Fault Refusal :=
  .next (if s.start.smbAlert then s.smb [byte (2 * (0x58 + Config.smbStrap % 4))] else s)

end Sys2Proof.Machine
end

