-- ==== Sys2Proof/Machine/Registers.lean ====
section
/-! DEFINITION. Register commands and event frames (R58, R65, R74 to R76, R103 to R105, R111, R485): the read batches, WRITE_BATCH, each write of a
batch as its page's arbiter samples it, forced sets, event frames, and what happens at the boundary between two plies. -/
namespace Sys2Proof.Machine

/-! ### Reads (R58, R103, R104) -/

/-- Read a list of registers, all in this ply: values and entry statuses in order. -/
def State.readAll (l : List Nat) (s : State) : State × List (Word × Nat) :=
  match l with
  | [] => (s, [])
  | a :: r =>
    let st := readStatus a
    let ans := if st = 0 then s.readReg a else (s, 0)
    let s := ans.1
    let v := ans.2
    let ans := s.readAll r
    let s := ans.1
    let vs := ans.2
    (s, (v, st) :: vs)

/-- READ_BATCH (R103, R104). -/
def execReadBatch (sess : Nat) (s : State) : Host.Outcome State Fault Refusal :=
  .next (s.command sess 0x10 fun x c s =>
    let b := c.body
    let n := Bytes.le b 0 2
    if Bytes.le b 2 2 ≠ 0 then s.complete sess 0x10 stBadField 2 []
    else if b.length < 4 then s.complete sess 0x10 stBadLength 0 []
    else if n = 0 ∨ 512 < n then s.complete sess 0x10 stBadField 0 []
    else if b.length ≠ 4 + 4 * n then s.complete sess 0x10 stBadLength 0 []
    else s.sized x c (4 + 8 * n) fun s =>
      let ans := s.readAll ((List.range n).map fun i => Bytes.le b (4 + 4 * i) 4)
      let s := ans.1
      let l := ans.2
      let bad := l.countP fun e => decide (e.2 ≠ 0)
      s.complete sess 0x10 (if bad = 0 then stOK else stPartial) bad
        (toLE 2 n ++ [0, 0] ++ (l.map fun e => toLE 4 e.1.toNat ++ [byte e.2, 0, 0, 0]).flatten))

/-- READ_BLOCK (R103): consecutive registers, all sampled in one ply. -/
def execReadBlock (sess : Nat) (s : State) : Host.Outcome State Fault Refusal :=
  .next (s.command sess 0x11 fun x c s =>
    let b := c.body
    let a := Bytes.le b 0 4
    let n := Bytes.le b 4 2
    if Bytes.le b 6 2 ≠ 0 then s.complete sess 0x11 stBadField 6 []
    else if b.length ≠ 8 then s.complete sess 0x11 stBadLength 0 []
    else if n = 0 ∨ 1024 < n ∨ 65536 < a % 65536 + 4 * n then s.complete sess 0x11 stBadField 4 []
    else if readStatus a = 2 then s.complete sess 0x11 stAbsentPage 0 []
    else if readStatus a = 1 then s.complete sess 0x11 stMisaligned 0 []
    else s.sized x c (4 * n) fun s =>
      let ans := s.readAll ((List.range n).map fun i => a + 4 * i)
      let s := ans.1
      let l := ans.2
      s.complete sess 0x11 stOK 0 (l.map fun e => toLE 4 e.1.toNat).flatten)

/-! ### Writes (R50, R103 to R105) -/

/-- WRITE_BATCH (R103, R105): its writes are sampled one by one by the write commands below, and the last one answers. -/
def execWriteBatch (sess : Nat) (s : State) : Host.Outcome State Fault Refusal :=
  .next (s.command sess 0x12 fun x c s =>
    let b := c.body
    let n := Bytes.le b 0 2
    if Bytes.le b 2 2 ≠ 0 then s.complete sess 0x12 stBadField 2 []
    else if b.length < 4 then s.complete sess 0x12 stBadLength 0 []
    else if n = 0 ∨ 512 < n then s.complete sess 0x12 stBadField 0 []
    else if b.length ≠ 4 + 8 * n then s.complete sess 0x12 stBadLength 0 []
    else s.sized x c (writeBody n) fun s =>
      (s.startCmd sess 0x12).onSession sess fun y =>
        { y with
          writes := (List.range n).map fun i => { addr := Bytes.le b (4 + 8 * i) 4, value := BitVec.ofNat 32 (Bytes.le b (8 + 8 * i) 4) }
          estats := [] })

/-- The kinds of write that a command of its own samples. -/
inductive WriteRow where
  | register | eventClear | eventMask | eventForce | lock | portEnable | portDisable | counterClear | readmit | learnAgent | deepEn | resync | castle
  | deviceReset | controlReset
  deriving DecidableEq, Repr

/-- Which of them a write is. -/
def Dev.writeRow (d : Dev) (w : BatchWrite) : WriteRow :=
  let page := w.addr / 65536
  match pageKind page with
  | none => .register
  | some (t, i) =>
    match t, w.addr % 65536 with
    | _, 0x0C => .eventClear
    | _, 0x10 => .eventMask
    | _, 0x14 => .eventForce
    | _, 0x1C => .lock
    | 3, 0x18 =>
      (match (d.hdr (pageOf tPort i)).control.getLsbD 1, w.value.getLsbD 1 with
      | false, true => .portEnable
      | true, false => .portDisable
      | _, _ => .register)
    | 3, 0x58 => .counterClear
    | 3, 0x50 => if w.value &&& 0xF0000 = 0 then .register else .readmit
    | 6, 0x54 => .learnAgent
    | 15, 0x40 => .deepEn
    | 22, 0x44 => if w.value.getLsbD 0 then .castle else if w.value.getLsbD 1 then .resync else .register
    | 25, 0x44 =>
      (match resetAsked w.value with
      | some true => .deviceReset
      | some false => .controlReset
      | none => .register)
    | _, _ => .register

/-- Writes that are performed one at a time, whatever session sends them (R579). -/
def etherWrite (w : BatchWrite) : Bool :=
  decide (w.addr = addrOf pgGlobal 0x48 ∨ w.addr = addrOf (parserPage 0) 0x40 ∨ w.addr = addrOf (parserPage 1) 0x40)

/-- The first write of a batch is sampled, and its entry noted (R50, R105, R579). -/
def State.writePage (n : Nat) (w : BatchWrite) (s : State) : State :=
  let ans := s.hostWrite n w
  let s := ans.1
  let s := if etherWrite w then s.onRegs fun r => { r with etherPly := some s.now } else s
  let page := w.addr / 65536
  (if perCorePage page && decide (ans.2 = 0) then s.onSelid fun x => { x with siteWrites := x.siteWrites ++ [(n, page)] } else s).noteEntry n ans.2

/-- The next write of a session's batch is sampled, if it is of this kind: one write of a page in a ply (R50), one write of R579 in a ply, and none of
a page's block while its site is being mapped in (R77). Such a write waits, with what follows it in its batch, and its page's lock is judged when it
is performed (log entry 147). What follows a write of a per-core page waits for the next ply (log entry 160). With every control processor stopped
none is made (R23). -/
def State.writeStep (n : Nat) (row : WriteRow) (s : State) : State :=
  match s.headWrite n with
  | none => s
  | some w =>
    let page := w.addr / 65536
    if s.dev.writeRow w ≠ row ∨ s.dev.reliab.stopped = 255 ∨ s.batchWaits n ∨ (s.hdr page).writePly = some s.now then s
    else if etherWrite w ∧ s.dev.regs.etherPly = some s.now then s
    else if w.addr % 4 = 0 ∧ s.start.mappingSite page (w.addr % 65536) = true then s
    else s.writePage n w

/-- REGISTER_WRITE (R47, R50, R70). -/
def execRegisterWrite (sess : Nat) (s : State) : Host.Outcome State Fault Refusal := .next (s.writeStep sess .register)

/-- EVENT_CLEAR (R63, R51). -/
def execEventClear (sess : Nat) (s : State) : Host.Outcome State Fault Refusal := .next (s.writeStep sess .eventClear)

/-- EVENT_MASK_WRITE (R64, R74). -/
def execEventMaskWrite (sess : Nat) (s : State) : Host.Outcome State Fault Refusal := .next (s.writeStep sess .eventMask)

/-- EVENT_FORCE (R65). -/
def execEventForce (sess : Nat) (s : State) : Host.Outcome State Fault Refusal := .next (s.writeStep sess .eventForce)

/-- LOCK_WRITE (R69 to R71). -/
def execLockWrite (sess : Nat) (s : State) : Host.Outcome State Fault Refusal := .next (s.writeStep sess .lock)

/-- PORT_ENABLE (R121). -/
def execPortEnable (sess : Nat) (s : State) : Host.Outcome State Fault Refusal := .next (s.writeStep sess .portEnable)

/-- PORT_DISABLE (R121). -/
def execPortDisable (sess : Nat) (s : State) : Host.Outcome State Fault Refusal := .next (s.writeStep sess .portDisable)

/-- COUNTER_CLEAR (R141, R144). -/
def execCounterClear (sess : Nat) (s : State) : Host.Outcome State Fault Refusal := .next (s.writeStep sess .counterClear)

/-- READMIT (R138, R144). -/
def execReadmit (sess : Nat) (s : State) : Host.Outcome State Fault Refusal := .next (s.writeStep sess .readmit)

/-- LEARN_AGENT_SWITCH (R221). -/
def execLearnAgentSwitch (sess : Nat) (s : State) : Host.Outcome State Fault Refusal := .next (s.writeStep sess .learnAgent)

/-- DEEP_EN_WRITE (R361). -/
def execDeepEnWrite (sess : Nat) (s : State) : Host.Outcome State Fault Refusal := .next (s.writeStep sess .deepEn)

/-- RESYNC (R519, R527). -/
def execResync (sess : Nat) (s : State) : Host.Outcome State Fault Refusal := .next (s.writeStep sess .resync)

/-- CASTLE (R513, R514, R527). -/
def execCastle (sess : Nat) (s : State) : Host.Outcome State Fault Refusal := .next (s.writeStep sess .castle)

/-- DEVICE_RESET (R556). -/
def execDeviceReset (sess : Nat) (s : State) : Host.Outcome State Fault Refusal := .next (s.writeStep sess .deviceReset)

/-- CONTROL_RESET (R556). -/
def execControlReset (sess : Nat) (s : State) : Host.Outcome State Fault Refusal := .next (s.writeStep sess .controlReset)

/-! ### Forced sets and event frames (R65, R74 to R76, R111) -/

/-- FORCED_SET (R65): the forced bits are set, once, in the ply after the write of EVENT_FORCE. -/
def execForcedSet (page : Nat) (s : State) : Host.Outcome State Fault Refusal :=
  let h := s.start.hdr page
  .next (if h.forced ≠ 0 ∧ h.forcePly + 1 = s.now ∧ (s.hdr page).forceDone ≠ some s.now then
      (s.onHdr page fun h => { h with forceDone := some s.now }).setEvents page h.forced
    else s)

/-- Least spacing of a page's frames, in plies (R66). -/
def holdoff (control : Word) : Nat :=
  let h := bits control.toNat 27 24
  if h = 0 then 0 else 1024 * 2 ^ h

/-- Does HOLDOFF allow a frame in this ply (R74)? -/
def PageHdr.spaced (h : PageHdr) (control : Word) (now : Nat) : Bool :=
  match h.lastFrame with
  | some q => decide (q + holdoff control ≤ now)
  | none => true

/-- A record that cannot be delivered (R76, R111, R583). -/
def State.undelivered (page : Nat) (s : State) : State :=
  let s := s.bump pgRouting 0x100 1
  if page = pgRouting then s else s.setEvent pgRouting 0

/-- Queue a record to one sink (R111): a full queue drops it, which leaves a gap in the sink's numbers. -/
def State.queueTo (set page : Nat) (r : EventRecord) (sess : Nat) (s : State) : State :=
  match (s.dev.sinkSet set).find? fun y => decide (y.sess = sess) with
  | none => s.bump pgRouting 0x108 1
  | some k =>
    let put (f : Sink → Sink) (s : State) : State :=
      s.onSelid fun y => { y with sinks := Table.modify [] y.sinks set fun l => l.map fun z => if z.sess = sess then f z else z }
    if 1024 ≤ k.queue.length then (put (fun z => { z with next := (z.next + 1) % 2 ^ 32 }) s).undelivered page
    else
      (put (fun z => { z with queue := z.queue ++ [r], nums := z.nums ++ [z.next], next := (z.next + 1) % 2 ^ 32 }) s).bump pgRouting 0x108 1

/-- Form a page's event frame from what it holds at the start of the ply (R74, R76). -/
def State.formFrame (page : Nat) (s : State) : State :=
  let h := s.start.hdr page
  let set := h.control.toNat / 2 ^ 28
  let sinks := s.start.sinkSet set
  if sinks.isEmpty then (s.onHdr page fun h => { h with suppressed := false }).undelivered page
  else
    let r : EventRecord := { page, set, status := s.start.status page, event := h.event, mask := h.mask, count := h.count, ply := s.now }
    State.each (sinks.map (·.sess)) (State.queueTo set page r) (s.onHdr page fun h => { h with lastFrame := some s.now, suppressed := false })

/-- EVENT_FRAME (R74, R75): in the ply after an unmasked set or unmask, the page forms its frame, or HOLDOFF suppresses it. -/
def execEventFrame (page : Nat) (s : State) : Host.Outcome State Fault Refusal :=
  let h := s.start.hdr page
  let due : Bool := match h.trigger with
    | some p => decide (p + 1 = s.now)
    | none => false
  if !due || !h.control.getLsbD 0 || decide ((s.hdr page).judged = some s.now) || decide ((s.hdr page).lastFrame = some s.now) then .next s
  else
    let s := s.onHdr page fun h => { h with judged := some s.now }
    .next (if h.spaced h.control s.now then s.formFrame page else s.onHdr page fun h => { h with suppressed := true })

/-- HOLDOFF_EXPIRE (R75): in the first ply in which the spacing allows it, a suppressed frame is formed, or discarded while REPORT_EN is 0. -/
def execHoldoffExpire (page : Nat) (s : State) : Host.Outcome State Fault Refusal :=
  let h := s.start.hdr page
  if !h.suppressed || !(s.hdr page).suppressed || !h.spaced h.control s.now || decide ((s.hdr page).judged = some s.now) then .next s
  else
    let s := s.onHdr page fun h => { h with suppressed := false, judged := some s.now }
    .next (if h.control.getLsbD 0 then s.formFrame page else s)

/-! ### The boundary between two plies -/

/-- Ports whose enable was refused return PORT_EN to 0 in the following ply (R121). -/
def State.refusePorts (s : State) : State :=
  State.each ((s.dev.ports.filter fun e => match e.2.refuse with
    | some p => decide (p ≤ s.now)
    | none => false).map (·.1)) (fun p s =>
      ((s.onPort p fun q => { q with refuse := none }).onHdr (pageOf tPort p) fun h => { h with control := h.control &&& 0xFFFFFFFD }).setEvent
        (pageOf tPort p) 18) s

/-- Sessions that end in this ply because a last SEQ was used in the ply before (R95). -/
def State.endSessions (s : State) : State :=
  State.each ((s.dev.selid.sessions.filter fun x => match x.ending with
    | some p => decide (p ≤ s.now)
    | none => false).map (·.num)) State.endSession s

/-- The copy and the load of a mapping whose spare has passed its self-test go on (R503, steps 4 and 5). -/
def State.mapOn (s : State) : State :=
  s.onReliab fun r => { r with mapping := r.mapping.map fun e => (e.1, if e.2.step = 1 ∨ e.2.step = 2 then { e.2 with step := e.2.step + 1 } else e.2) }

end Sys2Proof.Machine
end

