-- ==== Sys2Proof/Machine/Due.lean ====
section
/-! DEFINITION. What falls due at the end of a ply whatever is commanded (log entry 2): transfers between the dies, the events that wait for those of
higher precedence, the limits and intervals that end with the ply, and the beginning of the next. -/
namespace Sys2Proof.Machine

/-! ### The links and the ports -/

/-- Is a transfer a frame of port die 1's lane, or one for a port? -/
def Cargo.isLane (c : Cargo) : Bool := match c with
  | .lane _ => true
  | _ => false
def Cargo.sends (c : Cargo) : Option Waiting := match c with
  | .send w => some w
  | _ => none

/-- The next frame of port die 1's lane sets out for the control complex once the one before it has left the die, a session's frame before a setup
frame (R15, R113; log entry 126). -/
def State.laneOut (s : State) : State :=
  if s.dev.net.flits.any fun f => f.cargo.isLane && decide (f.die = 5) then s
  else match s.dev.selid.lane1.session ++ s.dev.selid.lane1.setup with
    | [] => s
    | lf :: _ => (s.onLane 1 Lane.takeHead).launch clsControl s.now lf.frame.length (dieRoute 5 4) 5 (.lane lf)

/-- Every link serves the ply (R14, R19, R20), frames that have reached their port die are sent, and those that nothing holds any more. -/
def State.carry (s : State) : State :=
  let s := s.onNet fun n => (n.step s.now).unload s.now
  let here (f : Flit) : Bool := f.cargo.sends.isSome && f.there s.now
  let l := (s.dev.net.flits.filter here).filterMap (·.cargo.sends)
  let s := if l.isEmpty then s else s.onNet fun n => { n with flits := n.flits.filter fun f => !here f }
  (State.each l State.sendWaiting s).laneOut.flushWaiting

/-- Frames that wait in the egress queues of a sub-port that has gone down are discarded (R136, R137). -/
def State.dropQueued (s : State) : State :=
  State.each (s.dev.traffic.egress.filter fun e => !s.subUp (e.1 / 32) (e.1 / 8 % 4)) (fun e s =>
    let s := State.each e.2 (fun k s => ((s.freeBuffer k).onPacket k fun p => { p with gone := true }).settle k) s
    (s.portCount (e.1 / 32) (e.1 / 8 % 4) 13 e.2.length).onTraffic fun t => { t with egress := Table.erase t.egress e.1 }) s

/-- What a ply of the physical world does to a port's links: codewords corrected and not (R141): free values (log entry 140). -/
def State.sampleLinks (p : Nat) (s : State) : State :=
  let ups := (List.range 4).filter fun i => s.subUp p i
  State.each ups (fun i s =>
    let bad := Config.fecUncorrected p i s.now
    let s := (s.portCount p i 14 (Config.fecCorrected p i s.now)).portCount p i 15 bad
    if bad = 0 then s else s.setEvent (pageOf tPort p) 16) s

/-- The pause times, storms and resent XOFF frames of a sub-port (R131 to R134): XOFF is sent again in the last ply before half its pause time has
passed. -/
def State.pausesDue (p i : Nat) (s : State) : State :=
  let s := s.force (execPauseQuantaExpire p i)
  let s := State.each (((s.port p).subp i).since.map (·.1)) (fun k s => s.force (execPfcStorm p i k)) s
  let x := (s.port p).subp i
  State.each ((x.xoff.filter fun e => decide (e.2 + 65535 * quantumPlies x.speed / 2 ≤ s.now + 1)).map (·.1)) (fun k s => s.force (execPauseResend p i k)) s

/-- The signals of the lanes are those of the ply (R143). -/
def State.sampleNow (s : State) : State := s.onDev fun d => { d with sampled := s.now }

/-- Links, pauses, adaptation windows and the end of holdover; the lanes' signals are sampled with the ply (R143). -/
def State.portsDue (s : State) : State :=
  let s := State.each (s.dev.ports.map (·.1)) (fun p s =>
    State.each [0, 1, 2, 3] (fun i s => s.pausesDue p i) (s.sampleLinks p)) s
  (s.settleWindowsOf.dropQueued.force execRefHoldoverEnd).sampleNow

/-! ### Packets -/

/-- Verdicts that have reached their port die are applied, deadlines pass, and packets become eligible for egress (R26, R164). -/
def State.packetsDue (s : State) : State :=
  let l := s.dev.traffic.packets.map (·.1)
  let s := State.each l (fun k s => s.force (execVerdictArrival k)) s
  let s := State.each l (fun k s => s.force (execDeadline k)) s
  State.each l (fun k s => s.force (execEgressEligible k)) s

/-- Verdict frames that are due (R166): a sub-port sends as many as its ready records make. -/
def State.verdictFramesDue (s : State) : State :=
  State.each s.dev.traffic.records (fun e s => State.each e.2 (fun _ s => s.force (execVerdictFrame (e.1 / 4) (e.1 % 4))) s) s

/-! ### Pages, sessions and rings -/

/-- Forced sets, event frames and suppressed frames of the ply (R65, R74, R75), and the messages that carry them (R112). -/
def State.eventsDue (s : State) : State :=
  let s := State.each (s.start.regs.hdr.map (·.1)) (fun p s => ((s.force (execForcedSet p)).force (execEventFrame p)).force (execHoldoffExpire p)) s
  State.each (s.dev.selid.sinks.flatMap fun e => e.2.map fun k => (e.1, k.sess)) (fun e s => s.force (execEvent e.1 e.2)) s

/-- Setup messages, half-open sessions, idle sessions and quenches whose time is over (R84, R92, R95, R109). -/
def State.selidDue (s : State) : State :=
  let s := s.force execSetupFragmentTimeout
  let s := State.each (s.dev.selid.halfOpen.map (·.num)) (fun n s => s.force (execHalfOpenExpire n)) s
  let s := State.each (s.dev.selid.sessions.map (·.num)) (fun n s => s.force (execSessionIdleTimeout n)) s
  (State.each (s.dev.selid.quench.map (·.1)) (fun q s => s.force (execQuenchExpire q)) s).settleWrites

/-- Items that are being written go on, flag falls and gap markers (R187, R190, R191). -/
def State.ringsDue (s : State) : State :=
  State.each (s.dev.objects.rings.map (·.1)) (fun n s =>
    let s := s.onRing n (Ring.writeOn s.now s.dev.objects.ringPace)
    (s.force (execFlagFall n)).force (execPendingGap n)) s

/-! ### The cores and the deep tier -/

/-- Pieces to loading pages, and claims that wait for one (R410). -/
def State.piecesDue (s : State) : State :=
  State.each s.dev.compute.cores (fun e s =>
    let s := (State.each (List.range e.2.pieces.length) (fun t s => s.force (execPieceRetry e.1 t)) s).tagWaits e.1
    State.each (e.2.ctxs.map (·.1)) (fun c s => s.force (execLoadingTimeout e.1 c)) s) s

/-- Barriers that have not released in time, and broken ones that open again (R379). -/
def State.barriersDue (s : State) : State :=
  State.each (s.dev.compute.barriers.map (·.1)) (fun k s => (s.force (execBarrierBreak (k / 1024) (k % 1024))).force (execBarrierReopen (k / 1024) (k % 1024))) s

/-- Expert batches that close, results that are missed, and tokens that reach their limit (R348, R349, R358). -/
def State.tokensDue (s : State) : State :=
  let s := State.each (s.dev.compute.expertQ.filterMap fun e => e.2.head?) (fun q s => s.force (execExpertBatchClose q.dm q.gen q.layer q.expert)) s
  let s := State.each (s.dev.compute.tokens.flatMap fun e => e.2.reqs.map fun q => (e.1, q.expert)) (fun e s => s.force (execExpertMissed e.1 e.2)) s
  State.each (s.dev.compute.tokens.map (·.1)) (fun k s => s.force (execTokenAbandoned k)) s

/-- Learning filters (R218). -/
def State.filtersDue (s : State) : State :=
  State.each (s.dev.flow.slices.map (·.1)) (fun c s => s.force (execPendingFilterExpire c)) s

/-! ### The pair and the background -/

/-- Heartbeats, checkpoints, resends and the roles of a pair (R511 to R523). -/
def State.pairDue (s : State) : State :=
  let s := ((s.yieldDue.force execHeartbeatSend).force execCheckpoint).force execMirrorResend
  ((s.force execStartingTimeout).force execHeartbeatMiss).castleDue.settleStore

/-- Telemetry items, replayed frames and late scrubs (R533, R538, R543). -/
def State.backgroundDue (s : State) : State := ((s.force execTelemetry).settleReplay).settleScrub

/-! ### The end of a ply -/

/-- What the core engines have left for the end of the ply. -/
def State.settleCores (s : State) : State :=
  let s := s.settleLoads.settleWindows.settleSteps.settleHostItems.settleSlots
  s.settleVaults.settleBatches.settleArrays.settleDogs.settleIntervals

/-- Failures, repairs and activations (R500 to R509). -/
def State.settleParts (s : State) : State := s.settleSpares.settleFailures.settleMaps

/-- What the control complex has left for the end of the ply. -/
def State.settleControl (s : State) : State :=
  (s.settleGens.settleDrains.greetTeam.greetPair.settleReseed.settleTree).onObjects fun o => { o with leaving := [] }

/-- Everything that is due at the end of a ply, in the order of log entry 143. -/
def State.endPly (s : State) : State :=
  let s := s.carry.packetsDue.settleFlow.filtersDue.settleCores
  let s := s.piecesDue.barriersDue.tokensDue.settleParts.settleTasks.settleWaits
  let s := s.portsDue.pairDue.backgroundDue.ringsDue
  s.selidDue.eventsDue.verdictFramesDue.settleControl

/-- What takes place as a ply begins (R46, R48, R95, R121, R503, R519, R552). -/
def State.beginPly (s : State) : State := s.refusePorts.endSessions.resyncNow.mirrorSwaps.mapOn.bootStep

/-- A ply as it ends: resets that fall due take place, and what a reset of the ply leaves stands against everything else (R51); else what is due takes
place. The items of the scoresheet leave last (R529). -/
def State.plyEnd (s : State) : State :=
  let s := ((s.force execDeviceResetDue).force execControlResetDue).settleReset
  if s.dev.live then (if s.resetNow then s else s.endPly).scoreFlush.settleRewinds else s.scoreFlush

/-- A ply ends and the next begins: what was sampled in the ply is then visible (R46, R48). -/
def State.tick (s : State) : State :=
  let s := s.plyEnd
  let s := { s with ply := s.ply + 1, start := s.dev }
  if s.dev.live then s.beginPly else s

end Sys2Proof.Machine
end

