-- ==== Sys2Proof/Machine/Dispatch.lean ====
section
/-! DEFINITION. The dispatch: one arm for each command, each one direct call of its meaning. -/
namespace Sys2Proof.Machine

/-- The effect of a command on everything but the queue. -/
def exec (i : Instr) (s : State) : Host.Outcome State Fault Refusal :=
  match i with
  | .frameStart port sub frame => Sys2Proof.Machine.execFrameStart port sub frame s
  | .frameTail port sub => Sys2Proof.Machine.execFrameTail port sub s
  | .headerVector packet => Sys2Proof.Machine.execHeaderVector packet s
  | .batchClose core chan gen => Sys2Proof.Machine.execBatchClose core chan gen s
  | .verdictArrival packet => Sys2Proof.Machine.execVerdictArrival packet s
  | .deadline packet => Sys2Proof.Machine.execDeadline packet s
  | .egressEligible packet => Sys2Proof.Machine.execEgressEligible packet s
  | .verdictFrame port sub => Sys2Proof.Machine.execVerdictFrame port sub s
  | .arpRequest port sub frame => Sys2Proof.Machine.execArpRequest port sub frame s
  | .neighbourSolicitation port sub frame => Sys2Proof.Machine.execNeighbourSolicitation port sub frame s
  | .pauseFrame port sub frame => Sys2Proof.Machine.execPauseFrame port sub frame s
  | .pfcFrame port sub frame => Sys2Proof.Machine.execPfcFrame port sub frame s
  | .pauseResend port sub key => Sys2Proof.Machine.execPauseResend port sub key s
  | .pfcStorm port sub prio => Sys2Proof.Machine.execPfcStorm port sub prio s
  | .linkDown port sub => Sys2Proof.Machine.execLinkDown port sub s
  | .linkUp port sub => Sys2Proof.Machine.execLinkUp port sub s
  | .laneFailure port lane => Sys2Proof.Machine.execLaneFailure port lane s
  | .refLoss => Sys2Proof.Machine.execRefLoss s
  | .refHoldoverEnd => Sys2Proof.Machine.execRefHoldoverEnd s
  | .refReturn => Sys2Proof.Machine.execRefReturn s
  | .hello port sub frame nor => Sys2Proof.Machine.execHello port sub frame nor s
  | .accept port sub frame => Sys2Proof.Machine.execAccept port sub frame s
  | .setupFragmentTimeout => Sys2Proof.Machine.execSetupFragmentTimeout s
  | .halfOpenExpire num => Sys2Proof.Machine.execHalfOpenExpire num s
  | .protectedFrame port sub frame => Sys2Proof.Machine.execProtected port sub frame s
  | .sessionIdleTimeout sess => Sys2Proof.Machine.execSessionIdleTimeout sess s
  | .echo sess => Sys2Proof.Machine.execEcho sess s
  | .close sess => Sys2Proof.Machine.execClose sess s
  | .readBatch sess => Sys2Proof.Machine.execReadBatch sess s
  | .readBlock sess => Sys2Proof.Machine.execReadBlock sess s
  | .writeBatch sess => Sys2Proof.Machine.execWriteBatch sess s
  | .registerWrite sess => Sys2Proof.Machine.execRegisterWrite sess s
  | .eventClear sess => Sys2Proof.Machine.execEventClear sess s
  | .eventMaskWrite sess => Sys2Proof.Machine.execEventMaskWrite sess s
  | .eventForce sess => Sys2Proof.Machine.execEventForce sess s
  | .forcedSet page => Sys2Proof.Machine.execForcedSet page s
  | .lockWrite sess => Sys2Proof.Machine.execLockWrite sess s
  | .eventFrame page => Sys2Proof.Machine.execEventFrame page s
  | .holdoffExpire page => Sys2Proof.Machine.execHoldoffExpire page s
  | .event set sess => Sys2Proof.Machine.execEvent set sess s
  | .portEnable sess => Sys2Proof.Machine.execPortEnable sess s
  | .portDisable sess => Sys2Proof.Machine.execPortDisable sess s
  | .counterClear sess => Sys2Proof.Machine.execCounterClear sess s
  | .readmit sess => Sys2Proof.Machine.execReadmit sess s
  | .learnAgentSwitch sess => Sys2Proof.Machine.execLearnAgentSwitch sess s
  | .deepEnWrite sess => Sys2Proof.Machine.execDeepEnWrite sess s
  | .resync sess => Sys2Proof.Machine.execResync sess s
  | .castle sess => Sys2Proof.Machine.execCastle sess s
  | .deviceReset sess => Sys2Proof.Machine.execDeviceReset sess s
  | .controlReset sess => Sys2Proof.Machine.execControlReset sess s
  | .channelCreate sess => Sys2Proof.Machine.execChannelCreate sess s
  | .channelDestroy sess => Sys2Proof.Machine.execChannelDestroy sess s
  | .channelDrained chan => Sys2Proof.Machine.execChannelDrained chan s
  | .tableSearch sess bad1 bad2 => Sys2Proof.Machine.execTableSearch sess bad1 bad2 s
  | .tableNext sess => Sys2Proof.Machine.execTableNext sess s
  | .tableFlush sess => Sys2Proof.Machine.execTableFlush sess s
  | .flushDone => Sys2Proof.Machine.execFlushDone s
  | .tableInsert sess => Sys2Proof.Machine.execTableInsert sess s
  | .tableDelete sess bad1 bad2 => Sys2Proof.Machine.execTableDelete sess bad1 bad2 s
  | .ringRead sess => Sys2Proof.Machine.execRingRead sess s
  | .ringAck sess => Sys2Proof.Machine.execRingAck sess s
  | .ringWrite sess => Sys2Proof.Machine.execRingWrite sess s
  | .ringFlush sess => Sys2Proof.Machine.execRingFlush sess s
  | .ringResign sess => Sys2Proof.Machine.execRingResign sess s
  | .ringMark sess => Sys2Proof.Machine.execRingMark sess s
  | .ringRewind sess => Sys2Proof.Machine.execRingRewind sess s
  | .flagFall ring => Sys2Proof.Machine.execFlagFall ring s
  | .pendingGap ring => Sys2Proof.Machine.execPendingGap ring s
  | .stageOpen sess => Sys2Proof.Machine.execStageOpen sess s
  | .stageData sess => Sys2Proof.Machine.execStageData sess s
  | .stageVerify sess => Sys2Proof.Machine.execStageVerify sess s
  | .stageSwap sess => Sys2Proof.Machine.execStageSwap sess s
  | .stageDiscard sess => Sys2Proof.Machine.execStageDiscard sess s
  | .genRetire deep target gen => Sys2Proof.Machine.execGenRetire deep target gen s
  | .quench sess => Sys2Proof.Machine.execQuench sess s
  | .unquench sess => Sys2Proof.Machine.execUnquench sess s
  | .quenchExpire qid => Sys2Proof.Machine.execQuenchExpire qid s
  | .scoreStart sess => Sys2Proof.Machine.execScoreStart sess s
  | .scoreStop sess => Sys2Proof.Machine.execScoreStop sess s
  | .replayStart sess => Sys2Proof.Machine.execReplayStart sess s
  | .replayStop sess => Sys2Proof.Machine.execReplayStop sess s
  | .replayInject index => Sys2Proof.Machine.execReplayInject index s
  | .replayEnd => Sys2Proof.Machine.execReplayEnd s
  | .sinkJoin sess => Sys2Proof.Machine.execSinkJoin sess s
  | .sinkLeave sess => Sys2Proof.Machine.execSinkLeave sess s
  | .attest sess nor => Sys2Proof.Machine.execAttest sess nor s
  | .enrol sess fail => Sys2Proof.Machine.execEnrol sess fail s
  | .registersBundle sess => Sys2Proof.Machine.execRegistersBundle sess s
  | .teamBundle sess => Sys2Proof.Machine.execTeamBundle sess s
  | .fwManifestBundle sess => Sys2Proof.Machine.execFwManifestBundle sess s
  | .fwDataBundle sess fail => Sys2Proof.Machine.execFwDataBundle sess fail s
  | .releaseBundle sess => Sys2Proof.Machine.execReleaseBundle sess s
  | .pairBundle sess => Sys2Proof.Machine.execPairBundle sess s
  | .pawnDispatch core ctx => Sys2Proof.Machine.execPawnDispatch core ctx s
  | .taskAdmit core ctx => Sys2Proof.Machine.execTaskAdmit core ctx s
  | .tableFetch core ctx stale fail => Sys2Proof.Machine.execTableFetch core ctx stale fail s
  | .endTask core ctx => Sys2Proof.Machine.execEnd core ctx s
  | .array core ctx => Sys2Proof.Machine.execArray core ctx s
  | .tree core ctx rows comps corrected => Sys2Proof.Machine.execTree core ctx rows comps corrected s
  | .front core ctx => Sys2Proof.Machine.execFront core ctx s
  | .lookup core ctx bad1 bad2 badState overflow => Sys2Proof.Machine.execLookup core ctx bad1 bad2 badState overflow s
  | .rescale core ctx => Sys2Proof.Machine.execRescale core ctx s
  | .mvec core ctx => Sys2Proof.Machine.execMvec core ctx s
  | .emitVerdict core ctx => Sys2Proof.Machine.execEmitVerdict core ctx s
  | .emitToken core ctx => Sys2Proof.Machine.execEmitToken core ctx s
  | .emitResult core ctx => Sys2Proof.Machine.execEmitResult core ctx s
  | .emitState core ctx bad => Sys2Proof.Machine.execEmitState core ctx bad s
  | .barrierWait core ctx => Sys2Proof.Machine.execBarrierWait core ctx s
  | .barrierArrive core ctx => Sys2Proof.Machine.execBarrierArrive core ctx s
  | .loopBegin core ctx => Sys2Proof.Machine.execLoop core ctx s
  | .loopNext core ctx => Sys2Proof.Machine.execNext core ctx s
  | .arm core ctx => Sys2Proof.Machine.execArm core ctx s
  | .rearm core ctx => Sys2Proof.Machine.execRearm core ctx s
  | .acquire core ctx => Sys2Proof.Machine.execAcquire core ctx s
  | .release core ctx => Sys2Proof.Machine.execRelease core ctx s
  | .flush core ctx => Sys2Proof.Machine.execFlush core ctx s
  | .streamClose core ctx => Sys2Proof.Machine.execStreamClose core ctx s
  | .pieceIssue core => Sys2Proof.Machine.execPieceIssue core s
  | .pieceComplete core tag err => Sys2Proof.Machine.execPieceComplete core tag err s
  | .writeAck core tag => Sys2Proof.Machine.execWriteAck core tag s
  | .pieceRetry core tag => Sys2Proof.Machine.execPieceRetry core tag s
  | .loadingTimeout core ctx => Sys2Proof.Machine.execLoadingTimeout core ctx s
  | .peerSend core => Sys2Proof.Machine.execPeerSend core s
  | .adjournment core ctx tiles => Sys2Proof.Machine.execAdjournment core ctx tiles s
  | .cancel core ctx => Sys2Proof.Machine.execCancel core ctx s
  | .abort core ctx => Sys2Proof.Machine.execAbort core ctx s
  | .watchdog core ctx => Sys2Proof.Machine.execWatchdog core ctx s
  | .issueStall core => Sys2Proof.Machine.execIssueStall core s
  | .barrierBreak die number => Sys2Proof.Machine.execBarrierBreak die number s
  | .barrierReopen die number => Sys2Proof.Machine.execBarrierReopen die number s
  | .pendingFilterExpire core => Sys2Proof.Machine.execPendingFilterExpire core s
  | .learningInsertion die => Sys2Proof.Machine.execLearningInsertion die s
  | .relocationMove core => Sys2Proof.Machine.execRelocationMove core s
  | .stashMove core => Sys2Proof.Machine.execStashMove core s
  | .scanVisit direct unit pos => Sys2Proof.Machine.execScanVisit direct unit pos s
  | .hostFeatureItem chan => Sys2Proof.Machine.execHostFeatureItem chan s
  | .hostSlotApply => Sys2Proof.Machine.execHostSlotApply s
  | .featureWindowEnd core chan gen => Sys2Proof.Machine.execFeatureWindowEnd core chan gen s
  | .rescaleStepEnd core deep target gen scale => Sys2Proof.Machine.execRescaleStepEnd core deep target gen scale s
  | .expertRequest index => Sys2Proof.Machine.execExpertRequest index s
  | .expertBatchClose dm gen layer expert => Sys2Proof.Machine.execExpertBatchClose dm gen layer expert s
  | .expertResult index => Sys2Proof.Machine.execExpertResult index s
  | .expertMissed token expert => Sys2Proof.Machine.execExpertMissed token expert s
  | .tokenAbandoned token => Sys2Proof.Machine.execTokenAbandoned token s
  | .teamData port frame => Sys2Proof.Machine.execTeamData port frame s
  | .teamCredit port frame => Sys2Proof.Machine.execTeamCredit port frame s
  | .governorInterval die logic dram watts pkg port0 port1 => Sys2Proof.Machine.execGovernorInterval die logic dram watts pkg port0 port1 s
  | .speedReport site step => Sys2Proof.Machine.execSpeedReport site step s
  | .thermalTrip kind die site reading => Sys2Proof.Machine.execThermalTrip kind die site reading s
  | .railFault rail => Sys2Proof.Machine.execRailFault rail s
  | .coreFailure core cause => Sys2Proof.Machine.execCoreFailure core cause s
  | .selfTest site pass => Sys2Proof.Machine.execSelfTest site pass s
  | .spareActivation die => Sys2Proof.Machine.execSpareActivation die s
  | .amRemap core quarter kind index => Sys2Proof.Machine.execAmRemap core quarter kind index s
  | .vaultRemap site row pages => Sys2Proof.Machine.execVaultRemap site row pages s
  | .cpStopped stop => Sys2Proof.Machine.execCpStopped stop s
  | .heartbeatSend => Sys2Proof.Machine.execHeartbeatSend s
  | .heartbeat port frame => Sys2Proof.Machine.execHeartbeat port frame s
  | .startingTimeout => Sys2Proof.Machine.execStartingTimeout s
  | .heartbeatMiss => Sys2Proof.Machine.execHeartbeatMiss s
  | .mirror port frame => Sys2Proof.Machine.execMirror port frame s
  | .mirrorCredit port frame => Sys2Proof.Machine.execMirrorCredit port frame s
  | .mirrorResend => Sys2Proof.Machine.execMirrorResend s
  | .checkpoint => Sys2Proof.Machine.execCheckpoint s
  | .adoptExpire index => Sys2Proof.Machine.execAdoptExpire index s
  | .dramScrub site err pages => Sys2Proof.Machine.execDramScrub site err pages s
  | .amScrub core quarter kind index result => Sys2Proof.Machine.execAmScrub core quarter kind index result s
  | .calibration core step => Sys2Proof.Machine.execCalibration core step s
  | .adaptation port lane ber => Sys2Proof.Machine.execAdaptation port lane ber s
  | .wearMove die => Sys2Proof.Machine.execWearMove die s
  | .amRotation core quarter index => Sys2Proof.Machine.execAmRotation core quarter index s
  | .telemetry => Sys2Proof.Machine.execTelemetry s
  | .drbgReseed => Sys2Proof.Machine.execDrbgReseed s
  | .entropyFail => Sys2Proof.Machine.execEntropyFail s
  | .treeReady => Sys2Proof.Machine.execTreeReady s
  | .bypass data => Sys2Proof.Machine.execBypass data s
  | .idcode => Sys2Proof.Machine.execIdcode s
  | .samplePreload data => Sys2Proof.Machine.execSamplePreload data s
  | .extest data => Sys2Proof.Machine.execExtest data s
  | .scan data => Sys2Proof.Machine.execScan data s
  | .ownerClear data => Sys2Proof.Machine.execOwnerClear data s
  | .powerOnReset => Sys2Proof.Machine.execPowerOnReset s
  | .pinReset => Sys2Proof.Machine.execPinReset s
  | .deviceResetDue => Sys2Proof.Machine.execDeviceResetDue s
  | .controlResetDue => Sys2Proof.Machine.execControlResetDue s
  | .controlWatchdog => Sys2Proof.Machine.execControlWatchdog s
  | .ready bad untrained => Sys2Proof.Machine.execReady bad untrained s
  | .controlRestartReady => Sys2Proof.Machine.execControlRestartReady s
  | .smbStatus => Sys2Proof.Machine.execSmbStatus s
  | .smbPhase => Sys2Proof.Machine.execSmbPhase s
  | .smbLifecycle => Sys2Proof.Machine.execSmbLifecycle s
  | .smbStages => Sys2Proof.Machine.execSmbStages s
  | .smbRailFault => Sys2Proof.Machine.execSmbRailFault s
  | .smbLogicTemp die => Sys2Proof.Machine.execSmbLogicTemp die s
  | .smbDramTemp die => Sys2Proof.Machine.execSmbDramTemp die s
  | .smbPortTemp die => Sys2Proof.Machine.execSmbPortTemp die s
  | .smbPower => Sys2Proof.Machine.execSmbPower s
  | .smbVcore die => Sys2Proof.Machine.execSmbVcore die s
  | .smbSerial => Sys2Proof.Machine.execSmbSerial s
  | .smbRefused => Sys2Proof.Machine.execSmbRefused s
  | .smbAlertResponse => Sys2Proof.Machine.execSmbAlertResponse s
  | .pwrGoodFall => Sys2Proof.Machine.execPwrGoodFall s
  | .resetNRelease => Sys2Proof.Machine.execResetNRelease s
  | .bootFailure kind => Sys2Proof.Machine.execBootFailure kind s
  | .frameTransmit port sub => Sys2Proof.Machine.execFrameTransmit port sub s
  | .pauseQuantaExpire port sub => Sys2Proof.Machine.execPauseQuantaExpire port sub s
  | .setupFragment port sub frame => Sys2Proof.Machine.execSetupFragment port sub frame s
  | .rxDiscard port sub frame => Sys2Proof.Machine.execRxDiscard port sub frame s
  | .verificationEnd stage => Sys2Proof.Machine.execVerificationEnd stage s
  | .flushSweepVisit unit pos => Sys2Proof.Machine.execFlushSweepVisit unit pos s
  | .mirrorStoreSweep index => Sys2Proof.Machine.execMirrorStoreSweep index s
  | .arrayFault core ctx kind arr region => Sys2Proof.Machine.execArrayFault core ctx kind arr region s

end Sys2Proof.Machine
end

