-- ==== Sys2Proof/Safety.lean ====
section
/-! DEFINITION. What a safe run is: every step answers a next state. The manual gives every command an effect, so nothing stops the block; in a
state where the condition of a command does not hold (a device held in reset, tripped or waiting for a reset among them), the command changes
nothing. -/
namespace Sys2Proof.Machine

/-- The outcome is a next state. -/
def Goes (o : Host.Outcome State Fault Refusal) : Prop := ∃ t, o = .next t

/-- A step from this state answers a next state. -/
def SafeStep (s : State) : Prop := Goes (step s)

/-- The register tables are in canonical form: page headers, writable registers and counters listed in rising order, none at the value that an
unlisted one reads as. -/
def Regs.canonical (r : Regs) : Bool := Table.canon PageHdr.reset r.hdr && Table.canon regReset r.rw && Table.wf 0 r.ctr

/-- The tables of sub-ports and lanes of a port are in canonical form. -/
def Port.wf (q : Port) : Bool := Table.wf {} q.subs && Table.wf {} q.lanes

/-- The tables of the ports are in canonical form. -/
def portsWf (t : Table Port) : Bool := Table.wf {} t && t.all fun e => e.2.wf

/-- The table of the cores is in canonical form. -/
def coresWf (t : Table CoreState) : Bool := Table.wf {} t

/-- The registers, the state memory of the vaults, the ports and the cores are in canonical form. -/
def Dev.canonical (d : Dev) : Bool := d.regs.canonical && (Memory.wf d.flow.stateMem && (portsWf d.ports && coresWf d.compute.cores))

/-- The same of the device and of what the reads of the ply see. -/
def State.canonical (s : State) : Bool := s.dev.canonical && s.start.canonical

/-- A page whose lock is sealed, now and at the start of the ply (R67, R69). -/
abbrev State.sealedAt (page : Nat) (s : State) : Prop := (s.start.hdr page).lock = .sealed ∧ (s.dev.hdr page).lock = .sealed

/-- The parts of the device that a claim about what a command leaves alone speaks of. -/
inductive Part where
  /-- The header registers of the pages, their writable registers, their counters, the sampled high halves, and the arbiters' records. -/
  | headers | registers | counters | latches | arbiter
  /-- Selid, the ports, the reference clock, the packets and frames in flight, the links between the dies, and channels, rings and staging. -/
  | selid | ports | ref | traffic | net | objects
  /-- The flow tables, and the state memory of the vaults, byte by byte. -/
  | flow | stateMem
  /-- Cores and streams, power, the security unit, team, pair, cores and spares, the scoresheet, background work, start-up. -/
  | compute | power | sec | team | pair | reliab | score | back | startUp
  /-- What has left the device, and the counts of draws and of open values. -/
  | out | draws
  deriving DecidableEq, Repr

/-- Is a part the same in two devices? -/
def Part.Same (p : Part) (d e : Dev) : Prop := match p with
  | .headers => d.regs.hdr = e.regs.hdr
  | .registers => d.regs.rw = e.regs.rw
  | .counters => d.regs.ctr = e.regs.ctr
  | .latches => d.regs.latch = e.regs.latch
  | .arbiter => d.regs.etherPly = e.regs.etherPly ∧ d.regs.lastReset = e.regs.lastReset
  | .selid => d.selid = e.selid
  | .ports => d.ports = e.ports ∧ d.sampled = e.sampled
  | .ref => d.ref = e.ref
  | .traffic => d.traffic = e.traffic
  | .net => d.net = e.net
  | .objects => d.objects = e.objects
  | .flow => { d.flow with stateMem := [] } = { e.flow with stateMem := [] }
  | .stateMem => d.flow.stateMem = e.flow.stateMem
  | .compute => d.compute = e.compute
  | .power => d.power = e.power
  | .sec => d.sec = e.sec
  | .team => d.team = e.team
  | .pair => d.pair = e.pair
  | .reliab => d.reliab = e.reliab
  | .score => d.score = e.score
  | .back => d.back = e.back
  | .startUp => d.startUp = e.startUp
  | .out => d.out = e.out
  | .draws => d.draws = e.draws ∧ d.opens = e.opens

/-- The two states differ in nothing but these parts of the device: not in the queue, the ply, or what the reads of the ply see. -/
def Within (l : List Part) (s t : State) : Prop :=
  t.pending = s.pending ∧ t.ply = s.ply ∧ t.start = s.start ∧ ∀ p : Part, p ∉ l → p.Same s.dev t.dev

/-- Is this bit of a page's EVENT register 1 (R63)? -/
abbrev State.raised (s : State) (page b : Nat) : Prop := (s.dev.hdr page).event.getLsbD b = true

/-- A frame has set out from the control complex for a sub-port (R15, R131, R132, R143): on port die 0 it has been sent, or waits behind received
PAUSE or PFC; to port die 1 it is on its way. -/
def State.sent (s t : State) (port sub len : Nat) (o : Out) : Prop :=
  (portDie port = 0 →
    (s.mustWait port sub o = false → s.subUp port sub = true → t.dev.out = s.dev.out ++ [if s.loops port then .looped port sub o.wire else o]) ∧
    (s.mustWait port sub o = true → t.dev.traffic.waiting = s.dev.traffic.waiting ++ [{ port, sub, len, out := o }])) ∧
  (portDie port ≠ 0 → t.dev.net.flits = s.dev.net.flits ++
    [{ cls := clsControl, order := 0, die := 4, route := dieRoute 4 (portDieNo port), ready := s.now, bytes := len
       cargo := .send { port, sub, len, out := o } }])

/-- The newest kept response of session `n` answers the command `c` with this status, detail and body (R98 to R100). -/
def State.answered (t : State) (n : Nat) (c : Cmd) (status detail : Nat) (body : Bytes) : Prop :=
  ∃ y, t.session? n = some y ∧
    y.done.head? = some { opcode := c.opcode, tag := c.tag, hash := Config.sha256 c.body, status := status, detail := detail, body := body }

/-- The write `w` stands next in the batch of session `n`, and nothing keeps it from being performed in this ply: its page exists, has had no
write in the ply, is locked against no such write, and is no block register of a core site that is not in use (R50, R51, R57, R70, R77, R579). -/
abbrev State.writeLands (s : State) (n : Nat) (w : BatchWrite) : Prop :=
  s.headWrite n = some w ∧ s.dev.reliab.stopped ≠ 255 ∧ s.batchWaits n = false ∧ w.addr % 4 = 0 ∧ (pageKind (w.addr / 65536)).isSome = true ∧ (s.hdr (w.addr / 65536)).writePly ≠ some s.now ∧
  (etherWrite w = true → s.dev.regs.etherPly ≠ some s.now) ∧ s.start.mappingSite (w.addr / 65536) (w.addr % 65536) = false ∧
  s.start.inactiveSite (w.addr / 65536) (w.addr % 65536) = false ∧ s.siteResetNow (w.addr / 65536) = false ∧
  lockAllows (s.start.hdr (w.addr / 65536)).lock (s.start.hdr (w.addr / 65536)).owner n (w.addr % 65536) = true

/-- The write `w` stands next in the batch of session `n`, and its page's arbiter samples it in this ply: its page has had no write in the ply, it is
no second write of R579 in it, and no site of its page is being mapped in (R50, R77, R579). -/
abbrev State.writeNext (s : State) (n : Nat) (w : BatchWrite) : Prop :=
  s.headWrite n = some w ∧ s.dev.reliab.stopped ≠ 255 ∧ s.batchWaits n = false ∧ (s.hdr (w.addr / 65536)).writePly ≠ some s.now ∧ (etherWrite w = true → s.dev.regs.etherPly ≠ some s.now) ∧
  (w.addr % 4 = 0 → s.start.mappingSite (w.addr / 65536) (w.addr % 65536) = false)

/-- Session `sess` may run a ring command with this opcode on ring `n` now: the handle of its body is current, the ring has had no command in
the ply, and it is no learn ring in the hands of the device's agent (R173, R183, R196, R221). -/
abbrev State.ringReady (s : State) (sess op n : Nat) (x : Session) (c : Cmd) : Prop :=
  s.ready sess op = some (x, c) ∧ s.dev.ringOf (Bytes.le c.body 0 4) = some n ∧ (s.ring n).cmdPly ≠ some s.now ∧ s.dev.learnBusy n = false

/-- A ring as a host command finds it: marked as having had its command of the ply (R196). -/
def State.ringNow (s : State) (n : Nat) : Ring := { s.ring n with cmdPly := some s.now }

/-! ### What claims about single commands speak of -/

/-- What the parser reads of a whole frame `f` without its FCS that arrives on a port of an inline pair (R146, R147, R160). -/
def State.inlineParse (s : State) (port : Nat) (f : Bytes) : Parse :=
  parseFrame
    { bytes := f
      last := f.length
      depth := 8 * (s.start.pairCfg port % 128)
      tunnels := bits (s.start.pairCfg port) 13 12
      vxlan := s.start.rg (parserPage (portDie port)) 0x44 % 65536
      geneve := s.start.rg (parserPage (portDie port)) 0x44 / 65536
      gtpu := s.start.rg (parserPage (portDie port)) 0x48 % 65536 }

/-- A frame without a shim starts on a line port that is up, whose pair is inline with its way out open, and it is neither session traffic nor a
control frame (R125, R132, R145, R162); the parser sets no flag that drops it, and the buffer admits it (R135, R170). -/
abbrev State.framePasses (s : State) (port sub : Nat) (f : Bytes) : Prop :=
  isLine port = true ∧ s.hears port sub f = true ∧ ((s.start.port port).subp sub).up = true ∧ Table.get? s.dev.traffic.rx (port * 4 + sub) = none ∧
  s.start.recognise port sub f = none ∧ s.start.arpFor (portDie port) f = none ∧ s.start.solicitFor (portDie port) f = none ∧
  Bytes.be f (skipTags f 12 4) 2 ≠ 0x8808 ∧ s.start.pairMode port = 1 ∧ s.start.wayOut port sub = true ∧
  kwagenShim (s.start.shimEtype port) (f.take (f.length - 4)) = false ∧
  (∀ i, i < 16 → bit (s.inlineParse port (f.take (f.length - 4))).exc i = true → bit (s.start.pairCfg port / 65536) i = false) ∧
  s.dev.admits port (bits (s.start.rg (pageOf tPort port) 0x40) 29 16) = true

/-- Context `t` of core `c`, as `x`, issues its next entry `e` in this ply, its turn in the order of issue, and the entry's energy is granted (R31,
R368, R369, R377, R450): `g` is the state with the energy charged. -/
abbrev State.mayIssue (s : State) (c t op : Nat) (x : Ctx) (e : Entry) (g : State) : Prop :=
  s.ctx c t = x ∧ s.dev.entryOf x = some e ∧ s.turn c t = true ∧ s.canIssue c x = true ∧ (s.dev.core c).entryFree t e = true ∧ e.op = op ∧ s.grant c x.task.cls e.energy = some g

/-- The same of a context of which no STREAM entry has issued ahead (R370): it goes on to the entry that follows. -/
abbrev State.issues (s : State) (c t op : Nat) (x : Ctx) (e : Entry) (g : State) : Prop := s.mayIssue c t op x e g ∧ x.ahead = 0

/-- All writes of a context are done and acknowledged, at the start of the ply too (R378, R411). -/
abbrev State.writesDone (s : State) (c t : Nat) : Prop := (s.dev.core c).written t = true ∧ (s.start.core c).written t = true

/-- The accumulators after the whole array pass of slot `i` of the layer at `a`, column tile `j`, on array `arr` (R290, R314). -/
def State.arrayAcc (s : State) (core : Nat) (x : Ctx) (i a j arr : Nat) : List Int :=
  let l := s.dev.layerAt core x a
  let rd := s.start.reader core x
  let first : Pass := { acc := List.replicate i [] ++ [l.starts rd (l.channels j)] }
  (l.passTiles rd j arr [(i, s.dev.passInput core x i a j l)] (List.range l.tiles) first).acc.getD i []

/-- The same on the matrix-vector path (R321). -/
def State.mvecAcc (s : State) (core : Nat) (x : Ctx) (i a j : Nat) : List Int :=
  let l := s.dev.layerAt core x a
  let rd := s.start.reader core x
  (l.streamed rd (s.dev.passInput core x i a j l) j (l.starts rd (l.channels j))).1

/-- The outputs that accumulators of the layer at `a`, column tile `j`, give a task that is no token's and no expert batch's (R293, R317). -/
def State.passOut (s : State) (core : Nat) (x : Ctx) (a j : Nat) (acc : List Int) : Vec :=
  let l := s.dev.layerAt core x a
  if l.ofmt = 2 then { raw := acc }
  else (s.narrow core (x.genOf s.dev) l (decide (l.ofmt = 1)) false (s.dev.scaleReader core x) (l.channels j) acc).2

/-- What is left of an entry that is removed (R207, R227, R228, R338). -/
def entryRemoved (e : Bytes) : Bytes := sealEntry (eFlag 12 false (if ePromoted e then Bytes.patch (eFlag 13 false e) 60 [0, 0] else e))

/-- A table command on one key that nothing in its frame refuses, for channel slot `n` (R230, R231, R584). -/
abbrev State.tableReady (s : State) (sess op len n : Nat) (x : Session) (c : Cmd) : Prop :=
  s.ready sess op = some (x, c) ∧ c.body.length = len ∧ Bytes.le c.body 1 3 = 0 ∧ Bytes.at c.body 0 ≤ 1 ∧
  s.chanOf (Bytes.le c.body 4 4) = some n ∧ (Bytes.at c.body 0 = 1 ↔ (s.dev.chan n).keyKind = 2)

/-- A location whose position or tag fits its table (R203, R232). -/
def Loc.inRange (l : Loc) : Bool := match l with
  | .exact _ p => decide (p < 524288)
  | .direct _ t => decide (t < 1048576)

/-- A staging command of a session, on a device that is no standby (R424, R520). -/
abbrev State.stageReady (s : State) (sess op : Nat) (x : Session) (c : Cmd) : Prop :=
  s.ready sess op = some (x, c) ∧ s.dev.pair.role ≠ .standby

/-- A BUNDLE_APPLY of a session, on an owned device, whose bundle has the given KIND (R483, R484). -/
abbrev State.bundleReady (s : State) (sess k : Nat) (x : Session) (c : Cmd) : Prop :=
  s.ready sess 0x92 = some (x, c) ∧ 72 ≤ c.body.length ∧ bKind (c.body.drop 4) = k ∧ s.dev.sec.nvm.lifecycle ≠ 0

/-- Every part. -/
def Part.all : List Part :=
  [.headers, .registers, .counters, .latches, .arbiter, .selid, .ports, .ref, .traffic, .net, .objects, .flow, .stateMem, .compute, .power, .sec, .team,
   .pair, .reliab, .score, .back, .startUp, .out, .draws]

/-- The commands that may reset the whole device, which begins anew (R547, R565): they alone may change the ply or what the reads of the ply see. -/
def resetsDevice (i : Instr) : Bool := match i with
  | .pwrGoodFall | .powerOnReset | .pinReset | .resetNRelease | .deviceResetDue | .controlResetDue => true
  | _ => false

/-- The parts that a command may change. -/
def footprint (i : Instr) : List Part := match i with
  | .frameStart .. =>
    [.headers, .counters, .selid, .ports, .traffic, .net, .objects, .compute, .score, .out]
  | .frameTail .. | .egressEligible .. | .verdictFrame .. | .frameTransmit .. =>
    [.counters, .ports, .traffic, .out]
  | .headerVector .. =>
    [.headers, .counters, .traffic, .net, .compute, .score]
  | .batchClose .. =>
    [.counters, .traffic, .compute]
  | .verdictArrival .. | .deadline .. =>
    [.headers, .counters, .traffic, .net, .objects, .compute, .score]
  | .arpRequest .. | .neighbourSolicitation .. | .event .. =>
    [.counters, .selid, .ports, .traffic, .net, .out]
  | .pauseFrame .. | .pfcFrame .. =>
    [.counters, .ports]
  | .pauseResend .. =>
    [.counters, .ports, .out]
  | .pfcStorm .. | .linkDown .. | .laneFailure .. =>
    [.headers, .ports, .score]
  | .linkUp .. =>
    [.headers, .counters, .ports, .traffic, .net, .team, .pair, .score, .out]
  | .refLoss =>
    [.headers, .ref, .score]
  | .refHoldoverEnd | .refReturn =>
    [.headers, .ports, .ref, .score]
  | .hello .. =>
    [.headers, .counters, .selid, .ports, .traffic, .net, .sec, .score, .out, .draws]
  | .accept .. =>
    [.headers, .counters, .selid, .ports, .traffic, .net, .objects, .sec, .out]
  | .setupFragmentTimeout | .halfOpenExpire .. | .quenchExpire .. =>
    [.selid]
  | .protectedFrame .. | .echo .. | .writeBatch .. | .tableNext .. | .quench .. | .unquench .. | .scoreStop .. | .sinkJoin ..
  | .sinkLeave .. =>
    [.counters, .selid, .ports, .traffic, .net, .score, .out]
  | .sessionIdleTimeout .. =>
    [.headers, .counters, .selid, .objects, .sec]
  | .close .. | .enrol .. =>
    [.headers, .counters, .selid, .ports, .traffic, .net, .objects, .sec, .score, .out]
  | .readBatch .. | .readBlock .. =>
    [.counters, .latches, .selid, .ports, .traffic, .net, .score, .out]
  | .registerWrite .. | .eventClear .. | .eventMaskWrite .. | .eventForce .. | .lockWrite .. | .portEnable .. | .portDisable ..
  | .counterClear .. | .readmit .. | .learnAgentSwitch .. | .deepEnWrite .. | .resync .. | .deviceReset .. =>
    [.headers, .registers, .counters, .arbiter, .selid, .ports, .traffic, .net, .pair, .score, .startUp, .out]
  | .forcedSet .. | .replayEnd =>
    [.headers, .score]
  | .eventFrame .. | .holdoffExpire .. =>
    [.headers, .counters, .selid, .score]
  | .castle .. =>
    [.headers, .registers, .counters, .arbiter, .selid, .ports, .traffic, .net, .objects, .flow, .pair, .score, .startUp, .out]
  | .controlReset .. =>
    [.headers, .registers, .counters, .latches, .arbiter, .selid, .ports, .traffic, .net, .objects, .sec, .team, .pair, .reliab, .score, .startUp, .out]
  | .channelCreate .. =>
    [.registers, .counters, .selid, .ports, .traffic, .net, .objects, .compute, .pair, .score, .out]
  | .channelDestroy .. =>
    [.counters, .selid, .ports, .traffic, .net, .objects, .pair, .score, .out]
  | .channelDrained .. =>
    [.headers, .registers, .counters, .objects, .compute, .score]
  | .tableSearch .. =>
    [.headers, .counters, .selid, .ports, .traffic, .net, .power, .reliab, .score, .out]
  | .tableFlush .. | .tableInsert .. =>
    [.counters, .selid, .ports, .traffic, .net, .flow, .score, .out]
  | .flushDone =>
    [.headers, .counters, .selid, .ports, .traffic, .net, .flow, .score, .out]
  | .tableDelete .. =>
    [.headers, .counters, .selid, .ports, .traffic, .net, .flow, .compute, .power, .pair, .reliab, .score, .out]
  | .ringRead .. | .ringAck .. | .ringWrite .. | .ringFlush .. | .ringResign .. | .ringMark .. | .ringRewind .. | .stageOpen ..
  | .stageData .. | .stageVerify .. | .stageDiscard .. =>
    [.counters, .selid, .ports, .traffic, .net, .objects, .score, .out]
  | .flagFall .. | .pendingGap .. =>
    [.headers, .objects, .score]
  | .stageSwap .. =>
    [.headers, .registers, .counters, .selid, .ports, .traffic, .net, .objects, .compute, .pair, .score, .out]
  | .genRetire .. =>
    [.headers, .counters, .objects, .compute, .score]
  | .scoreStart .. | .replayStart .. =>
    [.registers, .counters, .selid, .ports, .traffic, .net, .objects, .score, .out]
  | .replayStop .. =>
    [.headers, .counters, .selid, .ports, .traffic, .net, .score, .out]
  | .replayInject .. =>
    [.headers, .counters, .ports, .traffic, .net, .objects, .compute, .score, .out]
  | .attest .. | .registersBundle .. | .fwManifestBundle .. | .fwDataBundle .. | .releaseBundle .. =>
    [.headers, .counters, .selid, .ports, .traffic, .net, .sec, .score, .out]
  | .teamBundle .. =>
    [.headers, .counters, .selid, .ports, .traffic, .net, .sec, .team, .score, .out]
  | .pairBundle .. =>
    [.headers, .counters, .selid, .ports, .traffic, .net, .sec, .pair, .score, .out]
  | .pawnDispatch .. =>
    [.counters, .traffic, .compute, .draws]
  | .taskAdmit .. =>
    [.headers, .registers, .counters, .stateMem, .compute, .score, .draws]
  | .tableFetch .. | .barrierBreak .. | .expertMissed .. =>
    [.headers, .counters, .compute, .score]
  | .endTask .. | .array .. | .acquire .. | .flush .. | .streamClose .. =>
    [.headers, .registers, .counters, .compute, .power, .score]
  | .tree .. =>
    [.headers, .counters, .flow, .compute, .power, .reliab, .score]
  | .front .. | .mvec .. | .loopBegin .. | .loopNext .. | .arm .. | .rearm .. | .release .. =>
    [.counters, .compute, .power]
  | .lookup .. =>
    [.headers, .counters, .ports, .traffic, .net, .objects, .flow, .stateMem, .compute, .power, .pair, .reliab, .score, .out]
  | .rescale .. | .barrierWait .. | .barrierArrive .. | .adjournment .. | .calibration .. =>
    [.headers, .counters, .compute, .power, .score]
  | .emitVerdict .. =>
    [.counters, .traffic, .net, .compute, .power]
  | .emitToken .. =>
    [.headers, .counters, .net, .compute, .power, .score]
  | .emitResult .. =>
    [.counters, .net, .compute, .power]
  | .emitState .. =>
    [.counters, .flow, .compute, .power]
  | .pieceIssue .. | .writeAck .. =>
    [.counters, .traffic, .net, .objects, .stateMem, .compute]
  | .pieceComplete .. =>
    [.headers, .registers, .counters, .net, .compute, .power, .reliab, .score]
  | .pieceRetry .. =>
    [.counters, .net, .compute]
  | .loadingTimeout .. | .arrayFault .. =>
    [.headers, .registers, .counters, .compute, .score]
  | .peerSend .. | .teamData .. =>
    [.headers, .counters, .ports, .traffic, .net, .compute, .team, .score, .out]
  | .cancel .. | .watchdog .. | .issueStall .. | .barrierReopen .. | .featureWindowEnd .. | .rescaleStepEnd .. | .expertRequest .. =>
    [.compute]
  | .abort .. =>
    [.headers, .registers, .counters, .traffic, .stateMem, .compute, .score]
  | .pendingFilterExpire .. | .learningInsertion .. | .relocationMove .. | .stashMove .. | .scanVisit .. =>
    [.flow]
  | .hostFeatureItem .. =>
    [.headers, .registers, .counters, .net, .objects, .compute, .score]
  | .hostSlotApply | .expertBatchClose .. | .expertResult .. =>
    [.counters, .compute]
  | .tokenAbandoned .. =>
    [.headers, .counters, .stateMem, .compute, .score]
  | .teamCredit .. =>
    [.headers, .counters, .ports, .team, .score]
  | .governorInterval .. =>
    [.headers, .counters, .traffic, .compute, .power, .reliab, .score]
  | .speedReport .. =>
    [.headers, .compute, .power, .score]
  | .thermalTrip .. | .railFault .. =>
    [.headers, .ports, .power, .score]
  | .coreFailure .. =>
    [.headers, .registers, .counters, .selid, .ports, .traffic, .net, .objects, .flow, .stateMem, .compute, .pair, .reliab, .score, .out]
  | .selfTest .. =>
    [.headers, .registers, .counters, .latches, .selid, .ports, .traffic, .net, .objects, .flow, .stateMem, .compute, .pair, .reliab, .score, .out]
  | .spareActivation .. =>
    [.reliab]
  | .amRemap .. | .vaultRemap .. =>
    [.headers, .counters, .compute, .reliab, .score]
  | .cpStopped .. =>
    [.headers, .counters, .selid, .objects, .sec, .reliab, .score]
  | .heartbeatSend | .mirrorCredit .. | .mirrorResend | .checkpoint =>
    [.counters, .ports, .traffic, .net, .pair, .out]
  | .heartbeat .. =>
    [.headers, .counters, .ports, .traffic, .net, .flow, .compute, .pair, .score, .out]
  | .startingTimeout | .heartbeatMiss =>
    [.pair]
  | .mirror .. =>
    [.headers, .registers, .counters, .selid, .ports, .traffic, .net, .objects, .flow, .stateMem, .compute, .pair, .score, .out]
  | .adoptExpire .. =>
    [.counters, .flow, .pair]
  | .dramScrub .. =>
    [.headers, .registers, .counters, .compute, .power, .reliab, .score, .back]
  | .amScrub .. =>
    [.headers, .counters, .reliab, .score]
  | .adaptation .. | .pauseQuantaExpire .. =>
    [.ports]
  | .wearMove .. =>
    [.headers, .counters, .reliab, .score, .back]
  | .amRotation .. =>
    [.counters, .back]
  | .telemetry =>
    [.headers, .counters, .objects, .compute, .power, .score, .back]
  | .drbgReseed =>
    [.registers, .sec, .draws]
  | .entropyFail | .treeReady =>
    [.headers, .sec, .score]
  | .bypass .. | .idcode =>
    [.sec, .out]
  | .samplePreload .. | .extest .. =>
    [.sec, .out, .draws]
  | .scan .. =>
    [.traffic, .compute, .sec, .out, .draws]
  | .ownerClear .. =>
    [.sec, .startUp, .out]
  | .powerOnReset | .pinReset | .deviceResetDue | .controlResetDue | .pwrGoodFall | .resetNRelease =>
    Part.all
  | .controlWatchdog =>
    [.headers, .registers, .counters, .latches, .arbiter, .selid, .objects, .sec, .team, .pair, .reliab, .score, .startUp]
  | .ready .. =>
    [.headers, .registers, .counters, .ports, .objects, .flow, .sec, .pair, .reliab, .score, .back, .startUp, .draws]
  | .controlRestartReady =>
    [.headers, .sec, .score, .startUp]
  | .smbStatus | .smbPhase | .smbLifecycle | .smbStages | .smbRailFault | .smbLogicTemp .. | .smbDramTemp .. | .smbPortTemp .. | .smbPower
  | .smbVcore .. | .smbSerial | .smbRefused | .smbAlertResponse =>
    [.out]
  | .bootFailure .. =>
    [.power]
  | .setupFragment .. | .rxDiscard .. =>
    [.counters, .selid, .ports, .net]
  | .verificationEnd .. =>
    [.headers, .counters, .selid, .ports, .traffic, .net, .objects, .compute, .pair, .score, .out]
  | .flushSweepVisit .. =>
    [.counters, .ports, .traffic, .net, .flow, .compute, .pair, .score, .out]
  | .mirrorStoreSweep .. =>
    [.counters, .flow, .compute, .pair]

end Sys2Proof.Machine
end

