-- ==== Sys2Proof/Certificates/Slice0/Obligations.lean ====
section
/-! DEFINITION. The statements for the provers, by family of commands. -/

open Sys2Proof Sys2Proof.Machine

/-! ### Every step -/

/-- Every command is taken from the front of the queue and has its own effect, with the rest of the queue left. -/
def Obligations.StepRunsTheFrontCommand : Prop :=
  ∀ (s : State) (c : Instr) (rest : List Instr), s.pending = c :: rest → step s = exec c { s with pending := rest }

/-- On an empty queue the ply ends (the model's choice of what a step is then, log entries 2 and 60): what is due at its end takes place, the counter
advances by 1 (R38), and what the ply has left is what the reads of the next see (R46, R48). A device without power, or held in reset, keeps all. -/
def Obligations.IdleStepEndsThePly : Prop :=
  ∀ (s : State), s.pending = [] →
    ∃ t, step s = .next t ∧ t.pending = [] ∧ t.start = s.plyEnd.dev ∧ t.ply = s.plyEnd.ply + 1 ∧ (s.plyEnd.dev.live = false → t.dev = t.start) ∧
      (s.resetNow = false → s.dev.live = false → s.dev.score.buf = [] → s.dev.score.touched = [] → s.plyEnd = s) ∧
      (s.resetNow = false → s.dev.live = true → s.dueReset true = false → s.dueReset false = false →
        s.plyEnd = s.endPly.scoreFlush.settleRewinds)

/-- The ply counter (R38): a step leaves it, advances it by 1 when the ply ends, and sets it to 0 with the release of a power-on reset alone, in whose
ply nothing else counts (R51); no write reaches it. -/
def Obligations.PlyCounterCounts : Prop :=
  ∀ (s t : State), step s = .next t →
    (s.pending = [] → t.ply = s.ply + 1 ∨ (t.ply = 1 ∧ s.dev.regs.lastReset = some (s.now, .powerOn))) ∧
    (∀ c rest, s.pending = c :: rest → t.ply = s.ply ∨
      (t.ply = 0 ∧ (c = .powerOnReset ∨ (c = .resetNRelease ∧ s.dev.startUp.kind = 1)) ∧ t.dev.startUp.kind = 1))

/-- What power-on leaves (R10, R38, R62 to R69, R444, R510, R526, R548, R559): every header register and counter of every page at its reset value,
no session, no link, no channel, no table entry, and the configuration registers that the page tables give a number. -/
def Obligations.ResetValues : Prop :=
  State.reset.ply = 0 ∧ State.reset.pending = [] ∧ State.reset.dev.selid.sessions = [] ∧ State.reset.dev.selid.quench = [] ∧
    State.reset.dev.objects.channels = [] ∧ State.reset.dev.objects.rings = [] ∧ State.reset.dev.flow.exact = [] ∧
    State.reset.dev.flow.direct = [] ∧ State.reset.dev.startUp.kind = 1 ∧ State.reset.dev.startUp.resets = 0 ∧
    State.reset.dev.startUp.phase = 0 ∧ State.reset.dev.startUp.ready = false ∧ State.reset.dev.pair.role = .unpaired ∧
    State.reset.dev.pair.epoch = 0 ∧ State.reset.dev.power.tripped = false ∧ State.reset.dev.sec.tapUsed = false ∧
    (∀ page, (State.reset.hdr page).event = 0 ∧ (State.reset.hdr page).mask = 0xFFFFFFFF ∧ (State.reset.hdr page).lock = .unlocked ∧
      (State.reset.hdr page).owner = 0 ∧ (State.reset.hdr page).faulted = false) ∧
    (∀ page off, State.reset.dev.ctr page off = 0) ∧ (∀ p sub, State.reset.subUp p sub = false) ∧
    State.reset.rg pgGlobal 0x48 = 0xC0A088B5 ∧
    (∀ p, p < 32 → State.reset.rg (pageOf tPort p) 0x40 = 0x24000100 ∧ State.reset.rg (pageOf tPort p) 0x48 = 0x00C00100) ∧
    (∀ k, k < 4 → (State.reset.dev.tempo k).stage = 0 ∧ State.reset.rg (pageOf tTempo k) 0x4C = 0x695F5F55)

/-- Every command runs, in every state: no meaning ends in a fault or a refusal. -/
def Obligations.EveryCommandRuns : Prop :=
  ∀ (i : Instr) (s : State), Goes (exec i s)

/-- The invariant of the tables holds right after reset. -/
def Obligations.CanonicalAtReset : Prop :=
  State.reset.canonical = true

/-- Every step keeps the canonical form of the registers, the counters, the vaults' state memory, the ports and the cores: every command's and the
end of a ply. -/
def Obligations.StepsKeepCanonical : Prop :=
  ∀ (s t : State), s.canonical = true → step s = .next t → t.canonical = true

/-- What a command may change at all (the frame of every row): a command that resets no device leaves the queue, the ply and what the reads of the ply
see (R48) as they were, and every part of the device outside its footprint, byte by byte and register by register. -/
def Obligations.CommandsKeepWithinTheirFootprint : Prop :=
  ∀ (i : Instr) (s : State), resetsDevice i = false → ∃ t, exec i s = .next t ∧ Within (footprint i) s t

/-- A sealed page stays sealed (R69): from every state in canonical form, whatever command a step takes, and at the end of a ply, as long as no device
reset takes place with the command or with the ply (R548), and the page is not a core site's, which a site reset clears. -/
def Obligations.SealsHold : Prop :=
  ∀ (s t : State) (page : Nat), s.dev.canonical = true → perCorePage page = false → s.sealedAt page →
    (∀ c rest, s.pending = c :: rest → resetsDevice c = false) → (s.pending = [] → s.resetNow = false ∧ s.dueReset true = false) →
    step s = .next t → t.sealedAt page

/-- Locks of a session that ends (R72): by CLOSE, by its time without a frame, by the loss of its processor or a control restart, or with a ply in
which no device reset takes place. -/
def Obligations.EndedSessionsFreeTheirLocks : Prop :=
  ∀ (s t : State) (n : Nat), s.dev.canonical = true → (s.session? n).isSome = true → t.session? n = none →
    (exec (.close n) s = .next t ∨ exec (.sessionIdleTimeout n) s = .next t ∨ (∃ cp l, exec (.cpStopped (cp, l)) s = .next t) ∨
      exec .controlWatchdog s = .next t ∨
        (s.pending = [] ∧ s.resetNow = false ∧ s.dueReset true = false ∧ step s = .next t)) →
    ∀ page,
      ((s.dev.hdr page).lock = .locked → (s.dev.hdr page).owner = n → (t.dev.hdr page).lock = .unlocked ∧ (t.dev.hdr page).owner = 0) ∧
      ((s.dev.hdr page).lock = .sealed → perCorePage page = false → (t.dev.hdr page).lock = .sealed)

/-- SMB_ALERT_N and SMB_ALERT_RESPONSE (R570): the line is asserted exactly while one of the three causes holds, and the device answers the alert
response address while it asserts the line, and then alone. -/
def Obligations.AlertLineAsserts : Prop :=
  ∀ (s : State),
    (s.start.smbAlert = true ↔ (∃ k, k < 4 ∧ 0 < (s.start.tempo k).stage) ∨
      (∃ k, k < 4 ∧ (degrees (s.start.rg (pageOf tTempo k) 0x4C / 2 ^ 24) ≤ temp (hottest (s.start.tempo k).logic).2 ∨
        degrees (bits (s.start.rg (pageOf tTempo k) 0x4C) 15 8) ≤ temp (hottest (s.start.tempo k).dram).2)) ∨ s.start.faultN = true) ∧
    (s.smbAnswers = true → s.start.smbAlert = true →
      exec .smbAlertResponse s = .next (s.emit (.smbus (some [byte (2 * (0x58 + Config.smbStrap % 4))])))) ∧
    (s.start.smbAlert = false → exec .smbAlertResponse s = .next s)

/-- The countersignature flag (R488): a FW_MANIFEST that is applied sets it, and with it set no slot boots without a countersignature that the owner's
key verifies (R468, step 6). -/
def Obligations.ManifestsBindTheBootSlot : Prop :=
  ∀ (s : State),
    (∀ sess x c, s.bundleReady sess 3 x c →
      ∃ t, exec (.fwManifestBundle sess) s = .next t ∧ (s.dev.bundleBad c.body = none → t.dev.sec.nvm.countersign = true)) ∧
    (∀ k, s.dev.sec.nvm.countersign = true → s.dev.countersigned (s.dev.flash k) = false → s.dev.bootSlot ≠ some k)

/-! ### Ports and the reference clock -/

/-- LINK_DOWN, LINK_UP and LANE_FAILURE (R136, R138, R143): what each does to its sub-port or lane, the flag it sets, and that every other port stays.

REF_LOSS, REF_HOLDOVER_END and REF_RETURN (R37, R140): the reference clock's state, the flags of the global control page and of every port
page, and the transmitters. -/
def Obligations.LinksAndReferenceComeAndGo : Prop :=
  (∀ (s : State) (port sub lane : Nat), s.dev.canonical = true → s.clearedNow (pageOf tPort port) = false →
      (sub < 4 → s.subUp port sub = true →
        ∃ t, exec (.linkDown port sub) s = .next t ∧
          t.dev.port port = ((s.onPort port fun q => q.onSub sub fun x =>
            { x with up := false, anDone := false, trained := false, speed := 0 }).advertise port).dev.port port ∧
          t.raised (pageOf tPort port) sub ∧ ∀ q, q ≠ port → t.dev.port q = s.dev.port q) ∧
      (sub < 4 → (s.dev.port port).enabled = true → (s.dev.port port).squelched = false → s.subUp port sub = false →
        (laneList ((s.dev.port port).subp sub).lanes).isEmpty = false →
        ∃ t, exec (.linkUp port sub) s = .next t ∧ ((t.dev.port port).subp sub).up = true ∧
          (isPeer port = false ∨ s.loops port = false →
            t.dev.port port = ((s.advertise port).dev.port port).comeUp s.now sub ((s.dev.port port).subp sub).lanes) ∧
          t.raised (pageOf tPort port) (4 + sub) ∧ ∀ q, q ≠ port → t.dev.port q = s.dev.port q) ∧
      (lane < 4 → ((s.dev.port port).lane lane).failed = false →
        ∃ t, exec (.laneFailure port lane) s = .next t ∧ ((t.dev.port port).lane lane).failed = true ∧
          t.raised (pageOf tPort port) (8 + lane) ∧ (t.dev.hdr (pageOf tPort port)).faulted = true ∧
          ∀ q, q ≠ port → t.dev.port q = s.dev.port q)) ∧
  (∀ (s : State), s.dev.canonical = true → (∀ p, s.clearedNow p = false) →
      (s.dev.ref.lost = false →
        ∃ t, exec .refLoss s = .next t ∧ t.dev.ref = { lost := true, lostPly := s.now, holdover := true, expired := false } ∧
          t.raised pgGlobal 0 ∧ (t.dev.hdr pgGlobal).faulted = true ∧ ∀ p, p < 66 → t.raised (pageOf tPort p) 17) ∧
      (s.dev.ref.lost = true → s.dev.ref.expired = false → s.dev.ref.lostPly + 10 * plies1ms ≤ s.now →
        ∃ t, exec .refHoldoverEnd s = .next t ∧ t.dev.ref = { s.dev.ref with expired := true } ∧
          ∀ p, p < 66 → (t.dev.port p).squelched = true) ∧
      (s.dev.ref.lost = true →
        ∃ t, exec .refReturn s = .next t ∧ t.dev.ref = {} ∧ t.raised pgGlobal 1 ∧
          (t.dev.hdr pgGlobal).faulted = decide (s.dev.reliab.stopped ≠ 0) ∧
          ∀ p, p < 66 → s.dev.ref.expired = true → (s.dev.port p).enabled = true → s.dev.halted = false → s.dev.linesHeld = false →
            (t.dev.port p).squelched = false))

/-- PAUSE_FRAME and PFC_FRAME on a frame that passes the receive checks (R123, R131, R132, R134): the holds they set on the sub-port.

PAUSE_QUANTA_EXPIRE, PFC_STORM and PAUSE_RESEND (R131 to R134): a hold lasts until its time, a storm sets its flag, and an XOFF in force is
sent again. -/
def Obligations.PausesHoldAndEnd : Prop :=
  (∀ (s : State) (port sub : Nat) (f : Bytes),
      s.hears port sub f = true → fcsGood f = true → 64 ≤ f.length → f.length ≤ s.maxFrame port → Bytes.be f (skipTags f 12 4) 2 = 0x8808 →
      (isPeer port = false → Bytes.be f (skipTags f 12 4 + 2) 2 = 1 →
        pfcOn (s.start.rg (pageOf tPort port) 0x44) = false → bit (s.start.rg (pageOf tPort port) 0x44) 16 = true →
        ∃ t, exec (.pauseFrame port sub f) s = .next t ∧ t.dev.ports = Table.modify {} (s.heard port sub).dev.ports port (fun q => q.onSub sub fun x =>
          (List.range 8).foldl (fun x p => x.holdPrio s.now (Bytes.be f (skipTags f 12 4 + 4) 2 * quantumPlies x.speed) p) x)) ∧
      (isLine port = true → Bytes.be f (skipTags f 12 4 + 2) 2 = 0x0101 →
        ∃ t, exec (.pfcFrame port sub f) s = .next t ∧ t.dev.ports = Table.modify {} (s.heard port sub).dev.ports port (fun q => q.onSub sub fun x =>
          (List.range 8).foldl (SubPort.pfc s.now (s.start.rg (pageOf tPort port) 0x44 / 16777216 * plies1ms)
            (s.start.rg (pageOf tPort port) 0x44) (Bytes.be f (skipTags f 12 4 + 4) 2) fun p => Bytes.be f (skipTags f 12 4 + 6 + 2 * p) 2) x))) ∧
  (∀ (s : State) (port sub prio : Nat), s.dev.canonical = true →
      (∃ t, exec (.pauseQuantaExpire port sub) s = .next t ∧
        ∀ p u, (p, u) ∈ ((t.dev.port port).subp sub).hold ↔ (p, u) ∈ ((s.dev.port port).subp sub).hold ∧ s.now < u) ∧
      (∀ t0, Table.get? ((s.dev.port port).subp sub).since prio = some t0 → prio < 8 →
        0 < s.rg (pageOf tPort port) 0x44 / 16777216 → t0 + s.rg (pageOf tPort port) 0x44 / 16777216 * plies1ms ≤ s.now →
        pfcOn (s.rg (pageOf tPort port) 0x44) = true → s.clearedNow (pageOf tPort port) = false →
        ∃ t, exec (.pfcStorm port sub prio) s = .next t ∧ t.raised (pageOf tPort port) 13) ∧
      (∀ t0 f, Table.get? ((s.dev.port port).subp sub).xoff prio = some t0 → f = pauseFrame (s.dev.ctrlMac (portDie port)) prio 0xFFFF →
        (s.subUp port sub = true → pauseOn (s.rg (pageOf tPort port) 0x44) prio = true →
          ∃ t, exec (.pauseResend port sub prio) s = .next t ∧
            t.dev.out = s.dev.out ++ [if s.loops port then .looped port sub f else .frame port sub f] ∧
            Table.get? ((t.dev.port port).subp sub).xoff prio = some s.now) ∧
        (pauseOn (s.rg (pageOf tPort port) 0x44) prio = false → exec (.pauseResend port sub prio) s = .next s)))

/-- ARP_REQUEST, NEIGHBOUR_SOLICITATION and RX_DISCARD (R81, R125 to R127): a request for a control address, first in its die's lane or on a host port
as it arrives, is answered to its sender, and a frame that nothing takes is counted in RX_DISCARD of its sub-port (R141). -/
def Obligations.AddressesAnswered : Prop :=
  ∀ (s : State) (port sub : Nat) (f : Bytes) (lf : LaneFrame), s.dev.canonical = true →
    (isHost port = false → s.laneHead (portDie port) = some lf → lf.port = port → lf.sub = sub → lf.frame = f →
      (lf.kind = .arp → ∀ r, r = padded (arpReply (s.dev.ctrlMac (portDie port)) (s.dev.ctrlIp4 (portDie port)) f lf.off) →
        ∃ t, exec (.arpRequest port sub f) s = .next t ∧ (s.takeHead port sub f).1.sent t port sub r.length (.frame port sub r) ∧
          t.dev.selid = (s.takeHead port sub f).1.dev.selid) ∧
      (lf.kind = .solicit → ∀ r, r = padded (neighbourReply (s.dev.ctrlMac (portDie port)) (s.dev.ctrlIp6 (portDie port)) f lf.off) →
        ∃ t, exec (.neighbourSolicitation port sub f) s = .next t ∧ (s.takeHead port sub f).1.sent t port sub r.length (.frame port sub r) ∧
          t.dev.selid = (s.takeHead port sub f).1.dev.selid)) ∧
    (isHost port = true → s.hostOn port = true → s.hears port sub f = true → fcsGood f = true → 64 ≤ f.length → f.length ≤ s.maxFrame port →
      s.laneFrame? port sub f = some lf →
      (lf.kind = .arp → ∀ r, r = padded (arpReply (s.dev.ctrlMac (portDie port)) (s.dev.ctrlIp4 (portDie port)) f lf.off) →
        ∃ t, exec (.arpRequest port sub f) s = .next t ∧ s.sent t port sub r.length (.frame port sub r) ∧ t.dev.selid = s.dev.selid) ∧
      (lf.kind = .solicit → ∀ r, r = padded (neighbourReply (s.dev.ctrlMac (portDie port)) (s.dev.ctrlIp6 (portDie port)) f lf.off) →
        ∃ t, exec (.neighbourSolicitation port sub f) s = .next t ∧ s.sent t port sub r.length (.frame port sub r) ∧
          t.dev.selid = s.dev.selid)) ∧
    (sub < 4 → s.hears port sub f = true → fcsGood f = true → 64 ≤ f.length → f.length ≤ s.maxFrame port →
      (isPeer port = true ∧ s.start.takesPeer port f = false) ∨
        (isHost port = true ∧ s.laneFrame? port sub f = none ∧
          (s.hostOn port = false ∨ Bytes.be f (skipTags f 12 4) 2 ≠ 0x8808 ∨ Bytes.be f (skipTags f 12 4 + 2) 2 ≠ 1)) →
      ∃ t, exec (.rxDiscard port sub f) s = .next t ∧ t.dev.selid = s.dev.selid ∧
        t.dev.ctr (pageOf tPort port) (0x100 + 0x80 * sub + 8 * 9) = s.dev.ctr (pageOf tPort port) (0x100 + 0x80 * sub + 8 * 9) + 1)

/-! ### Selid -/

/-- HELLO, ACCEPT, SETUP_FRAGMENT, SETUP_FRAGMENT_TIMEOUT and HALF_OPEN_EXPIRE (R84, R86, R88 to R93): a whole HELLO that nothing refuses opens a
half-open session, a whole ACCEPT that nothing refuses makes it a session, a fragment is kept, and both kinds of remainder expire. -/
def Obligations.SetupOpensSessions : Prop :=
  ∀ (s u : State) (port sub nor n : Nat) (f : Bytes) (r : Route) (h : SelidHead) (ply : Nat),
    (s.takeSelid port sub f = (u, some (r, h, ply)) → h.kind = 0 → h.fragIndex = 0 → h.fragLast = 0 → u.dev.helloBad u.now h.payload = none →
      (u.sign nor).2.isSome = true →
      ∃ t, exec (.hello port sub f nor) s = .next t ∧
        t.dev.sec.signNext = s.dev.sec.signNext + 1 ∧ t.dev.draws = s.dev.draws + 2 ∧ t.dev.selid.lastNum = u.dev.selid.nextNum ∧
        ∃ o dk, t.dev.selid.halfOpen = u.dev.selid.halfOpen ++
          [{ num := u.dev.selid.nextNum, hello := h.payload, offer := o, dk := dk, offerPly := s.now, route := r }]) ∧
    (∀ x, s.takeSelid port sub f = (u, some (r, h, ply)) → h.kind = 2 → h.fragIndex = 0 → h.fragLast = 0 → (u.dev.selid.halfOpen.find? fun y => decide (y.num = h.session)) = some x →
      u.dev.acceptBad u.now (decide (u.start.sec.nvm.lifecycle ≠ 0)) (some x) h.payload = none →
      (u.start.sec.nvm.lifecycle ≠ 0 ∨ u.dev.sec.nvm.lifecycle = 0) →
      ∃ t, exec (.accept port sub f) s = .next t ∧ (∀ y ∈ t.dev.selid.halfOpen, y.num ≠ h.session) ∧
        ∃ y ∈ t.dev.selid.sessions, y.num = h.session ∧ y.source = r ∧ y.openPly = s.now ∧ y.maxFrame = Bytes.le x.hello 32 2 ∧
          (y.restricted = true ↔ s.start.sec.nvm.lifecycle = 0) ∧
          (y.h2d, y.d2h) = sessionKeys (Bytes.slice (Config.sha256 (x.hello ++ x.offer ++ h.payload)) 0 32)
            (Config.kemDecaps x.dk (Bytes.slice h.payload 32 1568))) ∧
    (s.takeSelid port sub f = (u, some (r, h, ply)) → (h.kind = 0 ∨ h.kind = 2) → 0 < h.fragLast → h.fragIndex ≤ h.fragLast →
      ((u.dev.selid.fragsOf s.now r h).keep s.now h).complete = false →
      ∃ t, exec (.setupFragment port sub f) s = .next t ∧ (u.dev.selid.fragsOf s.now r h).keep s.now h ∈ t.dev.selid.frags) ∧
    (∃ t, exec .setupFragmentTimeout s = .next t ∧
      ∀ g, g ∈ t.dev.selid.frags ↔ g ∈ s.dev.selid.frags ∧ s.now < g.firstPly + plies1s) ∧
    (∃ t, exec (.halfOpenExpire n) s = .next t ∧
      ∀ x, x ∈ t.dev.selid.halfOpen ↔ x ∈ s.dev.selid.halfOpen ∧ ¬(x.num = n ∧ x.offerPly + plies1s ≤ s.now))

/-- PROTECTED (R96 to R99, R102): a frame whose tag does not verify is dropped and counted; one that does, in its window and from the session's
source, queues its command, where nothing answers it at once. -/
def Obligations.ProtectedFramesCarryCommands : Prop :=
  ∀ (s u : State) (port sub : Nat) (f : Bytes) (r : Route) (h : SelidHead) (ply : Nat) (x : Session),
    u.dev.canonical = true → s.takeSelid port sub f = (u, some (r, h, ply)) →
    h.kind = 3 → h.fragIndex = 0 → h.fragLast = 0 → u.session? h.session = some x →
    ∃ t, exec (.protectedFrame port sub f) s = .next t ∧
      (Config.gcmOpen (x.h2d.take 32) (x.h2d.drop 32 ++ toLE 8 h.seq) h.header h.payload = none →
        t.dev.selid = u.dev.selid ∧ t.dev.ctr pgGlobal 0x100 = u.dev.ctr pgGlobal 0x100 + 1) ∧
      ∀ plain, Config.gcmOpen (x.h2d.take 32) (x.h2d.drop 32 ++ toLE 8 h.seq) h.header h.payload = some plain →
        ((x.seqOk h.seq = false ∨ sameSource x.source r = false) →
          t.dev.selid = u.dev.selid ∧ t.dev.ctr pgGlobal 0x100 = u.dev.ctr pgGlobal 0x100 + 1) ∧
        (x.idled s.now = false → x.seqOk h.seq = true → sameSource x.source r = true → 12 ≤ plain.length → Bytes.le plain 4 4 = plain.length - 12 →
          x.done = [] → x.cmds.length < 64 → (∀ q ∈ x.cmds, q.tag ≠ Bytes.le plain 2 2) → opcodeOk (Bytes.le plain 0 2) = true →
          x.restricted = false →
          ∃ y, t.session? h.session = some y ∧ y.lastAccept = s.now ∧ y.latest = r ∧ y.cmds = x.cmds ++
            [{ opcode := Bytes.le plain 0 2, tag := Bytes.le plain 2 2, body := plain.drop 12, route := r, ingress := ply,
               last := decide (h.seq = 2 ^ 64 - 1) }])

/-- ECHO, CLOSE and SESSION_IDLE_TIMEOUT (R95, R98 to R100, R102): the response of an ECHO repeats its body and goes out on the command's route;
a CLOSE, and IDLE seconds of silence, end the session. -/
def Obligations.SessionsEchoAndEnd : Prop :=
  ∀ (s : State) (n : Nat) (x : Session) (c : Cmd),
    (s.ready n 0x01 = some (x, c) → c.body.length ≤ 256 → c.body.length ≤ bodyRoom x c.route →
      ∃ t, exec (.echo n) s = .next t ∧ t.answered n c stOK 0 c.body ∧
        (x.seqTx < 2 ^ 64 →
          ∃ w : Bytes, s.sent t c.route.port c.route.sub w.length (.selid c.route 3 n x.seqTx (envelope 0x8001 c.tag stOK 0 c.body) w))) ∧
    (s.ready n 0x02 = some (x, c) → c.body = [] →
      ∃ t, exec (.close n) s = .next t ∧ t.session? n = none) ∧
    (s.session? n = some x → x.lastAccept + x.idle * plies1s ≤ s.now →
      ∃ t, exec (.sessionIdleTimeout n) s = .next t ∧ t.session? n = none)

/-- QUENCH, UNQUENCH and QUENCH_EXPIRE (R107 to R110): a quench of all traffic takes the QID that is next and acts from the following ply; an
UNQUENCH of one QID and the end of a DURATION take the quench away and give the QID back.

SINK_JOIN, SINK_LEAVE and EVENT (R111, R112, R583): a session joins a set that has room, leaves it with its queue, and its queued records leave
in a message in the order of their numbers. -/
def Obligations.QuenchesAndSinksServe : Prop :=
  (∀ (s : State) (n q : Nat) (x : Session) (c : Cmd) (pool : Pool) (z : Quench) (u : Nat),
      (s.ready n 0x60 = some (x, c) → c.body.length = 24 → Bytes.le c.body 0 4 ≠ 0 → Bytes.le c.body 4 4 = 0 → Bytes.at c.body 8 = 0 →
        badReserved c.body [(9, 3), (12, 4)] = none → 16 ≤ bodyRoom x c.route →
        s.ceaseQuenches.dev.selid.qids.take 64 = some (q, pool) →
        ∃ t, exec (.quench n) s = .next t ∧ t.dev.selid.qids = pool ∧
          Table.get? t.dev.selid.quench q = some
            { ports := Bytes.le c.body 0 4, chan := s.chanOf 0, pass := false, effect := s.now + 1
              until_ := if Bytes.le c.body 16 8 = 0 then none else some (s.now + 1 + Bytes.le c.body 16 8) } ∧
          t.answered n c stOK 0 (toLE 4 q ++ zeros 4 ++ toLE 8 (s.now + 1))) ∧
      (s.ready n 0x61 = some (x, c) → c.body.length = 4 → Bytes.le c.body 0 4 = q → q < 64 → 8 ≤ bodyRoom x c.route →
        Table.get? s.ceaseQuenches.dev.selid.quench q = some z →
        ∃ t, exec (.unquench n) s = .next t ∧ t.dev.selid.quench = Table.erase s.ceaseQuenches.dev.selid.quench q ∧
          t.dev.selid.qids = s.ceaseQuenches.dev.selid.qids.release q ∧ t.answered n c stOK 0 (toLE 8 s.now)) ∧
      (Table.get? s.dev.selid.quench q = some z → z.until_ = some u → u ≤ s.now →
        ∃ t, exec (.quenchExpire q) s = .next t ∧ t.dev.selid.quench = Table.erase s.dev.selid.quench q ∧
          t.dev.selid.qids = s.dev.selid.qids.release q)) ∧
  (∀ (s : State) (n k : Nat) (x : Session) (c : Cmd) (z : Sink) (first : Nat) (more : List Nat),
      (s.ready n 0x80 = some (x, c) → c.body = [byte k, 0, 0, 0] → k < 16 → 4 ≤ bodyRoom x c.route →
        (∀ y ∈ s.dev.sinkSet k, y.sess ≠ n) → (s.dev.sinkSet k).length < 4 →
        ∃ t, exec (.sinkJoin n) s = .next t ∧ t.dev.sinkSet k = s.dev.sinkSet k ++ [{ sess := n }] ∧
          t.answered n c stOK 0 [byte ((s.dev.sinkSet k).length + 1), 0, 0, 0]) ∧
      (s.ready n 0x81 = some (x, c) → c.body = [byte k, 0, 0, 0] → k < 16 → 4 ≤ bodyRoom x c.route →
        ∃ t, exec (.sinkLeave n) s = .next t ∧
          t.dev.selid.sinks = Table.modify [] s.dev.selid.sinks k (fun l => l.filter fun y => decide (y.sess ≠ n))) ∧
      ((s.dev.sinkSet k).find? (fun y => decide (y.sess = n)) = some z → s.session? n = some x → z.nums = first :: more →
        0 < (bodyRoom x x.latest - 8) / 32 → x.seqTx < 2 ^ 64 →
        ∃ t, ∃ w : Bytes, exec (.event k n) s = .next t ∧
          s.sent t x.latest.port x.latest.sub w.length (.selid x.latest 3 n x.seqTx (envelope 0x4001 0 0 0
            (toLE 4 first ++ [byte (min (min 32 (runLength first z.nums)) ((bodyRoom x x.latest - 8) / 32)), 0, 0, 0] ++
              ((z.queue.take (min (min 32 (runLength first z.nums)) ((bodyRoom x x.latest - 8) / 32))).map EventRecord.bytes).flatten)) w)))

/-! ### Register writes -/

/-- REGISTER_WRITE, DEEP_EN_WRITE, LEARN_AGENT_SWITCH, EVENT_CLEAR, EVENT_MASK_WRITE, EVENT_FORCE and LOCK_WRITE (R50, R105): each samples the write
of its kind that stands next in a batch, and notes the entry's status (R104).

REGISTER_WRITE, DEEP_EN_WRITE and LEARN_AGENT_SWITCH (R47, R50, R221, R361): a write that lands has the effect of its register, and its page
takes no other write in that ply.

EVENT_CLEAR, EVENT_MASK_WRITE, EVENT_FORCE, LOCK_WRITE and FORCED_SET (R51, R63 to R65, R69, R71): what each leaves in its page's header. -/
def Obligations.PageWritesLand : Prop :=
  (∀ (s : State) (n : Nat) (w : BatchWrite), s.writeNext n w →
      (s.dev.writeRow w = .register → exec (.registerWrite n) s = .next (s.writePage n w)) ∧
      (s.dev.writeRow w = .deepEn → exec (.deepEnWrite n) s = .next (s.writePage n w)) ∧
      (s.dev.writeRow w = .learnAgent → exec (.learnAgentSwitch n) s = .next (s.writePage n w)) ∧
      (s.dev.writeRow w = .eventClear → exec (.eventClear n) s = .next (s.writePage n w)) ∧
      (s.dev.writeRow w = .eventMask → exec (.eventMaskWrite n) s = .next (s.writePage n w)) ∧
      (s.dev.writeRow w = .eventForce → exec (.eventForce n) s = .next (s.writePage n w)) ∧
      (s.dev.writeRow w = .lock → exec (.lockWrite n) s = .next (s.writePage n w)) ∧
      ∀ x rest, s.session? n = some x → x.writes = w :: rest → rest ≠ [] → ∃ y st, (s.writePage n w).session? n = some y ∧
        (s.writeLands n w → w.seals = false → w.addr % 65536 ≠ 0x1C → st = 0) ∧
        (s.siteResetNow (w.addr / 65536) = false → y.writes = rest ∧ y.estats = x.estats ++ [st])) ∧
  (∀ (s : State) (n : Nat) (w : BatchWrite), s.dev.canonical = true → s.writeLands n w →
      (s.dev.writeRow w = .register →
        ∃ t, exec (.registerWrite n) s = .next t ∧ (t.dev.hdr (w.addr / 65536)).writePly = some s.now ∧
          t.dev.regs.rw = (State.performWrite w.addr w.value
            ((s.touchPage (w.addr / 65536) 5).onHdr (w.addr / 65536) fun h => { h with writePly := some s.now })).dev.regs.rw ∧
          ∀ off, w.addr = addrOf pgGlobal off → 0x58 ≤ off → off < 0x90 → off % 0x20 ≠ 0x0C → off ≠ 0x70 → off ≠ 0x74 → t.dev.reg w.addr = w.value) ∧
      (w.addr = addrOf pgDeep 0x40 →
        ∃ t, exec (.deepEnWrite n) s = .next t ∧
          (w.value.getLsbD 0 = true → s.start.deepEn = true ∨ s.start.poolShort = false → t.dev.reg (addrOf pgDeep 0x40) = 1) ∧
          (w.value.getLsbD 0 = true → s.start.deepEn = false → s.start.poolShort = true →
            t.dev.reg (addrOf pgDeep 0x40) = s.dev.reg (addrOf pgDeep 0x40)) ∧
          (w.value.getLsbD 0 = false → s.start.compute.promoted = [] → (∀ e ∈ s.start.objects.gens, e.2.kind ≠ 2) →
            t.dev.reg (addrOf pgDeep 0x40) = 0) ∧
          (w.value.getLsbD 0 = false → s.start.compute.promoted ≠ [] →
            t.dev.reg (addrOf pgDeep 0x40) = s.dev.reg (addrOf pgDeep 0x40))) ∧
      (w.addr = addrOf pgFlowCtl 0x54 →
        ∃ t, exec (.learnAgentSwitch n) s = .next t ∧ t.dev.reg (addrOf pgFlowCtl 0x54) = w.value &&& 1)) ∧
  (∀ (s : State) (n page : Nat) (w : BatchWrite), s.dev.canonical = true →
      (s.writeLands n w → w.seals = false →
        (w.addr % 65536 = 0x0C →
          ∃ t, exec (.eventClear n) s = .next t ∧ (t.dev.hdr (w.addr / 65536)).event = (s.dev.hdr (w.addr / 65536)).event &&&
            ~~~(w.value &&& ~~~(if (s.dev.hdr (w.addr / 65536)).setPly = s.now then (s.dev.hdr (w.addr / 65536)).setBits else 0))) ∧
        (w.addr % 65536 = 0x10 →
          ∃ t, exec (.eventMaskWrite n) s = .next t ∧ (t.dev.hdr (w.addr / 65536)).mask = w.value ∧
            (t.dev.hdr (w.addr / 65536)).event = (s.dev.hdr (w.addr / 65536)).event ∧
            ((s.dev.hdr (w.addr / 65536)).event &&& (s.dev.hdr (w.addr / 65536)).mask &&& ~~~w.value ≠ 0 →
              (t.dev.hdr (w.addr / 65536)).trigger = some s.now)) ∧
        (w.addr % 65536 = 0x14 →
          ∃ t, exec (.eventForce n) s = .next t ∧ (t.dev.hdr (w.addr / 65536)).forcePly = s.now ∧
            ∀ ty i, pageKind (w.addr / 65536) = some (ty, i) → (t.dev.hdr (w.addr / 65536)).forced = w.value &&& eventBits ty)) ∧
      (s.headWrite n = some w → w.addr % 65536 = 0x1C → w.addr % 4 = 0 → (pageKind (w.addr / 65536)).isSome = true →
        (s.hdr (w.addr / 65536)).writePly ≠ some s.now → s.siteResetNow (w.addr / 65536) = false → s.clearedNow (w.addr / 65536) = false →
        s.dev.reliab.stopped ≠ 255 → s.batchWaits n = false →
        ∃ t, exec (.lockWrite n) s = .next t ∧
          (∀ st o, lockWrite (s.start.hdr (w.addr / 65536)).lock (s.start.hdr (w.addr / 65536)).owner n (w.value.toNat % 4) = some (st, o) →
            (st ≠ .locked ∨ (s.session? n).isSome = true → (t.dev.hdr (w.addr / 65536)).lock = st ∧ (t.dev.hdr (w.addr / 65536)).owner = o) ∧
            (st = .locked → s.session? n = none → (t.dev.hdr (w.addr / 65536)).lock = .unlocked ∧ (t.dev.hdr (w.addr / 65536)).owner = 0)) ∧
          (lockWrite (s.start.hdr (w.addr / 65536)).lock (s.start.hdr (w.addr / 65536)).owner n (w.value.toNat % 4) = none →
            (t.dev.hdr (w.addr / 65536)).lock = (s.dev.hdr (w.addr / 65536)).lock ∧ t.raised (w.addr / 65536) 31)) ∧
      ((s.start.hdr page).forced ≠ 0 → (s.start.hdr page).forcePly + 1 = s.now → (s.dev.hdr page).forceDone ≠ some s.now → s.clearedNow page = false →
        ∃ t, exec (.forcedSet page) s = .next t ∧ (t.dev.hdr page).event = (s.dev.hdr page).event ||| (s.start.hdr page).forced))

/-- PORT_ENABLE, PORT_DISABLE, COUNTER_CLEAR, READMIT, RESYNC, CASTLE, DEVICE_RESET and CONTROL_RESET (R50, R105): each samples the write of its kind
that stands next in a batch.

PORT_ENABLE, PORT_DISABLE, COUNTER_CLEAR and READMIT (R121, R138, R141, R144): a port takes its configuration into use, refuses it, or leaves use, the
counters of a sub-port restart from what the ply of the clear records, and a failed lane returns.

RESYNC, CASTLE, DEVICE_RESET and CONTROL_RESET (R513, R514, R519, R556): what each write asks for is noted for the ply in which it falls due. -/
def Obligations.ControlWritesLand : Prop :=
  (∀ (s : State) (n : Nat) (w : BatchWrite), s.writeNext n w →
      (s.dev.writeRow w = .portEnable → exec (.portEnable n) s = .next (s.writePage n w)) ∧
      (s.dev.writeRow w = .portDisable → exec (.portDisable n) s = .next (s.writePage n w)) ∧
      (s.dev.writeRow w = .counterClear → exec (.counterClear n) s = .next (s.writePage n w)) ∧
      (s.dev.writeRow w = .readmit → exec (.readmit n) s = .next (s.writePage n w)) ∧
      (s.dev.writeRow w = .resync → exec (.resync n) s = .next (s.writePage n w)) ∧
      (s.dev.writeRow w = .castle → exec (.castle n) s = .next (s.writePage n w)) ∧
      (s.dev.writeRow w = .deviceReset → exec (.deviceReset n) s = .next (s.writePage n w)) ∧
      (s.dev.writeRow w = .controlReset → exec (.controlReset n) s = .next (s.writePage n w))) ∧
  (∀ (s : State) (n p i k : Nat) (w : BatchWrite), s.dev.canonical = true → s.writeLands n w → p < 66 → i < 4 → k < 16 →
      (w.addr = addrOf (pageOf tPort p) 0x18 → (s.dev.hdr (pageOf tPort p)).control.getLsbD 1 = false → w.value.getLsbD 1 = true →
        ∃ t, exec (.portEnable n) s = .next t ∧
          (s.dev.configOk p = true → (t.dev.port p).enabled = true ∧ (t.dev.port p).refuse = none ∧
            (t.dev.port p).breakout = s.dev.rg (pageOf tPort p) 0x40 % 8 ∧ (t.dev.port p).attach = s.dev.attachReg p) ∧
          (s.dev.configOk p = false → t.dev.port p = { s.dev.port p with refuse := some (s.now + 1) })) ∧
      (w.addr = addrOf (pageOf tPort p) 0x18 → (s.dev.hdr (pageOf tPort p)).control.getLsbD 1 = true → w.value.getLsbD 1 = false →
        ∃ t, exec (.portDisable n) s = .next t ∧ (t.dev.port p).enabled = false ∧ (t.dev.port p).squelched = true) ∧
      (w.addr = addrOf (pageOf tPort p) 0x58 → bit w.value.toNat i = true →
        ∃ t, exec (.counterClear n) s = .next t ∧
          t.dev.ctr (pageOf tPort p) (0x100 + 0x80 * i + 8 * k) =
            s.dev.ctr (pageOf tPort p) (0x100 + 0x80 * i + 8 * k) - s.start.ctr (pageOf tPort p) (0x100 + 0x80 * i + 8 * k)) ∧
      (w.addr = addrOf (pageOf tPort p) 0x50 → bit w.value.toNat (16 + i) = true →
        ∃ t, exec (.readmit n) s = .next t ∧ ((t.dev.port p).lane i).failed = false)) ∧
  (∀ (s : State) (n : Nat) (w : BatchWrite), s.dev.canonical = true → s.writeLands n w →
      (w.addr = addrOf pgPair 0x44 → w.value = 2 → s.start.pair.mirrors = true →
        ∃ t, exec (.resync n) s = .next t ∧ t.dev.pair.resyncDue = true) ∧
      (w.addr = addrOf pgPair 0x44 → w.value = 1 →
        ∃ t, exec (.castle n) s = .next t ∧
          (s.start.pair.role = .primary → s.dev.pair.role = .primary → t.dev.pair.yield_ = true) ∧
          (s.start.pair.role = .standby → s.dev.pair.role = .standby → t.dev.pair.castlePly = some s.now)) ∧
      (w.addr = addrOf pgReset 0x44 → w.value = 0x4B520001 →
        ∃ t, exec (.deviceReset n) s = .next t ∧ t.dev.startUp.due = s.dev.startUp.due ++ [(s.now + plies1ms, true)]) ∧
      (w.addr = addrOf pgReset 0x44 → w.value = 0x4B520002 →
        ∃ t, exec (.controlReset n) s = .next t ∧ t.dev.startUp.due = s.dev.startUp.due ++ [(s.now + plies1ms, false)]))

/-! ### Batches and events -/

/-- READ_BATCH, READ_BLOCK and WRITE_BATCH (R39, R48, R103 to R105): a block read answers what its registers held at the start of the ply, a batch
of one read likewise with its entry status, a read changes nothing but sampled high halves, and a write batch queues its writes in order. -/
def Obligations.BatchesAnswer : Prop :=
  ∀ (s : State) (n : Nat) (x : Session) (c : Cmd),
    (∀ a, s.ready n 0x10 = some (x, c) → c.body = toLE 2 1 ++ [0, 0] ++ toLE 4 a → a < 2 ^ 32 → 12 ≤ bodyRoom x c.route →
      (∃ t, exec (.readBatch n) s = .next t ∧ t.dev.regs.hdr = s.dev.regs.hdr ∧ t.dev.regs.rw = s.dev.regs.rw ∧
        ∀ ty i, pageKind (a / 65536) = some (ty, i) → a % 4 = 0 → (4 ≤ a % 65536 → lowHalf ty (a % 65536 - 4) = false) →
          t.answered n c stOK 0 (toLE 2 1 ++ [0, 0] ++ (toLE 4 (s.start.regValue s.now (a / 65536) (a % 65536)).toNat ++ [0, 0, 0, 0])))) ∧
    (∀ a, s.ready n 0x11 = some (x, c) → c.body = toLE 4 a ++ toLE 2 1 ++ [0, 0] → a < 2 ^ 32 → a % 4 = 0 → 4 ≤ bodyRoom x c.route →
      (pageKind (a / 65536)).isSome = true →
      (∃ t, exec (.readBlock n) s = .next t ∧
        ∀ ty i, pageKind (a / 65536) = some (ty, i) → (4 ≤ a % 65536 → lowHalf ty (a % 65536 - 4) = false) →
          t.answered n c stOK 0 (toLE 4 (s.start.regValue s.now (a / 65536) (a % 65536)).toNat))) ∧
    (s.ready n 0x12 = some (x, c) → 0 < Bytes.le c.body 0 2 → Bytes.le c.body 0 2 ≤ 512 → Bytes.le c.body 2 2 = 0 →
      c.body.length = 4 + 8 * Bytes.le c.body 0 2 → writeBody (Bytes.le c.body 0 2) ≤ bodyRoom x c.route →
      ∃ t, exec (.writeBatch n) s = .next t ∧ ∃ y, t.session? n = some y ∧
        y.writes = (List.range (Bytes.le c.body 0 2)).map (fun i =>
          { addr := Bytes.le c.body (4 + 8 * i) 4, value := BitVec.ofNat 32 (Bytes.le c.body (8 + 8 * i) 4) }))

/-- EVENT_FRAME and HOLDOFF_EXPIRE (R74 to R76, R111): in the ply after an unmasked set, and with REPORT_EN 1, a page whose spacing allows it queues
its record, as of the start of the ply, to each sink of its set, in order of joining; otherwise the frame waits for the spacing to end. -/
def Obligations.EventFramesForm : Prop :=
  ∀ (s : State) (page : Nat) (k : Sink), s.dev.canonical = true →
    (s.start.hdr page).control.getLsbD 0 = true →
    Table.get? s.dev.selid.sinks ((s.start.hdr page).control.toNat / 2 ^ 28) = some [k] →
    s.start.sinkSet ((s.start.hdr page).control.toNat / 2 ^ 28) = [k] → k.queue.length < 1024 →
    ((s.start.hdr page).trigger = some (s.now - 1) → 0 < s.now → (s.dev.hdr page).judged ≠ some s.now → (s.dev.hdr page).lastFrame ≠ some s.now →
      ((s.start.hdr page).spaced (s.start.hdr page).control s.now = true →
        ∃ t, exec (.eventFrame page) s = .next t ∧ (t.dev.hdr page).lastFrame = some s.now ∧
          ∃ z, t.dev.sinkSet ((s.start.hdr page).control.toNat / 2 ^ 28) = [z] ∧ z.sess = k.sess ∧ z.next = (k.next + 1) % 2 ^ 32 ∧
            z.nums = k.nums ++ [k.next] ∧ ∃ r, z.queue = k.queue ++ [r] ∧ r.page = page ∧ r.status = s.start.status page ∧
            r.event = (s.start.hdr page).event ∧ r.mask = (s.start.hdr page).mask ∧ r.count = (s.start.hdr page).count ∧ r.ply = s.now) ∧
      ((s.start.hdr page).spaced (s.start.hdr page).control s.now = false →
        ∃ t, exec (.eventFrame page) s = .next t ∧ (t.dev.hdr page).suppressed = true ∧ t.dev.selid = s.dev.selid)) ∧
    ((s.start.hdr page).suppressed = true → (s.dev.hdr page).suppressed = true → (s.dev.hdr page).judged ≠ some s.now →
      (s.start.hdr page).spaced (s.start.hdr page).control s.now = true →
      ∃ t, exec (.holdoffExpire page) s = .next t ∧ (t.dev.hdr page).suppressed = false ∧ (t.dev.hdr page).lastFrame = some s.now ∧
        ∃ z, t.dev.sinkSet ((s.start.hdr page).control.toNat / 2 ^ 28) = [z] ∧ z.sess = k.sess ∧ z.queue.length = k.queue.length + 1)

/-! ### Rings and channels -/

/-- RING_READ, RING_ACK and RING_WRITE (R183, R188, R189, R197): a read answers with the items that fit, which become read, and leaves HEAD; an
acknowledgement frees what was read; a write appends words. No other ring changes.

RING_FLUSH, RING_RESIGN, RING_MARK and RING_REWIND (R192 to R196): what each does to its ring. A rewind waits for the end of its ply, behind what the
producer writes in it, and is answered there. No other ring changes. -/
def Obligations.RingsMove : Prop :=
  (∀ (s : State) (sess n : Nat) (x : Session) (c : Cmd), (s.ring n).use ≠ .free →
      (∀ i rest, s.ringReady sess 0x40 n x c → c.body.length = 8 → Bytes.le c.body 6 2 = 0 → 1 ≤ Bytes.le c.body 4 2 → Bytes.le c.body 4 2 ≤ 512 →
        8 + 16 * Bytes.le c.body 4 2 ≤ bodyRoom x c.route → (s.ring n).hostProduced = false → s.start.ring n = s.ring n → (s.ring n).rewindLost = none →
        (s.ring n).held.map (s.start.itemRead n (s.ring n)) = i :: rest → i.state ≠ .empty → i.len ≤ Bytes.le c.body 4 2 →
        ∃ t, exec (.ringRead sess) s = .next t ∧ (t.ring n).head = (s.ring n).head ∧ (t.ring n).timer = s.now ∧
          (∀ m, m ≠ n → t.ring m = s.ring m) ∧
          t.answered sess c stOK 0 (toLE 2 (wordsOf (takeItems (Bytes.le c.body 4 2) (i :: rest))) ++
            toLE 2 (takeItems (Bytes.le c.body 4 2) (i :: rest)).length ++ zeros 4 ++
            ((takeItems (Bytes.le c.body 4 2) (i :: rest)).map fun g => g.words g.state.code).flatten)) ∧
      (s.ringReady sess 0x41 n x c → c.body.length = 8 → Bytes.le c.body 6 2 = 0 → 4 ≤ bodyRoom x c.route → (s.ring n).hostProduced = false →
        ∃ t, exec (.ringAck sess) s = .next t ∧
          t.ring n = Ring.ack s.now (readPrefix (Bytes.le c.body 4 2) (s.ringNow n).held) (s.ringNow n) ∧ (∀ m, m ≠ n → t.ring m = s.ring m) ∧
          t.answered sess c stOK 0 (toLE 2 (readPrefix (Bytes.le c.body 4 2) (s.ringNow n).held).length ++ [0, 0])) ∧
      (∀ r took, s.ringReady sess 0x42 n x c → Bytes.le c.body 6 2 = 0 → 1 ≤ Bytes.le c.body 4 2 → Bytes.le c.body 4 2 ≤ 512 →
        c.body.length = 8 + 16 * Bytes.le c.body 4 2 → 4 ≤ bodyRoom x c.route → (s.ring n).hostProduced = true →
        pushWords s.now ((List.range (Bytes.le c.body 4 2)).map fun i => Bytes.slice c.body (8 + 16 * i) 16) 0 (s.ringNow n) = (r, took, none) →
        r.use = (s.ring n).use →
        ∃ t, exec (.ringWrite sess) s = .next t ∧ t.ring n = r ∧ (∀ m, m ≠ n → t.ring m = s.ring m) ∧
          t.answered sess c stOK 0 (toLE 2 took ++ [0, 0]))) ∧
  (∀ (s : State) (sess n : Nat) (x : Session) (c : Cmd), (s.ring n).use ≠ .free → c.body.length = 4 →
      (s.ringReady sess 0x43 n x c → ∃ t, exec (.ringFlush sess) s = .next t ∧
        t.ring n = { Ring.flush s.now s.dev.objects.ringPace (s.ringNow n) with flushPly := some s.now } ∧
        (∀ m, m ≠ n → t.ring m = s.ring m) ∧ t.answered sess c stOK 0 []) ∧
      (s.ringReady sess 0x44 n x c → ∃ t, exec (.ringResign sess) s = .next t ∧ t.ring n = Ring.resign s.now s.dev.objects.ringPace (s.ringNow n) ∧
        (∀ m, m ≠ n → t.ring m = s.ring m) ∧ t.answered sess c stOK 0 []) ∧
      ((s.ring n).hostProduced = false → s.ringReady sess 0x45 n x c → ∃ t, exec (.ringMark sess) s = .next t ∧
        (t.ring n).mark = some (s.ring n).head ∧ (t.ring n).items = (s.ring n).held ∧ (t.ring n).head = (s.ring n).head ∧
        (∀ m, m ≠ n → t.ring m = s.ring m) ∧ t.answered sess c stOK 0 []) ∧
      ((s.ring n).hostProduced = false → s.ringReady sess 0x46 n x c →
        ∃ t, exec (.ringRewind sess) s = .next t ∧ t.ring n = { s.ringNow n with rewindBy := some sess } ∧ (∀ m, m ≠ n → t.ring m = s.ring m))) ∧
  (∀ (s t : State) (sess n : Nat) (x : Session) (c : Cmd), (s.ring n).use ≠ .free → (s.ring n).rewindBy = some sess → t = s.rewindRing n →
      s.session? sess = some x → x.cmds.find? (fun c => decide (c.opcode = 0x46)) = some c →
      (∀ m, m ≠ n → t.ring m = s.ring m) ∧ (t.ring n).rewindBy = none ∧
      (∀ h, (s.ring n).mark = some h → (s.ring n).markLost = false →
        (t.ring n).head = h ∧ (t.ring n).mark = some h ∧ (∀ i ∈ (t.ring n).items, i.state ≠ .acked) ∧ t.answered sess c stOK 0 []) ∧
      ((s.ring n).mark = none → t.answered sess c stNotFound 0 []) ∧
      ((s.ring n).mark.isSome = true → (s.ring n).markLost = true → t.answered sess c stRewindLost 0 []))

/-- FLAG_FALL and PENDING_GAP (R190, R191): at the end of a ring's FLAG_TIME a ready item that it held at the start of the ply sets its flag, and the
limit does not end again before its timer restarts; a pending gap becomes a marker as soon as a word is free. -/
def Obligations.RingsReport : Prop :=
  ∀ (s : State) (n : Nat),
    (∀ r, s.start.ring n = r → r.use ≠ .free → (s.ring n).use ≠ .free → r.flagged = false → (s.ring n).flagged = false →
      r.lapsed = false → (s.ring n).lapsed = false →
      0 < s.rg (ringPage n) (0x44 + 0x20 * (n % 8)) % 65536 → r.timer + s.rg (ringPage n) (0x44 + 0x20 * (n % 8)) % 65536 * 1024 ≤ s.now →
      ∃ t, exec (.flagFall n) s = .next t ∧
        ((s.ring n).timer = r.timer → (t.ring n).flagged = (r.held.any fun i => decide (i.state = .ready)) ∧
          (t.ring n).lapsed = !(r.held.any fun i => decide (i.state = .ready))) ∧
        ((r.held.any fun i => decide (i.state = .ready)) = true → s.clearedNow (ringPage n) = false → t.raised (ringPage n) (n % 8)) ∧
        ((r.held.any fun i => decide (i.state = .ready)) = false → t.dev.regs = s.dev.regs)) ∧
    ((s.ring n).use ≠ .free → 0 < (s.ring n).pendingGap → 1 ≤ (s.ring n).freeAt s.now →
      ∃ t, exec (.pendingGap n) s = .next t ∧
        t.ring n = Ring.hold s.now { kind := 1, info := min (s.ring n).pendingGap (2 ^ 32 - 1) } { s.ring n with pendingGap := 0 })

/-- CHANNEL_CREATE, CHANNEL_DESTROY and CHANNEL_DRAINED (R173, R175, R178, R181): a channel takes the next slot, unbound, with its descriptor; a
destroyed one drains; once drained, its slot is free under a new handle. -/
def Obligations.ChannelsLive : Prop :=
  ∀ (s : State) (sess n p : Nat) (x : Session) (c : Cmd) (pool : Pool),
    (s.ready sess 0x20 = some (x, c) → s.dev.pair.role ≠ .standby → Bytes.le c.body 0 4 = 144 → c.body.length = 148 →
      s.dev.descBad (c.body.drop 4) = none → 4 ≤ bodyRoom x c.route → s.dev.objects.chanPool.take 4096 = some (n, pool) →
      s.dev.noRoom (c.body.drop 4) = false →
      ∃ t, exec (.channelCreate sess) s = .next t ∧ t.dev.objects.chanPool = pool ∧ (t.chan n).state = .unbound ∧
        (t.chan n).desc = c.body.drop 4 ∧ (t.chan n).cores = coreList (c.body.drop 44) ∧ (t.chan n).hgen = (s.chan n).hgen ∧
        t.answered sess c stOK 0 (toLE 4 (handleOf 1 (s.chan n).hgen n))) ∧
    (s.ready sess 0x21 = some (x, c) → s.dev.pair.role ≠ .standby → c.body.length = 4 → s.chanOf (Bytes.le c.body 0 4) = some n →
      ∃ t, exec (.channelDestroy sess) s = .next t ∧ t.answered sess c stOK 0 [] ∧
        ((s.chan n).live = true → (t.chan n).state = .draining ∧ (t.chan n).destroyed = some s.now) ∧
        ((s.chan n).live = false → t.dev.objects = s.dev.objects)) ∧
    ((s.chan n).destroyed = some p → (s.chan n).state = .draining → p < s.now → s.dev.chanBusy n (s.chan n).hgen = false →
      s.clearedNow (channelPage n) = false →
      ∃ t, exec (.channelDrained n) s = .next t ∧ t.raised (channelPage n) 2 ∧
        t.dev.objects.channels = Table.set {} s.dev.objects.channels n { hgen := ((s.chan n).hgen + 1) % 4096 } ∧
        t.dev.objects.chanPool = s.dev.objects.chanPool.release n)

/-! ### The traffic path -/

/-- FRAME_START (R145, R15, R19, R26, R155 to R158): the frame becomes a packet. Where a channel takes it, its key, core, generation and deadline are
settled, and its header vector sets out for its core's die; where none does, it is to pass with the empty verdict. -/
def Obligations.FramesBecomePackets : Prop :=
  ∀ (s : State) (port sub : Nat) (f : Bytes), s.framePasses port sub f →
    (∀ n c, s.start.select s.now port ((s.inlineParse port (f.take (f.length - 4))).selectorKey 0) = some (n, c) → c.keyKind ≠ 2 →
      s.start.quenched s.now port (some n) = none →
      ∃ t pk, exec (.frameStart port sub f) s = .next t ∧ t.dev.packet? s.dev.traffic.nextPacket = some pk ∧
        t.dev.traffic.nextPacket = s.dev.traffic.nextPacket + 1 ∧ pk.chan = some (n, c.hgen) ∧ pk.stage = .vector ∧ pk.applied = none ∧
        pk.frame = f.take (f.length - 4) ∧ pk.gen = c.gen ∧ pk.firstPly = s.now ∧ pk.deadline = (s.now + s.start.genBound n c.gen) % 2 ^ 48 ∧
        pk.core = c.steer ((s.inlineParse port (f.take (f.length - 4))).flowKey c).1 ∧
        pk.buffered = bits (s.start.rg (pageOf tPort port) 0x40) 29 16 ∧ t.dev.net.flits = s.dev.net.flits ++
          [{ cls := clsPawn, order := pk.deadline, die := portDieNo port, route := dieRoute (portDieNo port) (coreDie pk.core), ready := s.now
             bytes := vectorBytes, cargo := .vector s.dev.traffic.nextPacket }]) ∧
    (s.start.select s.now port ((s.inlineParse port (f.take (f.length - 4))).selectorKey 0) = none → bit (s.start.pairCfg port) 10 = false →
      s.start.quenched s.now port none = none →
      ∃ t pk, exec (.frameStart port sub f) s = .next t ∧ t.dev.packet? s.dev.traffic.nextPacket = some pk ∧ pk.chan = none ∧
        pk.frame = f.take (f.length - 4) ∧ pk.applied = some (s.now, {}) ∧ pk.gone = false)

/-- FRAME_TAIL, VERDICT_ARRIVAL and DEADLINE (R26, R44, R123, R164): a good tail keeps the packet and a bad one fails it; a verdict that has reached
the port die is applied in time, whichever of the two commands takes it, or is late; without one the default is applied at the deadline.
EGRESS_ELIGIBLE, FRAME_TRANSMIT and VERDICT_FRAME (R136, R137, R163 to R166): an edited packet joins its egress queue, its first frame leaves with a
new FCS, and the records of one source leave in one frame with the next SEQ, behind received PAUSE or PFC. -/
def Obligations.PacketsSettleAndLeave : Prop :=
  (∀ (s : State) (k : Nat) (p : Packet), s.dev.canonical = true → s.dev.packet? k = some p →
      (∀ port sub r, Table.get? s.dev.traffic.rx (port * 4 + sub) = some r → r.kind = .packet k →
        (fcsGood r.frame = true → 64 ≤ r.frame.length → r.frame.length ≤ r.maxFrame →
          ∃ t, exec (.frameTail port sub) s = .next t ∧
            t.dev.packet? k = some { p with tail := some s.now, buffered := if p.buffered = 0 then 0 else r.frame.length } ∧
            t.dev.traffic.rx = Table.erase s.dev.traffic.rx (port * 4 + sub)) ∧
        (fcsGood r.frame = false → p.stage ≠ .none ∨ p.applied = none ∧ p.dueAt s.now = true →
          ∃ t, exec (.frameTail port sub) s = .next t ∧
            t.dev.packet? k = some { p with tail := some s.now, buffered := 0, failed := true, gone := true } ∧
            t.dev.traffic.rx = Table.erase s.dev.traffic.rx (port * 4 + sub))) ∧
      (∀ v, s.dev.verdictThere s.now k p = some v → p.inline = true → p.replay = false → p.gone = false → p.failed = false →
        (p.over s.now = false → p.applied = none → ∃ t, exec (.verdictArrival k) s = .next t ∧
          t.dev.packet? k = some { p with stage := .none, flight := none, applied := some (s.now, v) }) ∧
        (∀ n c, p.over s.now = true ∨ p.applied.isSome = true → s.dev.packetChan p = some (n, c) → s.clearedNow (channelPage n) = false →
          ∃ t, exec (.verdictArrival k) s = .next t ∧ t.dev.packet? k = some { p with stage := .none, flight := none } ∧
            t.raised (channelPage n) 1) ∧
        (p.over s.now = false → p.dueAt s.now = true → p.applied = none → p.chan.isSome = true →
          exec (.deadline k) s = exec (.verdictArrival k) s)) ∧
      (∀ n c, p.inline = true → p.replay = false → p.gone = false → p.failed = false → p.applied = none → p.dueAt s.now = true →
        p.over s.now = true ∨ s.dev.verdictThere s.now k p = none → s.dev.packetChan p = some (n, c) → s.clearedNow (channelPage n) = false →
        ∃ t, exec (.deadline k) s = .next t ∧ t.dev.packet? k = some { p with applied := some (s.now, s.dev.defaultOf p) } ∧
          t.raised (channelPage n) 0)) ∧
  (∀ (s : State) (port sub : Nat), s.dev.canonical = true →
      (∀ k p x v y, s.dev.packet? k = some p → p.applied = some (x, v) → p.tail = some y → p.inline = true → p.gone = false → p.failed = false →
        p.queuedTo = none → x < s.now → y < s.now → (∀ n g, p.chan = some (n, g) → (s.start.chan n).redDrop = false ∨ v.colour ≠ 2) →
        s.start.wayOut p.port p.sub = true → ((s.start.port (partner p.port)).subp p.sub).upPly < p.start →
        ∃ t, exec (.egressEligible k) s = .next t ∧
          t.dev.traffic.egress = Table.modify [] s.dev.traffic.egress ((partner p.port * 4 + p.sub) * 8 + v.queue % 8) (fun l => l ++ [k]) ∧
          t.dev.packet? k = some { p with
            queuedTo := some (v.queue % 8)
            outPrio := match p.chan with
              | some (n, _) => editedPrio p (s.start.chan n) v
              | none => framePrio p.frame
            frame := match p.chan with
              | some (n, _) => editedFrame p (s.start.chan n) n v
              | none => p.frame }) ∧
      (∀ k p q, s.subUp port sub = true → s.dev.nextOut s.now port sub = some (q, k) → s.dev.packet? k = some p →
        ∃ t, exec (.frameTransmit port sub) s = .next t ∧
          s.dev.out ++ [if s.loops port then .looped port sub (withFcs p.frame) else .frame port sub (withFcs p.frame)] <+: t.dev.out ∧
          t.dev.traffic.egress = Table.modify [] s.dev.traffic.egress ((port * 4 + sub) * 8 + q) (fun l => l.drop 1)) ∧
      (∀ r rest f, Table.get [] s.dev.traffic.records (port * 4 + sub) = r :: rest →
        32 ≤ (r :: rest).length ∨ r.ready + s.rg (parserPage (portDie port)) 0x4C % 256 ≤ s.now → s.selidAhead port sub = false →
        f = padded (r.srcMac ++ s.dev.ctrlMac (portDie port) ++ r.tags ++ toBE 2 r.shim ++ [0x13, byte (shareFrame (r :: rest)).length] ++
          toBE 4 ((s.dev.port port).subp sub).vfSeq ++ ((shareFrame (r :: rest)).map (·.body)).flatten) →
        ∃ t, exec (.verdictFrame port sub) s = .next t ∧
          (s.subUp port sub = true → s.mustWait port sub (.frame port sub f) = false →
            t.dev.out = s.dev.out ++ [if s.loops port then .looped port sub f else .frame port sub f]) ∧
          (s.mustWait port sub (.frame port sub f) = true →
            t.dev.traffic.waiting = s.dev.traffic.waiting ++ [{ port, sub, verdict := true, len := f.length, out := .frame port sub f }]) ∧
          (s.subUp port sub = false → t.dev.out = s.dev.out) ∧
          ((t.dev.port port).subp sub).vfSeq = (((s.dev.port port).subp sub).vfSeq + 1) % 2 ^ 32 ∧
          t.dev.traffic.records = Table.modify [] s.dev.traffic.records (port * 4 + sub) (fun l => l.drop (shareFrame (r :: rest)).length)))

/-! ### Tasks, loops and barriers -/

/-- HEADER_VECTOR, BATCH_CLOSE and the links between the dies (R14, R15, R19, R20, R29, R366, R505): a vector that stands at its core's die joins the
core's pawn queue where its channel is pinned, and the open batch of its generation where it is streamed; one that stands at another die sets out
again. An open batch whose closing point has come closes, and takes no more. What waits at a link is served by its class and begins while the ply has
room, of which one slot in 64 is never for a class other than control; a transfer that finds its link free stands at the next die after the link's
latency. -/
def Obligations.VectorsReachCores : Prop :=
  ∀ (s : State), s.dev.canonical = true →
    (∀ k p n hg m g r, s.dev.packet? k = some p → p.chan = some (n, hg) → s.dev.packetGen p = some (m, g) → p.stage = .vector →
      s.dev.underWay s.now (.vector k) = false → s.start.receiver p = some r →
      (∀ d, s.dev.vectorDie k = some d → d ≠ coreDie r →
        ∃ t, exec (.headerVector k) s = .next t ∧ t.dev.compute = s.dev.compute ∧ t.dev.packet? k = some p ∧
          t.dev.net.flits = (s.dev.net.flits.filter fun f => decide (f.cargo ≠ .vector k)) ++
            [{ cls := clsPawn, order := p.deadline, die := d, route := dieRoute d (coreDie r), ready := s.now, bytes := vectorBytes
               cargo := .vector k }]) ∧
      ((s.dev.vectorDie k).getD (coreDie r) = coreDie r →
        ((s.dev.chan n).pinned = true → (s.start.tempo (coreDie r)).stage < 3 → (s.dev.core r).pawn.length < 64 →
          ∃ t, exec (.headerVector k) s = .next t ∧ (t.dev.core r).pawn = (s.dev.core r).pawn ++ [k] ∧
            t.dev.packet? k = some { p with stage := .queued }) ∧
        (∀ v o l limit, (s.dev.chan n).pinned = false → s.dev.gen? false n g.gen = some g → (s.dev.pawnTable n g).2 = some (v, o) →
          l = Table.get [] (s.dev.core r).open_ (n * 256 + g.gen) → limit = max 1 (min 512 (tblLoopMax v o 0)) →
          (l = [] ∨ l.length < limit ∧ s.now + tblWorst v o + returnPath < s.earliest l →
            ∃ t, exec (.headerVector k) s = .next t ∧ (t.dev.core r).closed = (s.dev.core r).closed ∧
              (t.dev.core r).open_ = Table.modify [] (s.dev.core r).open_ (n * 256 + g.gen) (fun l => l ++ [k]) ∧
              t.dev.packet? k = some { p with stage := .queued }) ∧
          (l ≠ [] → limit ≤ l.length ∨ s.earliest l ≤ s.now + tblWorst v o + returnPath → l.length ≤ limit →
            (s.start.tempo (coreDie r)).stage < 2 →
            ∃ t, exec (.headerVector k) s = .next t ∧ (t.dev.core r).closed = (s.dev.core r).closed ++ [{ chan := n, gen := g.gen, items := l }] ∧
              Table.get [] (t.dev.core r).open_ (n * 256 + g.gen) = [k] ∧ t.dev.packet? k = some { p with stage := .queued })))) ∧
    (∀ core n gen g v o, s.dev.gen? false n gen = some g → (s.dev.pawnTable n g).2 = some (v, o) →
      Table.get [] (s.dev.core core).open_ (n * 256 + gen) ≠ [] → (s.start.tempo (coreDie core)).stage < 2 →
      max 1 (min 512 (tblLoopMax v o 0)) ≤ (Table.get [] (s.dev.core core).open_ (n * 256 + gen)).length ∨
        s.earliest ((Table.get [] (s.dev.core core).open_ (n * 256 + gen)).take (max 1 (min 512 (tblLoopMax v o 0)))) ≤
          s.now + tblWorst v o + returnPath →
      ∃ t, exec (.batchClose core n gen) s = .next t ∧
        (t.dev.core core).closed = (s.dev.core core).closed ++
          [{ chan := n, gen, items := (Table.get [] (s.dev.core core).open_ (n * 256 + gen)).take (max 1 (min 512 (tblLoopMax v o 0))) }] ∧
        (t.dev.core core).open_ = Table.set [] (s.dev.core core).open_ (n * 256 + gen)
          ((Table.get [] (s.dev.core core).open_ (n * 256 + gen)).drop (max 1 (min 512 (tblLoopMax v o 0))))) ∧
    (∀ a b f g l1 l2 l3, s.dev.net.waitingAt s.now a b = l1 ++ f :: l2 ++ g :: l3 → f.cls ≤ g.cls) ∧
    (∀ room used l l1 f l2, (serveFlits room used l).1 = l1 ++ f :: l2 → used + (l1.map (·.bytes)).sum < room) ∧
    (∀ room n, othersRoom room n ≤ room - room / 64 ∧ othersRoom room n ≤ room - n) ∧
    (∀ a b f, f ∈ s.dev.net.flits → f.die = a → f.route.head? = some b → f.cls ≠ clsControl →
      linkBytes a b - linkBytes a b / 64 ≤ Table.get 0 s.dev.net.owed (a * 8 + b) → f ∈ (Net.serve s.now s.dev.net (a, b)).flits) ∧
    (∀ a b f rest, s.dev.net.flits = [f] → s.dev.net.owed = [] → f.die = a → f.route = b :: rest → f.ready ≤ s.now → (a, b) ∈ dieLinks →
      (Net.step s.now s.dev.net).flits = [{ f with die := b, route := rest, ready := s.now + linkLatency a b }])

/-- PAWN_DISPATCH, TASK_ADMIT and TABLE_FETCH (R364 to R367, R390, R451): a batch or a queued task takes a free context, an adjourned one runs
again at its rate, and a task whose table is there runs from the next ply, or aborts with kind 5 where the copy fails. -/
def Obligations.TasksTakeContexts : Prop :=
  ∀ (s : State) (core ctx : Nat), s.dev.canonical = true →
    (∀ k p n hg rest g v o l, ctx ≤ 1 → s.ctxFree core ctx = true → s.dev.coreActive core = true → s.dev.halted = false →
      (s.dev.core core).pawn = k :: rest → (s.start.tempo (coreDie core)).stage < 3 → s.dev.packet? k = some p → p.chan = some (n, hg) →
      s.dev.gen? false n p.gen = some g → (s.dev.pawnTable n g).2 = some (v, o) →
      l = s.dev.pawnBatch (k :: rest) (max 1 (tblLoopMax v o 0)) → tableAccepts v o [0] [l.length] = true →
      ∃ t, exec (.pawnDispatch core ctx) s = .next t ∧ (t.ctx core ctx).state = .fetching ∧ (t.ctx core ctx).task.items = l ∧
        (t.ctx core ctx).task.sched = (s.dev.pawnTable n g).1 ∧ (t.ctx core ctx).task.owner = 0 ∧ (t.ctx core ctx).task.cls = 0 ∧
        (t.ctx core ctx).task.deadline = s.earliest l ∧ (t.dev.core core).pawn = (k :: rest).drop l.length) ∧
    (∀ d v o, 4 ≤ ctx → ctx < 16 → s.dev.coreActive core = true → s.dev.halted = false → s.ctxFree core ctx = true →
      (((s.dev.core core).queue.filter fun t => s.eligible core t && s.dev.tryAdmit (coreDie core) t).foldl earlierTask none) = some d →
      s.dev.table d.sched d.gen = some (v, o) → tableAccepts v o [if d.owner = 4 then 3 else 2] d.lc = true →
      ∃ t, exec (.taskAdmit core ctx) s = .next t ∧ (t.ctx core ctx).state = .fetching ∧ (t.ctx core ctx).task.sched = d.sched ∧
        (t.ctx core ctx).task.items = d.items ∧ (t.ctx core ctx).task.cls = tblClass v o ∧ (t.ctx core ctx).rate = tblRate v o ∧
        (t.dev.core core).tasks = (s.dev.core core).tasks.eraseIdx ((s.dev.core core).tasks.findIdx fun u => decide (u = d))) ∧
    (4 ≤ ctx → ctx < 16 → s.dev.coreActive core = true → s.dev.halted = false → (s.ctx core ctx).state = .adjourned →
      (s.ctx core ctx).fault = none → (s.ctx core ctx).cancel = false → s.dev.tryAdmit (coreDie core) (s.ctx core ctx).task = true →
      ∃ t, exec (.taskAdmit core ctx) s = .next t ∧
        t.ctx core ctx = { s.ctx core ctx with state := .running, rate := s.dev.rateOf (s.ctx core ctx).task, since := s.now + 1 }) ∧
    (∀ stale fail, (s.ctx core ctx).state = .fetching → (s.ctx core ctx).since ≤ s.now →
      ((stale = false ∧ (s.dev.core core).area.contains ((s.ctx core ctx).task.sched, (s.ctx core ctx).task.gen) = true) ∨ fail = false →
        ∃ t, exec (.tableFetch core ctx stale fail) s = .next t ∧
          t.ctx core ctx = { s.ctx core ctx with state := .running, since := s.now + 1 }) ∧
      (stale = true → fail = true → s.clearedNow pgBook = false →
        ∃ t, exec (.tableFetch core ctx stale fail) s = .next t ∧ t.ctx core ctx = { s.ctx core ctx with fault := some 5 } ∧
          t.raised pgBook 0))

/-- END, CANCEL, ABORT, WATCHDOG and ISSUE_STALL (R373, R381 to R386, R411): how a task leaves its context, or is reported. A cancel and the end of a
watchdog's time are noted, and what they do to the task is done with the end of the ply (R384), by `cancelTask` and `watchdog`; so is an END that has
issued, by `endTask`. -/
def Obligations.TasksEnd : Prop :=
  ∀ (s : State) (core ctx : Nat), s.dev.canonical = true →
    (∀ x e g, s.issues core ctx 0 x e g → e.sub = 0 → s.writesDone core ctx → (s.dev.core core).writeFaults ctx = none →
      ∃ t, exec (.endTask core ctx) s = .next t ∧ (t.ctx core ctx).ended = true ∧ (t.dev.core core).lastIssue = some s.now) ∧
    ((s.ctx core ctx).ended = true → ((s.endTask core ctx).dev.core core).ctxs = Table.erase (s.dev.core core).ctxs ctx) ∧
    ((s.ctx core ctx).state ≠ .free → (s.ctx core ctx).state ≠ .stopping → (s.ctx core ctx).fault = none → (s.ctx core ctx).task.owner = 4 →
      ∃ t, exec (.cancel core ctx) s = .next t ∧ t.ctx core ctx = { s.ctx core ctx with cancel := true }) ∧
    ((s.ctx core ctx).state ≠ .free → (s.ctx core ctx).state ≠ .stopping → (∃ p ∈ (s.dev.core core).pieces, p.stream / 4 = ctx) →
      ((s.ctx core ctx).cancel = true → ((s.cancelTask core ctx).ctx core ctx).state = .stopping) ∧
      (∀ k p, (s.ctx core ctx).fault = some k → s.dev.corePage tSeq core = some p → s.clearedNow p = false →
        ∃ t, exec (.abort core ctx) s = .next t ∧ (t.ctx core ctx).state = .stopping ∧ t.raised p 0)) ∧
    (∀ e p w, s.dev.entryOf (s.ctx core ctx) = some e → s.dev.corePage tSeq core = some p → s.clearedNow p = false →
      (s.ctx core ctx).state = .running → (s.ctx core ctx).fault = none → s.dev.floorBroken core = false →
      (e.op = 5 → (s.dev.core core).overDemand = none) → s.onUnit core ctx (s.ctx core ctx) e = true → w = s.watchOf core ctx (s.ctx core ctx) →
      (s.ctx core ctx).since + w % 16 * e.dur + 256 * bits w 19 8 < s.now →
      (∃ t, exec (.watchdog core ctx) s = .next t ∧ (t.dev.core core).dogs = (s.dev.core core).dogs ++ [ctx] ∧ t.ctx core ctx = s.ctx core ctx) ∧
        ((s.watchdog core ctx).ctx core ctx).fault = some 3 ∧ ((s.watchdog core ctx).dev.core core).lastWatchdog = some s.now ∧
        (s.watchdog core ctx).raised p 1) ∧
    ((s.dev.core core).lastIssue ≠ some s.now → s.dev.floorBroken core = false → (s.dev.core core).failed = none →
      4096 ≤ (s.dev.core core).stall + 1 → (∃ e ∈ (s.dev.core core).ctxs, s.issuable core e.1 = true) →
      ∃ t, exec (.issueStall core) s = .next t ∧ (t.dev.core core).failed = some 1)

/-- LOOP and NEXT (R374): a loop of count 0 is skipped, another begins at iteration 0; NEXT runs the body again while iterations are left. A STREAM
entry that has issued ahead (R370) is passed over. -/
def Obligations.LoopsRun : Prop :=
  ∀ (s : State) (core ctx : Nat) (x : Ctx) (e : Entry) (g : State), s.dev.canonical = true →
    (s.mayIssue core ctx 10 x e g →
      ∃ t, exec (.loopBegin core ctx) s = .next t ∧
        (t.ctx core ctx).iter = (if x.task.lc.getD (e.sub % 4) 0 = 0 then x.iter else x.iter.set (e.sub % 4) 0) ∧
        (x.ahead = 0 → (t.ctx core ctx).idx = if x.task.lc.getD (e.sub % 4) 0 = 0 then e.operand % 65536 + 1 else x.idx + 1) ∧
        (∀ f, x.ahead = 1 → s.dev.entryOf { x with idx := x.idx + 1 } = some f → f.op = 5 → x.task.lc.getD (e.sub % 4) 0 ≠ 0 →
          (t.ctx core ctx).idx = x.idx + 2 ∧ (t.ctx core ctx).ahead = 0)) ∧
    (s.mayIssue core ctx 11 x e g →
      ∃ t, exec (.loopNext core ctx) s = .next t ∧
        (x.iter.getD (e.sub % 4) 0 + 1 < x.task.lc.getD (e.sub % 4) 0 →
          (x.ahead = 0 → (t.ctx core ctx).idx = e.operand % 65536 + 1) ∧
          (t.ctx core ctx).iter = x.iter.set (e.sub % 4) (x.iter.getD (e.sub % 4) 0 + 1)) ∧
        (x.task.lc.getD (e.sub % 4) 0 ≤ x.iter.getD (e.sub % 4) 0 + 1 →
          (x.ahead = 0 → (t.ctx core ctx).idx = x.idx + 1) ∧ (t.ctx core ctx).iter = x.iter))

/-- BARRIER_WAIT, BARRIER_ARRIVE, BARRIER_BREAK and BARRIER_REOPEN (R378, R379): an arrival counts, the last one releases the barrier and wakes
those that wait, a late phase breaks it, and a broken one opens again. -/
def Obligations.BarriersMeet : Prop :=
  ∀ (s : State) (core ctx die number key : Nat) (x : Ctx) (e : Entry) (g : State), s.dev.canonical = true →
    (key = bits e.operand 11 10 * 1024 + e.operand % 1024 → s.issues core ctx 9 x e g → s.writesDone core ctx →
      (s.dev.barrier key).broken = none → (s.dev.barrier key).released ≠ some s.now →
      (e.sub = 0 →
        ∃ t, exec (.barrierWait core ctx) s = .next t ∧
          ((s.dev.barrier key).count + 1 < bits e.operand 25 16 →
            (t.dev.barrier key).count = (s.dev.barrier key).count + 1 ∧
            (t.dev.barrier key).waiting = (s.dev.barrier key).waiting ++ [(core, ctx)] ∧ (t.ctx core ctx).state = .barrier) ∧
          (bits e.operand 25 16 ≤ (s.dev.barrier key).count + 1 →
            t.dev.barrier key = { released := some s.now } ∧ (t.ctx core ctx).state = .running)) ∧
      (e.sub = 1 →
        ∃ t, exec (.barrierArrive core ctx) s = .next t ∧
          ((s.dev.barrier key).count + 1 < bits e.operand 25 16 →
            (t.dev.barrier key).count = (s.dev.barrier key).count + 1 ∧ (t.dev.barrier key).waiting = (s.dev.barrier key).waiting) ∧
          (bits e.operand 25 16 ≤ (s.dev.barrier key).count + 1 → t.dev.barrier key = { released := some s.now }) ∧
          (t.ctx core ctx).idx = x.idx + 1)) ∧
    (key = die % 4 * 1024 + number % 1024 →
      ((s.dev.barrier key).count ≠ 0 → (s.dev.barrier key).broken = none → (s.dev.barrier key).first + (s.dev.barrier key).limit ≤ s.now →
        ∃ t, exec (.barrierBreak die number) s = .next t ∧ t.dev.barrier key =
            { limit := (s.dev.barrier key).limit, broken := some s.now, hit := ((s.dev.barrier key).waiting.map (·.1)).eraseDups } ∧
          ∀ w ∈ (s.dev.barrier key).waiting, (s.ctx w.1 w.2).state = .barrier → (t.ctx w.1 w.2).fault = some 4) ∧
      (∀ p, (s.dev.barrier key).broken = some p → p + (s.dev.barrier key).limit ≤ s.now →
        ∃ t, exec (.barrierReopen die number) s = .next t ∧ t.dev.compute.barriers = Table.erase s.dev.compute.barriers key))

/-! ### Arrays, trees and features -/

/-- ARRAY, MVEC and RESCALE (R293, R310, R314, R317, R319, R321, R373, R375): an entry begins its pass or request, which takes its region or path, or
completes at once where every slot is masked; the pass or request of one slot of a task of the traffic or the flow path ends with the slot's vector,
and the context goes on to its next entry; the rescale unit takes one after the other; and a RESCALE entry's codes. -/
def Obligations.ArraysCompute : Prop :=
  ∀ (s : State) (core ctx i : Nat) (x : Ctx) (e : Entry) (g : State), s.dev.canonical = true → e.sub = 0 →
    (∀ l, s.issues core ctx 1 x e g → x.move = none → x.restarts = 0 → s.arrayReady core x e = true → l = s.dev.layerAt core x (x.addr e) →
      (∀ arr region lead, x.passSlots e l ≠ [] → (s.dev.core core).place l = some (arr, region) → lead = b2n (!(s.dev.core core).shaped l arr) →
        ∃ t, exec (.array core ctx) s = .next t ∧ (t.ctx core ctx).idx = x.idx ∧ (t.dev.core core).lastIssue = some s.now ∧
          (t.dev.core core).runOf ctx = some
            { ctx, arr, region
              mode := l.mode
              regions := l.regions
              began := s.now
              lead := lead
              ready := s.clock + (lead + l.tilesSteps (x.passSlots e l).length 0) * s.dev.stepOf core }) ∧
      (x.passSlots e l = [] →
        ∃ t, exec (.array core ctx) s = .next t ∧ (t.ctx core ctx).idx = x.idx + 1 ∧ (t.ctx core ctx).vecs = x.vecs ∧
          (t.dev.core core).running = (s.dev.core core).running)) ∧
    (s.issues core ctx 7 x e g → s.mvecReady core x = true →
      (x.slots e ≠ [] →
        ∃ t r, exec (.mvec core ctx) s = .next t ∧ (t.ctx core ctx).idx = x.idx ∧ (t.dev.core core).lastIssue = some s.now ∧
          (t.dev.core core).runOf ctx = some r ∧ r.mvec = true ∧ r.began = s.now ∧ r.ends = none ∧
          s.clock + (s.dev.layerAt core x (x.addr e)).mvecSteps * s.dev.stepOf core ≤ r.ready) ∧
      (x.slots e = [] →
        ∃ t, exec (.mvec core ctx) s = .next t ∧ (t.ctx core ctx).idx = x.idx + 1 ∧ (t.ctx core ctx).vecs = x.vecs ∧
          (t.dev.core core).running = (s.dev.core core).running)) ∧
    (∀ r l t, s.ctx core r.ctx = x → s.dev.entryOf x = some e → r.sealing = none → x.ahead = 0 → x.task.owner ≤ 1 →
      l = s.dev.layerAt core x (x.addr e) → t = s.runEnds core r →
      (r.mvec = false → x.move = none → r.arr ≤ 1 → x.passSlots e l = [i] →
        (t.ctx core r.ctx).idx = x.idx + 1 ∧ (t.dev.core core).runOf r.ctx = none ∧
          (t.ctx core r.ctx).vecs = (Ctx.store i (x.addr e) l (x.tile e)
            (s.passOut core x (x.addr e) (x.tile e) (s.arrayAcc core x i (x.addr e) (x.tile e) r.arr)) x).vecs) ∧
      (r.mvec = true → x.slots e = [i] → 1 ≤ l.n → l.n ≤ l.w →
        (t.ctx core r.ctx).idx = x.idx + 1 ∧ (t.dev.core core).runOf r.ctx = none ∧
          (t.ctx core r.ctx).vecs = (Ctx.store i (x.addr e) l 0 (s.passOut core x (x.addr e) 0 (s.mvecAcc core x i (x.addr e) 0)) x).vecs)) ∧
    (∀ r k, (s.dev.core core).runOf r.ctx = some r → s.ctx core r.ctx = x → s.dev.entryOf x = some e →
      k = max r.ready (s.dev.core core).rescaleFree + (if r.mvec then (x.slots e).length * (((s.dev.layerAt core x (x.addr e)).n + 63) / 64)
        else (s.dev.layerAt core x (x.addr e)).rescaleSteps (x.tile e) (x.passSlots e (s.dev.layerAt core x (x.addr e))).length) * s.dev.stepOf core →
      ((s.rescales core r).dev.core core).runOf r.ctx = some { r with ends := some k } ∧ ((s.rescales core r).dev.core core).rescaleFree = k) ∧
    (∀ r k, ((s.dev.compute.cores.filter fun e => !e.2.running.isEmpty).map (·.1)) = [core] → (s.dev.core core).running = [r] →
      (r.mvec = true ∨ r.arr ≤ 1 ∧ r.region < 4) → r.ends = some k → k ≤ s.clock → s.settleArrays = s.runEnds core r) ∧
    (∀ v l, s.issues core ctx 6 x e g → x.task.owner ≤ 1 → s.unitFree core = true → x.rescaleSlots e = [i] → v = Table.get {} x.vecs i →
      l = s.dev.rescaleForm core x e v.raw.length →
      ∃ t, exec (.rescale core ctx) s = .next t ∧ (t.ctx core ctx).idx = x.idx + 1 ∧ (t.dev.core core).lastIssue = some s.now ∧
        (t.ctx core ctx).vecs = Table.put x.vecs i
          { (s.narrow core (x.genOf s.dev) l (Config.rescaleA4 e.operand) false (s.dev.scaleReader core x) (List.range v.raw.length) v.raw).2 with
            raw := v.raw })

/-- LOOKUP, FRONT, TREE and EMIT_VERDICT (R32, R210 to R213, R246, R264, R271, R380) on one slot of a packet's task: the entry read, the codes, the
load of a streamed pass and its end, the sums and the action index, and the verdict on its way. -/
def Obligations.TreesDecide : Prop :=
  ∀ (s : State) (core ctx i k n hg m : Nat) (x : Ctx) (e : Entry) (h : State) (p : Packet) (g : Generation), s.dev.canonical = true →
    x.slots e = [i] → s.dev.slotPacket x i = some (k, p) → s.dev.packetGen p = some (m, g) →
    (∀ bad1 bad2 badState overflow, s.issues core ctx 4 x e h → e.sub ≤ 1 → p.chan = some (n, hg) →
      ∃ t, exec (.lookup core ctx bad1 bad2 badState overflow) s = .next t ∧ (t.ctx core ctx).idx = x.idx + 1 ∧
        ((t.ctx core ctx).work i).looked = true ∧
        (p.core ≠ core ∨ (s.start.chan n).flowPath = false ∨ (e.sub = 1 ↔ ¬(s.start.chan n).keyKind = 2) → ((t.ctx core ctx).work i).entry = none) ∧
        (p.core = core → (s.start.chan n).flowPath = true → (e.sub = 1 ↔ (s.start.chan n).keyKind = 2) → ((t.ctx core ctx).work i).entry =
          if (s.start.chan n).state = .draining ∨ (s.start.chan n).hgen ≠ hg then none
          else (s.start.find core n hg (decide ((s.start.chan n).keyKind = 2)) (Bytes.slice p.vector 48 48) bad1 bad2).1.map s.start.entry)) ∧
    (s.issues core ctx 3 x e h → g.featCount ≠ 0 →
      ∃ t, exec (.front core ctx) s = .next t ∧ (t.ctx core ctx).idx = x.idx + 1 ∧
        ((t.ctx core ctx).work i).codes =
          (s.start.featCodes core (genKey false m p.gen) m g p.vector (x.work i).entry (Bytes.le p.vector 0 6)).map (·.code) ∧
        ((t.ctx core ctx).work i).shifts = s.start.featShifts core (genKey false m p.gen) g) ∧
    (∀ rows comps corrected segs quarters acc next, s.issues core ctx 2 x e h → (x.work i).index = none →
      s.treeSegments core ctx e.sub (s.dev.chan m).pinned (genKey false m p.gen) (x.work i).next g = some (segs, quarters) →
      acc = (passSum (segs.flatMap fun q => g.segLeaves (x.work i).codes (rows ++ s.amKnown core 0 segs quarters)
        (comps ++ s.amKnown core 1 segs quarters) q) (if (x.work i).next = 0 then g.biases else (x.work i).acc)).1 →
      next = (if (s.dev.chan m).pinned then g.segments else (x.work i).next + segs.length) →
      ∃ t, exec (.tree core ctx rows comps corrected) s = .next t ∧ (t.ctx core ctx).idx = x.idx + 1 ∧
        (t.ctx core ctx).work i =
          { x.work i with acc := acc, next := next, index := if g.segments ≤ next then some (g.choose acc) else none }) ∧
    (∀ rows comps corrected key q next quarters, s.ctx core ctx = x → s.dev.entryOf x = some e → s.turn core ctx = true → s.canIssue core x = true →
      e.op = 2 → s.streamedPass x e = some (key, q, next) → s.treeSegments core ctx e.sub false key next q = none →
      ∃ t, exec (.tree core ctx rows comps corrected) s = .next t ∧ t.ctx core ctx = x ∧
        ((∀ l, (s.dev.core core).window = some l → l.ctx = ctx → l.key = key → l.first ≠ next) → (s.dev.core core).windowFree = true →
          quarters = (s.dev.windowOf core).take (q.segments - next) → quarters ≠ [] →
          (t.dev.core core).window = some { ctx, key, first := next, quarters, began := s.now }) ∧
        (∀ l, (s.dev.core core).window = some l → l.ctx = ctx → l.key = key → l.first = next → l.ended = none → l.began < s.now →
          (t.dev.core core).window = some { l with ended := some s.now })) ∧
    (s.issues core ctx 8 x e h → e.sub = 0 → e.commit = false →
      ∃ t, exec (.emitVerdict core ctx) s = .next t ∧ (t.ctx core ctx).idx = x.idx + 1 ∧ t.dev.traffic = s.dev.traffic ∧ t.dev.net = s.dev.net) ∧
    (∀ a, s.issues core ctx 8 x e h → e.sub = 0 → e.commit = true → (x.work i).index = some a → (x.work i).emitted = false → p.stage = .running →
      ∃ t, exec (.emitVerdict core ctx) s = .next t ∧ (t.ctx core ctx).idx = x.idx + 1 ∧
        t.dev.packet? k = some { p with stage := .verdict, flight := some (mergeOverride (g.action a).1 (x.work i).entry) } ∧
        t.dev.net.flits = s.dev.net.flits ++
          [{ cls := clsPawn, order := p.deadline, die := coreDie core, route := dieRoute (coreDie core) (portDieNo p.port), ready := s.now
             bytes := verdictBytes, cargo := .verdict k }])

/-- ADJOURNMENT, ARRAY_FAULT and RESCALE_STEP_END (R297, R298, R322, R323, R325 to R327, R453, R454): a pass that the governor or the chess clock asks
for stops at a tile and is sealed, and adjourned when its last word is written; a failed one is discarded, and tried again or its task aborted; and a
step that ends with the ply is noted; a channel's shift takes its step. -/
def Obligations.PassesStopAndAdapt : Prop :=
  ∀ (s : State) (core ctx : Nat) (x : Ctx) (e : Entry), s.dev.canonical = true →
    (∀ tiles a l r done, s.ctx core ctx = x → s.dev.entryOf x = some e → (s.dev.core core).runOf ctx = some r → a = x.addr e →
      l = s.dev.layerAt core x a → r.mvec = false → s.canSeal r = true → x.cancel = false → x.fault = none →
      done = x.firstTile + l.tilesIn (x.passSlots e l).length x.firstTile (s.stepsTaken core r - r.lead) →
      tiles < l.tiles → done ≤ tiles → tiles ≤ done + 1 → (s.dev.core core).adjourn = some ctx ∨ s.clockAsks core ctx = true →
      ∃ t m, exec (.adjournment core ctx tiles) s = .next t ∧ t.ctx core ctx = { x with energy := x.energy + m.units } ∧
        (t.dev.core core).runOf ctx = some
          { r with
            sealing := some m
            ends := some (s.clock + (l.d + 2 + m.steps) * s.dev.stepOf core) } ∧
        (t.dev.core core).adjourn ≠ some ctx ∧ m.nextTile = tiles ∧ m.colTile = x.tile e ∧ m.layer = a ∧ m.thread = ctx ∧ m.mode = l.mode ∧
        m.regions = l.regions ∧ m.array = r.arr ∧ m.region = r.region ∧ m.slots = x.passBatch l ∧ m.cols = (l.channels (x.tile e)).length ∧
        m.acc = (s.runPass core x e r.arr r.region tiles).acc) ∧
    (∀ r m t, r.sealing = some m → t = s.runEnds core r →
      (t.ctx core r.ctx).state = .adjourned ∧ (t.ctx core r.ctx).rate = 0 ∧ (t.ctx core r.ctx).idx = (s.ctx core r.ctx).idx ∧
        (t.ctx core r.ctx).move = some { m with sealPly := s.now, check := ({ m with sealPly := s.now } : SealedMove).sum } ∧
        (t.dev.core core).runOf r.ctx = none) ∧
    (∀ kind arr region p r, s.ctx core ctx = x → s.dev.entryOf x = some e → (s.dev.core core).running.filter (fun q => decide (q.ctx = ctx)) = [r] →
      r.strikes (decide ((s.dev.layerAt core x (x.addr e)).mode = 1) && (s.dev.layerAt core x (x.addr e)).twinCheck) x.move.isSome kind arr region = true →
      (kind = 3 → (s.dev.core core).running = [r]) → s.dev.corePage tArray core = some p → s.clearedNow p = false →
      ∃ t, exec (.arrayFault core ctx kind arr region) s = .next t ∧ (t.ctx core ctx).restarts = x.restarts + 1 ∧
        (t.ctx core ctx).move = none ∧ (t.ctx core ctx).idx = x.idx ∧ t.raised p 5 ∧ (t.dev.core core).runOf ctx = none ∧
        (x.restarts < s.start.rg p 0x4C % 16 → (t.ctx core ctx).fault = x.fault) ∧
        (s.start.rg p 0x4C % 16 ≤ x.restarts → (x.fault = none → (t.ctx core ctx).fault = some 1) ∧ t.raised p 6)) ∧
    (∀ deep target gen a g rd l, s.dev.gen? deep target gen = some g →
      rd = s.dev.taskByte core ((if deep then 2 else 1) * 2 ^ 28 + target * 65536) gen →
      l = layerD ((List.range 64).map fun i => rd (a + i)) → l.adaptLog ≠ 0 → (s.now + 1) % 2 ^ l.adaptLog = 0 →
      ∃ t, exec (.rescaleStepEnd core deep target gen a) s = .next t ∧
        t.dev.compute.steps = s.dev.compute.steps ++ [(core, scaleKey g.key l.scale 0, l.n)] ∧ t.dev.compute.cores = s.dev.compute.cores) ∧
    (∀ k c, Table.get? (s.dev.core core).scale k = some c →
      ((s.stepEnd core k).dev.core core).scale = Table.put (s.dev.core core).scale k { c with bits := c.bits.renew (scaleStep c.bits c.lo c.hi) })

/-- HOST_FEATURE_ITEM, HOST_SLOT_APPLY and FEATURE_WINDOW_END (R249, R251): an item is consumed and sent, one a ply of each ring, and takes effect
4,096 plies later; a window that ends with the ply is noted, and a feature's shift takes its step. -/
def Obligations.FeaturesFollow : Prop :=
  ∀ (s : State), s.dev.canonical = true →
    (∀ chan r i, (s.chan chan).input = some r → (s.ringConsume r).2 = some i → (s.ring r).tookPly ≠ some s.now →
      (hostItemGood i = true →
        ∃ t, exec (.hostFeatureItem chan) s = .next t ∧
          t.dev.objects = ((s.ringConsume r).1.onRing r fun x => { x with tookPly := some s.now }).dev.objects ∧
          t.dev.compute.hostItems = s.dev.compute.hostItems ++
            [{ chan, hgen := (s.chan chan).hgen, due := s.now + 4096, first := Bytes.at i.body 0,
               values := (List.range (Bytes.at i.body 1)).map fun j => Bytes.le i.body (4 + 4 * j) 4 }]) ∧
      (hostItemGood i = false → s.clearedNow pgFeature = false →
        ∃ t, exec (.hostFeatureItem chan) s = .next t ∧
          t.dev.objects = ((s.ringConsume r).1.onRing r fun x => { x with tookPly := some s.now }).dev.objects ∧
          t.dev.compute.hostItems = s.dev.compute.hostItems ∧ t.raised pgFeature 1)) ∧
    (∀ i rest, s.dev.compute.hostItems = i :: rest → i.due ≤ s.now → (s.chan i.chan).state ≠ .free → (s.chan i.chan).hgen = i.hgen →
      ∃ t, exec .hostSlotApply s = .next t ∧ t.dev.compute.hostItems = rest ∧
        t.dev.compute.hostSlots = writeSlots s.dev.compute.hostSlots (i.chan * 64 + i.first) i.values) ∧
    (∀ core chan gen g i, s.dev.gen? false chan gen = some g →
      (g.windowLog ≠ 0 → (s.now + 1) % 2 ^ g.windowLog = 0 →
        ∃ t, exec (.featureWindowEnd core chan gen) s = .next t ∧ t.dev.compute.windows = s.dev.compute.windows ++ [(core, chan, gen)] ∧
          t.dev.compute.cores = s.dev.compute.cores) ∧
      (((List.range g.featCount).filter fun i => g.ftAdapt i) = [i] →
        ((s.windowEnd core chan gen).dev.core core).feat = Table.modify { shift := g.ftParam i } (s.dev.core core).feat (genKey false chan gen * 256 + i)
          (Adapt.renew (windowStep (s.dev.featState core (genKey false chan gen) g i) (g.ft i 17 1) (g.ft i 18 1)))))

/-! ### Streams and the deep tier -/

/-- ARM, REARM, ACQUIRE, RELEASE, FLUSH and STREAM_CLOSE (R402 to R414) that find their stream as the command needs it: the stream afterwards, and the
context goes on to its next entry; one whose slots are all masked (R375) acts on none. An ARM may issue ahead of the entries before it (R370): its
context stays where it stands. -/
def Obligations.StreamsObey : Prop :=
  (∀ (s : State) (core ctx n : Nat) (x : Ctx) (e : Entry) (g : State) (q : StreamD) (u : Stream), s.dev.canonical = true →
    s.issues core ctx 5 x e g → e.sub = 0 → s.dev.streamOf core ctx x e = (q, n) → (s.dev.core core).stream n = u →
    (x.streams e = true →
      (q.cmd = 0 → u.armed = false →
        ∃ t, exec (.arm core ctx) s = .next t ∧ (t.ctx core ctx).idx = x.idx + 1 ∧ (t.dev.core core).stream n =
          { armed := true
            ty := q.ty
            slotBytes := q.slotBytes
            ring := q.ring
            member := q.member
            base := q.baseOf x e
            len0 := q.len0
            counts := q.counts
            strides := q.strides
            period := q.period
            slots := List.replicate q.slots {}
            lastUse := s.now }) ∧
      (u.armed = true →
        (q.cmd = 1 → u.ty ≠ 2 →
          ∃ t, exec (.rearm core ctx) s = .next t ∧ (t.ctx core ctx).idx = x.idx + 1 ∧ (t.dev.core core).stream n =
            Stream.settle { u with next := u.next ++ [{ base := q.baseOf x e, len0 := q.len0, counts := q.counts, strides := q.strides }] }) ∧
        (q.cmd = 2 → (s.start.core core).stream n = u → u.claimFault q.n = none → u.claimable q.n = true →
          ∃ t, exec (.acquire core ctx) s = .next t ∧ (t.ctx core ctx).idx = x.idx + 1 ∧ (t.dev.core core).stream n =
            { (u.claims q.n).foldl (fun t k => t.onSlot k fun s => { s with state := .claimed }) u with
              claimNext := u.claimNext + q.n
              claimPly := none
              lastUse := if u.ty = 0 then s.now else u.lastUse }) ∧
        (q.cmd = 3 → u.ty ≤ 1 → u.oldest + q.n ≤ u.claimNext →
          ∃ t, exec (.release core ctx) s = .next t ∧ (t.ctx core ctx).idx = x.idx + 1 ∧ (t.dev.core core).stream n = Stream.settle
            { ((List.range q.n).map (· + u.oldest)).foldl (fun t k => t.onSlot k fun _ =>
                if t.ty = 0 then {} else { state := .busy, seq := k, doneBytes := 0 }) u with
              oldest := u.oldest + q.n
              handed := if u.ty = 0 then u.handed else u.handed + q.n
              lastUse := if u.ty = 0 then u.lastUse else s.now }) ∧
        (q.cmd = 3 → u.ty = 2 → u.oldest + q.n ≤ u.claimNext →
          ∃ t, exec (.release core ctx) s = .next t ∧ (t.ctx core ctx).idx = x.idx + 1 ∧
            (t.dev.core core).peer.map (·.stream) = (s.dev.core core).peer.map (·.stream) ++ (List.range q.n).map fun i => some (n, u.oldest + i)) ∧
        (q.cmd = 4 → u.ty = 1 → u.quiet = true → u.writeFault = none →
          ∃ t, exec (.flush core ctx) s = .next t ∧ (t.ctx core ctx).idx = x.idx + 1 ∧ (t.dev.core core).stream n = u) ∧
        (q.cmd = 5 → u.ty = 0 ∨ u.quiet = true → u.writeFault = none →
          ∃ t, exec (.streamClose core ctx) s = .next t ∧ (t.ctx core ctx).idx = x.idx + 1 ∧
            (t.dev.core core).stream n = { u with armed := false, stopped := true }))) ∧
    (x.streams e = false → ∀ (c : Instr), q.cmd = 0 ∧ c = .arm core ctx ∨ q.cmd = 1 ∧ c = .rearm core ctx ∨ q.cmd = 2 ∧ c = .acquire core ctx ∨
        q.cmd = 3 ∧ c = .release core ctx ∨ q.cmd = 4 ∧ c = .flush core ctx ∨ q.cmd = 5 ∧ c = .streamClose core ctx →
      ∃ t, exec c s = .next t ∧ (t.ctx core ctx).idx = x.idx + 1 ∧ (t.dev.core core).streams = (s.dev.core core).streams)) ∧
  (∀ (s : State) (core ctx n : Nat) (x y : Ctx) (e f : Entry) (g : State) (q : StreamD), s.dev.canonical = true →
    s.ctx core ctx = x → s.dev.entryOf x = some e → e.op ≠ 5 → s.dev.streamPlace x = some (y, f) → f.op = 5 → f.sub = 0 →
    s.turn core ctx = true → s.canIssue core x = true → s.grant core x.task.cls f.energy = some g → s.dev.streamOf core ctx y f = (q, n) →
    q.cmd = 0 → y.streams f = true → ((s.dev.core core).stream n).armed = false →
    ∃ t, exec (.arm core ctx) s = .next t ∧ (t.ctx core ctx).idx = x.idx ∧ (t.ctx core ctx).ahead = x.ahead + 1 ∧
      ((t.dev.core core).stream n).armed = true ∧ ((t.dev.core core).stream n).base = q.baseOf y f)

/-- PIECE_ISSUE, PIECE_COMPLETE, WRITE_ACK, PIECE_RETRY and LOADING_TIMEOUT (R405 to R411, R413): a piece takes a tag and sets out for its vault, ends
in its turn there and returns the tag, or is tried again; an entry that has waited 100 µs for a held piece raises its fault. -/
def Obligations.PiecesComeAndGo : Prop :=
  ∀ (s : State) (core tag : Nat) (p : Piece), s.dev.canonical = true →
    (∀ n u a len task owner, (s.dev.core core).nextStream (s.readyStreams core) = some n → (s.dev.core core).stream n = u → u.armed = true →
      a = u.addrAt u.issued → len = u.pieceLen u.issued → task = ((s.dev.core core).ctx (n / 4)).task →
      owner = s.dev.pageCore core task.sched task.gen a → s.dev.halted = false → bit a 63 = false → u.ty ≠ 2 → s.dev.tags core < 64 →
      (s.dev.core core).lastPiece ≠ some s.now → s.start.pageCheck task.sched task.gen a (decide (u.ty = 1)) = pgPresent →
      ∃ t, exec (.pieceIssue core) s = .next t ∧ (t.dev.core core).stream n = { u.begin u.issued len with issued := u.issued + len } ∧
        ∃ q, q = { stream := n
                   off := u.issued
                   len := len
                   addr := a
                   write := decide (u.ty = 1)
                   sched := task.sched
                   gen := task.gen
                   owner := owner
                   issued := s.now
                   runDry := u.runDry
                   retry := none } ∧
          (t.dev.core core).pieces = (s.dev.core core).pieces ++ [q] ∧ t.dev.net = (s.launchPiece core q).dev.net) ∧
    ((s.dev.core core).pieces[tag]? = some p →
      (s.dev.served s.now core p = true → p.retry = none → p.write = false → p.discarded = false → ((s.dev.core core).stream p.stream).armed = true →
        ∃ t, exec (.pieceComplete core tag 0) s = .next t ∧ (t.dev.core core).pieces = (s.dev.core core).pieces.eraseIdx tag ∧
          (t.dev.core core).stream p.stream =
            { ((s.dev.core core).stream p.stream).finish p.off p.len with
              came := (s.now, (if ((s.dev.core core).stream p.stream).came.1 = s.now then ((s.dev.core core).stream p.stream).came.2 else 0) + 1) } ∧
          (t.dev.core core).scratch = ((s.readData core p.stream p.off p.len
            ((List.range p.len).map fun i => s.dev.pieceByte core p.sched p.gen (p.addr + i))).dev.core core).scratch) ∧
      (s.dev.served s.now core p = true → p.retry = none → p.write = true → ((s.dev.core core).stream p.stream).armed = true →
        (∀ r ∈ (s.dev.core core).pieces.take tag, r.write = true → r.stream ≠ p.stream ∨ (r.addr + r.len - 1) / 64 < p.addr / 64 ∨
          (p.addr + p.len - 1) / 64 < r.addr / 64) →
        ∃ t, exec (.writeAck core tag) s = .next t ∧ (t.dev.core core).pieces = (s.dev.core core).pieces.eraseIdx tag ∧
          (t.dev.core core).stream p.stream = (((s.dev.core core).stream p.stream).finish p.off p.len).settle) ∧
      (∀ r, p.retry = some r → r + 1024 ≤ s.now →
        (s.start.pageCheck p.sched p.gen p.addr p.write = pgPresent →
          ∃ t, exec (.pieceRetry core tag) s = .next t ∧
            (t.dev.core core).pieces = (s.dev.core core).pieces.modify tag (fun p => { p with retry := none })) ∧
        (s.start.pageCheck p.sched p.gen p.addr p.write = pgLoading →
          ∃ t, exec (.pieceRetry core tag) s = .next t ∧
            (t.dev.core core).pieces = (s.dev.core core).pieces.modify tag (fun p => { p with retry := some s.now })))) ∧
    (∀ ctx, s.dev.heldFor core ctx (s.ctx core ctx) = some p → s.canIssue core (s.ctx core ctx) = true →
      (∀ w, ((s.dev.core core).stream p.stream).claimPly = some w → w + plies100us ≤ s.now →
        s.start.pageCheck p.sched p.gen p.addr p.write ≠ pgPresent →
        ∃ t, exec (.loadingTimeout core ctx) s = .next t ∧ (t.ctx core ctx).fault = some 2 ∧
          (t.ctx core ctx).page = some (bits p.addr 62 61 * 2 ^ 61 + bits p.addr 46 21 * 2097152)) ∧
      (((s.dev.core core).stream p.stream).claimPly = none →
        ∃ t, exec (.loadingTimeout core ctx) s = .next t ∧ ((t.dev.core core).stream p.stream).claimPly = some s.now ∧
          (t.ctx core ctx).fault = (s.ctx core ctx).fault))

/-- EMIT_TOKEN, EMIT_RESULT and EMIT_STATE (R15, R345, R347, R349, R352, R380) on one slot: a routed expert on this device gets its request, a result
goes home, each over the links where the cores lie on two dies, and a decided token waits for the end of the ply, where it is done. Without COMMIT
none has an effect. -/
def Obligations.TokensEmit : Prop :=
  ∀ (s : State) (core ctx i : Nat) (x : Ctx) (e : Entry) (h : State), s.dev.canonical = true →
    (s.issues core ctx 8 x e h → e.commit = false → ∀ (c : Instr) (bad : Bool), (e.sub = 1 ∧ c = .emitToken core ctx) ∨
        (e.sub = 2 ∧ c = .emitResult core ctx) ∨ (e.sub = 3 ∧ c = .emitState core ctx bad) →
      ∃ t, exec c s = .next t ∧ (t.ctx core ctx).idx = x.idx + 1 ∧ t.dev.compute.tokens = s.dev.compute.tokens ∧
        t.dev.compute.reqFlight = s.dev.compute.reqFlight ∧ t.dev.compute.resFlight = s.dev.compute.resFlight ∧ t.dev.flow = s.dev.flow) ∧
    (∀ k a g ex ee, s.issues core ctx 8 x e h → x.slots e = [i] → e.sub = 1 → e.commit = true → s.dev.slotToken x i = some (k, a, g) →
      g.lType a.cur = 3 → a.scores ≠ [] → a.reqs = [] → topExperts (g.lTopk a.cur) a.scores = [ex] → ee = s.dev.expertE a.core g a.cur ex →
      s.dev.team.here ee.member = true → s.dev.coreActive ee.core = true →
      ∃ t q, exec (.emitToken core ctx) s = .next t ∧ (t.ctx core ctx).idx = x.idx + 1 ∧
        t.dev.compute.reqFlight = s.dev.compute.reqFlight ++ [q] ∧ q.dm = a.dm ∧ q.gen = a.gen ∧ q.layer = a.cur ∧ q.expert = ex ∧
        q.homeMember = s.dev.team.self ∧ q.homeCore = a.core ∧ q.stateSlot = a.stateSlot ∧ q.tenancy = a.tenancy ∧ q.sent = s.now ∧
        q.parcel = s.dev.parcelNo (coreDie a.core) (coreDie ee.core) ∧
        t.dev.token? k = some { a with
          reqs := [{ expert := ex, layer := a.cur, member := ee.member, sent := s.now }] }) ∧
    (∀ q, s.issues core ctx 8 x e h → x.slots e = [i] → e.sub = 2 → e.commit = true → e.idxEn = true → x.task.owner = 3 →
      x.task.reqs[i]? = some q → s.dev.team.here q.homeMember = true →
      ∃ t, exec (.emitResult core ctx) s = .next t ∧ (t.ctx core ctx).idx = x.idx + 1 ∧
        t.dev.compute.resFlight = s.dev.compute.resFlight ++ [{ q with
          y := Table.get [] x.results i
          parcel := s.dev.parcelNo (coreDie core) (coreDie q.homeCore) }]) ∧
    (∀ k a g d bad, s.issues core ctx 8 x e h → x.slots e = [i] → e.sub = 3 → e.commit = true → s.dev.slotToken x i = some (k, a, g) →
      a.decided = some d →
      ∃ t, exec (.emitState core ctx bad) s = .next t ∧ (t.ctx core ctx).idx = x.idx + 1 ∧
        t.dev.flow.due = s.dev.flow.due ++ [.head k bad]) ∧
    (∀ k a g d bad, s.dev.token? k = some a → s.dev.gen? true a.dm a.gen = some g → a.decided = some d →
      slotHdrGood (s.dev.slotHdr a.core a.stateSlot) = true → (s.headAct k bad).dev.token? k = none)

/-- EXPERT_REQUEST, EXPERT_BATCH_CLOSE, EXPERT_RESULT, EXPERT_MISSED and TOKEN_ABANDONED (R348 to R350, R358): a request joins its expert's queue, a
batch that is due becomes a task, a result is matched to its request, and what comes too late is missed or abandoned. -/
def Obligations.ExpertsAnswer : Prop :=
  ∀ (s : State) (k : Nat), s.dev.canonical = true →
    (∀ q g, s.dev.compute.reqFlight[k]? = some q → s.dev.reached s.now (.parcel q.parcel) = true → s.dev.gen? true q.dm q.gen = some g →
      (s.start.tempo (coreDie (s.dev.expertE q.homeCore g q.layer q.expert).core)).stage = 0 →
      ∃ t, exec (.expertRequest k) s = .next t ∧ t.dev.compute.reqFlight = s.dev.compute.reqFlight.eraseIdx k ∧
        t.dev.compute.expertQ = Table.modify [] s.dev.compute.expertQ (expertKey q.dm q.gen q.layer q.expert)
          (fun l => l ++ [{ q with joined := s.now }])) ∧
    (∀ dm gen layer expert g q rest core thin, s.dev.gen? true dm gen = some g →
      Table.get [] s.dev.compute.expertQ (expertKey dm gen layer expert) = q :: rest →
      32 ≤ (q :: rest).length ∨ q.joined + g.expertHold ≤ s.now ∨ q.sent + g.remoteLimit ≤ s.now + 1 →
      core = (s.dev.expertE q.homeCore g layer expert).core → thin = decide (((q :: rest).take 32).length ≤ g.lThin layer) →
      ∃ t, exec (.expertBatchClose dm gen layer expert) s = .next t ∧
        t.dev.compute.expertQ = Table.set [] s.dev.compute.expertQ (expertKey dm gen layer expert) ((q :: rest).drop 32) ∧
        (t.dev.core core).tasks = (s.dev.core core).tasks ++
          [{ sched := deepSched dm (Config.deepTable dm (if thin then 2 else 1) (layer * 4096 + expert))
             gen := gen
             owner := 3
             cls := 2
             lc := [((q :: rest).take 32).length]
             deadline := q.sent + g.remoteLimit
             reqs := (q :: rest).take 32 }]) ∧
    (∀ q j a, s.dev.compute.resFlight[k]? = some q → s.dev.reached s.now (.parcel q.parcel) = true → s.dev.team.here q.homeMember = true →
      (s.dev.compute.tokens.find? fun e => decide (e.2.core = q.homeCore ∧ e.2.dm = q.dm ∧ e.2.gen = q.gen ∧ e.2.stateSlot = q.stateSlot ∧
        e.2.tenancy = q.tenancy ∧ e.2.number % 65536 = q.token)) = some (j, a) → s.dev.token? j = some a →
      ∃ t, exec (.expertResult k) s = .next t ∧ t.dev.compute.resFlight = s.dev.compute.resFlight.eraseIdx k ∧
        t.dev.token? j = some { a with reqs := a.reqs.map (fun p =>
          if p.outstanding q.layer q.expert = true then { p with result := some q.y, came := s.now } else p) }) ∧
    (∀ a g, s.dev.token? k = some a → s.dev.gen? true a.dm a.gen = some g → s.clearedNow pgDeep = false →
      (∀ expert r, (a.reqs.find? fun q => decide (q.expert = expert) && q.result.isNone && !q.missed) = some r →
        r.sent + g.remoteLimit ≤ s.now →
        ∃ t, exec (.expertMissed k expert) s = .next t ∧ t.raised pgDeep 1 ∧
          t.dev.token? k = some { a with reqs := a.reqs.map fun q => if q.outstanding r.layer expert then { q with missed := true } else q }) ∧
      (a.formed + g.tokenLimit ≤ s.now → (∀ bad, .head k bad ∉ s.dev.flow.due) →
        ∃ t, exec (.tokenAbandoned k) s = .next t ∧ t.raised pgDeep 2 ∧ t.dev.compute.tokens = Table.erase s.dev.compute.tokens k))

/-- TEAM_DATA, TEAM_CREDIT and PEER_SEND (R355 to R358, R407, R414): a frame whose tag does not hold counts as bad; one that opens is noted in its
window, its records counted or its GRANT taken; the slot that is next is framed and sets out for its port against the credit of its member, or is
freed unsent where no port is up. -/
def Obligations.TeamsTrade : Prop :=
  (∀ (s : State) (port : Nat) (f : Bytes) (h : SelidHead) (s1 : State), s.dev.canonical = true →
    s.start.team.members ≠ 0 → 1 ≤ h.session → h.session ≤ s.start.team.members → h.session - 1 ≠ s.start.team.self → h.fragIndex = 0 →
    h.fragLast = 0 → 64 ≤ f.length →
    (s.takePeer port 8 f = (s1, some h) →
      ∃ t, exec (.teamData port f) s = .next t ∧
        (Config.gcmOpen s.start.team.key (s.start.team.salt ++ toLE 8 h.seq) h.header h.payload = none →
          t.dev.ctr pgDeep (0x100 + 8 * 16) = s.dev.ctr pgDeep (0x100 + 8 * 16) + 1 ∧ t.dev.team = s.dev.team) ∧
        (∀ p g, Config.gcmOpen s.start.team.key (s.start.team.salt ++ toLE 8 h.seq) h.header h.payload = some p →
          (Table.get {} s.dev.team.rx port).ok h.seq = true → Bytes.le p 0 2 = s.start.team.id →
          s.dev.gen? true (Bytes.at p 2 % 16) (Bytes.at p 3) = some g → Bytes.le p 4 4 = g.imageTag →
          Bytes.at p 2 / 16 = 1 ∨ Bytes.at p 2 / 16 = 2 → 1 ≤ Bytes.at p 9 → Bytes.at p 9 ≤ 32 →
          t.dev.team.rx = Table.put s.dev.team.rx port ((Table.get {} s.dev.team.rx port).note h.seq) ∧
          t.dev.ctr pgDeep (0x100 + 8 * 15) = s.dev.ctr pgDeep (0x100 + 8 * 15) + 1)) ∧
    (s.takePeer port 9 f = (s1, some h) →
      ∃ t, exec (.teamCredit port f) s = .next t ∧
        ∀ p, Config.gcmOpen s.start.team.key (s.start.team.salt ++ toLE 8 h.seq) h.header h.payload = some p →
          (Table.get {} s.dev.team.rx port).ok h.seq = true → Bytes.le p 0 2 = s.start.team.id →
          Table.get 0 t.dev.team.grant (teamKey port (h.session - 1)) =
            if laterThan 32 (Bytes.le p 4 4) (Table.get 0 s.dev.team.grant (teamKey port (h.session - 1))) then Bytes.le p 4 4
            else Table.get 0 s.dev.team.grant (teamKey port (h.session - 1)))) ∧
  (∀ (s : State) (core i : Nat) (p : PeerSlot), s.dev.canonical = true → core < 800 → s.nextPeer core = some i → (s.dev.core core).peer[i]? = some p →
    (∀ q r, s.dev.peerPort p = some q → mirrorLen p.plain.length ≤ s.maxFrame q → s.dev.tags core < 64 → s.dev.peerGoes p = true →
      r = s.dev.peerFrame q 8 (s.start.team.self + 1) (Table.get 0 s.dev.team.tx q + 1) s.start.team.key s.start.team.salt p.plain →
      ∃ t, exec (.peerSend core) s = .next t ∧ (t.dev.core core).peer = (s.dev.core core).peer.eraseIdx i ∧
        t.dev.net.flits = s.dev.net.flits ++
          [{ cls := clsStream
             order := match p.stream with
               | some (n, _) => ((s.dev.core core).stream n).runDry
               | none => p.order
             die := coreDie core, route := dieRoute (coreDie core) (portDieNo q), ready := s.now, bytes := r.length
             cargo := .send { port := q, sub := 0, len := r.length, out := .frame q 0 r, core := some core } }] ∧
        Table.get 0 t.dev.team.sent (teamKey q p.member) =
          (Table.get 0 s.dev.team.sent (teamKey q p.member) + units (mirrorLen p.plain.length)) % 2 ^ 32) ∧
    (s.dev.peerPort p = none →
      ∃ t, exec (.peerSend core) s = .next t ∧ (t.dev.core core).peer = (s.dev.core core).peer.eraseIdx i ∧ t.dev.net = s.dev.net ∧
        t.dev.team = s.dev.team))

/-! ### Flow tables -/

/-- TABLE_SEARCH, TABLE_DELETE and TABLE_NEXT (R230, R232): a search answers with the entry as it stood, a deletion removes it, and a walk answers
with the entries met and the cursor reached. -/
def Obligations.TablesAnswer : Prop :=
  ∀ (s : State) (sess n core : Nat) (x : Session) (c : Cmd) (key : Bytes), s.dev.canonical = true →
    (key = Bytes.slice c.body 8 48 → bodyKeyRsv c.body = none → bodyKeyBad c.body = none → s.tableReady sess 0x30 56 n x c →
      64 ≤ bodyRoom x c.route → core = (s.start.chan n).steer key →
      (∀ l failed dup, s.start.find core n (s.start.chan n).hgen (decide (Bytes.at c.body 0 = 1)) key false false = (some l, failed, dup) →
        ∃ t, exec (.tableSearch sess false false) s = .next t ∧ t.dev.flow = s.dev.flow ∧
          t.answered sess c stOK 0 (Bytes.slice (s.start.entry l) 0 64)) ∧
      (∀ dup, s.start.find core n (s.start.chan n).hgen (decide (Bytes.at c.body 0 = 1)) key false false = (none, 0, dup) →
        ∃ t, exec (.tableSearch sess false false) s = .next t ∧ t.dev.flow = s.dev.flow ∧ t.answered sess c stNotFound 0 [])) ∧
    (key = Bytes.slice c.body 8 48 → bodyKeyRsv c.body = none → bodyKeyBad c.body = none → s.tableReady sess 0x34 56 n x c →
      core = (s.dev.chan n).steer key →
      (∀ l failed dup, s.tables.find core n (s.dev.chan n).hgen (decide (Bytes.at c.body 0 = 1)) key false false = (some l, failed, dup) →
        ((s.dev.slice core).latch = none →
          ∃ t, exec (.tableDelete sess false false) s = .next t ∧ t.dev.entry l = entryRemoved (s.dev.entry l) ∧
            (∀ k, k ≠ l → k.inRange = true → l.inRange = true → t.dev.entry k = s.dev.entry k) ∧
            t.answered sess c stOK 0 []) ∧
        (∀ a b p, (s.dev.slice core).latch = some (a, b, p) → l = .exact core a → a ≠ b → a < 524288 → b < 524288 →
          ∃ t, exec (.tableDelete sess false false) s = .next t ∧ t.dev.entry l = entryRemoved (s.dev.entry l) ∧
            t.dev.entry (.exact core b) = sealEntry (eFlag 12 false (s.dev.entry (.exact core b))) ∧ (t.dev.slice core).latch = none ∧
            t.answered sess c stOK 0 [])) ∧
      (∀ dup, s.tables.find core n (s.dev.chan n).hgen (decide (Bytes.at c.body 0 = 1)) key false false = (none, 0, dup) →
        ∃ t, exec (.tableDelete sess false false) s = .next t ∧ t.dev.flow = s.dev.flow ∧ t.answered sess c stNotFound 0 [])) ∧
    (∀ l, s.ready sess 0x31 = some (x, c) → c.body.length = 16 → Bytes.le c.body 2 2 = 0 → Bytes.at c.body 0 ≤ 1 → 1 ≤ Bytes.at c.body 1 →
      Bytes.at c.body 1 ≤ 64 → cursorLoc (decide (Bytes.at c.body 0 = 1)) (Bytes.le c.body 8 8) = some l → Bytes.le c.body 4 4 = 0 →
      16 + 64 * Bytes.at c.body 1 ≤ bodyRoom x c.route →
      ∃ t es cur, exec (.tableNext sess) s = .next t ∧ t.dev.flow = s.dev.flow ∧
        s.start.walk (decide (Bytes.at c.body 0 = 1)) none 4096 (Bytes.at c.body 1) (Bytes.le c.body 8 8) [] = (es, cur) ∧
        t.answered sess c stOK 0 (toLE 8 cur ++ toLE 4 es.length ++ zeros 4 ++ es.flatten))

/-- TABLE_INSERT and LEARNING_INSERTION (R49, R51, R216, R221 to R223, R231), and TABLE_FLUSH (R233): an insertion waits for the end of its ply; there
a direct entry takes a free line, a place in use answers EXISTS, one that the ply's flush covers is discarded (its answer is the model's choice, log
entry 133), and an exact entry takes the lowest free slot of its first candidate bucket, or of its second; a flush begins its sweep. -/
def Obligations.TablesFill : Prop :=
  ∀ (s : State), s.dev.canonical = true →
    (∀ sess n x c w e key direct, s.tableReady sess 0x33 72 n x c → direct = decide (Bytes.at c.body 0 = 1) → entryRsv c.body = none →
      entryBad c.body = none → (direct = false → Bytes.at c.body 49 % 2 = (s.dev.chan n).keyKind) →
      w = Bytes.le (Bytes.slice c.body 8 64) 42 2 →
      e = Bytes.patch (Bytes.patch (Bytes.slice c.body 8 64) 42 (toLE 2 (n + 4096 + b2n (bit w 14) * 16384 + b2n (bit w 15) * 32768))) 58
        (toLE 2 (s.dev.chan n).hgen ++ [0, 0]) →
      key = (if direct then Bytes.slice e 0 42 ++ zeros 6 else flowKeyOf e) →
      ∃ t, exec (.tableInsert sess) s = .next t ∧ t.dev.flow.due = s.dev.flow.due ++ [.insert ((s.dev.chan n).steer key) direct
        { who := .host sess, slot := n, hgen := (s.dev.chan n).hgen, key := key, entry := e }]) ∧
    (∀ die, die < 4 → ∃ t, exec (.learningInsertion die) s = .next t ∧ t.dev.flow.due = s.dev.flow.due ++ [.agent die]) ∧
    (∀ core i l, l = .direct (coreDie core) (Bytes.le i.key 0 3 % 1048576) →
      (s.dev.flushedNow s.now true i.slot (ePort i.entry) = true → (s.present core true i).dev.entry l = s.dev.entry l) ∧
      (s.dev.flushedNow s.now true i.slot (ePort i.entry) = false → eValid (s.dev.entry l) = true →
        (s.present core true i).dev.entry l = s.dev.entry l) ∧
      (s.dev.flushedNow s.now true i.slot (ePort i.entry) = false → entryFailed (s.dev.entry l) = false → eValid (s.dev.entry l) = false →
        s.dev.badLine (directLine (coreDie core) (Bytes.le i.key 0 3 % 1048576)).1
          (directLine (coreDie core) (Bytes.le i.key 0 3 % 1048576)).2 = none → s.dev.pair.adoptFrom = none →
        (s.present core true i).dev.entry l = sealEntry (Bytes.patch i.entry 44 (toLE 3 s.stamp))) ∧
      (∀ n x c, i.who = .host n → s.session? n = some x → x.cmds.find? (fun c => decide (c.opcode = 0x33)) = some c →
        (s.present core true i).answered n c (if s.dev.flushedNow s.now true i.slot (ePort i.entry) then stOK
          else if entryFailed (s.dev.entry l) || (s.dev.badLine (directLine (coreDie core) (Bytes.le i.key 0 3 % 1048576)).1
            (directLine (coreDie core) (Bytes.le i.key 0 3 % 1048576)).2).isSome then stFault
          else if eValid (s.dev.entry l) then stExists else stOK) 0 [])) ∧
    (∀ core i h b1 b2 p, (s.dev.slice core).latch = none → (s.dev.slice core).running = none → (s.dev.slice core).waiting = [] →
      s.dev.flushedNow s.now false i.slot (ePort i.entry) = false → s.faultedNow core i = false → i.path = [] → i.moves = 0 →
      s.tables.candidates core i.slot i.key = (h, b1, b2) →
      (s.tables.search core i.slot i.hgen i.key (s.tables.bucketBad core b1).isSome (s.tables.bucketBad core b2).isSome).1 = [] →
      (s.tables.freeIn core b1 = some p ∨ s.tables.freeIn core b1 = none ∧ s.tables.freeIn core b2 = some p) → s.dev.pair.adoptFrom = none →
      (s.present core false i).dev.entry (.exact core p) = sealEntry (Bytes.patch i.entry 44 (toLE 3 s.stamp)) ∧
        ((s.present core false i).dev.slice core).running = none) ∧
    (∀ die r it n e key l s1, s.dev.flow.learnRings[die]? = some r → s.dev.rg pgFlowCtl 0x54 % 2 = 0 → s.dev.startUp.restart = none →
      s.dev.reliab.stopped ≠ 255 → s.ringConsume r = (s1, some it) → it.kind = 0x11 → bit (Bytes.le it.body 4 2) 10 = true →
      s1.chanOf (Bytes.le it.body 0 4) = some n → e = noticeEntry it.body n (s1.dev.chan n).hgen true → key = Bytes.slice it.body 16 48 →
      l = .direct (coreDie (Bytes.le it.body 4 2 % 1024)) (Bytes.le key 0 3 % 1048576) → s1.dev.flushedNow s1.now true n (ePort e) = false →
      entryFailed (s1.dev.entry l) = false → eValid (s1.dev.entry l) = false → s1.dev.pair.adoptFrom = none →
      s1.dev.badLine (directLine (coreDie (Bytes.le it.body 4 2 % 1024)) (Bytes.le key 0 3 % 1048576)).1
        (directLine (coreDie (Bytes.le it.body 4 2 % 1024)) (Bytes.le key 0 3 % 1048576)).2 = none → s1.dev.canonical = true →
      (s.learn die).dev.entry l = sealEntry (Bytes.patch e 44 (toLE 3 s1.stamp)) ∧ (s.learn die).dev.objects = s1.dev.objects) ∧
    (∀ sess x c, s.ready sess 0x32 = some (x, c) → c.body.length = 12 → Bytes.le c.body 2 2 = 0 → Bytes.at c.body 0 ≤ 1 → Bytes.at c.body 1 ≤ 1 →
      (Bytes.at c.body 1 = 1 → (s.chanOf (Bytes.le c.body 8 4)).isSome = true) → 16 ≤ bodyRoom x c.route → s.dev.flow.flush = none →
      ∃ t, exec (.tableFlush sess) s = .next t ∧ t.dev.flow.lastFlush = t.dev.flow.flush ∧ t.dev.flow.flush = some
        { table := Bytes.at c.body 0
          byChannel := decide (Bytes.at c.body 1 = 1)
          ports := Bytes.le c.body 4 4
          slot := Bytes.le c.body 8 4 % 4096
          sess := sess
          start := s.now })

/-- FLUSH_SWEEP_VISIT, FLUSH_DONE and SCAN_VISIT (R49, R51, R225, R228, R233): a sweep removes what its scope covers, from both places of an entry in
the move latch, and answers when no place is left; a visit of the scanner waits for the end of its ply, where failed, aged and stale entries go and
one in the move latch is passed over.

RELOCATION_MOVE, STASH_MOVE and PENDING_FILTER_EXPIRE (R49, R218, R224, R225, R227): at the end of the ply a relocation goes on along its path and a
stash entry moves to the slot that an entry has left; the filter forgets keys after 100 µs. -/
def Obligations.TablesAreTended : Prop :=
  (∀ (s : State) (unit pos : Nat), s.dev.canonical = true →
      (∀ f l, s.dev.flow.flush = some f → l = (if f.table = 0 then Loc.exact unit pos else .direct unit pos) → Table.get 0 f.swept unit ≤ pos →
        s.dev.unswept f unit pos = false → (∀ p, (s.dev.slice unit).latch ≠ some (pos, pos, p)) →
        ∃ t, exec (.flushSweepVisit unit pos) s = .next t ∧
          t.dev.flow.flush = some { f with removed := f.removed + b2n (f.covers (s.dev.entry l)), swept := Table.put f.swept unit (pos + 1) } ∧
          t.dev.entry l = (if f.covers (s.dev.entry l) then entryRemoved (s.dev.entry l) else s.dev.entry l) ∧
          ∀ a b p, f.table = 0 → f.covers (s.dev.entry l) = true → (s.dev.slice unit).latch = some (a, b, p) → pos = a ∨ pos = b →
            a < 524288 → b < 524288 →
            (t.dev.slice unit).latch = none ∧ eValid (t.dev.entry (.exact unit a)) = false ∧ eValid (t.dev.entry (.exact unit b)) = false) ∧
      (∀ f x c, s.dev.flow.flush = some f → (∀ u, s.dev.unswept f u 1048576 = false) → s.session? f.sess = some x →
        x.cmds.find? (fun c => decide (c.opcode = 0x32)) = some c → s.clearedNow pgFlowCtl = false →
        ∃ t, exec .flushDone s = .next t ∧ t.dev.flow.flush = none ∧ t.raised pgFlowCtl 1 ∧
          t.answered f.sess c stOK 0 (toLE 4 f.removed ++ zeros 4 ++ toLE 8 s.now)) ∧
      (∀ direct, (direct = false → s.dev.coreActive unit = true) →
        ∃ t, exec (.scanVisit direct unit pos) s = .next t ∧ t.dev.flow.due = s.dev.flow.due ++ [.visit direct unit pos]) ∧
      (∀ direct l, (direct = false → (s.dev.slice unit).latch = none) → l = (if direct then Loc.direct unit pos else .exact unit pos) →
        s.resetNow = false →
        (entryFailed (s.dev.entry l) = true → s.clearedNow (statPage l.die) = false →
          (s.scan l).dev.entry l = entryRemoved (s.dev.entry l) ∧ (s.scan l).raised (statPage l.die) 0) ∧
        (∀ cfg, entryFailed (s.dev.entry l) = false → eValid (s.dev.entry l) = true → eStatic (s.dev.entry l) = false →
          cfg = s.rg pgFlowCtl (if direct then 0x4C else 0x48) → bit cfg 31 = true →
          cfg % 16777216 ≤ age24 s.stamp (eStamp (s.dev.entry l)) → (s.scan l).dev.entry l = entryRemoved (s.dev.entry l)) ∧
        (entryFailed (s.dev.entry l) = false → eValid (s.dev.entry l) = true → s.start.stale l (s.dev.entry l) = true →
          (s.scan l).dev.entry l = entryRemoved (s.dev.entry l))) ∧
      (∀ a b p, (s.dev.slice unit).latch = some (a, b, p) → pos = a ∨ pos = b → s.scan (.exact unit pos) = s)) ∧
  (∀ (s : State) (core : Nat), s.dev.canonical = true →
      (core < 800 →
        (∃ t, exec (.relocationMove core) s = .next t ∧ t.dev.flow.due = s.dev.flow.due ++ [.move core]) ∧
        (∃ t, exec (.stashMove core) s = .next t ∧ t.dev.flow.due = s.dev.flow.due ++ [.stash core])) ∧
      (∀ a b p i a' b' k rest, (s.dev.slice core).latch = some (a, b, p) → p < s.now → (s.dev.slice core).running = some i →
        i.path = (a', b', k) :: rest → a' ≠ a → b' ≠ a → b' ≠ a' → a < 524288 → a' < 524288 → b' < 524288 →
        s.dev.flushedNow s.now false i.slot (ePort i.entry) = false → s.faultedNow core i = false →
        moveMark (s.dev.entry (.exact core a')) = k → s.dev.placeFree core b' = true →
        (s.moveSecond core).dev.entry (.exact core a) = sealEntry (eFlag 12 false (s.dev.entry (.exact core a))) ∧
          (s.moveSecond core).dev.entry (.exact core b') = sealEntry (s.dev.entry (.exact core a')) ∧
          ((s.moveSecond core).dev.slice core).latch = some (a', b', s.now) ∧
          ((s.moveSecond core).dev.slice core).running = some { i with path := rest, moves := i.moves + 1 }) ∧
      (∀ pos p q, (s.dev.slice core).left = [(pos, p)] → p < s.now → (s.dev.slice core).latch = none → s.dev.placeFree core pos = true →
        s.tables.stashFor core (pos / 4) = some q → pos < 524288 →
        (s.stashIn core).dev.entry (.exact core pos) = sealEntry (s.dev.entry (.exact core q)) ∧
          ((s.stashIn core).dev.slice core).latch = some (q, pos, s.now)) ∧
      ∃ t, exec (.pendingFilterExpire core) s = .next t ∧ t.dev.flow.slices = Table.modify {} s.dev.flow.slices core fun x =>
        { x with filter := x.filter.filter fun f => decide (s.now < f.ply + plies100us) })

/-! ### Staging, generations and the scoresheet -/

/-- STAGE_OPEN, STAGE_DATA, STAGE_VERIFY and STAGE_DISCARD (R424 to R426, R431): an operation takes the next slot, takes bytes into its image, is
verified when whole, and is given up. -/
def Obligations.ImagesAreStaged : Prop :=
  ∀ (s : State) (sess k : Nat) (x : Session) (c : Cmd) (g : StageOp), s.dev.canonical = true →
    (∀ h len pool, s.stageReady sess 0x50 x c → c.body.length = 16 → h = Bytes.le c.body 0 4 → Bytes.le c.body 4 4 = 0 →
      (h ≠ 0 → ∃ n, s.chanOf h = some n ∧ (s.dev.chan n).state ≠ .draining ∧
        (s.dev.objects.stages.any fun e => decide (e.2.state ≠ .free ∧ e.2.chan = some n)) = false) →
      len = Bytes.le c.body 8 8 → 128 ≤ len → len ≤ 2 ^ 41 → 4 ≤ bodyRoom x c.route → s.dev.objects.stagePool.take 16 = some (k, pool) →
      ∃ t, exec (.stageOpen sess) s = .next t ∧ t.dev.objects.stagePool = pool ∧
        Table.get {} t.dev.objects.stages k =
          { state := .open_, hgen := (Table.get {} s.dev.objects.stages k).hgen, sess := sess, chan := if h = 0 then none else s.chanOf h
            len := len } ∧
        t.answered sess c stOK 0 (toLE 4 (handleOf 2 (Table.get {} s.dev.objects.stages k).hgen k))) ∧
    (s.stageReady sess 0x51 x c → 16 ≤ c.body.length → Bytes.le c.body 4 4 = 0 → s.dev.stageOf (Bytes.le c.body 0 4) = some (k, g) →
      g.state = .open_ → Bytes.le c.body 8 8 + (c.body.drop 16).length ≤ g.len →
      (g.put (Bytes.le c.body 8 8) (c.body.drop 16)).early (Bytes.le c.body 8 8) (c.body.drop 16).length = false →
      s.dev.framesShort k (g.put (Bytes.le c.body 8 8) (c.body.drop 16)) = false → 8 ≤ bodyRoom x c.route →
      ∃ t, exec (.stageData sess) s = .next t ∧
        Table.get {} t.dev.objects.stages k = g.put (Bytes.le c.body 8 8) (c.body.drop 16) ∧
        t.answered sess c stOK 0 (toLE 8 (prefixLen (g.put (Bytes.le c.body 8 8) (c.body.drop 16)).got))) ∧
    (s.stageReady sess 0x52 x c → c.body.length = 8 → Bytes.le c.body 5 3 = 0 → s.dev.stageOf (Bytes.le c.body 0 4) = some (k, g) →
      Bytes.at c.body 4 ≤ 1 → 16 ≤ bodyRoom x c.route →
      (g.state = .open_ → prefixLen g.got = g.len →
        ∃ t, exec (.stageVerify sess) s = .next t ∧ Table.get {} t.dev.objects.stages k =
          { g with state := .verifying, degraded := decide (Bytes.at c.body 4 = 1), verifier := sess }) ∧
      (g.state ≠ .open_ ∨ prefixLen g.got ≠ g.len →
        ∃ t, exec (.stageVerify sess) s = .next t ∧ t.dev.objects = s.dev.objects ∧ t.answered sess c stStageState 0 [])) ∧
    (s.stageReady sess 0x54 x c → c.body.length = 4 → s.dev.stageOf (Bytes.le c.body 0 4) = some (k, g) →
      (g.state ≠ .verifying →
        ∃ t, exec (.stageDiscard sess) s = .next t ∧ t.dev.objects.stages = Table.set {} s.dev.objects.stages k g.release ∧
          t.dev.objects.stagePool = s.dev.objects.stagePool.release k ∧ t.answered sess c stOK 0 []) ∧
      (g.state = .verifying →
        ∃ t, exec (.stageDiscard sess) s = .next t ∧ (Table.get {} t.dev.objects.stages k).discard = true ∧
          (Table.get {} t.dev.objects.stages k).waiters = g.waiters ++ [sess]))

/-- VERIFICATION_END, STAGE_SWAP and GEN_RETIRE (R426 to R435): a verification is answered with what the checks come to, a swap makes the next
generation current and the last one drains, and a drained one is gone. -/
def Obligations.GenerationsTurn : Prop :=
  ∀ (s : State) (sess k : Nat) (x : Session) (c : Cmd) (g : StageOp), s.dev.canonical = true →
    (Table.get {} s.dev.objects.stages k = g → s.dev.reliab.stopped ≠ 255 → g.state = .verifying → g.discard = false → g.sess ≠ 0 → s.session? g.verifier = some x →
      x.cmds.find? (fun c => decide (c.opcode = 0x52)) = some c →
      ∃ t, exec (.verificationEnd k) s = .next t ∧
        t.answered g.verifier c (s.dev.verify k g).status (s.dev.verify k g).detail (s.dev.verify k g).body ∧
        ((s.dev.verify k g).op = none →
          t.dev.objects.stages = Table.set {} s.dev.objects.stages k { g with state := .open_, verifier := 0 }) ∧
        (∀ a, (s.dev.verify k g).op = some a → t.dev.objects.stages = Table.set {} s.dev.objects.stages k { a with verifier := 0 })) ∧
    (∀ n key, s.stageReady sess 0x53 x c → c.body.length = 4 → s.dev.stageOf (Bytes.le c.body 0 4) = some (k, g) → 16 ≤ bodyRoom x c.route →
      g.state = .accepted → s.drains g.chan.isNone g.candidate.target = false →
      (s.start.compute.retired.any fun e => decide (e.1 = stageKey k)) = false →
      n = nextGen (s.dev.lastGen g.chan.isNone g.candidate.target) →
      key = genKey (decide (g.candidate.kind = 2)) g.candidate.target n →
      ∃ t, exec (.stageSwap sess) s = .next t ∧ Table.get? t.dev.objects.gens key = some { g.candidate with
          gen := n
          bound := g.bound
          rate := g.rate
          degraded := g.degradedRate
          quarters := g.quarters
          cores := if g.candidate.kind = 2 then [] else s.dev.candCores g.candidate } ∧
        (∀ j e, j ≠ key → Table.get? s.dev.objects.gens j = some e → e.kind = g.candidate.kind → e.target = g.candidate.target →
          e.state = .current → Table.get? t.dev.objects.gens j = some { e with state := .draining, drainFrom := s.now }) ∧
        t.dev.objects.stages = Table.set {} s.dev.objects.stages k g.release ∧
        t.answered sess c stOK 0 ([byte n] ++ zeros 7 ++ toLE 8 s.now)) ∧
    (∀ deep target gen q, s.dev.gen? deep target gen = some q → s.canRetire deep q = true → s.clearedNow pgStaging = false →
      ∃ t, exec (.genRetire deep target gen) s = .next t ∧ t.raised pgStaging 2 ∧
        t.dev.objects.gens = Table.erase s.dev.objects.gens (genKey deep target gen))

/-- SCORE_START, SCORE_STOP, REPLAY_START, REPLAY_STOP, REPLAY_INJECT and REPLAY_END (R528, R532 to R535): recording and replay begin, answer and
end; a frame due is injected, or skipped and counted. -/
def Obligations.ScoresheetsRun : Prop :=
  ∀ (s : State) (sess r : Nat) (x : Session) (c : Cmd) (u : State), s.dev.canonical = true →
    (s.ready sess 0x70 = some (x, c) → c.body.length = 4 → Bytes.le c.body 0 4 < 16 → 8 ≤ bodyRoom x c.route →
      (Bytes.le c.body 0 4 ≠ 0 → s.dev.score.mode = 0 → s.dev.scoreShort (s.rg pgScore 0x40 % 64) = false →
        (s.freeOpt s.dev.score.ring).allocRing 0 .score (s.rg pgScore 0x40 % 64) false = (u, some r) →
        ∃ t, exec (.scoreStart sess) s = .next t ∧ t.dev.score.mode = 1 ∧ t.dev.score.what = Bytes.le c.body 0 4 ∧
          t.dev.score.capture = bits (s.rg pgScore 0x40) 13 8 ∧ t.dev.score.startPly = s.now + 1 ∧ t.dev.score.ring = some r ∧
          t.answered sess c stOK 0 (toLE 8 (s.now + 1))) ∧
      (Bytes.le c.body 0 4 = 0 → s.dev.score.mode = 1 →
        ∃ t, exec (.scoreStart sess) s = .next t ∧ t.dev.score.mode = 0 ∧ t.answered sess c stOK 0 (toLE 8 s.now))) ∧
    (s.ready sess 0x71 = some (x, c) → c.body.length = 0 → s.dev.score.mode = 1 → s.dev.score.ring = some r → 16 ≤ bodyRoom x c.route →
      ∃ t, exec (.scoreStop sess) s = .next t ∧ t.dev.score.mode = 0 ∧
        t.answered sess c stOK 0 (toLE 8 s.now ++ toLE 8 (s.ring r).held.length)) ∧
    (∀ a b, s.ready sess 0x72 = some (x, c) → c.body.length = 16 → s.dev.score.mode = 0 → a = Bytes.le c.body 0 8 → b = Bytes.le c.body 8 8 →
      s.dev.recorded a b ≠ [] → 8 ≤ bodyRoom x c.route → (s.freeOpt s.dev.score.replayRing).allocRing 0 .score 20 false = (u, some r) →
      ∃ t, exec (.replayStart sess) s = .next t ∧ t.dev.score.mode = 2 ∧ t.dev.score.replayRing = some r ∧
        t.dev.score.items = (s.dev.recorded a b).map (fun i => { due := s.now + 1 + (i.info - a), body := i.body }) ∧
        t.answered sess c stOK 0 (toLE 8 (s.now + 1))) ∧
    (s.ready sess 0x73 = some (x, c) → c.body.length = 0 → s.dev.score.ran = true → 16 ≤ bodyRoom x c.route → s.clearedNow pgScore = false →
      ∃ t, exec (.replayStop sess) s = .next t ∧ (s.dev.score.mode = 2 → t.dev.score.mode = 0 ∧ t.raised pgScore 2) ∧
        t.answered sess c stOK 0 (toLE 8 s.dev.score.compared ++ toLE 8 s.dev.score.mismatched)) ∧
    (∀ n i, s.dev.score.items[n]? = some i → s.dev.score.mode = 2 → i.packet = none → i.due ≤ s.now →
      s.start.recognise (Bytes.at i.body 1 % 64) (Bytes.at i.body 1 / 64) (Bytes.slice i.body 16 (Bytes.le i.body 2 2)) = none →
      ((s.scoreCount 2).inject i.body = (u, none) →
        ∃ t, exec (.replayInject n) s = .next t ∧ t.dev.score.items = u.dev.score.items.eraseIdx n) ∧
      (∀ k, (s.scoreCount 2).inject i.body = (u, some k) →
        ∃ t, exec (.replayInject n) s = .next t ∧
          t.dev.score.items = u.dev.score.items.modify n (fun i => { i with packet := some k }))) ∧
    (s.dev.score.mode = 2 → (∀ i ∈ s.dev.score.items, i.packet.isSome = true) → s.dev.score.lastDeadline < s.now → s.clearedNow pgScore = false →
      ∃ t, exec .replayEnd s = .next t ∧ t.dev.score.mode = 0 ∧ t.dev.score.items = [] ∧ t.raised pgScore 2)

/-! ### Security and the test access port -/

/-- ENROL and ATTEST (R475, R478, R480, R489 to R491): an unowned device takes its owner's key, and a quote is signed with the next index. -/
def Obligations.OwnersEnrolAndAttest : Prop :=
  ∀ (s : State) (sess : Nat) (x : Session) (c : Cmd), s.dev.canonical = true →
    (s.ready sess 0x91 = some (x, c) → c.body.length = 64 → Bytes.le c.body 0 4 = 60 → s.dev.sec.nvm.lifecycle = 0 →
      isHost x.source.port = true → (hssKeyBad (c.body.drop 4)).isSome = false → s.clearedNow pgSecurity = false →
      ∃ t, exec (.enrol sess false) s = .next t ∧ t.dev.sec.nvm.lifecycle = 1 ∧ t.dev.sec.nvm.ownerKey = c.body.drop 4 ∧
        t.raised pgSecurity 6) ∧
    (∀ nor u i, s.ready sess 0x90 = some (x, c) → c.body.length = 32 → 6012 ≤ bodyRoom x c.route →
      s.dev.sec.quotes.countP (fun q => decide (s.now < q + plies1s)) < 64 → s.sign nor = (u, some i) →
      ∃ t, exec (.attest sess nor) s = .next t ∧ t.dev.sec.signNext = i + 1 ∧
        t.answered sess c stOK 0 (u.start.quote c.body s.now i ++ toLE 4 5716 ++
          Bytes.slice (Config.hssSign i (Config.sha256 (u.start.quote c.body s.now i))) 0 5716))

/-- The six kinds of BUNDLE_APPLY (R481, R484 to R488): a bundle that a check refuses takes no effect and sets BUNDLE_REFUSED; one that all of them
pass takes the effect of its kind. Whether a signature verifies is open, so both ends are stated of every bundle. -/
def Obligations.BundlesApply : Prop :=
  ∀ (s : State) (sess : Nat) (x : Session) (c : Cmd), s.dev.canonical = true → s.clearedNow pgSecurity = false →
    (s.bundleReady sess 1 x c →
      ∃ t, exec (.registersBundle sess) s = .next t ∧
        (∀ st d, s.dev.bundleBad c.body = some (st, d) → t.dev.sec = s.dev.sec ∧ t.answered sess c st d [] ∧ t.raised pgSecurity 3) ∧
        (s.dev.bundleBad c.body = none → Bytes.le (bPayload (c.body.drop 4)) 0 4 = 0 → t.answered sess c stOK 0 []) ∧
        (s.dev.bundleBad c.body = none → Bytes.le (bPayload (c.body.drop 4)) 0 4 ≠ 0 → ∃ y, t.session? sess = some y ∧
          y.writes = (List.range (Bytes.le (bPayload (c.body.drop 4)) 0 4)).map fun i =>
            { addr := Bytes.le (bPayload (c.body.drop 4)) (4 + 12 * i) 4
              value := BitVec.ofNat 32 (Bytes.le (bPayload (c.body.drop 4)) (8 + 12 * i) 4)
              seals := decide (Bytes.le (bPayload (c.body.drop 4)) (12 + 12 * i) 4 = 1) })) ∧
    (s.bundleReady sess 2 x c →
      ∃ t, exec (.teamBundle sess) s = .next t ∧
        (∀ st d, s.dev.bundleBad c.body = some (st, d) → t.dev.team = s.dev.team ∧ t.answered sess c st d [] ∧ t.raised pgSecurity 3) ∧
        (s.dev.bundleBad c.body = none → Bytes.at (bPayload (c.body.drop 4)) 2 ≠ 0 →
          t.dev.team.id = Bytes.le (bPayload (c.body.drop 4)) 0 2 ∧ t.dev.team.members = Bytes.at (bPayload (c.body.drop 4)) 2 ∧
          t.dev.team.self = Bytes.at (bPayload (c.body.drop 4)) 3 ∧ t.dev.team.key = Bytes.slice (bPayload (c.body.drop 4)) 4 32 ∧
          t.answered sess c stOK 0 [])) ∧
    (s.bundleReady sess 3 x c →
      ∃ t, exec (.fwManifestBundle sess) s = .next t ∧
        (∀ st d, s.dev.bundleBad c.body = some (st, d) → t.dev.sec = s.dev.sec ∧ t.answered sess c st d [] ∧ t.raised pgSecurity 3) ∧
        (s.dev.bundleBad c.body = none → t.dev.sec.nvm.countersign = true ∧ t.answered sess c stOK 0 [] ∧ t.dev.sec.transfer = some
          { sess := sess
            manifest := c.body.drop 4
            svn := Bytes.le (bPayload (c.body.drop 4)) 0 4
            build := Bytes.le (bPayload (c.body.drop 4)) 4 4
            len := Bytes.le (bPayload (c.body.drop 4)) 8 4
            headerHash := Bytes.slice (bPayload (c.body.drop 4)) 16 32 })) ∧
    (s.bundleReady sess 4 x c →
      ∃ t, exec (.releaseBundle sess) s = .next t ∧
        (∀ st d, s.dev.bundleBad c.body = some (st, d) → t.dev.sec = s.dev.sec ∧ t.answered sess c st d [] ∧ t.raised pgSecurity 3) ∧
        (s.dev.bundleBad c.body = none → s.dev.sec.nvm.lifecycle ≠ 2 → t.dev.sec.nvm.lifecycle = 2 ∧ t.answered sess c stOK 0 [])) ∧
    (s.bundleReady sess 5 x c → ∀ fail a off data, s.dev.sec.transfer = some a → a.sess = sess → off = Bytes.le (bPayload (c.body.drop 4)) 0 4 →
      data = (bPayload (c.body.drop 4)).drop 4 → data ≠ [] → off + data.length ≤ a.len →
      prefixLen (coverAdd off (off + data.length) a.got) < a.len →
      ∃ t, exec (.fwDataBundle sess fail) s = .next t ∧
        (∀ st d, s.dev.bundleBad c.body = some (st, d) → t.dev.sec = s.dev.sec ∧ t.answered sess c st d [] ∧ t.raised pgSecurity 3) ∧
        (s.dev.bundleBad c.body = none → t.answered sess c stOK 0 [] ∧ t.dev.sec.transfer = some
          { a with
            data := Mem.writeBytes a.data off data
            got := coverAdd off (off + data.length) a.got })) ∧
    (s.bundleReady sess 6 x c →
      ∃ t, exec (.pairBundle sess) s = .next t ∧
        (∀ st d, s.dev.bundleBad c.body = some (st, d) → t.dev.pair = s.dev.pair ∧ t.answered sess c st d [] ∧ t.raised pgSecurity 3))

/-- TREE_READY, DRBG_RESEED and ENTROPY_FAIL (R477, R493, R494). -/
def Obligations.SecretsAreRenewed : Prop :=
  ∀ (s : State), s.dev.canonical = true → s.clearedNow pgSecurity = false →
    (∀ n, s.dev.sec.preparing = some n →
      ∃ t, exec .treeReady s = .next t ∧ t.dev.sec = { s.dev.sec with prepared := n, preparing := none } ∧ t.raised pgSecurity 5) ∧
    (s.dev.sec.failing = none → s.dev.sec.entropyOk = true →
      s.dev.sec.requests + 1048576 ≤ s.dev.draws ∨ s.dev.sec.reseeded + plies1s ≤ s.now →
      ∃ t, exec .drbgReseed s = .next t ∧ t.dev.sec.reseeded = s.now ∧ t.dev.sec.requests = s.dev.draws ∧ t.dev.sec.failing = none ∧
        t.dev.sec.entropyOk = true) ∧
    (∀ k, s.dev.sec.failing = some k →
      ∃ t, exec .drbgReseed s = .next t ∧ t.dev.sec.reseeded = s.now ∧
        (k < 2 → t.dev.sec.failing = some (k + 1) ∧ t.dev.sec.entropyOk = false) ∧
        (2 ≤ k → t.dev.sec.failing = none ∧ t.dev.sec.entropyOk = true)) ∧
    ∃ t, exec .entropyFail s = .next t ∧ t.dev.sec = { s.dev.sec with failing := some 0, entropyOk := false } ∧ t.raised pgSecurity 2

/-- BYPASS, IDCODE, SAMPLE_PRELOAD, EXTEST, SCAN and OWNER_CLEAR (R495, R496): what each shifts out and leaves, on a powered device out of reset. -/
def Obligations.TestPortObeys : Prop :=
  ∀ (s : State) (d : Bytes), s.dev.startUp.powerGood = true →
    (∃ t, exec (.bypass d) s = .next t ∧ t.dev.out = s.dev.out ++ [.tap (bypassBits d)] ∧ t.dev.sec.extest = false ∧
      t.dev.sec.cells = s.dev.sec.cells) ∧
    (∃ t, exec .idcode s = .next t ∧ t.dev.out = s.dev.out ++ [.tap (toLE 4 0x18800D6B)] ∧ t.dev.sec = { s.dev.sec with extest := false }) ∧
    (s.dev.startUp.resetN = true → s.dev.sec.scanning = false →
      (∃ t v, exec (.samplePreload d) s = .next t ∧ t.dev.out = s.dev.out ++ [.tap (toLE d.length v)] ∧
        t.dev.sec = { s.dev.sec with cells := d, extest := false, tapUsed := true }) ∧
      (∃ t v, exec (.extest d) s = .next t ∧ t.dev.out = s.dev.out ++ [.tap (toLE d.length v)] ∧
        t.dev.sec = { s.dev.sec with cells := d, extest := true, tapUsed := true }) ∧
      (s.dev.sec.nvm.lifecycle = 0 →
        ∃ t v, exec (.scan d) s = .next t ∧ t.dev.out = s.dev.out ++ [.tap (toLE d.length v)] ∧
          t.dev.sec = { s.dev.sec with scanning := true, extest := false, tapUsed := true } ∧ t.dev.traffic.packets = [] ∧
          ∀ c, (t.dev.core c).scratch = []) ∧
      (s.dev.sec.nvm.lifecycle ≠ 0 → s.dev.sec.nvm.ownerClears < 16 →
        ∃ t, exec (.ownerClear d) s = .next t ∧ t.dev.sec.nvm.ownerKey = [] ∧
          t.dev.sec.nvm.ownerClears = s.dev.sec.nvm.ownerClears + 1 ∧ t.dev.sec.tapUsed = true ∧ t.dev.startUp.cleared = true))

/-! ### Power, replacement and background work -/

/-- GOVERNOR_INTERVAL, SPEED_REPORT, THERMAL_TRIP and RAIL_FAULT (R443, R446 to R449, R454, R456, R463, R54, R564): what an interval makes of voltage,
scale, stage and budget, which pass it asks to adjourn while too much is committed, how a floor breaks and holds again, and how a trip or a rail fault
squelches every port. -/
def Obligations.PowerIsGoverned : Prop :=
  ∀ (s : State), s.dev.canonical = true →
    (∀ die logic dram watts pkg port0 port1 c lt dt sl a b, die < 4 → s.now % 1024 = 0 → s.dev.halted = false → (s.dev.tempo die).interval ≠ some s.now →
      c = s.start.govCfg die → lt = logic.foldl (fun t e => Table.put t (e.1 % 208) (e.2 % 4096)) (s.dev.tempo die).logic →
      dt = dram.foldl (fun t e => Table.put t (e.1 % 208) (e.2 % 4096)) (s.dev.tempo die).dram → sl = (slowest (s.dev.dieSteps die)).2 →
      a = temp (hottest lt).2 → b = temp (hottest dt).2 →
      ∃ t, exec (.governorInterval die logic dram watts pkg port0 port1) s = .next t ∧
        (t.dev.tempo die).window = (s.dev.tempo die).window + 1 ∧ (t.dev.tempo die).logic = lt ∧ (t.dev.tempo die).dram = dt ∧
        (t.dev.tempo die).vcore = nextVcore c sl a b watts (s.dev.tempo die).vcore ∧
        (t.dev.tempo die).scale = nextScale c a b (s.dev.tempo die).scale ∧
        ((t.dev.tempo die).stage, (t.dev.tempo die).clears) = nextStage c (s.dev.dieBroken die) (emergency c (s.dev.dieBroken die) a b watts)
          (clearCond c sl a b watts) (s.dev.tempo die).stage (s.dev.tempo die).clears ∧
        (t.dev.tempo die).pawn = (pools c.cap (s.start.tempo die).scale c.pawn c.bg).1 ∧
        (t.dev.tempo die).bg = (pools c.cap (s.start.tempo die).scale c.pawn c.bg).2.1 ∧
        (t.dev.tempo die).general = (pools c.cap (s.start.tempo die).scale c.pawn c.bg).2.2 -
          min (s.dev.tempo die).debt (pools c.cap (s.start.tempo die).scale c.pawn c.bg).2.2 ∧
        (t.dev.tempo die).debt = 0 ∧ t.dev.power.watts = pkg % 65536) ∧
    (∀ die core x r, (s.dev.tempo die).general < s.dev.committed die →
      (s.dev.compute.cores.filter fun e => decide (coreDie e.1 = die) && e.2.adjourn.isNone) = [(core, x)] →
      s.latestRun core = some r → s.canSeal r = true → (s.ctx core r.ctx).cancel = false →
      ((s.askSeals die).dev.core core).adjourn = some r.ctx) ∧
    (∀ site step, site < 832 → step < 256 → s.dev.halted = false →
      ∃ t, exec (.speedReport site step) s = .next t ∧ Table.get? (t.dev.tempo (siteDie site)).steps (site % 208) = some step ∧
        (32 < step → (Table.get? (s.dev.tempo (siteDie site)).broken (site % 208)) = none →
          Table.get? (t.dev.tempo (siteDie site)).broken (site % 208) = some s.now ∧
          ((s.dev.site site).state = .active → s.clearedNow (pageOf tTempo (siteDie site)) = false →
            t.raised (pageOf tTempo (siteDie site)) 2)) ∧
        (step ≤ 32 → ∀ p, Table.get? (s.dev.tempo (siteDie site)).broken (site % 208) = some p →
          (t.dev.tempo (siteDie site)).broken = Table.erase (s.dev.tempo (siteDie site)).broken (site % 208))) ∧
    (∀ kind die site reading, (if kind = 1 then 400 else 460) ≤ temp reading → s.dev.power.tripped = false → s.dev.startUp.powerGood = true →
      ∃ t, exec (.thermalTrip kind die site reading) s = .next t ∧ t.dev.power.tripped = true ∧
        ∀ p, p < 66 → (t.dev.port p).squelched = true) ∧
    (∀ rail, rail < 7 → s.dev.startUp.powerGood = true → bit s.dev.power.rails rail = false →
      ∃ t, exec (.railFault rail) s = .next t ∧ t.dev.power.rails = s.dev.power.rails + 2 ^ rail ∧
        ∀ p, p < 66 → (t.dev.port p).squelched = true)

/-- CORE_FAILURE, SELF_TEST, SPARE_ACTIVATION and CP_STOPPED (R500 to R503): a failed core's site retires, a spare that passes goes on to its copy,
an active core that passes is no longer suspect, and a mapped spare takes the logical number.

AM_REMAP and VAULT_REMAP (R507, R508): a spare row takes the place of a failed one, and the last one's use is a core or vault failure; a vault
row's pages are loading until the second command for it. -/
def Obligations.CoresAndRowsAreReplaced : Prop :=
  (∀ (s : State), s.dev.canonical = true → (∀ p, s.clearedNow p = false) →
      (∀ core cause x, s.dev.coreActive core = true → s.dev.siteOf core = some x → (s.dev.core core).failed = some cause ∨ cause = 3 ∨ cause = 5 →
        Table.get? s.dev.reliab.mapping (siteDie x) = none →
        ∃ t, exec (.coreFailure core cause) s = .next t ∧ t.dev.site x = { state := .retired, cause := cause } ∧
          t.raised (pageOf tReliab (siteDie x)) 0) ∧
      (∀ site m, s.dev.coreAt site = none → Table.get? s.dev.reliab.mapping (siteDie site) = some m → siteDie site * 208 + m.to_ = site →
        m.step = 0 →
        ∃ t, exec (.selfTest site true) s = .next t ∧ Table.get? t.dev.reliab.mapping (siteDie site) = some { m with step := 1 }) ∧
      (∀ site core, s.dev.coreAt site = some core → s.dev.coreActive core = true →
        (s.dev.core core).array0.suspect = true ∨ (s.dev.core core).array1.suspect = true →
        (∃ t, exec (.selfTest site true) s = .next t ∧ (t.dev.core core).array0.suspect = false ∧ (t.dev.core core).array1.suspect = false) ∧
        (∃ t, exec (.selfTest site false) s = .next t ∧ (t.dev.core core).failed = some 2 ∧ t.raised (pageOf tReliab (siteDie site)) 3)) ∧
      (∀ die m, Table.get? s.dev.reliab.mapping die = some m → m.step ≠ 0 →
        ∃ t, exec (.spareActivation die) s = .next t ∧ Table.get? t.dev.reliab.mapping die = some { m with active := true }) ∧
      (∀ die m t, t = s.activate die m → m.from_ ≠ m.to_ → s.dev.reliab.waiting = [] →
        t.dev.site (die * 208 + m.to_) = { state := .active } ∧ t.dev.siteOf m.logical = some (die * 208 + m.to_) ∧
          (m.wear = false → Table.get? t.dev.reliab.activated m.logical = some s.now) ∧
          (m.wear = true → t.dev.site (die * 208 + m.from_) = { state := .spare, cause := 6 }) ∧
          t.dev.reliab.mapping = Table.erase s.dev.reliab.mapping die ∧ t.raised (pageOf tReliab die) 1) ∧
      (∀ cp l, cp < 8 → bit s.dev.reliab.stopped cp = false →
        ∃ t, exec (.cpStopped (cp, l)) s = .next t ∧ t.dev.reliab.stopped = s.dev.reliab.stopped + 2 ^ cp ∧ t.raised pgGlobal 3 ∧
          ∀ n ∈ l, t.session? n = none)) ∧
  (∀ (s : State), s.dev.canonical = true →
      (∀ core quarter kind index x n, s.dev.siteOf core = some x → quarter < 4 →
        (s.dev.reliab.amFailed.any fun f => decide (f.1 = x * 4 + quarter ∧ f.2.1 = kind ∧ f.2.2.1 = index)) = true →
        n = Table.get 0 (if kind = 0 then s.dev.reliab.rowsUsed else s.dev.reliab.compsUsed) (x * 4 + quarter) + 1 →
        ∃ t, exec (.amRemap core quarter kind index) s = .next t ∧
          Table.get 0 (if kind = 0 then t.dev.reliab.rowsUsed else t.dev.reliab.compsUsed) (x * 4 + quarter) = n ∧
          (∀ f ∈ t.dev.reliab.amFailed, ¬(f.1 = x * 4 + quarter ∧ f.2.1 = kind ∧ f.2.2.1 = index)) ∧
          ((if kind = 0 then 64 else 256) ≤ n → (t.dev.core core).failed = some 4)) ∧
      (∀ site row pages, (s.dev.reliab.moving.find? fun m => decide (m.1 = site ∧ m.2.1 = row)) = none →
        (s.dev.reliab.vaultFailed.any fun f => decide (f.1 = site ∧ f.2.1 = row)) = true →
        ∃ t, exec (.vaultRemap site row pages) s = .next t ∧ t.dev.reliab.moving = s.dev.reliab.moving ++ [(site, row, pages)] ∧
          ∀ p ∈ pages, p ∈ t.dev.compute.loading) ∧
      (∀ site row pages m, (s.dev.reliab.moving.find? fun m => decide (m.1 = site ∧ m.2.1 = row)) = some m →
        ∃ t, exec (.vaultRemap site row pages) s = .next t ∧ Table.get 0 t.dev.reliab.vaultUsed site = Table.get 0 s.dev.reliab.vaultUsed site + 1 ∧
          (∀ p ∈ m.2.2, p ∉ t.dev.compute.loading) ∧
          (∀ core, 512 ≤ Table.get 0 s.dev.reliab.vaultUsed site + 1 → s.dev.coreAt site = some core → (t.dev.core core).failed = some 5)))

/-- DRAM_SCRUB, AM_SCRUB, CALIBRATION, ADAPTATION, WEAR_MOVE, AM_ROTATION and TELEMETRY (R538 to R543): what each piece of background work records,
moves or reports. -/
def Obligations.BackgroundWorks : Prop :=
  ∀ (s : State), s.dev.canonical = true →
    (∀ site err pages, site < 832 → s.dev.scrubFree site = true →
      ∃ t, exec (.dramScrub site err pages) s = .next t ∧
        t.dev.back.line = Table.set 0 s.dev.back.line site
          (if vaultLines ≤ Table.get 0 s.dev.back.line site + 1 then 0 else Table.get 0 s.dev.back.line site + 1) ∧
        t.dev.ctr pgBackground 0x80 = s.dev.ctr pgBackground 0x80 + 1) ∧
    (∀ core quarter kind index result, core < 800 → quarter < 4 → kind < 2 →
      ∃ t, exec (.amScrub core quarter kind index result) s = .next t ∧ t.dev.ctr pgBackground 0x90 = s.dev.ctr pgBackground 0x90 + 1 ∧
        (∀ x, result = 2 → s.dev.siteOf core = some x →
          (∀ w, (s.core core).window = some w → w.ended = none → w.quarters.contains quarter = false) →
          (t.dev.reliab.amFailed.any fun f => decide (f.1 = x * 4 + quarter ∧ f.2.1 = kind ∧ f.2.2.1 = index)) = true)) ∧
    (∀ core step x, s.dev.siteOf core = some x → s.dev.coreActive core = true →
      ∃ t, exec (.calibration core step) s = .next t ∧ Table.get? (t.dev.tempo (siteDie x)).steps (x % 208) = some (step % 256) ∧
        (∀ o, Table.get? (s.dev.tempo (siteDie x)).steps (x % 208) = some o → o + 1 < step % 256 ∨ step % 256 + 1 < o →
          s.clearedNow pgBackground = false → t.raised pgBackground 1)) ∧
    (∀ port lane ber, port < 66 → lane < 4 → (s.dev.port port).enabled = true → ((s.dev.port port).lane lane).failed = false →
      (∃ t, exec (.adaptation port lane ber) s = .next t ∧ ((t.dev.port port).lane lane).window = some ber) ∧
      (((s.dev.port port).lane lane).tuning = false → 24 < ber → (∀ i, i < 4 → ((s.dev.port port).lane i).tuning = false) →
        (((s.judgeWindow port lane ber).dev.port port).lane lane).tuning = true) ∧
      (((s.dev.port port).lane lane).tuning = true → ber ≤ 24 →
        (∀ i, i < 4 → bit ((s.start.port port).subp i).lanes lane = true → ((s.start.port port).subp i).up = true → s.subUp port i = true) →
        (((s.judgeWindow port lane ber).dev.port port).lane lane).tuning = false ∧
          (((s.judgeWindow port lane ber).dev.port port).lane lane).attempts = 0)) ∧
    (∀ die f k core, die < 4 → s.rg pgBackground 0x48 % 256 ≠ 0 → (s.start.tempo die).stage = 0 → Table.get? s.dev.reliab.mapping die = none →
      dueSince s.now (Table.get? s.dev.back.moved die) (s.rg pgBackground 0x48 % 256 * pliesDay) = true →
      leastBy (fun k => 2 ^ 64 - Table.get 0 s.dev.reliab.wear (die * 208 + k))
        ((List.range 208).filter fun k => decide ((s.dev.site (die * 208 + k)).state = .active)) = some f →
      leastBy (fun k => Table.get 0 s.dev.reliab.wear (die * 208 + k)) (s.dev.sparesOf die) = some k → s.dev.coreAt (die * 208 + f) = some core →
      ∃ t, exec (.wearMove die) s = .next t ∧ Table.get? t.dev.back.moved die = some s.now ∧
        t.dev.site (die * 208 + k) = { state := .mapping } ∧ Table.get? t.dev.reliab.mapping die = some
          { from_ := f
            to_ := k
            logical := core
            wear := true
            start := s.now }) ∧
    (∀ core quarter index x, s.dev.siteOf core = some x → quarter < 4 → index < 4096 → bit (s.rg pgBackground 0x48) 8 = true →
      Table.get 0 s.dev.reliab.rowsUsed (x * 4 + quarter) < 64 → dueSince s.now (Table.get? s.dev.back.rotated (x * 4 + quarter)) pliesDay = true →
      ∃ t, exec (.amRotation core quarter index) s = .next t ∧ Table.get? t.dev.back.rotated (x * 4 + quarter) = some s.now) ∧
    (∀ r, s.dev.back.telem = some r → bit (s.start.rg pgBackground 0x4C) 8 = true → s.now % 2 ^ (s.start.rg pgBackground 0x4C % 64) = 0 →
      s.dev.back.told ≠ some s.now →
      ∃ t, exec .telemetry s = .next t ∧ t.dev.back.told = some s.now ∧ t.dev.objects = (State.each [0, 1, 2, 3] (fun die s =>
        (s.ringPut r { len := 3, kind := 0x16, info := s.now, body := s.start.telemetry die }).1) s).dev.objects)

/-! ### Pairs -/

/-- HEARTBEAT_SEND, HEARTBEAT, STARTING_TIMEOUT, HEARTBEAT_MISS and PAIR_BUNDLE (R510 to R516): a heartbeat goes out on every pair port that is up,
a received one that authenticates settles the role, a device that hears none leads, and a standby that misses its partner castles. Whether a frame
authenticates is open, so the effect of one is stated of every plaintext it may open to. -/
def Obligations.PairsChooseAPrimary : Prop :=
  ∀ (s : State), s.dev.canonical = true →
    (s.start.pair.id ≠ 0 → s.start.pair.key.isEmpty = false → s.samePair = true → s.now % hbPlies = 0 → s.dev.pair.hbSent ≠ some s.now →
      ∃ t, exec .heartbeatSend s = .next t ∧ t.dev.pair.hbSent = some s.now ∧
        t.dev.ctr pgPair 0x80 = s.dev.ctr pgPair 0x80 + BitVec.ofNat 64 s.dev.pairUp.length ∧
        ∀ p ∈ s.dev.pairUp, Table.get 0 t.dev.pair.tx p = Table.get 0 s.dev.pair.tx p + 1) ∧
    (∀ port f s1 h, s.takePair port [0xA, 0xD, 0xE, 0xF] f = (s1, some h) → h.kind = 0xA → h.session = 1 → h.fragIndex = 0 → h.fragLast = 0 →
      h.dir = 0 → s.samePair = true → s.start.pair.id ≠ 0 → s.start.pair.key.isEmpty = false → s.start.pair.portList.contains port = true →
      (Table.get {} s.dev.pair.rx port).ok h.seq = true →
      ∃ t, exec (.heartbeat port f) s = .next t ∧
        ∀ b theirs, Config.gcmOpen s.start.pair.key (s.start.pair.saltOf s.start.pair.partner ++ toLE 8 h.seq) h.header h.payload = some b →
          Bytes.le b 0 2 = s.start.pair.id → Bytes.slice b 24 32 = s.start.pair.partner → theirs = Bytes.at b 2 % 4 →
          t.dev.pair.lastHb = some s.now ∧ t.dev.pair.pRole = theirs ∧ t.dev.pair.pPriority = Bytes.at b 3 ∧
          t.dev.pair.pCores = Bytes.le b 4 2 % 1024 ∧
          (s.dev.pair.role = .starting → theirs = 1 → t.dev.pair.role = .standby) ∧
          (s.dev.pair.role = .starting → theirs = 3 →
            t.dev.pair.role = if s.dev.pair.first (Bytes.at b 3) then .primary else .standby) ∧
          (s.dev.pair.role = .primary → theirs ≠ 1 → t.dev.pair.role = .primary) ∧
          (s.dev.pair.role = .primary → theirs = 1 →
            t.dev.pair.role = if (if Bytes.le b 16 4 = s.dev.pair.epoch then s.dev.pair.first (Bytes.at b 3)
              else laterThan 32 s.dev.pair.epoch (Bytes.le b 16 4)) then .primary else .standby) ∧
          (s.dev.pair.role = .standby → t.dev.pair.role = .standby ∧
            t.dev.pair.yieldPly = if bit (Bytes.at b 2) 3 then some s.now else s.dev.pair.yieldPly)) ∧
    (s.dev.pair.role = .starting → s.dev.pair.missedSince s.now s.dev.pair.startPly = true →
      (∀ q, s.dev.pair.lastHb = some q → s.dev.pair.missedSince s.now q = true) →
      (∃ t, exec .startingTimeout s = .next t ∧ t.dev.pair.missPly = some s.now) ∧
      (∀ t, t = s.castleDue → s.dev.pair.missPly = some s.now → t.dev.pair.role = .primary ∧ t.dev.pair.epoch = s.dev.pair.epoch)) ∧
    (∀ q, s.dev.pair.role = .standby → s.dev.pair.lastHb = some q → s.dev.pair.missedSince s.now q = true → s.clearedNow pgPair = false →
      (∃ t, exec .heartbeatMiss s = .next t ∧ t.dev.pair.missPly = some s.now) ∧
      (∀ t, t = s.castleDue → s.dev.pair.missPly = some s.now →
        t.dev.pair.role = .primary ∧ t.dev.pair.epoch = (s.dev.pair.epoch + 1) % 2 ^ 32 ∧
          t.dev.pair.adoptFrom = some s.now ∧ t.raised pgPair 0 ∧ t.raised pgPair 1 ∧
          (s.dev.pair.standbyLines = true → ∀ p, p < 32 → (s.dev.port p).enabled = true →
            (t.dev.port p).squelched = (s.dev.ref.expired || s.dev.halted)))) ∧
    (∀ sess x c pl, s.bundleReady sess 6 x c → pl = bPayload (c.body.drop 4) →
      ∃ t, exec (.pairBundle sess) s = .next t ∧
        (s.dev.bundleBad c.body = none → Bytes.le pl 0 2 ≠ 0 → t.dev.pair.id = Bytes.le pl 0 2 ∧ t.dev.pair.priority = Bytes.at pl 2 ∧
          t.dev.pair.ports = Bytes.le pl 4 4 ∧ t.dev.pair.missLimit = Bytes.at pl 8 ∧ t.dev.pair.key = Bytes.slice pl 16 32 ∧
          t.dev.pair.partner = Bytes.slice pl 48 32 ∧ t.dev.pair.role = .starting ∧ t.dev.pair.startPly = s.now + 1 ∧
          t.answered sess c stOK 0 []))

/-- MIRROR, MIRROR_CREDIT, MIRROR_RESEND, CHECKPOINT, MIRROR_STORE_SWEEP and ADOPT_EXPIRE (R517 to R522): a standby applies records in sequence and
renews its credit, a primary drops what is acknowledged, sends again what its port has lost and numbers its checkpoints, and after castling stored
entries are adopted or expire. -/
def Obligations.StandbysFollow : Prop :=
  ∀ (s : State), s.dev.canonical = true →
    (∀ port f s1 h, s.takePair port [0xB] f = (s1, some h) → h.kind = 0xB → h.session = 1 → h.fragIndex = 0 → h.fragLast = 0 → h.dir = 0 →
      s.samePair = true →
      s.start.pair.id ≠ 0 → s.start.pair.key.isEmpty = false → s.start.pair.portList.contains port = true →
      (Table.get {} s.dev.pair.rx port).ok h.seq = true → s.dev.pair.role = .standby →
      ∃ t, exec (.mirror port f) s = .next t ∧
        ∀ b r, Config.gcmOpen s.start.pair.key (s.start.pair.saltOf s.start.pair.partner ++ toLE 8 h.seq) h.header h.payload = some b →
          Bytes.le b 0 2 = s.start.pair.id → recordsIn b.length (b.drop 16) = [r] →
          Table.get 0 t.dev.pair.granted port = (Table.get 0 s.dev.pair.granted port + units f.length) % 2 ^ 32 ∧
          (Bytes.le b 8 8 ≤ s.dev.pair.applied → r.ty ≠ 10 → t.dev.pair.applied = s.dev.pair.applied ∧ t.dev.objects = s.dev.objects ∧
            t.dev.flow = s.dev.flow) ∧
          (s.dev.pair.applied + 1 < Bytes.le b 8 8 → r.ty ≠ 10 → t.dev.pair.applied = s.dev.pair.applied ∧ t.dev.pair.synced = false ∧
            t.dev.objects = s.dev.objects ∧ t.dev.flow = s.dev.flow) ∧
          (Bytes.le b 8 8 = s.dev.pair.applied + 1 → t.dev.pair.applied = Bytes.le b 8 8 ∧
            (r.ty = 8 → t.dev.flow.stateMem = Mem.writeBytes s.dev.flow.stateMem (slotBase r.whr (Bytes.le r.body 0 2 % 32768))
              ((r.body.drop 8).take 8192)) ∧
            (r.ty = 9 → t.dev.pair.ckptDone = Bytes.le r.body 0 4) ∧
            (r.ty = 10 → t.dev.flow.direct = [] ∧ t.dev.pair.store = [] ∧ t.dev.pair.synced = false) ∧
            (r.ty = 11 → t.dev.pair.resynced = true))) ∧
    (∀ port f s1 h, s.takePair port [0xC] f = (s1, some h) → h.kind = 0xC → h.session = 1 → h.fragIndex = 0 → h.fragLast = 0 → h.dir = 0 →
      s.samePair = true →
      s.start.pair.id ≠ 0 → s.start.pair.key.isEmpty = false → s.start.pair.portList.contains port = true →
      (Table.get {} s.dev.pair.rx port).ok h.seq = true →
      ∃ t, exec (.mirrorCredit port f) s = .next t ∧
        ∀ b, Config.gcmOpen s.start.pair.key (s.start.pair.saltOf s.start.pair.partner ++ toLE 8 h.seq) h.header h.payload = some b →
          Bytes.le b 0 2 = s.start.pair.id →
          Table.get 0 t.dev.pair.grant port = (if laterThan 32 (Bytes.le b 4 4) (Table.get 0 s.dev.pair.grant port) then Bytes.le b 4 4
            else Table.get 0 s.dev.pair.grant port) ∧
          (s.dev.pair.mirrors = true → s.dev.pair.ack < Bytes.le b 8 8 → Bytes.le b 8 8 < s.dev.pair.nextSeq →
            t.dev.pair.ack = Bytes.le b 8 8 ∧ t.dev.pair.ackPly = s.now ∧ ∀ r ∈ t.dev.pair.records, Bytes.le b 8 8 < r.seq)) ∧
    (∀ r p n q, s.dev.pair.mirrors = true → s.dev.pair.records = [r] → r.sentOn = some (p, n) →
      s.dev.pair.ackPly + plies1ms ≤ s.now ∨ s.subUp p 0 = false → s.dev.pairRoom (some p) (s.dev.pair.mirrorPlain r).length = some q →
      ∃ t, exec .mirrorResend s = .next t ∧ t.dev.ctr pgPair 0xB0 = s.dev.ctr pgPair 0xB0 + 1 ∧ t.dev.pair.records =
        [{ r with
           sentOn := some (q, s.now)
           avoid := some p }]) ∧
    (∀ l, s.dev.pair.mirrors = true → s.now % 15625000 = 0 → s.dev.pair.ckptPly ≠ some s.now →
      l = s.dev.compute.promoted.filter (fun k => decide (Table.get? s.dev.pair.stateSent k ≠ some (s.dev.stateMark k))) →
      (s.dev.pair.ckptOpen = false → l = [] →
        ∃ t, exec .checkpoint s = .next t ∧ t.dev.pair.ckpt = (s.dev.pair.ckpt + 1) % 2 ^ 32 ∧ t.dev.pair.ckptOpen = false) ∧
      (s.dev.pair.ckptOpen = false → l ≠ [] → s.dev.pairUp = [] →
        ∃ t, exec .checkpoint s = .next t ∧ t.dev.pair.ckptOpen = true ∧ t.dev.pair.ckptFlows = l ∧ t.dev.pair.ckpt = s.dev.pair.ckpt) ∧
      (s.dev.pair.ckptOpen = true →
        ∃ t, exec .checkpoint s = .next t ∧
          t.dev.ctr pgPair 0xD0 = s.dev.ctr pgPair 0xD0 + BitVec.ofNat 64 s.dev.pair.ckptFlows.length)) ∧
    (∀ k m p l, s.dev.pair.adoptFrom = some p → s.dev.pair.store = [m] → k = 0 → (s.chan (eSlot m.entry)).live = true →
      (s.chan (eSlot m.entry)).hgen = eChGen m.entry →
      (s.dev.find m.core (eSlot m.entry) (eChGen m.entry) m.direct (flowKeyOf m.entry) false false).1 = some l →
      eSlot m.entry = eSlot (s.dev.entry l) → eChGen m.entry = eChGen (s.dev.entry l) → eKey m.entry = eKey (s.dev.entry l) →
      ∃ t, exec (.mirrorStoreSweep k) s = .next t ∧ t.dev.pair.store = [] ∧ t.dev.ctr pgPair 0xC0 = s.dev.ctr pgPair 0xC0 + 1 ∧
        (ePromoted m.entry = true →
          t.dev.compute.promoted = s.dev.compute.promoted ++ [m.core * 32768 + eState m.entry % 32768])) ∧
    (∀ k m p, s.dev.pair.adoptFrom = some p → s.dev.pair.store[k]? = some m →
      p + s.rg pgFlowCtl (if m.direct then 0x4C else 0x48) % 16777216 * 65536 ≤ s.now →
      ∃ t, exec (.adoptExpire k) s = .next t ∧ t.dev.pair.store = s.dev.pair.store.filter (fun k => decide (k ≠ m)) ∧
        t.dev.ctr pgPair 0xC8 = s.dev.ctr pgPair 0xC8 + 1 ∧
        t.dev.flow.statePools = (if ePromoted m.entry then
          Table.modify {} s.dev.flow.statePools m.core (fun q => q.release (eState m.entry % 32768)) else s.dev.flow.statePools))

/-! ### Resets and start-up -/

/-- PWR_GOOD_FALL, POWER_ON_RESET, PIN_RESET, RESET_N_RELEASE and DEVICE_RESET_DUE (R547, R548, R552, R559, R565): what a reset of the whole device
clears and keeps, how RESET_CAUSE counts it, and when reset is released. -/
def Obligations.ResetsClearAndKeep : Prop :=
  ∀ (s : State),
    (s.dev.startUp.powerGood = true →
      ∃ t, exec .pwrGoodFall s = .next t ∧ t.dev.startUp.powerGood = false ∧ t.dev.startUp.fallPly = s.now ∧ t.dev.startUp.released = false ∧
        t.dev.sec.nvm = s.dev.sec.nvm ∧ t.dev.selid = {} ∧ t.dev.traffic = {} ∧ t.dev.flow = {} ∧ t.dev.compute = {} ∧
        t.dev.objects.rings = [] ∧ t.start = s.start) ∧
    (s.dev.startUp.powerGood = false → s.dev.startUp.resetN = false → s.dev.startUp.fallPly + pliesStretch ≤ s.now →
      ∃ t, exec .powerOnReset s = .next t ∧ t.ply = 0 ∧ t.dev.startUp.powerGood = true ∧ t.dev.startUp.released = true ∧
        t.dev.startUp.kind = 1 ∧ t.dev.startUp.resets = 0 ∧ t.dev.startUp.phase = 0 ∧ t.dev.startUp.ready = false ∧
        t.dev.startUp.smbFrom = plies1ms ∧ t.dev.power = {} ∧ t.dev.sec.tapUsed = false ∧ t.dev.regs.rw = [] ∧ t.dev.regs.ctr = [] ∧
        t.dev.regs.hdr = (if t.dev.ref.lost then [(pgGlobal, { PageHdr.reset pgGlobal with faulted := true })] else []) ∧
        (s.dev.startUp.cleared = false → t.dev.sec.nvm = s.dev.sec.nvm) ∧ t.start = t.dev) ∧
    (s.dev.startUp.powerGood = false → s.dev.startUp.resetN = true → s.dev.startUp.fallPly + pliesStretch ≤ s.now →
      ∃ t, exec .powerOnReset s = .next t ∧ t.ply = s.ply ∧ t.dev.startUp.powerGood = true ∧ t.dev.startUp.released = false ∧
        t.dev.startUp.kind = 1 ∧ t.start = s.start) ∧
    (s.dev.startUp.resetN = false → s.dev.startUp.powerGood = true →
      ∃ t, exec .pinReset s = .next t ∧ t.ply = s.ply ∧ t.dev.startUp.resetN = true ∧ t.dev.startUp.released = false ∧ t.dev.startUp.kind = 2 ∧
        t.dev.startUp.resets = (if s.resetAgain then s.dev.startUp.resets else min 65535 (s.dev.startUp.resets + 1)) ∧ t.dev.sec.nvm = s.dev.sec.nvm ∧ t.dev.sec.tapUsed = s.dev.sec.tapUsed ∧
        t.dev.power.tripped = s.dev.power.tripped ∧ t.dev.selid = {} ∧ t.dev.flow = {} ∧ t.dev.compute = {} ∧ t.dev.ports = [] ∧
        t.dev.regs.rw = [] ∧
        t.dev.regs.hdr = (if t.dev.ref.lost then [(pgGlobal, { PageHdr.reset pgGlobal with faulted := true })] else []) ∧
        t.dev.reliab.wear = s.dev.reliab.wear ∧ t.start = s.start) ∧
    (s.dev.startUp.resetN = false → s.dev.startUp.powerGood = false →
      ∃ t, exec .pinReset s = .next t ∧ t.dev = { s.dev with startUp := { s.dev.startUp with resetN := true } }) ∧
    (s.dev.startUp.resetN = true → s.dev.startUp.powerGood = true → s.dev.sec.scanning = false →
      ∃ t, exec .resetNRelease s = .next t ∧ t.ply = (if s.dev.startUp.kind = 1 then 0 else s.ply) ∧ t.dev.startUp.resetN = false ∧
        t.dev.startUp.released = true ∧ t.dev.startUp.releasePly = (if s.dev.startUp.kind = 1 then 0 else s.now) ∧ (s.dev.startUp.cleared = true → t.dev.sec.nvm.lifecycle = 0)) ∧
    (s.dev.live = true → s.dueReset true = true → s.dev.sec.scanning = false →
      ∃ t, exec .deviceResetDue s = .next t ∧ t.ply = s.ply ∧ t.dev.startUp.kind = 3 ∧ t.dev.startUp.due = [] ∧
        t.dev.startUp.resets = (if s.resetAgain then s.dev.startUp.resets else min 65535 (s.dev.startUp.resets + 1)) ∧ t.dev.startUp.released = true ∧ t.dev.startUp.phase = 0 ∧
        t.dev.startUp.ready = false ∧ t.dev.power.tripped = s.dev.power.tripped ∧ t.dev.selid = {} ∧ t.dev.flow = {} ∧ t.dev.compute = {} ∧
        t.dev.ports = [] ∧ t.dev.regs.rw = [] ∧
        t.dev.regs.hdr = (if t.dev.ref.lost then [(pgGlobal, { PageHdr.reset pgGlobal with faulted := true })] else []) ∧
        (s.dev.startUp.cleared = false → t.dev.sec.nvm = s.dev.sec.nvm))

/-- CONTROL_RESET_DUE, CONTROL_WATCHDOG, CONTROL_RESTART_READY, READY and BOOT_FAILURE (R469, R548, R551 to R556, R559): a control reset ends every
session and the keys but leaves tables, ports and cores, the restart sets READY again, and start-up ends with READY or stops. -/
def Obligations.StartUpAndRestartEnd : Prop :=
  ∀ (s : State), s.dev.canonical = true → s.clearedNow pgReset = false →
    (s.dev.live = true → s.resetNow = false → s.dueReset true = false →
      (s.dueReset false = true → ∃ t, exec .controlResetDue s = .next t ∧ t.dev.startUp.kind = 4 ∧
        t.dev.startUp.resets = (if s.resetAgain then s.dev.startUp.resets else min 65535 (s.dev.startUp.resets + 1)) ∧ t.dev.startUp.restart = some s.now ∧ t.dev.startUp.ready = false ∧
        t.dev.selid.sessions = [] ∧ t.dev.selid.quench = s.dev.selid.quench ∧ t.dev.pair.key = [] ∧ t.dev.team.key = [] ∧
        t.dev.sec.configHash = [] ∧ t.dev.sec.nvm = s.dev.sec.nvm ∧ t.dev.flow = s.dev.flow ∧ t.dev.ports = s.dev.ports ∧
        t.dev.objects.rings = s.dev.objects.rings ∧ t.dev.reliab.stopped = 0 ∧
        ∀ p, (s.dev.hdr p).lock = .sealed → (t.dev.hdr p).lock = .sealed) ∧
      (∃ t, exec .controlWatchdog s = .next t ∧ t.dev.startUp.kind = 5 ∧
        t.dev.startUp.resets = (if s.resetAgain then s.dev.startUp.resets else min 65535 (s.dev.startUp.resets + 1)) ∧ t.dev.startUp.restart = some s.now ∧ t.dev.startUp.ready = false ∧
        t.dev.selid.sessions = [] ∧ t.dev.selid.quench = s.dev.selid.quench ∧ t.dev.pair.key = [] ∧ t.dev.team.key = [] ∧
        t.dev.sec.configHash = [] ∧ t.dev.sec.nvm = s.dev.sec.nvm ∧ t.dev.flow = s.dev.flow ∧ t.dev.ports = s.dev.ports)) ∧
    (∀ p, s.dev.startUp.restart = some p → p < s.now → s.dev.halted = false →
      ∃ t, exec .controlRestartReady s = .next t ∧ t.dev.startUp.ready = true ∧ t.dev.startUp.phase = 9 ∧ t.dev.startUp.readyPly = s.now ∧
        t.dev.startUp.restart = none ∧ t.dev.sec.entropyOk = true ∧ t.raised pgReset 0) ∧
    (∀ bad untrained, s.dev.starting = true → s.dev.startUp.phase = 7 → s.dev.ref.lost = false →
      ∃ t, exec (.ready bad untrained) s = .next t ∧ t.dev.startUp.ready = true ∧ t.dev.startUp.phase = 9 ∧ t.dev.startUp.readyPly = s.now ∧
        t.raised pgReset 0 ∧ ∀ x ∈ bad, x < 832 → (t.dev.site x).state ≠ .active) ∧
    (∀ kind, s.dev.starting = true →
      (kind = 0 → s.dev.startUp.phase ≤ 1 →
        ∃ t, exec (.bootFailure kind) s = .next t ∧ (s.dev.bootSlot = none → t.dev.power.noSlot = true)) ∧
      (kind = 1 → s.dev.startUp.phase = 6 → ∃ t, exec (.bootFailure kind) s = .next t ∧ t.dev.power.bookFailed = true))

/-! ### The package boundary -/

/-- The SMBus commands (R569, R570): from 1 ms after PWR_GOOD each read is answered with the bytes of its code, any other command with a NACK, and
the alert response address with the device's own address while it asserts the line; nothing else of the device changes. Words are little-endian. -/
def Obligations.SmbusAnswers : Prop :=
  ∀ (s : State), s.smbAnswers = true →
    exec .smbStatus s = .next (s.emit (.smbus (some [byte s.start.smbStatus]))) ∧
    exec .smbPhase s = .next (s.emit (.smbus (some [byte s.start.startUp.phase]))) ∧
    exec .smbLifecycle s = .next (s.emit (.smbus (some [byte s.start.sec.nvm.lifecycle]))) ∧
    exec .smbStages s = .next (s.emit (.smbus (some [byte s.start.stages]))) ∧
    exec .smbRailFault s = .next (s.emit (.smbus (some [byte s.start.power.rails]))) ∧
    (∀ die w, die < 4 → w = (hottest (s.start.tempo die).logic).2 % 4096 →
      exec (.smbLogicTemp die) s = .next (s.emit (.smbus (some [byte w, byte (w / 256)])))) ∧
    (∀ die w, die < 4 → w = (hottest (s.start.tempo die).dram).2 % 4096 →
      exec (.smbDramTemp die) s = .next (s.emit (.smbus (some [byte w, byte (w / 256)])))) ∧
    (∀ die w, die < 2 → w = (if die = 0 then s.start.power.port0 else s.start.power.port1) % 4096 →
      exec (.smbPortTemp die) s = .next (s.emit (.smbus (some [byte w, byte (w / 256)])))) ∧
    (∀ w, w = s.start.power.watts % 65536 → exec .smbPower s = .next (s.emit (.smbus (some [byte w, byte (w / 256)])))) ∧
    (∀ die, die < 4 → exec (.smbVcore die) s = .next (s.emit (.smbus (some [byte (s.start.tempo die).vcore])))) ∧
    (s.start.startUp.phase < 3 → s.start.startUp.restart = none → exec .smbSerial s = .next (s.emit (.smbus (some (zeros 8))))) ∧
    (3 ≤ s.start.startUp.phase → exec .smbSerial s = .next (s.emit (.smbus (some (toLE 8 Config.serial.toNat))))) ∧
    exec .smbRefused s = .next (s.emit (.smbus none)) ∧
    (s.start.smbAlert = true → exec .smbAlertResponse s = .next (s.emit (.smbus (some [byte (2 * (0x58 + Config.smbStrap % 4))]))))
end

