-- ==== Sys2Proof/Laws/State.lean ====
section
/-! SUPPORT. One lemma per field per update of the state: what an update of one part of the device does to each field. All hold by rfl. -/
namespace Sys2Proof.Machine

variable (s : State)

@[simp] theorem onDev_dev (f : Dev → Dev) : (s.onDev f).dev = f s.dev := rfl
@[simp] theorem onDev_ply (f : Dev → Dev) : (s.onDev f).ply = s.ply := rfl
@[simp] theorem onDev_start (f : Dev → Dev) : (s.onDev f).start = s.start := rfl
@[simp] theorem onDev_pending (f : Dev → Dev) : (s.onDev f).pending = s.pending := rfl

/-! ### onRegs -/

@[simp] theorem onRegs_ply (f : Regs → Regs) : (s.onRegs f).ply = s.ply := rfl
@[simp] theorem onRegs_start (f : Regs → Regs) : (s.onRegs f).start = s.start := rfl
@[simp] theorem onRegs_pending (f : Regs → Regs) : (s.onRegs f).pending = s.pending := rfl
@[simp] theorem onRegs_regs (f : Regs → Regs) : (s.onRegs f).dev.regs = f s.dev.regs := rfl
@[simp] theorem onRegs_selid (f : Regs → Regs) : (s.onRegs f).dev.selid = s.dev.selid := rfl
@[simp] theorem onRegs_ports (f : Regs → Regs) : (s.onRegs f).dev.ports = s.dev.ports := rfl
@[simp] theorem onRegs_ref (f : Regs → Regs) : (s.onRegs f).dev.ref = s.dev.ref := rfl
@[simp] theorem onRegs_traffic (f : Regs → Regs) : (s.onRegs f).dev.traffic = s.dev.traffic := rfl
@[simp] theorem onRegs_net (f : Regs → Regs) : (s.onRegs f).dev.net = s.dev.net := rfl
@[simp] theorem onRegs_objects (f : Regs → Regs) : (s.onRegs f).dev.objects = s.dev.objects := rfl
@[simp] theorem onRegs_flow (f : Regs → Regs) : (s.onRegs f).dev.flow = s.dev.flow := rfl
@[simp] theorem onRegs_compute (f : Regs → Regs) : (s.onRegs f).dev.compute = s.dev.compute := rfl
@[simp] theorem onRegs_power (f : Regs → Regs) : (s.onRegs f).dev.power = s.dev.power := rfl
@[simp] theorem onRegs_sec (f : Regs → Regs) : (s.onRegs f).dev.sec = s.dev.sec := rfl
@[simp] theorem onRegs_team (f : Regs → Regs) : (s.onRegs f).dev.team = s.dev.team := rfl
@[simp] theorem onRegs_pair (f : Regs → Regs) : (s.onRegs f).dev.pair = s.dev.pair := rfl
@[simp] theorem onRegs_reliab (f : Regs → Regs) : (s.onRegs f).dev.reliab = s.dev.reliab := rfl
@[simp] theorem onRegs_score (f : Regs → Regs) : (s.onRegs f).dev.score = s.dev.score := rfl
@[simp] theorem onRegs_back (f : Regs → Regs) : (s.onRegs f).dev.back = s.dev.back := rfl
@[simp] theorem onRegs_startUp (f : Regs → Regs) : (s.onRegs f).dev.startUp = s.dev.startUp := rfl
@[simp] theorem onRegs_out (f : Regs → Regs) : (s.onRegs f).dev.out = s.dev.out := rfl
@[simp] theorem onRegs_draws (f : Regs → Regs) : (s.onRegs f).dev.draws = s.dev.draws := rfl
@[simp] theorem onRegs_opens (f : Regs → Regs) : (s.onRegs f).dev.opens = s.dev.opens := rfl

/-! ### onSelid -/

@[simp] theorem onSelid_ply (f : Selid → Selid) : (s.onSelid f).ply = s.ply := rfl
@[simp] theorem onSelid_start (f : Selid → Selid) : (s.onSelid f).start = s.start := rfl
@[simp] theorem onSelid_pending (f : Selid → Selid) : (s.onSelid f).pending = s.pending := rfl
@[simp] theorem onSelid_regs (f : Selid → Selid) : (s.onSelid f).dev.regs = s.dev.regs := rfl
@[simp] theorem onSelid_selid (f : Selid → Selid) : (s.onSelid f).dev.selid = f s.dev.selid := rfl
@[simp] theorem onSelid_ports (f : Selid → Selid) : (s.onSelid f).dev.ports = s.dev.ports := rfl
@[simp] theorem onSelid_ref (f : Selid → Selid) : (s.onSelid f).dev.ref = s.dev.ref := rfl
@[simp] theorem onSelid_traffic (f : Selid → Selid) : (s.onSelid f).dev.traffic = s.dev.traffic := rfl
@[simp] theorem onSelid_net (f : Selid → Selid) : (s.onSelid f).dev.net = s.dev.net := rfl
@[simp] theorem onSelid_objects (f : Selid → Selid) : (s.onSelid f).dev.objects = s.dev.objects := rfl
@[simp] theorem onSelid_flow (f : Selid → Selid) : (s.onSelid f).dev.flow = s.dev.flow := rfl
@[simp] theorem onSelid_compute (f : Selid → Selid) : (s.onSelid f).dev.compute = s.dev.compute := rfl
@[simp] theorem onSelid_power (f : Selid → Selid) : (s.onSelid f).dev.power = s.dev.power := rfl
@[simp] theorem onSelid_sec (f : Selid → Selid) : (s.onSelid f).dev.sec = s.dev.sec := rfl
@[simp] theorem onSelid_team (f : Selid → Selid) : (s.onSelid f).dev.team = s.dev.team := rfl
@[simp] theorem onSelid_pair (f : Selid → Selid) : (s.onSelid f).dev.pair = s.dev.pair := rfl
@[simp] theorem onSelid_reliab (f : Selid → Selid) : (s.onSelid f).dev.reliab = s.dev.reliab := rfl
@[simp] theorem onSelid_score (f : Selid → Selid) : (s.onSelid f).dev.score = s.dev.score := rfl
@[simp] theorem onSelid_back (f : Selid → Selid) : (s.onSelid f).dev.back = s.dev.back := rfl
@[simp] theorem onSelid_startUp (f : Selid → Selid) : (s.onSelid f).dev.startUp = s.dev.startUp := rfl
@[simp] theorem onSelid_out (f : Selid → Selid) : (s.onSelid f).dev.out = s.dev.out := rfl
@[simp] theorem onSelid_draws (f : Selid → Selid) : (s.onSelid f).dev.draws = s.dev.draws := rfl
@[simp] theorem onSelid_opens (f : Selid → Selid) : (s.onSelid f).dev.opens = s.dev.opens := rfl

/-! ### onPorts -/

@[simp] theorem onPorts_ply (f : Table Port → Table Port) : (s.onPorts f).ply = s.ply := rfl
@[simp] theorem onPorts_start (f : Table Port → Table Port) : (s.onPorts f).start = s.start := rfl
@[simp] theorem onPorts_pending (f : Table Port → Table Port) : (s.onPorts f).pending = s.pending := rfl
@[simp] theorem onPorts_regs (f : Table Port → Table Port) : (s.onPorts f).dev.regs = s.dev.regs := rfl
@[simp] theorem onPorts_selid (f : Table Port → Table Port) : (s.onPorts f).dev.selid = s.dev.selid := rfl
@[simp] theorem onPorts_ports (f : Table Port → Table Port) : (s.onPorts f).dev.ports = f s.dev.ports := rfl
@[simp] theorem onPorts_ref (f : Table Port → Table Port) : (s.onPorts f).dev.ref = s.dev.ref := rfl
@[simp] theorem onPorts_traffic (f : Table Port → Table Port) : (s.onPorts f).dev.traffic = s.dev.traffic := rfl
@[simp] theorem onPorts_net (f : Table Port → Table Port) : (s.onPorts f).dev.net = s.dev.net := rfl
@[simp] theorem onPorts_objects (f : Table Port → Table Port) : (s.onPorts f).dev.objects = s.dev.objects := rfl
@[simp] theorem onPorts_flow (f : Table Port → Table Port) : (s.onPorts f).dev.flow = s.dev.flow := rfl
@[simp] theorem onPorts_compute (f : Table Port → Table Port) : (s.onPorts f).dev.compute = s.dev.compute := rfl
@[simp] theorem onPorts_power (f : Table Port → Table Port) : (s.onPorts f).dev.power = s.dev.power := rfl
@[simp] theorem onPorts_sec (f : Table Port → Table Port) : (s.onPorts f).dev.sec = s.dev.sec := rfl
@[simp] theorem onPorts_team (f : Table Port → Table Port) : (s.onPorts f).dev.team = s.dev.team := rfl
@[simp] theorem onPorts_pair (f : Table Port → Table Port) : (s.onPorts f).dev.pair = s.dev.pair := rfl
@[simp] theorem onPorts_reliab (f : Table Port → Table Port) : (s.onPorts f).dev.reliab = s.dev.reliab := rfl
@[simp] theorem onPorts_score (f : Table Port → Table Port) : (s.onPorts f).dev.score = s.dev.score := rfl
@[simp] theorem onPorts_back (f : Table Port → Table Port) : (s.onPorts f).dev.back = s.dev.back := rfl
@[simp] theorem onPorts_startUp (f : Table Port → Table Port) : (s.onPorts f).dev.startUp = s.dev.startUp := rfl
@[simp] theorem onPorts_out (f : Table Port → Table Port) : (s.onPorts f).dev.out = s.dev.out := rfl
@[simp] theorem onPorts_draws (f : Table Port → Table Port) : (s.onPorts f).dev.draws = s.dev.draws := rfl
@[simp] theorem onPorts_opens (f : Table Port → Table Port) : (s.onPorts f).dev.opens = s.dev.opens := rfl

/-! ### onRef -/

@[simp] theorem onRef_ply (f : RefClock → RefClock) : (s.onRef f).ply = s.ply := rfl
@[simp] theorem onRef_start (f : RefClock → RefClock) : (s.onRef f).start = s.start := rfl
@[simp] theorem onRef_pending (f : RefClock → RefClock) : (s.onRef f).pending = s.pending := rfl
@[simp] theorem onRef_regs (f : RefClock → RefClock) : (s.onRef f).dev.regs = s.dev.regs := rfl
@[simp] theorem onRef_selid (f : RefClock → RefClock) : (s.onRef f).dev.selid = s.dev.selid := rfl
@[simp] theorem onRef_ports (f : RefClock → RefClock) : (s.onRef f).dev.ports = s.dev.ports := rfl
@[simp] theorem onRef_ref (f : RefClock → RefClock) : (s.onRef f).dev.ref = f s.dev.ref := rfl
@[simp] theorem onRef_traffic (f : RefClock → RefClock) : (s.onRef f).dev.traffic = s.dev.traffic := rfl
@[simp] theorem onRef_net (f : RefClock → RefClock) : (s.onRef f).dev.net = s.dev.net := rfl
@[simp] theorem onRef_objects (f : RefClock → RefClock) : (s.onRef f).dev.objects = s.dev.objects := rfl
@[simp] theorem onRef_flow (f : RefClock → RefClock) : (s.onRef f).dev.flow = s.dev.flow := rfl
@[simp] theorem onRef_compute (f : RefClock → RefClock) : (s.onRef f).dev.compute = s.dev.compute := rfl
@[simp] theorem onRef_power (f : RefClock → RefClock) : (s.onRef f).dev.power = s.dev.power := rfl
@[simp] theorem onRef_sec (f : RefClock → RefClock) : (s.onRef f).dev.sec = s.dev.sec := rfl
@[simp] theorem onRef_team (f : RefClock → RefClock) : (s.onRef f).dev.team = s.dev.team := rfl
@[simp] theorem onRef_pair (f : RefClock → RefClock) : (s.onRef f).dev.pair = s.dev.pair := rfl
@[simp] theorem onRef_reliab (f : RefClock → RefClock) : (s.onRef f).dev.reliab = s.dev.reliab := rfl
@[simp] theorem onRef_score (f : RefClock → RefClock) : (s.onRef f).dev.score = s.dev.score := rfl
@[simp] theorem onRef_back (f : RefClock → RefClock) : (s.onRef f).dev.back = s.dev.back := rfl
@[simp] theorem onRef_startUp (f : RefClock → RefClock) : (s.onRef f).dev.startUp = s.dev.startUp := rfl
@[simp] theorem onRef_out (f : RefClock → RefClock) : (s.onRef f).dev.out = s.dev.out := rfl
@[simp] theorem onRef_draws (f : RefClock → RefClock) : (s.onRef f).dev.draws = s.dev.draws := rfl
@[simp] theorem onRef_opens (f : RefClock → RefClock) : (s.onRef f).dev.opens = s.dev.opens := rfl

/-! ### onTraffic -/

@[simp] theorem onTraffic_ply (f : Traffic → Traffic) : (s.onTraffic f).ply = s.ply := rfl
@[simp] theorem onTraffic_start (f : Traffic → Traffic) : (s.onTraffic f).start = s.start := rfl
@[simp] theorem onTraffic_pending (f : Traffic → Traffic) : (s.onTraffic f).pending = s.pending := rfl
@[simp] theorem onTraffic_regs (f : Traffic → Traffic) : (s.onTraffic f).dev.regs = s.dev.regs := rfl
@[simp] theorem onTraffic_selid (f : Traffic → Traffic) : (s.onTraffic f).dev.selid = s.dev.selid := rfl
@[simp] theorem onTraffic_ports (f : Traffic → Traffic) : (s.onTraffic f).dev.ports = s.dev.ports := rfl
@[simp] theorem onTraffic_ref (f : Traffic → Traffic) : (s.onTraffic f).dev.ref = s.dev.ref := rfl
@[simp] theorem onTraffic_traffic (f : Traffic → Traffic) : (s.onTraffic f).dev.traffic = f s.dev.traffic := rfl
@[simp] theorem onTraffic_net (f : Traffic → Traffic) : (s.onTraffic f).dev.net = s.dev.net := rfl
@[simp] theorem onTraffic_objects (f : Traffic → Traffic) : (s.onTraffic f).dev.objects = s.dev.objects := rfl
@[simp] theorem onTraffic_flow (f : Traffic → Traffic) : (s.onTraffic f).dev.flow = s.dev.flow := rfl
@[simp] theorem onTraffic_compute (f : Traffic → Traffic) : (s.onTraffic f).dev.compute = s.dev.compute := rfl
@[simp] theorem onTraffic_power (f : Traffic → Traffic) : (s.onTraffic f).dev.power = s.dev.power := rfl
@[simp] theorem onTraffic_sec (f : Traffic → Traffic) : (s.onTraffic f).dev.sec = s.dev.sec := rfl
@[simp] theorem onTraffic_team (f : Traffic → Traffic) : (s.onTraffic f).dev.team = s.dev.team := rfl
@[simp] theorem onTraffic_pair (f : Traffic → Traffic) : (s.onTraffic f).dev.pair = s.dev.pair := rfl
@[simp] theorem onTraffic_reliab (f : Traffic → Traffic) : (s.onTraffic f).dev.reliab = s.dev.reliab := rfl
@[simp] theorem onTraffic_score (f : Traffic → Traffic) : (s.onTraffic f).dev.score = s.dev.score := rfl
@[simp] theorem onTraffic_back (f : Traffic → Traffic) : (s.onTraffic f).dev.back = s.dev.back := rfl
@[simp] theorem onTraffic_startUp (f : Traffic → Traffic) : (s.onTraffic f).dev.startUp = s.dev.startUp := rfl
@[simp] theorem onTraffic_out (f : Traffic → Traffic) : (s.onTraffic f).dev.out = s.dev.out := rfl
@[simp] theorem onTraffic_draws (f : Traffic → Traffic) : (s.onTraffic f).dev.draws = s.dev.draws := rfl
@[simp] theorem onTraffic_opens (f : Traffic → Traffic) : (s.onTraffic f).dev.opens = s.dev.opens := rfl

/-! ### onNet -/

@[simp] theorem onNet_ply (f : Net → Net) : (s.onNet f).ply = s.ply := rfl
@[simp] theorem onNet_start (f : Net → Net) : (s.onNet f).start = s.start := rfl
@[simp] theorem onNet_pending (f : Net → Net) : (s.onNet f).pending = s.pending := rfl
@[simp] theorem onNet_regs (f : Net → Net) : (s.onNet f).dev.regs = s.dev.regs := rfl
@[simp] theorem onNet_selid (f : Net → Net) : (s.onNet f).dev.selid = s.dev.selid := rfl
@[simp] theorem onNet_ports (f : Net → Net) : (s.onNet f).dev.ports = s.dev.ports := rfl
@[simp] theorem onNet_ref (f : Net → Net) : (s.onNet f).dev.ref = s.dev.ref := rfl
@[simp] theorem onNet_traffic (f : Net → Net) : (s.onNet f).dev.traffic = s.dev.traffic := rfl
@[simp] theorem onNet_net (f : Net → Net) : (s.onNet f).dev.net = f s.dev.net := rfl
@[simp] theorem onNet_objects (f : Net → Net) : (s.onNet f).dev.objects = s.dev.objects := rfl
@[simp] theorem onNet_flow (f : Net → Net) : (s.onNet f).dev.flow = s.dev.flow := rfl
@[simp] theorem onNet_compute (f : Net → Net) : (s.onNet f).dev.compute = s.dev.compute := rfl
@[simp] theorem onNet_power (f : Net → Net) : (s.onNet f).dev.power = s.dev.power := rfl
@[simp] theorem onNet_sec (f : Net → Net) : (s.onNet f).dev.sec = s.dev.sec := rfl
@[simp] theorem onNet_team (f : Net → Net) : (s.onNet f).dev.team = s.dev.team := rfl
@[simp] theorem onNet_pair (f : Net → Net) : (s.onNet f).dev.pair = s.dev.pair := rfl
@[simp] theorem onNet_reliab (f : Net → Net) : (s.onNet f).dev.reliab = s.dev.reliab := rfl
@[simp] theorem onNet_score (f : Net → Net) : (s.onNet f).dev.score = s.dev.score := rfl
@[simp] theorem onNet_back (f : Net → Net) : (s.onNet f).dev.back = s.dev.back := rfl
@[simp] theorem onNet_startUp (f : Net → Net) : (s.onNet f).dev.startUp = s.dev.startUp := rfl
@[simp] theorem onNet_out (f : Net → Net) : (s.onNet f).dev.out = s.dev.out := rfl
@[simp] theorem onNet_draws (f : Net → Net) : (s.onNet f).dev.draws = s.dev.draws := rfl
@[simp] theorem onNet_opens (f : Net → Net) : (s.onNet f).dev.opens = s.dev.opens := rfl

/-! ### onObjects -/

@[simp] theorem onObjects_ply (f : Objects → Objects) : (s.onObjects f).ply = s.ply := rfl
@[simp] theorem onObjects_start (f : Objects → Objects) : (s.onObjects f).start = s.start := rfl
@[simp] theorem onObjects_pending (f : Objects → Objects) : (s.onObjects f).pending = s.pending := rfl
@[simp] theorem onObjects_regs (f : Objects → Objects) : (s.onObjects f).dev.regs = s.dev.regs := rfl
@[simp] theorem onObjects_selid (f : Objects → Objects) : (s.onObjects f).dev.selid = s.dev.selid := rfl
@[simp] theorem onObjects_ports (f : Objects → Objects) : (s.onObjects f).dev.ports = s.dev.ports := rfl
@[simp] theorem onObjects_ref (f : Objects → Objects) : (s.onObjects f).dev.ref = s.dev.ref := rfl
@[simp] theorem onObjects_traffic (f : Objects → Objects) : (s.onObjects f).dev.traffic = s.dev.traffic := rfl
@[simp] theorem onObjects_net (f : Objects → Objects) : (s.onObjects f).dev.net = s.dev.net := rfl
@[simp] theorem onObjects_objects (f : Objects → Objects) : (s.onObjects f).dev.objects = f s.dev.objects := rfl
@[simp] theorem onObjects_flow (f : Objects → Objects) : (s.onObjects f).dev.flow = s.dev.flow := rfl
@[simp] theorem onObjects_compute (f : Objects → Objects) : (s.onObjects f).dev.compute = s.dev.compute := rfl
@[simp] theorem onObjects_power (f : Objects → Objects) : (s.onObjects f).dev.power = s.dev.power := rfl
@[simp] theorem onObjects_sec (f : Objects → Objects) : (s.onObjects f).dev.sec = s.dev.sec := rfl
@[simp] theorem onObjects_team (f : Objects → Objects) : (s.onObjects f).dev.team = s.dev.team := rfl
@[simp] theorem onObjects_pair (f : Objects → Objects) : (s.onObjects f).dev.pair = s.dev.pair := rfl
@[simp] theorem onObjects_reliab (f : Objects → Objects) : (s.onObjects f).dev.reliab = s.dev.reliab := rfl
@[simp] theorem onObjects_score (f : Objects → Objects) : (s.onObjects f).dev.score = s.dev.score := rfl
@[simp] theorem onObjects_back (f : Objects → Objects) : (s.onObjects f).dev.back = s.dev.back := rfl
@[simp] theorem onObjects_startUp (f : Objects → Objects) : (s.onObjects f).dev.startUp = s.dev.startUp := rfl
@[simp] theorem onObjects_out (f : Objects → Objects) : (s.onObjects f).dev.out = s.dev.out := rfl
@[simp] theorem onObjects_draws (f : Objects → Objects) : (s.onObjects f).dev.draws = s.dev.draws := rfl
@[simp] theorem onObjects_opens (f : Objects → Objects) : (s.onObjects f).dev.opens = s.dev.opens := rfl

/-! ### onFlow -/

@[simp] theorem onFlow_ply (f : Flow → Flow) : (s.onFlow f).ply = s.ply := rfl
@[simp] theorem onFlow_start (f : Flow → Flow) : (s.onFlow f).start = s.start := rfl
@[simp] theorem onFlow_pending (f : Flow → Flow) : (s.onFlow f).pending = s.pending := rfl
@[simp] theorem onFlow_regs (f : Flow → Flow) : (s.onFlow f).dev.regs = s.dev.regs := rfl
@[simp] theorem onFlow_selid (f : Flow → Flow) : (s.onFlow f).dev.selid = s.dev.selid := rfl
@[simp] theorem onFlow_ports (f : Flow → Flow) : (s.onFlow f).dev.ports = s.dev.ports := rfl
@[simp] theorem onFlow_ref (f : Flow → Flow) : (s.onFlow f).dev.ref = s.dev.ref := rfl
@[simp] theorem onFlow_traffic (f : Flow → Flow) : (s.onFlow f).dev.traffic = s.dev.traffic := rfl
@[simp] theorem onFlow_net (f : Flow → Flow) : (s.onFlow f).dev.net = s.dev.net := rfl
@[simp] theorem onFlow_objects (f : Flow → Flow) : (s.onFlow f).dev.objects = s.dev.objects := rfl
@[simp] theorem onFlow_flow (f : Flow → Flow) : (s.onFlow f).dev.flow = f s.dev.flow := rfl
@[simp] theorem onFlow_compute (f : Flow → Flow) : (s.onFlow f).dev.compute = s.dev.compute := rfl
@[simp] theorem onFlow_power (f : Flow → Flow) : (s.onFlow f).dev.power = s.dev.power := rfl
@[simp] theorem onFlow_sec (f : Flow → Flow) : (s.onFlow f).dev.sec = s.dev.sec := rfl
@[simp] theorem onFlow_team (f : Flow → Flow) : (s.onFlow f).dev.team = s.dev.team := rfl
@[simp] theorem onFlow_pair (f : Flow → Flow) : (s.onFlow f).dev.pair = s.dev.pair := rfl
@[simp] theorem onFlow_reliab (f : Flow → Flow) : (s.onFlow f).dev.reliab = s.dev.reliab := rfl
@[simp] theorem onFlow_score (f : Flow → Flow) : (s.onFlow f).dev.score = s.dev.score := rfl
@[simp] theorem onFlow_back (f : Flow → Flow) : (s.onFlow f).dev.back = s.dev.back := rfl
@[simp] theorem onFlow_startUp (f : Flow → Flow) : (s.onFlow f).dev.startUp = s.dev.startUp := rfl
@[simp] theorem onFlow_out (f : Flow → Flow) : (s.onFlow f).dev.out = s.dev.out := rfl
@[simp] theorem onFlow_draws (f : Flow → Flow) : (s.onFlow f).dev.draws = s.dev.draws := rfl
@[simp] theorem onFlow_opens (f : Flow → Flow) : (s.onFlow f).dev.opens = s.dev.opens := rfl

/-! ### onCompute -/

@[simp] theorem onCompute_ply (f : Compute → Compute) : (s.onCompute f).ply = s.ply := rfl
@[simp] theorem onCompute_start (f : Compute → Compute) : (s.onCompute f).start = s.start := rfl
@[simp] theorem onCompute_pending (f : Compute → Compute) : (s.onCompute f).pending = s.pending := rfl
@[simp] theorem onCompute_regs (f : Compute → Compute) : (s.onCompute f).dev.regs = s.dev.regs := rfl
@[simp] theorem onCompute_selid (f : Compute → Compute) : (s.onCompute f).dev.selid = s.dev.selid := rfl
@[simp] theorem onCompute_ports (f : Compute → Compute) : (s.onCompute f).dev.ports = s.dev.ports := rfl
@[simp] theorem onCompute_ref (f : Compute → Compute) : (s.onCompute f).dev.ref = s.dev.ref := rfl
@[simp] theorem onCompute_traffic (f : Compute → Compute) : (s.onCompute f).dev.traffic = s.dev.traffic := rfl
@[simp] theorem onCompute_net (f : Compute → Compute) : (s.onCompute f).dev.net = s.dev.net := rfl
@[simp] theorem onCompute_objects (f : Compute → Compute) : (s.onCompute f).dev.objects = s.dev.objects := rfl
@[simp] theorem onCompute_flow (f : Compute → Compute) : (s.onCompute f).dev.flow = s.dev.flow := rfl
@[simp] theorem onCompute_compute (f : Compute → Compute) : (s.onCompute f).dev.compute = f s.dev.compute := rfl
@[simp] theorem onCompute_power (f : Compute → Compute) : (s.onCompute f).dev.power = s.dev.power := rfl
@[simp] theorem onCompute_sec (f : Compute → Compute) : (s.onCompute f).dev.sec = s.dev.sec := rfl
@[simp] theorem onCompute_team (f : Compute → Compute) : (s.onCompute f).dev.team = s.dev.team := rfl
@[simp] theorem onCompute_pair (f : Compute → Compute) : (s.onCompute f).dev.pair = s.dev.pair := rfl
@[simp] theorem onCompute_reliab (f : Compute → Compute) : (s.onCompute f).dev.reliab = s.dev.reliab := rfl
@[simp] theorem onCompute_score (f : Compute → Compute) : (s.onCompute f).dev.score = s.dev.score := rfl
@[simp] theorem onCompute_back (f : Compute → Compute) : (s.onCompute f).dev.back = s.dev.back := rfl
@[simp] theorem onCompute_startUp (f : Compute → Compute) : (s.onCompute f).dev.startUp = s.dev.startUp := rfl
@[simp] theorem onCompute_out (f : Compute → Compute) : (s.onCompute f).dev.out = s.dev.out := rfl
@[simp] theorem onCompute_draws (f : Compute → Compute) : (s.onCompute f).dev.draws = s.dev.draws := rfl
@[simp] theorem onCompute_opens (f : Compute → Compute) : (s.onCompute f).dev.opens = s.dev.opens := rfl

/-! ### onPower -/

@[simp] theorem onPower_ply (f : Power → Power) : (s.onPower f).ply = s.ply := rfl
@[simp] theorem onPower_start (f : Power → Power) : (s.onPower f).start = s.start := rfl
@[simp] theorem onPower_pending (f : Power → Power) : (s.onPower f).pending = s.pending := rfl
@[simp] theorem onPower_regs (f : Power → Power) : (s.onPower f).dev.regs = s.dev.regs := rfl
@[simp] theorem onPower_selid (f : Power → Power) : (s.onPower f).dev.selid = s.dev.selid := rfl
@[simp] theorem onPower_ports (f : Power → Power) : (s.onPower f).dev.ports = s.dev.ports := rfl
@[simp] theorem onPower_ref (f : Power → Power) : (s.onPower f).dev.ref = s.dev.ref := rfl
@[simp] theorem onPower_traffic (f : Power → Power) : (s.onPower f).dev.traffic = s.dev.traffic := rfl
@[simp] theorem onPower_net (f : Power → Power) : (s.onPower f).dev.net = s.dev.net := rfl
@[simp] theorem onPower_objects (f : Power → Power) : (s.onPower f).dev.objects = s.dev.objects := rfl
@[simp] theorem onPower_flow (f : Power → Power) : (s.onPower f).dev.flow = s.dev.flow := rfl
@[simp] theorem onPower_compute (f : Power → Power) : (s.onPower f).dev.compute = s.dev.compute := rfl
@[simp] theorem onPower_power (f : Power → Power) : (s.onPower f).dev.power = f s.dev.power := rfl
@[simp] theorem onPower_sec (f : Power → Power) : (s.onPower f).dev.sec = s.dev.sec := rfl
@[simp] theorem onPower_team (f : Power → Power) : (s.onPower f).dev.team = s.dev.team := rfl
@[simp] theorem onPower_pair (f : Power → Power) : (s.onPower f).dev.pair = s.dev.pair := rfl
@[simp] theorem onPower_reliab (f : Power → Power) : (s.onPower f).dev.reliab = s.dev.reliab := rfl
@[simp] theorem onPower_score (f : Power → Power) : (s.onPower f).dev.score = s.dev.score := rfl
@[simp] theorem onPower_back (f : Power → Power) : (s.onPower f).dev.back = s.dev.back := rfl
@[simp] theorem onPower_startUp (f : Power → Power) : (s.onPower f).dev.startUp = s.dev.startUp := rfl
@[simp] theorem onPower_out (f : Power → Power) : (s.onPower f).dev.out = s.dev.out := rfl
@[simp] theorem onPower_draws (f : Power → Power) : (s.onPower f).dev.draws = s.dev.draws := rfl
@[simp] theorem onPower_opens (f : Power → Power) : (s.onPower f).dev.opens = s.dev.opens := rfl

/-! ### onSec -/

@[simp] theorem onSec_ply (f : Security → Security) : (s.onSec f).ply = s.ply := rfl
@[simp] theorem onSec_start (f : Security → Security) : (s.onSec f).start = s.start := rfl
@[simp] theorem onSec_pending (f : Security → Security) : (s.onSec f).pending = s.pending := rfl
@[simp] theorem onSec_regs (f : Security → Security) : (s.onSec f).dev.regs = s.dev.regs := rfl
@[simp] theorem onSec_selid (f : Security → Security) : (s.onSec f).dev.selid = s.dev.selid := rfl
@[simp] theorem onSec_ports (f : Security → Security) : (s.onSec f).dev.ports = s.dev.ports := rfl
@[simp] theorem onSec_ref (f : Security → Security) : (s.onSec f).dev.ref = s.dev.ref := rfl
@[simp] theorem onSec_traffic (f : Security → Security) : (s.onSec f).dev.traffic = s.dev.traffic := rfl
@[simp] theorem onSec_net (f : Security → Security) : (s.onSec f).dev.net = s.dev.net := rfl
@[simp] theorem onSec_objects (f : Security → Security) : (s.onSec f).dev.objects = s.dev.objects := rfl
@[simp] theorem onSec_flow (f : Security → Security) : (s.onSec f).dev.flow = s.dev.flow := rfl
@[simp] theorem onSec_compute (f : Security → Security) : (s.onSec f).dev.compute = s.dev.compute := rfl
@[simp] theorem onSec_power (f : Security → Security) : (s.onSec f).dev.power = s.dev.power := rfl
@[simp] theorem onSec_sec (f : Security → Security) : (s.onSec f).dev.sec = f s.dev.sec := rfl
@[simp] theorem onSec_team (f : Security → Security) : (s.onSec f).dev.team = s.dev.team := rfl
@[simp] theorem onSec_pair (f : Security → Security) : (s.onSec f).dev.pair = s.dev.pair := rfl
@[simp] theorem onSec_reliab (f : Security → Security) : (s.onSec f).dev.reliab = s.dev.reliab := rfl
@[simp] theorem onSec_score (f : Security → Security) : (s.onSec f).dev.score = s.dev.score := rfl
@[simp] theorem onSec_back (f : Security → Security) : (s.onSec f).dev.back = s.dev.back := rfl
@[simp] theorem onSec_startUp (f : Security → Security) : (s.onSec f).dev.startUp = s.dev.startUp := rfl
@[simp] theorem onSec_out (f : Security → Security) : (s.onSec f).dev.out = s.dev.out := rfl
@[simp] theorem onSec_draws (f : Security → Security) : (s.onSec f).dev.draws = s.dev.draws := rfl
@[simp] theorem onSec_opens (f : Security → Security) : (s.onSec f).dev.opens = s.dev.opens := rfl

/-! ### onTeam -/

@[simp] theorem onTeam_ply (f : Team → Team) : (s.onTeam f).ply = s.ply := rfl
@[simp] theorem onTeam_start (f : Team → Team) : (s.onTeam f).start = s.start := rfl
@[simp] theorem onTeam_pending (f : Team → Team) : (s.onTeam f).pending = s.pending := rfl
@[simp] theorem onTeam_regs (f : Team → Team) : (s.onTeam f).dev.regs = s.dev.regs := rfl
@[simp] theorem onTeam_selid (f : Team → Team) : (s.onTeam f).dev.selid = s.dev.selid := rfl
@[simp] theorem onTeam_ports (f : Team → Team) : (s.onTeam f).dev.ports = s.dev.ports := rfl
@[simp] theorem onTeam_ref (f : Team → Team) : (s.onTeam f).dev.ref = s.dev.ref := rfl
@[simp] theorem onTeam_traffic (f : Team → Team) : (s.onTeam f).dev.traffic = s.dev.traffic := rfl
@[simp] theorem onTeam_net (f : Team → Team) : (s.onTeam f).dev.net = s.dev.net := rfl
@[simp] theorem onTeam_objects (f : Team → Team) : (s.onTeam f).dev.objects = s.dev.objects := rfl
@[simp] theorem onTeam_flow (f : Team → Team) : (s.onTeam f).dev.flow = s.dev.flow := rfl
@[simp] theorem onTeam_compute (f : Team → Team) : (s.onTeam f).dev.compute = s.dev.compute := rfl
@[simp] theorem onTeam_power (f : Team → Team) : (s.onTeam f).dev.power = s.dev.power := rfl
@[simp] theorem onTeam_sec (f : Team → Team) : (s.onTeam f).dev.sec = s.dev.sec := rfl
@[simp] theorem onTeam_team (f : Team → Team) : (s.onTeam f).dev.team = f s.dev.team := rfl
@[simp] theorem onTeam_pair (f : Team → Team) : (s.onTeam f).dev.pair = s.dev.pair := rfl
@[simp] theorem onTeam_reliab (f : Team → Team) : (s.onTeam f).dev.reliab = s.dev.reliab := rfl
@[simp] theorem onTeam_score (f : Team → Team) : (s.onTeam f).dev.score = s.dev.score := rfl
@[simp] theorem onTeam_back (f : Team → Team) : (s.onTeam f).dev.back = s.dev.back := rfl
@[simp] theorem onTeam_startUp (f : Team → Team) : (s.onTeam f).dev.startUp = s.dev.startUp := rfl
@[simp] theorem onTeam_out (f : Team → Team) : (s.onTeam f).dev.out = s.dev.out := rfl
@[simp] theorem onTeam_draws (f : Team → Team) : (s.onTeam f).dev.draws = s.dev.draws := rfl
@[simp] theorem onTeam_opens (f : Team → Team) : (s.onTeam f).dev.opens = s.dev.opens := rfl

/-! ### onPair -/

@[simp] theorem onPair_ply (f : Pair → Pair) : (s.onPair f).ply = s.ply := rfl
@[simp] theorem onPair_start (f : Pair → Pair) : (s.onPair f).start = s.start := rfl
@[simp] theorem onPair_pending (f : Pair → Pair) : (s.onPair f).pending = s.pending := rfl
@[simp] theorem onPair_regs (f : Pair → Pair) : (s.onPair f).dev.regs = s.dev.regs := rfl
@[simp] theorem onPair_selid (f : Pair → Pair) : (s.onPair f).dev.selid = s.dev.selid := rfl
@[simp] theorem onPair_ports (f : Pair → Pair) : (s.onPair f).dev.ports = s.dev.ports := rfl
@[simp] theorem onPair_ref (f : Pair → Pair) : (s.onPair f).dev.ref = s.dev.ref := rfl
@[simp] theorem onPair_traffic (f : Pair → Pair) : (s.onPair f).dev.traffic = s.dev.traffic := rfl
@[simp] theorem onPair_net (f : Pair → Pair) : (s.onPair f).dev.net = s.dev.net := rfl
@[simp] theorem onPair_objects (f : Pair → Pair) : (s.onPair f).dev.objects = s.dev.objects := rfl
@[simp] theorem onPair_flow (f : Pair → Pair) : (s.onPair f).dev.flow = s.dev.flow := rfl
@[simp] theorem onPair_compute (f : Pair → Pair) : (s.onPair f).dev.compute = s.dev.compute := rfl
@[simp] theorem onPair_power (f : Pair → Pair) : (s.onPair f).dev.power = s.dev.power := rfl
@[simp] theorem onPair_sec (f : Pair → Pair) : (s.onPair f).dev.sec = s.dev.sec := rfl
@[simp] theorem onPair_team (f : Pair → Pair) : (s.onPair f).dev.team = s.dev.team := rfl
@[simp] theorem onPair_pair (f : Pair → Pair) : (s.onPair f).dev.pair = f s.dev.pair := rfl
@[simp] theorem onPair_reliab (f : Pair → Pair) : (s.onPair f).dev.reliab = s.dev.reliab := rfl
@[simp] theorem onPair_score (f : Pair → Pair) : (s.onPair f).dev.score = s.dev.score := rfl
@[simp] theorem onPair_back (f : Pair → Pair) : (s.onPair f).dev.back = s.dev.back := rfl
@[simp] theorem onPair_startUp (f : Pair → Pair) : (s.onPair f).dev.startUp = s.dev.startUp := rfl
@[simp] theorem onPair_out (f : Pair → Pair) : (s.onPair f).dev.out = s.dev.out := rfl
@[simp] theorem onPair_draws (f : Pair → Pair) : (s.onPair f).dev.draws = s.dev.draws := rfl
@[simp] theorem onPair_opens (f : Pair → Pair) : (s.onPair f).dev.opens = s.dev.opens := rfl

/-! ### onReliab -/

@[simp] theorem onReliab_ply (f : Reliab → Reliab) : (s.onReliab f).ply = s.ply := rfl
@[simp] theorem onReliab_start (f : Reliab → Reliab) : (s.onReliab f).start = s.start := rfl
@[simp] theorem onReliab_pending (f : Reliab → Reliab) : (s.onReliab f).pending = s.pending := rfl
@[simp] theorem onReliab_regs (f : Reliab → Reliab) : (s.onReliab f).dev.regs = s.dev.regs := rfl
@[simp] theorem onReliab_selid (f : Reliab → Reliab) : (s.onReliab f).dev.selid = s.dev.selid := rfl
@[simp] theorem onReliab_ports (f : Reliab → Reliab) : (s.onReliab f).dev.ports = s.dev.ports := rfl
@[simp] theorem onReliab_ref (f : Reliab → Reliab) : (s.onReliab f).dev.ref = s.dev.ref := rfl
@[simp] theorem onReliab_traffic (f : Reliab → Reliab) : (s.onReliab f).dev.traffic = s.dev.traffic := rfl
@[simp] theorem onReliab_net (f : Reliab → Reliab) : (s.onReliab f).dev.net = s.dev.net := rfl
@[simp] theorem onReliab_objects (f : Reliab → Reliab) : (s.onReliab f).dev.objects = s.dev.objects := rfl
@[simp] theorem onReliab_flow (f : Reliab → Reliab) : (s.onReliab f).dev.flow = s.dev.flow := rfl
@[simp] theorem onReliab_compute (f : Reliab → Reliab) : (s.onReliab f).dev.compute = s.dev.compute := rfl
@[simp] theorem onReliab_power (f : Reliab → Reliab) : (s.onReliab f).dev.power = s.dev.power := rfl
@[simp] theorem onReliab_sec (f : Reliab → Reliab) : (s.onReliab f).dev.sec = s.dev.sec := rfl
@[simp] theorem onReliab_team (f : Reliab → Reliab) : (s.onReliab f).dev.team = s.dev.team := rfl
@[simp] theorem onReliab_pair (f : Reliab → Reliab) : (s.onReliab f).dev.pair = s.dev.pair := rfl
@[simp] theorem onReliab_reliab (f : Reliab → Reliab) : (s.onReliab f).dev.reliab = f s.dev.reliab := rfl
@[simp] theorem onReliab_score (f : Reliab → Reliab) : (s.onReliab f).dev.score = s.dev.score := rfl
@[simp] theorem onReliab_back (f : Reliab → Reliab) : (s.onReliab f).dev.back = s.dev.back := rfl
@[simp] theorem onReliab_startUp (f : Reliab → Reliab) : (s.onReliab f).dev.startUp = s.dev.startUp := rfl
@[simp] theorem onReliab_out (f : Reliab → Reliab) : (s.onReliab f).dev.out = s.dev.out := rfl
@[simp] theorem onReliab_draws (f : Reliab → Reliab) : (s.onReliab f).dev.draws = s.dev.draws := rfl
@[simp] theorem onReliab_opens (f : Reliab → Reliab) : (s.onReliab f).dev.opens = s.dev.opens := rfl

/-! ### onScore -/

@[simp] theorem onScore_ply (f : Score → Score) : (s.onScore f).ply = s.ply := rfl
@[simp] theorem onScore_start (f : Score → Score) : (s.onScore f).start = s.start := rfl
@[simp] theorem onScore_pending (f : Score → Score) : (s.onScore f).pending = s.pending := rfl
@[simp] theorem onScore_regs (f : Score → Score) : (s.onScore f).dev.regs = s.dev.regs := rfl
@[simp] theorem onScore_selid (f : Score → Score) : (s.onScore f).dev.selid = s.dev.selid := rfl
@[simp] theorem onScore_ports (f : Score → Score) : (s.onScore f).dev.ports = s.dev.ports := rfl
@[simp] theorem onScore_ref (f : Score → Score) : (s.onScore f).dev.ref = s.dev.ref := rfl
@[simp] theorem onScore_traffic (f : Score → Score) : (s.onScore f).dev.traffic = s.dev.traffic := rfl
@[simp] theorem onScore_net (f : Score → Score) : (s.onScore f).dev.net = s.dev.net := rfl
@[simp] theorem onScore_objects (f : Score → Score) : (s.onScore f).dev.objects = s.dev.objects := rfl
@[simp] theorem onScore_flow (f : Score → Score) : (s.onScore f).dev.flow = s.dev.flow := rfl
@[simp] theorem onScore_compute (f : Score → Score) : (s.onScore f).dev.compute = s.dev.compute := rfl
@[simp] theorem onScore_power (f : Score → Score) : (s.onScore f).dev.power = s.dev.power := rfl
@[simp] theorem onScore_sec (f : Score → Score) : (s.onScore f).dev.sec = s.dev.sec := rfl
@[simp] theorem onScore_team (f : Score → Score) : (s.onScore f).dev.team = s.dev.team := rfl
@[simp] theorem onScore_pair (f : Score → Score) : (s.onScore f).dev.pair = s.dev.pair := rfl
@[simp] theorem onScore_reliab (f : Score → Score) : (s.onScore f).dev.reliab = s.dev.reliab := rfl
@[simp] theorem onScore_score (f : Score → Score) : (s.onScore f).dev.score = f s.dev.score := rfl
@[simp] theorem onScore_back (f : Score → Score) : (s.onScore f).dev.back = s.dev.back := rfl
@[simp] theorem onScore_startUp (f : Score → Score) : (s.onScore f).dev.startUp = s.dev.startUp := rfl
@[simp] theorem onScore_out (f : Score → Score) : (s.onScore f).dev.out = s.dev.out := rfl
@[simp] theorem onScore_draws (f : Score → Score) : (s.onScore f).dev.draws = s.dev.draws := rfl
@[simp] theorem onScore_opens (f : Score → Score) : (s.onScore f).dev.opens = s.dev.opens := rfl

/-! ### onBack -/

@[simp] theorem onBack_ply (f : Background → Background) : (s.onBack f).ply = s.ply := rfl
@[simp] theorem onBack_start (f : Background → Background) : (s.onBack f).start = s.start := rfl
@[simp] theorem onBack_pending (f : Background → Background) : (s.onBack f).pending = s.pending := rfl
@[simp] theorem onBack_regs (f : Background → Background) : (s.onBack f).dev.regs = s.dev.regs := rfl
@[simp] theorem onBack_selid (f : Background → Background) : (s.onBack f).dev.selid = s.dev.selid := rfl
@[simp] theorem onBack_ports (f : Background → Background) : (s.onBack f).dev.ports = s.dev.ports := rfl
@[simp] theorem onBack_ref (f : Background → Background) : (s.onBack f).dev.ref = s.dev.ref := rfl
@[simp] theorem onBack_traffic (f : Background → Background) : (s.onBack f).dev.traffic = s.dev.traffic := rfl
@[simp] theorem onBack_net (f : Background → Background) : (s.onBack f).dev.net = s.dev.net := rfl
@[simp] theorem onBack_objects (f : Background → Background) : (s.onBack f).dev.objects = s.dev.objects := rfl
@[simp] theorem onBack_flow (f : Background → Background) : (s.onBack f).dev.flow = s.dev.flow := rfl
@[simp] theorem onBack_compute (f : Background → Background) : (s.onBack f).dev.compute = s.dev.compute := rfl
@[simp] theorem onBack_power (f : Background → Background) : (s.onBack f).dev.power = s.dev.power := rfl
@[simp] theorem onBack_sec (f : Background → Background) : (s.onBack f).dev.sec = s.dev.sec := rfl
@[simp] theorem onBack_team (f : Background → Background) : (s.onBack f).dev.team = s.dev.team := rfl
@[simp] theorem onBack_pair (f : Background → Background) : (s.onBack f).dev.pair = s.dev.pair := rfl
@[simp] theorem onBack_reliab (f : Background → Background) : (s.onBack f).dev.reliab = s.dev.reliab := rfl
@[simp] theorem onBack_score (f : Background → Background) : (s.onBack f).dev.score = s.dev.score := rfl
@[simp] theorem onBack_back (f : Background → Background) : (s.onBack f).dev.back = f s.dev.back := rfl
@[simp] theorem onBack_startUp (f : Background → Background) : (s.onBack f).dev.startUp = s.dev.startUp := rfl
@[simp] theorem onBack_out (f : Background → Background) : (s.onBack f).dev.out = s.dev.out := rfl
@[simp] theorem onBack_draws (f : Background → Background) : (s.onBack f).dev.draws = s.dev.draws := rfl
@[simp] theorem onBack_opens (f : Background → Background) : (s.onBack f).dev.opens = s.dev.opens := rfl

/-! ### onStart -/

@[simp] theorem onStart_ply (f : StartUp → StartUp) : (s.onStart f).ply = s.ply := rfl
@[simp] theorem onStart_start (f : StartUp → StartUp) : (s.onStart f).start = s.start := rfl
@[simp] theorem onStart_pending (f : StartUp → StartUp) : (s.onStart f).pending = s.pending := rfl
@[simp] theorem onStart_regs (f : StartUp → StartUp) : (s.onStart f).dev.regs = s.dev.regs := rfl
@[simp] theorem onStart_selid (f : StartUp → StartUp) : (s.onStart f).dev.selid = s.dev.selid := rfl
@[simp] theorem onStart_ports (f : StartUp → StartUp) : (s.onStart f).dev.ports = s.dev.ports := rfl
@[simp] theorem onStart_ref (f : StartUp → StartUp) : (s.onStart f).dev.ref = s.dev.ref := rfl
@[simp] theorem onStart_traffic (f : StartUp → StartUp) : (s.onStart f).dev.traffic = s.dev.traffic := rfl
@[simp] theorem onStart_net (f : StartUp → StartUp) : (s.onStart f).dev.net = s.dev.net := rfl
@[simp] theorem onStart_objects (f : StartUp → StartUp) : (s.onStart f).dev.objects = s.dev.objects := rfl
@[simp] theorem onStart_flow (f : StartUp → StartUp) : (s.onStart f).dev.flow = s.dev.flow := rfl
@[simp] theorem onStart_compute (f : StartUp → StartUp) : (s.onStart f).dev.compute = s.dev.compute := rfl
@[simp] theorem onStart_power (f : StartUp → StartUp) : (s.onStart f).dev.power = s.dev.power := rfl
@[simp] theorem onStart_sec (f : StartUp → StartUp) : (s.onStart f).dev.sec = s.dev.sec := rfl
@[simp] theorem onStart_team (f : StartUp → StartUp) : (s.onStart f).dev.team = s.dev.team := rfl
@[simp] theorem onStart_pair (f : StartUp → StartUp) : (s.onStart f).dev.pair = s.dev.pair := rfl
@[simp] theorem onStart_reliab (f : StartUp → StartUp) : (s.onStart f).dev.reliab = s.dev.reliab := rfl
@[simp] theorem onStart_score (f : StartUp → StartUp) : (s.onStart f).dev.score = s.dev.score := rfl
@[simp] theorem onStart_back (f : StartUp → StartUp) : (s.onStart f).dev.back = s.dev.back := rfl
@[simp] theorem onStart_startUp (f : StartUp → StartUp) : (s.onStart f).dev.startUp = f s.dev.startUp := rfl
@[simp] theorem onStart_out (f : StartUp → StartUp) : (s.onStart f).dev.out = s.dev.out := rfl
@[simp] theorem onStart_draws (f : StartUp → StartUp) : (s.onStart f).dev.draws = s.dev.draws := rfl
@[simp] theorem onStart_opens (f : StartUp → StartUp) : (s.onStart f).dev.opens = s.dev.opens := rfl

/-! ### emit, draw and free -/

@[simp] theorem emit_ply (e : Out) : (s.emit e).ply = s.ply := rfl
@[simp] theorem emit_start (e : Out) : (s.emit e).start = s.start := rfl
@[simp] theorem emit_pending (e : Out) : (s.emit e).pending = s.pending := rfl
@[simp] theorem emit_regs (e : Out) : (s.emit e).dev.regs = s.dev.regs := rfl
@[simp] theorem emit_selid (e : Out) : (s.emit e).dev.selid = s.dev.selid := rfl
@[simp] theorem emit_ports (e : Out) : (s.emit e).dev.ports = s.dev.ports := rfl
@[simp] theorem emit_ref (e : Out) : (s.emit e).dev.ref = s.dev.ref := rfl
@[simp] theorem emit_traffic (e : Out) : (s.emit e).dev.traffic = s.dev.traffic := rfl
@[simp] theorem emit_net (e : Out) : (s.emit e).dev.net = s.dev.net := rfl
@[simp] theorem emit_objects (e : Out) : (s.emit e).dev.objects = s.dev.objects := rfl
@[simp] theorem emit_flow (e : Out) : (s.emit e).dev.flow = s.dev.flow := rfl
@[simp] theorem emit_compute (e : Out) : (s.emit e).dev.compute = s.dev.compute := rfl
@[simp] theorem emit_power (e : Out) : (s.emit e).dev.power = s.dev.power := rfl
@[simp] theorem emit_sec (e : Out) : (s.emit e).dev.sec = s.dev.sec := rfl
@[simp] theorem emit_team (e : Out) : (s.emit e).dev.team = s.dev.team := rfl
@[simp] theorem emit_pair (e : Out) : (s.emit e).dev.pair = s.dev.pair := rfl
@[simp] theorem emit_reliab (e : Out) : (s.emit e).dev.reliab = s.dev.reliab := rfl
@[simp] theorem emit_score (e : Out) : (s.emit e).dev.score = s.dev.score := rfl
@[simp] theorem emit_back (e : Out) : (s.emit e).dev.back = s.dev.back := rfl
@[simp] theorem emit_startUp (e : Out) : (s.emit e).dev.startUp = s.dev.startUp := rfl
@[simp] theorem emit_out (e : Out) : (s.emit e).dev.out = s.dev.out ++ [e] := rfl
@[simp] theorem emit_draws (e : Out) : (s.emit e).dev.draws = s.dev.draws := rfl
@[simp] theorem emit_opens (e : Out) : (s.emit e).dev.opens = s.dev.opens := rfl
@[simp] theorem draw_ply : s.draw.2.ply = s.ply := rfl
@[simp] theorem draw_start : s.draw.2.start = s.start := rfl
@[simp] theorem draw_pending : s.draw.2.pending = s.pending := rfl
@[simp] theorem draw_regs : s.draw.2.dev.regs = s.dev.regs := rfl
@[simp] theorem draw_selid : s.draw.2.dev.selid = s.dev.selid := rfl
@[simp] theorem draw_ports : s.draw.2.dev.ports = s.dev.ports := rfl
@[simp] theorem draw_ref : s.draw.2.dev.ref = s.dev.ref := rfl
@[simp] theorem draw_traffic : s.draw.2.dev.traffic = s.dev.traffic := rfl
@[simp] theorem draw_net : s.draw.2.dev.net = s.dev.net := rfl
@[simp] theorem draw_objects : s.draw.2.dev.objects = s.dev.objects := rfl
@[simp] theorem draw_flow : s.draw.2.dev.flow = s.dev.flow := rfl
@[simp] theorem draw_compute : s.draw.2.dev.compute = s.dev.compute := rfl
@[simp] theorem draw_power : s.draw.2.dev.power = s.dev.power := rfl
@[simp] theorem draw_sec : s.draw.2.dev.sec = s.dev.sec := rfl
@[simp] theorem draw_team : s.draw.2.dev.team = s.dev.team := rfl
@[simp] theorem draw_pair : s.draw.2.dev.pair = s.dev.pair := rfl
@[simp] theorem draw_reliab : s.draw.2.dev.reliab = s.dev.reliab := rfl
@[simp] theorem draw_score : s.draw.2.dev.score = s.dev.score := rfl
@[simp] theorem draw_back : s.draw.2.dev.back = s.dev.back := rfl
@[simp] theorem draw_startUp : s.draw.2.dev.startUp = s.dev.startUp := rfl
@[simp] theorem draw_out : s.draw.2.dev.out = s.dev.out := rfl
@[simp] theorem draw_draws : s.draw.2.dev.draws = s.dev.draws + 1 := rfl
@[simp] theorem draw_opens : s.draw.2.dev.opens = s.dev.opens := rfl
@[simp] theorem free_ply : s.free.2.ply = s.ply := rfl
@[simp] theorem free_start : s.free.2.start = s.start := rfl
@[simp] theorem free_pending : s.free.2.pending = s.pending := rfl
@[simp] theorem free_regs : s.free.2.dev.regs = s.dev.regs := rfl
@[simp] theorem free_selid : s.free.2.dev.selid = s.dev.selid := rfl
@[simp] theorem free_ports : s.free.2.dev.ports = s.dev.ports := rfl
@[simp] theorem free_ref : s.free.2.dev.ref = s.dev.ref := rfl
@[simp] theorem free_traffic : s.free.2.dev.traffic = s.dev.traffic := rfl
@[simp] theorem free_net : s.free.2.dev.net = s.dev.net := rfl
@[simp] theorem free_objects : s.free.2.dev.objects = s.dev.objects := rfl
@[simp] theorem free_flow : s.free.2.dev.flow = s.dev.flow := rfl
@[simp] theorem free_compute : s.free.2.dev.compute = s.dev.compute := rfl
@[simp] theorem free_power : s.free.2.dev.power = s.dev.power := rfl
@[simp] theorem free_sec : s.free.2.dev.sec = s.dev.sec := rfl
@[simp] theorem free_team : s.free.2.dev.team = s.dev.team := rfl
@[simp] theorem free_pair : s.free.2.dev.pair = s.dev.pair := rfl
@[simp] theorem free_reliab : s.free.2.dev.reliab = s.dev.reliab := rfl
@[simp] theorem free_score : s.free.2.dev.score = s.dev.score := rfl
@[simp] theorem free_back : s.free.2.dev.back = s.dev.back := rfl
@[simp] theorem free_startUp : s.free.2.dev.startUp = s.dev.startUp := rfl
@[simp] theorem free_out : s.free.2.dev.out = s.dev.out := rfl
@[simp] theorem free_draws : s.free.2.dev.draws = s.dev.draws := rfl
@[simp] theorem free_opens : s.free.2.dev.opens = s.dev.opens + 1 := rfl

end Sys2Proof.Machine
end

