-- ==== Sys2Proof/Laws/Tables.lean ====
section
/-! SUPPORT. Sparse tables and memory: what a read after a write gives, and that every operation keeps the canonical form (strictly rising keys, no
entry equal to what an unlisted key reads as). The default may differ from key to key, as it does for page headers and registers. -/
namespace Sys2Proof.Machine

variable {α : Type}

theorem Table.wf_eq_canon [DecidableEq α] (d : α) (t : Table α) : Table.wf d t = Table.canon (fun _ => d) t := rfl

/-! ### Rising keys -/

theorem Table.risingFrom_le {t : Table α} {a b : Nat} (h : Table.risingFrom t b = true) (hab : a ≤ b) : Table.risingFrom t a = true := by
  cases t with
  | nil => rfl
  | cons e r =>
    simp only [Table.risingFrom, Bool.and_eq_true, decide_eq_true_eq] at h ⊢
    exact ⟨Nat.le_trans hab h.1, h.2⟩

theorem Table.risingFrom_erase {t : Table α} {a : Nat} (k : Nat) (h : Table.risingFrom t a = true) :
    Table.risingFrom (Table.erase t k) a = true := by
  induction t generalizing a with
  | nil => rfl
  | cons e r ih =>
    obtain ⟨k', v⟩ := e
    simp only [Table.risingFrom, Bool.and_eq_true, decide_eq_true_eq] at h
    unfold Table.erase
    split
    · exact Table.risingFrom_le h.2 (by omega)
    · split
      · simp only [Table.risingFrom, Bool.and_eq_true, decide_eq_true_eq]; exact h
      · simp only [Table.risingFrom, Bool.and_eq_true, decide_eq_true_eq]; exact ⟨h.1, ih h.2⟩

theorem Table.risingFrom_put {t : Table α} {a k : Nat} (v : α) (h : Table.risingFrom t a = true) (hk : a ≤ k) :
    Table.risingFrom (Table.put t k v) a = true := by
  induction t generalizing a with
  | nil => simp [Table.put, Table.risingFrom, hk]
  | cons e r ih =>
    obtain ⟨k', v'⟩ := e
    simp only [Table.risingFrom, Bool.and_eq_true, decide_eq_true_eq] at h
    unfold Table.put
    split
    · subst_vars; simp only [Table.risingFrom, Bool.and_eq_true, decide_eq_true_eq]; exact h
    · split
      · simp only [Table.risingFrom, Bool.and_eq_true, decide_eq_true_eq]; exact ⟨hk, by omega, h.2⟩
      · simp only [Table.risingFrom, Bool.and_eq_true, decide_eq_true_eq]; exact ⟨h.1, ih h.2 (by omega)⟩

theorem Table.risingFrom_filter {t : Table α} {a : Nat} (p : Nat × α → Bool) (h : Table.risingFrom t a = true) :
    Table.risingFrom (t.filter p) a = true := by
  induction t generalizing a with
  | nil => rfl
  | cons e r ih =>
    obtain ⟨k', v⟩ := e
    simp only [Table.risingFrom, Bool.and_eq_true, decide_eq_true_eq] at h
    rw [List.filter_cons]
    split
    · simp only [Table.risingFrom, Bool.and_eq_true, decide_eq_true_eq]; exact ⟨h.1, ih h.2⟩
    · exact Table.risingFrom_le (ih h.2) (by omega)

theorem Table.risingFrom_map {β : Type} {t : Table α} {a : Nat} (f : Nat × α → Nat × β) (hf : ∀ e, (f e).1 = e.1)
    (h : Table.risingFrom t a = true) : Table.risingFrom (α := β) (List.map f t) a = true := by
  induction t generalizing a with
  | nil => rfl
  | cons e r ih =>
    obtain ⟨k', v⟩ := e
    simp only [Table.risingFrom, Bool.and_eq_true, decide_eq_true_eq] at h
    have h1 : f (k', v) = (k', (f (k', v)).2) := Prod.ext (hf _) rfl
    rw [List.map_cons, h1]
    simp only [Table.risingFrom, Bool.and_eq_true, decide_eq_true_eq]
    exact ⟨h.1, ih h.2⟩

/-! ### The canonical form is kept -/

theorem Table.mem_erase {t : Table α} {k : Nat} {e : Nat × α} (h : e ∈ Table.erase t k) : e ∈ t := by
  induction t with
  | nil => exact h
  | cons x r ih =>
    unfold Table.erase at h
    split at h
    · exact List.mem_cons_of_mem _ h
    · split at h
      · exact h
      · rcases List.mem_cons.mp h with h | h
        · exact h ▸ List.mem_cons_self
        · exact List.mem_cons_of_mem _ (ih h)

theorem Table.mem_put {t : Table α} {k : Nat} {v : α} {e : Nat × α} (h : e ∈ Table.put t k v) : e = (k, v) ∨ e ∈ t := by
  induction t with
  | nil => exact Or.inl (List.mem_singleton.mp h)
  | cons x r ih =>
    unfold Table.put at h
    split at h
    · rcases List.mem_cons.mp h with h | h
      · exact Or.inl h
      · exact Or.inr (List.mem_cons_of_mem _ h)
    · split at h
      · rcases List.mem_cons.mp h with h | h
        · exact Or.inl h
        · exact Or.inr h
      · rcases List.mem_cons.mp h with h | h
        · exact Or.inr (h ▸ List.mem_cons_self)
        · rcases ih h with h | h
          · exact Or.inl h
          · exact Or.inr (List.mem_cons_of_mem _ h)

theorem Table.canon_set [DecidableEq α] {d : Nat → α} {t : Table α} (k : Nat) (v : α) (h : Table.canon d t = true) :
    Table.canon d (Table.set (d k) t k v) = true := by
  simp only [Table.canon, Bool.and_eq_true, List.all_eq_true, decide_eq_true_eq] at h ⊢
  unfold Table.set
  split
  · exact ⟨Table.risingFrom_erase k h.1, fun e he => h.2 e (Table.mem_erase he)⟩
  · refine ⟨Table.risingFrom_put v h.1 (Nat.zero_le k), fun e he => ?_⟩
    rcases Table.mem_put he with rfl | he
    · assumption
    · exact h.2 e he

theorem Table.canon_filter [DecidableEq α] {d : Nat → α} {t : Table α} (p : Nat × α → Bool) (h : Table.canon d t = true) :
    Table.canon d (t.filter p) = true := by
  simp only [Table.canon, Bool.and_eq_true, List.all_eq_true, decide_eq_true_eq] at h ⊢
  exact ⟨Table.risingFrom_filter p h.1, fun e he => h.2 e (List.mem_filter.mp he).1⟩

theorem Table.wf_set [DecidableEq α] {d : α} {t : Table α} (k : Nat) (v : α) (h : Table.wf d t = true) : Table.wf d (Table.set d t k v) = true :=
  Table.canon_set (d := fun _ => d) k v h

theorem Table.wf_filter [DecidableEq α] {d : α} {t : Table α} (p : Nat × α → Bool) (h : Table.wf d t = true) : Table.wf d (t.filter p) = true :=
  Table.canon_filter (d := fun _ => d) p h

theorem Table.wf_modify [DecidableEq α] {d : α} {t : Table α} (k : Nat) (f : α → α) (h : Table.wf d t = true) :
    Table.wf d (Table.modify d t k f) = true := Table.wf_set k _ h

theorem Table.wf_erase [DecidableEq α] {d : α} {t : Table α} (k : Nat) (h : Table.wf d t = true) : Table.wf d (Table.erase t k) = true := by
  simp only [Table.wf, Bool.and_eq_true, List.all_eq_true, decide_eq_true_eq] at h ⊢
  exact ⟨Table.risingFrom_erase k h.1, fun e he => h.2 e (Table.mem_erase he)⟩

/-- A change of every entry, the defaults among the results left out. -/
theorem Table.wf_mapFilter [DecidableEq α] {d : α} {t : Table α} (f : Nat × α → Nat × α) (hf : ∀ e, (f e).1 = e.1) (h : Table.wf d t = true) :
    Table.wf d (List.filter (fun e => decide (e.2 ≠ d)) (List.map f t)) = true := by
  simp only [Table.wf, Bool.and_eq_true, List.all_eq_true, decide_eq_true_eq] at h ⊢
  exact ⟨Table.risingFrom_filter _ (Table.risingFrom_map f hf h.1), fun e he => of_decide_eq_true (List.mem_filter.mp he).2⟩

/-! ### Reading after writing -/

@[simp] theorem Table.get?_nil (k : Nat) : Table.get? ([] : Table α) k = none := rfl
@[simp] theorem Table.get_nil (d : α) (k : Nat) : Table.get d [] k = d := rfl

theorem Table.get?_put (t : Table α) (k : Nat) (v : α) (j : Nat) : Table.get? (Table.put t k v) j = if k = j then some v else Table.get? t j := by
  induction t with
  | nil => simp [Table.put, Table.get?]
  | cons e r ih =>
    obtain ⟨k', v'⟩ := e
    unfold Table.put
    split
    · subst_vars; simp only [Table.get?]; split <;> simp_all
    · split
      · simp only [Table.get?]
      · simp only [Table.get?, ih]
        by_cases h1 : k' = j
        · subst h1; simp; intro h2; omega
        · simp [h1]

/-- A value that a table gives for a key is listed under it. -/
theorem Table.mem_of_get? {t : Table α} {k : Nat} {v : α} (h : Table.get? t k = some v) : (k, v) ∈ t := by
  induction t with
  | nil => cases h
  | cons e r ih =>
    obtain ⟨k', v'⟩ := e
    simp only [Table.get?] at h
    split at h
    · rename_i hk; cases h; subst hk; exact List.mem_cons_self
    · exact List.mem_cons_of_mem _ (ih h)

theorem Table.get?_below {t : Table α} {a j : Nat} (h : Table.risingFrom t a = true) (hj : j < a) : Table.get? t j = none := by
  induction t generalizing a with
  | nil => rfl
  | cons e r ih =>
    obtain ⟨k', v'⟩ := e
    simp only [Table.risingFrom, Bool.and_eq_true, decide_eq_true_eq] at h
    unfold Table.get?
    rw [if_neg (by omega)]
    exact ih h.2 (by omega)

theorem Table.get?_erase {t : Table α} {a : Nat} (k : Nat) (h : Table.risingFrom t a = true) (j : Nat) :
    Table.get? (Table.erase t k) j = if k = j then none else Table.get? t j := by
  induction t generalizing a with
  | nil => simp [Table.erase]
  | cons e r ih =>
    obtain ⟨k', v'⟩ := e
    simp only [Table.risingFrom, Bool.and_eq_true, decide_eq_true_eq] at h
    unfold Table.erase
    split
    · subst_vars
      simp only [Table.get?]
      split
      · subst_vars; exact Table.get?_below h.2 (by omega)
      · rfl
    · split
      · simp only [Table.get?]
        by_cases hj : k = j
        · subst hj; rw [if_neg (by omega), if_pos rfl]; exact Table.get?_below h.2 (by omega)
        · rw [if_neg hj]
      · simp only [Table.get?, ih h.2]
        by_cases h1 : k' = j
        · subst h1; simp; intro h2; omega
        · simp [h1]

/-- Entries of other keys may be dropped. -/
theorem Table.get?_filter {t : Table α} {a : Nat} {p : Nat × α → Bool} {j : Nat} (h : Table.risingFrom t a = true) (hp : ∀ v, p (j, v) = true) :
    Table.get? (t.filter p) j = Table.get? t j := by
  induction t generalizing a with
  | nil => rfl
  | cons e r ih =>
    obtain ⟨k', v'⟩ := e
    simp only [Table.risingFrom, Bool.and_eq_true, decide_eq_true_eq] at h
    rw [List.filter_cons]
    by_cases h1 : k' = j
    · subst h1; rw [if_pos (hp v')]; simp [Table.get?]
    · split
      · simp only [Table.get?, if_neg h1]; exact ih h.2
      · simp only [Table.get?, if_neg h1]; exact ih h.2

/-- A read after a write: the value written at its key, and what was there before at every other. -/
theorem Table.get_set [DecidableEq α] (d : α) {t : Table α} {a : Nat} (k : Nat) (v : α) (h : Table.risingFrom t a = true) (j : Nat) :
    Table.get d (Table.set d t k v) j = if k = j then v else Table.get d t j := by
  unfold Table.set Table.get
  split
  · rw [Table.get?_erase k h]; split <;> simp_all
  · rw [Table.get?_put]; split <;> simp_all

/-! ### Memory -/

theorem Mem.read_write {m : Mem} (h : Memory.wf m = true) (a : Nat) (b : Byte) (x : Nat) :
    Mem.read (Mem.write m a b) x = if a = x then b else Mem.read m x := by
  unfold Memory.wf Table.wf at h
  simp only [Bool.and_eq_true] at h
  exact Table.get_set 0 a b h.1 x

theorem Mem.wf_write {m : Mem} (a : Nat) (b : Byte) (h : Memory.wf m = true) : Memory.wf (Mem.write m a b) = true := Table.wf_set a b h

theorem Mem.wf_writeBytes {m : Mem} (a : Nat) (bs : Bytes) (h : Memory.wf m = true) : Memory.wf (Mem.writeBytes m a bs) = true := by
  induction bs generalizing m a with
  | nil => exact h
  | cons b r ih => exact ih (a + 1) (Mem.wf_write a b h)

/-- A byte outside a written range reads as before. -/
theorem Mem.read_writeBytes_outside {m : Mem} (h : Memory.wf m = true) (a : Nat) (bs : Bytes) (x : Nat) (hx : x < a ∨ a + bs.length ≤ x) :
    Mem.read (Mem.writeBytes m a bs) x = Mem.read m x := by
  induction bs generalizing m a with
  | nil => rfl
  | cons b r ih =>
    simp only [List.length_cons] at hx
    unfold Mem.writeBytes
    rw [ih (Mem.wf_write a b h) (a + 1) (by omega), Mem.read_write h, if_neg (by omega)]

theorem Table.get?_filterVal {t : Table α} {a : Nat} (p : Nat × α → Bool) (h : Table.risingFrom t a = true) (j : Nat) :
    Table.get? (t.filter p) j = (Table.get? t j).filter (fun v => p (j, v)) := by
  induction t generalizing a with
  | nil => rfl
  | cons e r ih =>
    obtain ⟨k, v⟩ := e
    simp only [Table.risingFrom, Bool.and_eq_true, decide_eq_true_eq] at h
    by_cases hk : k = j
    · subst hk
      by_cases hp : p (k, v) = true
      · simp [List.filter, hp, Table.get?, Option.filter]
      · have hb := Table.get?_below (Table.risingFrom_filter p h.2) (Nat.lt_succ_self k)
        simp only [List.filter, hp, Table.get?, Option.filter, hb]
        simp [hp]
    · by_cases hp : p (k, v) = true
      · simp [List.filter, hp, Table.get?, hk, ih h.2]
      · simp [List.filter, hp, Table.get?, hk, ih h.2]

theorem Table.get?_map {β : Type} {t : Table α} (f : Nat × α → Nat × β) (hf : ∀ e, (f e).1 = e.1) (j : Nat) :
    Table.get? (List.map f t) j = (Table.get? t j).map fun v => (f (j, v)).2 := by
  induction t with
  | nil => rfl
  | cons e r ih =>
    obtain ⟨k, v⟩ := e
    have := hf (k, v)
    generalize hw : f (k, v) = w at this
    obtain ⟨k', w'⟩ := w
    simp only at this; subst this
    by_cases hk : k' = j
    · subst hk; simp [Table.get?, hw]
    · simp only [List.map_cons, hw, Table.get?, if_neg hk, ih]

end Sys2Proof.Machine
end

