-- ==== Sys2Proof/Laws/Kept.lean ====
section
/-! SUPPORT. What every operation but a reset keeps: the queue, the ply, what the reads of the ply see, the canonical form of the registers and of
the state memory, and the seal of a page that no site owns. One lemma per operation; a meaning's own lemma composes them. -/
namespace Sys2Proof.Machine

/-- What an operation other than a reset keeps: all but the parts `P` of the device, and of those the canonical forms and the seals. -/
structure Kept (P : List Part) (s t : State) : Prop where
  pending : t.pending = s.pending
  start : t.start = s.start
  ply : t.ply = s.ply
  frame : ∀ p : Part, p ∉ P → p.Same s.dev t.dev
  canon : s.dev.canonical = true → t.dev.canonical = true
  keepsSeal : s.dev.canonical = true → ∀ page, perCorePage page = false → s.sealedAt page → t.sealedAt page

theorem Part.Same.refl (p : Part) (d : Dev) : p.Same d d := by cases p <;> simp [Part.Same]

theorem Part.Same.trans {p : Part} {a b c : Dev} (h : p.Same a b) (k : p.Same b c) : p.Same a c := by
  cases p <;> simp only [Part.Same] at * <;> first | exact Eq.trans h k | exact ⟨h.1.trans k.1, h.2.trans k.2⟩

theorem Kept.rfl' (P : List Part) (s : State) : Kept P s s := ⟨rfl, rfl, rfl, fun p _ => Part.Same.refl p _, id, fun _ _ _ h => h⟩

theorem Kept.trans {P : List Part} {s t u : State} (a : Kept P s t) (b : Kept P t u) : Kept P s u :=
  ⟨b.pending.trans a.pending, b.start.trans a.start, b.ply.trans a.ply, fun p hp => (a.frame p hp).trans (b.frame p hp),
    fun h => b.canon (a.canon h), fun c p n h => b.keepsSeal (a.canon c) p n (a.keepsSeal c p n h)⟩

theorem Kept.within {P : List Part} {s t : State} (a : Kept P s t) : Within P s t := ⟨a.pending, a.ply, a.start, a.frame⟩

/-- The parts of an operation are among those of one that contains it. -/
theorem among {a b P : List Part} (h : b ⊆ P) (d : (a.all fun p => b.contains p) = true) : a ⊆ P := fun p hp =>
  h (List.contains_iff_mem.mp (List.all_eq_true.mp d p hp))

variable {P : List Part} {s u : State}

/-! ### Updates of one part -/

/-- An update of the device that leaves the registers and the state memory alone keeps everything but the parts it changes. -/
theorem onDev_kept {f : Dev → Dev} (h : Kept P s u) (hf : ∀ p : Part, p ∉ P → p.Same u.dev (f u.dev))
    (hr : (f u.dev).regs = u.dev.regs) (hm : (f u.dev).flow.stateMem = u.dev.flow.stateMem)
    (hp : portsWf u.dev.ports = true → portsWf (f u.dev).ports = true)
    (hk : coresWf u.dev.compute.cores = true → coresWf (f u.dev).compute.cores = true := by exact id) : Kept P s (u.onDev f) := by
  refine h.trans ⟨rfl, rfl, rfl, hf, fun c => ?_, fun _ p _ q => ⟨q.1, ?_⟩⟩
  · simp only [Dev.canonical, State.onDev, hr, hm, Bool.and_eq_true] at c ⊢
    exact ⟨c.1, c.2.1, hp c.2.2.1, hk c.2.2.2⟩
  · have := q.2; simpa [State.onDev, Dev.hdr, hr] using this

@[simp] theorem onSelid_kept (f : Selid → Selid) (hP : [Part.selid] ⊆ P) (h : Kept P s u) : Kept P s (u.onSelid f) :=
  onDev_kept h (fun p hp => by cases p <;> first | exact Eq.refl _ | exact And.intro rfl rfl | exact absurd (hP (List.mem_singleton.mpr rfl)) hp) rfl rfl id
theorem onPorts_kept (f : Table Port → Table Port) (hP : [Part.ports] ⊆ P) (h : Kept P s u)
    (hf : portsWf u.dev.ports = true → portsWf (f u.dev.ports) = true) : Kept P s (u.onPorts f) :=
  onDev_kept h (fun p hp => by cases p <;> first | exact Eq.refl _ | exact And.intro rfl rfl | exact absurd (hP (List.mem_singleton.mpr rfl)) hp) rfl rfl hf
@[simp] theorem onRef_kept (f : RefClock → RefClock) (hP : [Part.ref] ⊆ P) (h : Kept P s u) : Kept P s (u.onRef f) :=
  onDev_kept h (fun p hp => by cases p <;> first | exact Eq.refl _ | exact And.intro rfl rfl | exact absurd (hP (List.mem_singleton.mpr rfl)) hp) rfl rfl id
@[simp] theorem onTraffic_kept (f : Traffic → Traffic) (hP : [Part.traffic] ⊆ P) (h : Kept P s u) : Kept P s (u.onTraffic f) :=
  onDev_kept h (fun p hp => by cases p <;> first | exact Eq.refl _ | exact And.intro rfl rfl | exact absurd (hP (List.mem_singleton.mpr rfl)) hp) rfl rfl id
@[simp] theorem onNet_kept (f : Net → Net) (hP : [Part.net] ⊆ P) (h : Kept P s u) : Kept P s (u.onNet f) :=
  onDev_kept h (fun p hp => by cases p <;> first | exact Eq.refl _ | exact And.intro rfl rfl | exact absurd (hP (List.mem_singleton.mpr rfl)) hp) rfl rfl id
@[simp] theorem onObjects_kept (f : Objects → Objects) (hP : [Part.objects] ⊆ P) (h : Kept P s u) : Kept P s (u.onObjects f) :=
  onDev_kept h (fun p hp => by cases p <;> first | exact Eq.refl _ | exact And.intro rfl rfl | exact absurd (hP (List.mem_singleton.mpr rfl)) hp) rfl rfl id
/-- An update of the cores' part that keeps the form of the table of the cores. -/
theorem onComputeWf_kept (f : Compute → Compute) (hP : [Part.compute] ⊆ P) (h : Kept P s u)
    (hf : ∀ x, coresWf x.cores = true → coresWf (f x).cores = true) : Kept P s (u.onCompute f) :=
  onDev_kept h (fun p hp => by cases p <;> first | exact Eq.refl _ | exact And.intro rfl rfl | exact absurd (hP (List.mem_singleton.mpr rfl)) hp) rfl rfl id (hf _)
/-- An update of the cores' part that leaves the table of the cores alone. -/
theorem onCompute_kept (f : Compute → Compute) (hP : [Part.compute] ⊆ P) (h : Kept P s u) (hf : ∀ x, (f x).cores = x.cores) : Kept P s (u.onCompute f) :=
  onComputeWf_kept f hP h fun x c => by rw [hf]; exact c
@[simp] theorem onPower_kept (f : Power → Power) (hP : [Part.power] ⊆ P) (h : Kept P s u) : Kept P s (u.onPower f) :=
  onDev_kept h (fun p hp => by cases p <;> first | exact Eq.refl _ | exact And.intro rfl rfl | exact absurd (hP (List.mem_singleton.mpr rfl)) hp) rfl rfl id
@[simp] theorem onSec_kept (f : Security → Security) (hP : [Part.sec] ⊆ P) (h : Kept P s u) : Kept P s (u.onSec f) :=
  onDev_kept h (fun p hp => by cases p <;> first | exact Eq.refl _ | exact And.intro rfl rfl | exact absurd (hP (List.mem_singleton.mpr rfl)) hp) rfl rfl id
@[simp] theorem onTeam_kept (f : Team → Team) (hP : [Part.team] ⊆ P) (h : Kept P s u) : Kept P s (u.onTeam f) :=
  onDev_kept h (fun p hp => by cases p <;> first | exact Eq.refl _ | exact And.intro rfl rfl | exact absurd (hP (List.mem_singleton.mpr rfl)) hp) rfl rfl id
@[simp] theorem onPair_kept (f : Pair → Pair) (hP : [Part.pair] ⊆ P) (h : Kept P s u) : Kept P s (u.onPair f) :=
  onDev_kept h (fun p hp => by cases p <;> first | exact Eq.refl _ | exact And.intro rfl rfl | exact absurd (hP (List.mem_singleton.mpr rfl)) hp) rfl rfl id
@[simp] theorem onReliab_kept (f : Reliab → Reliab) (hP : [Part.reliab] ⊆ P) (h : Kept P s u) : Kept P s (u.onReliab f) :=
  onDev_kept h (fun p hp => by cases p <;> first | exact Eq.refl _ | exact And.intro rfl rfl | exact absurd (hP (List.mem_singleton.mpr rfl)) hp) rfl rfl id
@[simp] theorem onScore_kept (f : Score → Score) (hP : [Part.score] ⊆ P) (h : Kept P s u) : Kept P s (u.onScore f) :=
  onDev_kept h (fun p hp => by cases p <;> first | exact Eq.refl _ | exact And.intro rfl rfl | exact absurd (hP (List.mem_singleton.mpr rfl)) hp) rfl rfl id
@[simp] theorem onBack_kept (f : Background → Background) (hP : [Part.back] ⊆ P) (h : Kept P s u) : Kept P s (u.onBack f) :=
  onDev_kept h (fun p hp => by cases p <;> first | exact Eq.refl _ | exact And.intro rfl rfl | exact absurd (hP (List.mem_singleton.mpr rfl)) hp) rfl rfl id
@[simp] theorem onStart_kept (f : StartUp → StartUp) (hP : [Part.startUp] ⊆ P) (h : Kept P s u) : Kept P s (u.onStart f) :=
  onDev_kept h (fun p hp => by cases p <;> first | exact Eq.refl _ | exact And.intro rfl rfl | exact absurd (hP (List.mem_singleton.mpr rfl)) hp) rfl rfl id
@[simp] theorem emit_kept (o : Out) (hP : [Part.out] ⊆ P) (h : Kept P s u) : Kept P s (u.emit o) :=
  onDev_kept h (fun p hp => by cases p <;> first | exact Eq.refl _ | exact And.intro rfl rfl | exact absurd (hP (List.mem_singleton.mpr rfl)) hp) rfl rfl id
@[simp] theorem draw_kept (hP : [Part.draws] ⊆ P) (h : Kept P s u) : Kept P s u.draw.2 :=
  onDev_kept (f := fun d => { d with draws := d.draws + 1 }) h
    (fun p hp => by cases p <;> first | exact Eq.refl _ | exact And.intro rfl rfl | exact absurd (hP (List.mem_singleton.mpr rfl)) hp) rfl rfl id
@[simp] theorem free_kept (hP : [Part.draws] ⊆ P) (h : Kept P s u) : Kept P s u.free.2 :=
  onDev_kept (f := fun d => { d with opens := d.opens + 1 }) h
    (fun p hp => by cases p <;> first | exact Eq.refl _ | exact And.intro rfl rfl | exact absurd (hP (List.mem_singleton.mpr rfl)) hp) rfl rfl id

/-- An update of the flow tables that leaves the state memory alone. -/
theorem onFlow_kept (f : Flow → Flow) (hP : [Part.flow] ⊆ P) (h : Kept P s u) (hf : ∀ x, (f x).stateMem = x.stateMem) :
    Kept P s (u.onFlow f) :=
  onDev_kept h (fun p hp => by
    cases p <;> first | exact Eq.refl _ | exact And.intro rfl rfl | exact absurd (hP (List.mem_singleton.mpr rfl)) hp | exact (hf _).symm) rfl (hf _) id

/-- An update of the flow part that may change the state memory, whose canonical form it keeps. -/
theorem onFlowMem_kept (f : Flow → Flow) (hP : [Part.flow, Part.stateMem] ⊆ P) (h : Kept P s u)
    (hf : ∀ x, Memory.wf x.stateMem = true → Memory.wf (f x).stateMem = true) : Kept P s (u.onFlow f) := by
  refine h.trans ⟨rfl, rfl, rfl, fun p hp => ?_, fun c => ?_, fun _ p _ q => ⟨q.1, q.2⟩⟩
  · cases p <;> first | exact Eq.refl _ | exact And.intro rfl rfl | exact absurd (hP (by decide)) hp
  · simp only [Dev.canonical, Bool.and_eq_true] at c ⊢
    exact ⟨c.1, hf _ c.2.1, c.2.2⟩

/-- An update of the state memory alone. -/
theorem onMem_kept (f : Flow → Flow) (hP : [Part.stateMem] ⊆ P) (h : Kept P s u)
    (hf : ∀ x, Memory.wf x.stateMem = true → Memory.wf (f x).stateMem = true)
    (hx : ∀ x, { f x with stateMem := [] } = { x with stateMem := [] }) : Kept P s (u.onFlow f) := by
  refine h.trans ⟨rfl, rfl, rfl, fun p hp => ?_, fun c => ?_, fun _ p _ q => ⟨q.1, q.2⟩⟩
  · cases p <;> first | exact Eq.refl _ | exact And.intro rfl rfl | exact absurd (hP (by decide)) hp | exact (hx _).symm
  · simp only [Dev.canonical, Bool.and_eq_true] at c ⊢
    exact ⟨c.1, hf _ c.2.1, c.2.2⟩

@[simp] theorem writeBytes_wf (m : Mem) (a : Nat) (bs : Bytes) (h : Memory.wf m = true) : Memory.wf (Mem.writeBytes m a bs) = true :=
  Mem.wf_writeBytes a bs h
@[simp] theorem write_wf (m : Mem) (a : Nat) (b : Byte) (h : Memory.wf m = true) : Memory.wf (Mem.write m a b) = true := Mem.wf_write a b h

/-! ### Ports -/

theorem Port.wf_of {q : Port} (h : Table.wf {} q.subs = true) (k : Table.wf {} q.lanes = true) : q.wf = true := by
  simp only [Port.wf, Bool.and_eq_true]; exact ⟨h, k⟩
theorem Port.wf_subs {q : Port} (h : q.wf = true) : Table.wf {} q.subs = true := by simp only [Port.wf, Bool.and_eq_true] at h; exact h.1
theorem Port.wf_lanes {q : Port} (h : q.wf = true) : Table.wf {} q.lanes = true := by simp only [Port.wf, Bool.and_eq_true] at h; exact h.2

theorem Port.wf_onSub (i : Nat) (f : SubPort → SubPort) {q : Port} (h : q.wf = true) : (q.onSub i f).wf = true :=
  Port.wf_of (q := q.onSub i f) (Table.wf_modify _ _ (Port.wf_subs h))
    (show Table.wf {} q.lanes = true from Port.wf_lanes h)
theorem Port.wf_onLane (i : Nat) (f : PortLane → PortLane) {q : Port} (h : q.wf = true) : (q.onLane i f).wf = true :=
  Port.wf_of (q := q.onLane i f) (show Table.wf {} q.subs = true from Port.wf_subs h)
    (Table.wf_modify _ _ (Port.wf_lanes h))

/-- A port whose tables are these. -/
theorem Port.wf_by {r : Port} {a : Table SubPort} {b : Table PortLane} (ha : Table.wf {} a = true) (hb : Table.wf {} b = true)
    (hs : r.subs = a) (hl : r.lanes = b) : r.wf = true := by subst hs hl; exact Port.wf_of ha hb

theorem Port.wf_modifySub (i : Nat) (f : SubPort → SubPort) {q : Port} (h : q.wf = true) : Table.wf {} (Table.modify {} q.subs i f) = true :=
  Table.wf_modify _ _ (Port.wf_subs h)
theorem Port.wf_modifyLane (i : Nat) (f : PortLane → PortLane) {q : Port} (h : q.wf = true) : Table.wf {} (Table.modify {} q.lanes i f) = true :=
  Table.wf_modify _ _ (Port.wf_lanes h)

/-- A sub-port and the running configuration. -/
theorem Port.wf_onSubRun (k c : Nat) (f : SubPort → SubPort) {q : Port} (h : q.wf = true) : Port.wf { q.onSub k f with runCfg := c } = true :=
  Port.wf_by (Port.wf_modifySub k f h) (Port.wf_lanes h) rfl rfl

/-- A sub-port that comes up. -/
theorem Port.wf_comeUp (now i lanes : Nat) {q : Port} (h : q.wf = true) : (q.comeUp now i lanes).wf = true := Port.wf_onSub _ _ h

/-- Folding over a list changes of a port that keep the form of its tables. -/
theorem Port.wf_fold {α : Type} {f : Port → α → Port} (hf : ∀ q a, q.wf = true → (f q a).wf = true) (l : List α) {q : Port} (h : q.wf = true) :
    (l.foldl f q).wf = true := by
  induction l generalizing q with
  | nil => exact h
  | cons a r ih => exact ih (hf q a h)

theorem Port.wf_configure (auto : Bool) (pauses : Bool × Bool) {q : Port} (h : q.wf = true) : (q.configure auto pauses).wf = true := by
  unfold Port.configure
  refine Port.wf_fold (fun q i h => ?_) _ h
  dsimp only
  split
  · exact Port.wf_by (Table.wf_set _ _ (Port.wf_subs h)) (Port.wf_lanes h) rfl rfl
  · exact Port.wf_by (Table.wf_set _ _ (Port.wf_subs h)) (Port.wf_lanes h) rfl rfl

/-- The tables of the port that a table lists under a number, or of an unlisted port. -/
theorem Port.wf_get {t : Table Port} (h : portsWf t = true) (p : Nat) : (Table.get {} t p).wf = true := by
  simp only [portsWf, Bool.and_eq_true, List.all_eq_true] at h
  unfold Table.get
  cases hg : Table.get? t p with
  | none => rfl
  | some v => exact h.2 _ (Table.mem_of_get? hg)

/-- An update of a port that keeps the form of its tables. -/
theorem onPort_kept (p : Nat) (f : Port → Port) (hP : [Part.ports] ⊆ P) (h : Kept P s u) (hf : ∀ q : Port, q.wf = true → (f q).wf = true) :
    Kept P s (u.onPort p f) := by
  refine onPorts_kept _ hP h fun c => ?_
  have g := hf _ (Port.wf_get c p)
  simp only [portsWf, Bool.and_eq_true, List.all_eq_true] at c ⊢
  refine ⟨Table.wf_modify _ _ c.1, fun e he => ?_⟩
  unfold Table.modify Table.set at he
  split at he
  · exact c.2 _ (Table.mem_erase he)
  · rcases Table.mem_put he with rfl | he
    · exact g
    · exact c.2 _ he

/-! ### Page headers, registers and counters -/

/-- What the header of one page reads as after the header of another, or the same, is set. -/
theorem hdr_setHdr (page : Nat) (v : PageHdr) (d : Dev) (q : Nat) (c : d.regs.canonical = true) :
    Dev.hdr { d with regs := { d.regs with hdr := Table.set (PageHdr.reset page) d.regs.hdr page v } } q = if page = q then v else d.hdr q := by
  simp only [Regs.canonical, Bool.and_eq_true, Table.canon] at c
  unfold Dev.hdr
  by_cases h : page = q
  · subst h; rw [if_pos rfl]; simp only []; rw [Table.get_set _ _ _ c.1.1.1, if_pos rfl]
  · rw [if_neg h]; simp only []
    unfold Table.get Table.set
    split
    · rw [Table.get?_erase page c.1.1.1, if_neg h]
    · rw [Table.get?_put, if_neg h]

/-- Setting a header keeps everything when it keeps a seal. -/
theorem setHdr_kept (page : Nat) (v : PageHdr) (hP : [Part.headers] ⊆ P) (h : Kept P s u) (hv : u.sealedAt page → v.lock = .sealed) :
    Kept P s (u.setHdr page v) := by
  refine h.trans ⟨rfl, rfl, rfl, fun p hp => ?_, fun c => ?_, fun c p _ q => ⟨q.1, ?_⟩⟩
  · cases p <;> first | exact Eq.refl _ | exact And.intro rfl rfl | exact absurd (hP (List.mem_singleton.mpr rfl)) hp
  · simp only [Dev.canonical, Regs.canonical, Bool.and_eq_true] at c ⊢
    exact ⟨⟨⟨Table.canon_set page v c.1.1.1, c.1.1.2⟩, c.1.2⟩, c.2⟩
  · simp only [Dev.canonical, Bool.and_eq_true] at c
    show (Dev.hdr { u.dev with regs := { u.dev.regs with hdr := Table.set (PageHdr.reset page) u.dev.regs.hdr page v } } p).lock = .sealed
    rw [hdr_setHdr page v u.dev p c.1]
    split
    · rename_i hp; subst hp; exact hv q
    · exact q.2

@[simp] theorem onHdr_kept (page : Nat) (f : PageHdr → PageHdr) (hP : [Part.headers] ⊆ P) (h : Kept P s u)
    (hf : ∀ x, x.lock = .sealed → (f x).lock = .sealed) : Kept P s (u.onHdr page f) := setHdr_kept page _ hP h fun q => hf _ q.2

/-- An update of the registers that leaves the headers alone and keeps the canonical form keeps everything. -/
theorem onRegs_kept (f : Regs → Regs) (h : Kept P s u) (hf : ∀ p : Part, p ∉ P → p.Same u.dev { u.dev with regs := f u.dev.regs })
    (hh : (f u.dev.regs).hdr = u.dev.regs.hdr) (hc : u.dev.regs.canonical = true → (f u.dev.regs).canonical = true) : Kept P s (u.onRegs f) := by
  refine h.trans ⟨rfl, rfl, rfl, hf, fun c => ?_, fun c p _ q => ⟨q.1, ?_⟩⟩
  · simp only [Dev.canonical, Bool.and_eq_true] at c ⊢
    exact ⟨hc c.1, c.2⟩
  · have := q.2; simpa [State.onRegs, State.onDev, Dev.hdr, hh] using this

@[simp] theorem setReg_kept (a : Nat) (v : Word) (hP : [Part.registers] ⊆ P) (h : Kept P s u) : Kept P s (u.setReg a v) :=
  onRegs_kept _ h (fun p hp => by cases p <;> first | exact Eq.refl _ | exact And.intro rfl rfl | exact absurd (hP (List.mem_singleton.mpr rfl)) hp) rfl fun c => by
    simp only [Regs.canonical, Bool.and_eq_true] at c ⊢
    exact ⟨⟨c.1.1, Table.canon_set a v c.1.2⟩, c.2⟩

@[simp] theorem setCtr_kept (page off : Nat) (v : BitVec 64) (hP : [Part.counters] ⊆ P) (h : Kept P s u) : Kept P s (u.setCtr page off v) :=
  onRegs_kept _ h (fun p hp => by cases p <;> first | exact Eq.refl _ | exact And.intro rfl rfl | exact absurd (hP (List.mem_singleton.mpr rfl)) hp) rfl fun c => by
    simp only [Regs.canonical, Bool.and_eq_true] at c ⊢
    exact ⟨c.1, Table.wf_set _ v c.2⟩

@[simp] theorem bump_kept (page off n : Nat) (hP : [Part.counters] ⊆ P) (h : Kept P s u) : Kept P s (u.bump page off n) :=
  onRegs_kept _ h (fun p hp => by cases p <;> first | exact Eq.refl _ | exact And.intro rfl rfl | exact absurd (hP (List.mem_singleton.mpr rfl)) hp) rfl fun c => by
    simp only [Regs.canonical, Bool.and_eq_true] at c ⊢
    exact ⟨c.1, Table.wf_modify _ _ c.2⟩

@[simp] theorem setBitsIn_lock (p : Nat) (m v : Word) (h : PageHdr) : (PageHdr.setBitsIn p m v h).lock = h.lock := rfl

/-- A choice between two operations that each keep everything. -/
theorem ite_kept {c : Prop} [Decidable c] {a b : State} (ha : Kept P s a) (hb : Kept P s b) : Kept P s (if c then a else b) := by
  split
  · exact ha
  · exact hb

/-- Folding over a list an operation that keeps everything. -/
theorem each_kept {α : Type} {f : α → State → State} {l : List α} (hf : ∀ a t, Kept P s t → Kept P s (f a t)) (h : Kept P s u) :
    Kept P s (State.each l f u) := by
  induction l generalizing u with
  | nil => exact h
  | cons a r ih => exact ih (hf a u h)

/-! ### Resets of pages -/

/-- An update of the registers keeps everything when it keeps the canonical form and every seal of a page that no site owns. -/
theorem onRegs_keeps (f : Regs → Regs) (h : Kept P s u) (hf : ∀ p : Part, p ∉ P → p.Same u.dev { u.dev with regs := f u.dev.regs })
    (hc : u.dev.regs.canonical = true → (f u.dev.regs).canonical = true)
    (hs : u.dev.regs.canonical = true → ∀ p, perCorePage p = false → (u.dev.hdr p).lock = .sealed →
      (((f u.dev.regs).hdr.get? p).getD (PageHdr.reset p)).lock = .sealed) : Kept P s (u.onRegs f) := by
  refine h.trans ⟨rfl, rfl, rfl, hf, fun c => ?_, fun c p hp q => ⟨q.1, ?_⟩⟩
  · simp only [Dev.canonical, Bool.and_eq_true] at c ⊢
    exact ⟨hc c.1, c.2⟩
  · simp only [Dev.canonical, Bool.and_eq_true] at c
    exact hs c.1 p hp q.2

theorem PageHdr.reset_lock (page : Nat) : (PageHdr.reset page).lock = .unlocked := by
  unfold PageHdr.reset; split <;> rfl

theorem controlHdr_lock (page : Nat) (h : PageHdr) (hl : h.lock = .sealed) : (PageHdr.controlReset page h).lock = .sealed := by
  unfold PageHdr.controlReset; dsimp only; rw [if_pos hl]

theorem controlRegs_kept (now : Nat) (hP : [Part.headers, Part.registers, Part.counters, Part.latches, Part.arbiter] ⊆ P) (h : Kept P s u) :
    Kept P s (u.onRegs (Regs.controlReset now)) := by
  refine onRegs_keeps _ h (fun p hp => ?_) (fun c => ?_) fun c p _ q => ?_
  · cases p <;> first | exact Eq.refl _ | exact And.intro rfl rfl | exact absurd (hP (by decide)) hp
  · simp only [Regs.canonical, Bool.and_eq_true, Regs.controlReset] at c ⊢
    refine ⟨⟨?_, Table.canon_filter _ c.1.2⟩, Table.wf_filter _ c.2⟩
    simp only [Table.canon, Bool.and_eq_true] at c ⊢
    refine ⟨Table.risingFrom_filter _ (Table.risingFrom_map _ (fun e => ?_) c.1.1.1), ?_⟩
    · split <;> (try split) <;> rfl
    · simp only [List.all_eq_true, List.mem_filter]
      exact fun e he => he.2
  · simp only [Regs.canonical, Bool.and_eq_true, Table.canon] at c
    have hr := c.1.1.1
    unfold Regs.controlReset
    dsimp only
    rw [Table.get?_filterVal _ (Table.risingFrom_map _ (fun e => ?_) hr), Table.get?_map _ (fun e => ?_)]
    · unfold Dev.hdr Table.get at q
      cases hg : Table.get? u.dev.regs.hdr p with
      | none =>
        rw [hg] at q
        simpa using q
      | some v =>
        rw [hg] at q
        simp only [Option.getD_some] at q
        simp only [Option.map_some]
        have key : ∀ w : PageHdr, w.lock = .sealed → ((some w).filter fun v => decide (v ≠ PageHdr.reset p)).getD (PageHdr.reset p) = w := by
          intro w hw
          have : w ≠ PageHdr.reset p := by
            intro hx; rw [hx, PageHdr.reset_lock] at hw; cases hw
          simp [Option.filter, this]
        rw [key]
        · split
          · exact controlHdr_lock _ _ q
          · split <;> exact q
        · split
          · exact controlHdr_lock _ _ q
          · split <;> exact q
    · split <;> (try split) <;> rfl
    · split <;> (try split) <;> rfl

end Sys2Proof.Machine
end

