-- ==== Sys2Proof/Laws/KeptOps.lean ====
section
/-! SUPPORT. One lemma per operation of the machine: the operation keeps what Kept names (the queue, the ply, what the reads of the ply see, the
canonical forms, the seals of the global pages, and every part of the device that the lemma does not list). An operation that runs another keeps them when that one does. The full resets and the tick are not
here: they change the start of the ply. -/
namespace Sys2Proof.Machine

@[simp] theorem choice_kept (s : State) {P : List Part} {s0 : State} (hP : [.draws] ⊆ P) (hk : Kept P s0 s) : Kept P s0 (State.choice s).2 := by
  unfold State.choice; try dsimp only
  repeat' with_reducible first | assumption | (with_unfolding_all exact among hP rfl) | exact fun _ hx => hx | apply draw_kept | intro _ | apply ite_kept | split | (simp_all; done)
@[simp] theorem touch_kept (obj id die prec : Nat) (s : State) {P : List Part} {s0 : State} (hP : [.score] ⊆ P) (hk : Kept P s0 s) : Kept P s0 (State.touch obj id die prec s) := by
  unfold State.touch; try dsimp only
  repeat' with_reducible first | assumption | (with_unfolding_all exact among hP rfl) | exact fun _ hx => hx | apply onScore_kept | intro _ | apply ite_kept | split | (simp_all; done)
@[simp] theorem scoreItem_kept (i : ScoreItem) (s : State) {P : List Part} {s0 : State} (hP : [.score] ⊆ P) (hk : Kept P s0 s) : Kept P s0 (State.scoreItem i s) := by
  unfold State.scoreItem; try dsimp only
  repeat' with_reducible first | assumption | (with_unfolding_all exact among hP rfl) | exact fun _ hx => hx | apply onScore_kept | intro _ | apply ite_kept | split | (simp_all; done)
@[simp] theorem touchPage_kept (page prec : Nat) (s : State) {P : List Part} {s0 : State} (hP : [.score] ⊆ P) (hk : Kept P s0 s) : Kept P s0 (State.touchPage page prec s) := by
  unfold State.touchPage; try dsimp only
  repeat' with_reducible first | assumption | (with_unfolding_all exact among hP rfl) | exact fun _ hx => hx | apply touch_kept | intro _ | apply ite_kept | split | (simp_all; done)
@[simp] theorem setEvents_kept (page : Nat) (v : Word) (s : State) {P : List Part} {s0 : State} (hP : [.headers, .score] ⊆ P) (hk : Kept P s0 s) : Kept P s0 (State.setEvents page v s) := by
  unfold State.setEvents; try dsimp only
  repeat' with_reducible first | assumption | (with_unfolding_all exact among hP rfl) | exact fun _ hx => hx | apply onHdr_kept | apply touchPage_kept | intro _ | apply ite_kept | split | (simp_all; done)
@[simp] theorem setEvent_kept (page bitNo : Nat) (s : State) {P : List Part} {s0 : State} (hP : [.headers, .score] ⊆ P) (hk : Kept P s0 s) : Kept P s0 (State.setEvent page bitNo s) := by
  unfold State.setEvent; try dsimp only
  repeat' with_reducible first | assumption | (with_unfolding_all exact among hP rfl) | exact fun _ hx => hx | apply setEvents_kept | intro _ | apply ite_kept | split | (simp_all; done)
@[simp] theorem markFaulted_kept (page : Nat) (s : State) {P : List Part} {s0 : State} (hP : [.headers, .score] ⊆ P) (hk : Kept P s0 s) : Kept P s0 (State.markFaulted page s) := by
  unfold State.markFaulted; try dsimp only
  repeat' with_reducible first | assumption | (with_unfolding_all exact among hP rfl) | exact fun _ hx => hx | apply onHdr_kept | apply touchPage_kept | intro _ | apply ite_kept | split | (simp_all; done)
@[simp] theorem setFaulted_kept (page : Nat) (f : Bool) (s : State) {P : List Part} {s0 : State} (hP : [.headers, .score] ⊆ P) (hk : Kept P s0 s) : Kept P s0 (State.setFaulted page f s) := by
  unfold State.setFaulted; try dsimp only
  repeat' with_reducible first | assumption | (with_unfolding_all exact among hP rfl) | exact fun _ hx => hx | apply markFaulted_kept | apply onHdr_kept | intro _ | apply ite_kept | split | (simp_all; done)
theorem force_kept {f : State → Host.Outcome State Fault Refusal} {P : List Part} {s u : State} (hP : [] ⊆ P) (hr : ∀ t, Kept P s t → ∃ v, f t = .next v ∧ Kept P s v) (h : Kept P s u) : Kept P s (State.force f u) := by
  obtain ⟨v, e, k⟩ := hr u h
  unfold State.force; rw [e]; exact k
@[simp] theorem landed_kept (c : Cargo) (s : State) {P : List Part} {s0 : State} (hP : [.net] ⊆ P) (hk : Kept P s0 s) : Kept P s0 (State.landed c s) := by
  unfold State.landed; try dsimp only
  repeat' with_reducible first | assumption | (with_unfolding_all exact among hP rfl) | exact fun _ hx => hx | apply onNet_kept | intro _ | apply ite_kept | split | (simp_all; done)
@[simp] theorem launch_kept (cls order bytes : Nat) (ways : List Nat) (die : Nat) (c : Cargo) (s : State) {P : List Part} {s0 : State} (hP : [.net] ⊆ P) (hk : Kept P s0 s) : Kept P s0 (State.launch cls order bytes ways die c s) := by
  unfold State.launch; try dsimp only
  repeat' with_reducible first | assumption | (with_unfolding_all exact among hP rfl) | exact fun _ hx => hx | apply onNet_kept | intro _ | apply ite_kept | split | (simp_all; done)
@[simp] theorem sendParcel_kept (cls order bytes a b : Nat) (s : State) {P : List Part} {s0 : State} (hP : [.net] ⊆ P) (hk : Kept P s0 s) : Kept P s0 (State.sendParcel cls order bytes a b s) := by
  unfold State.sendParcel; try dsimp only
  repeat' with_reducible first | assumption | (with_unfolding_all exact among hP rfl) | exact fun _ hx => hx | apply launch_kept | apply onNet_kept | intro _ | apply ite_kept | split | (simp_all; done)
@[simp] theorem portCount_kept (port sub k n : Nat) (s : State) {P : List Part} {s0 : State} (hP : [.counters] ⊆ P) (hk : Kept P s0 s) : Kept P s0 (State.portCount port sub k n s) := by
  unfold State.portCount; try dsimp only
  repeat' with_reducible first | assumption | (with_unfolding_all exact among hP rfl) | exact fun _ hx => hx | apply bump_kept | intro _ | apply ite_kept | split | (simp_all; done)
@[simp] theorem leave_kept (port sub : Nat) (o : Out) (s : State) {P : List Part} {s0 : State} (hP : [.ports, .out] ⊆ P) (hk : Kept P s0 s) : Kept P s0 (State.leave port sub o s) := by
  unfold State.leave; try dsimp only
  repeat' with_reducible first | assumption | (with_unfolding_all exact among hP rfl) | exact fun _ hx => hx | (with_reducible apply onPort_kept; case hf => (intro q h; first | exact Port.wf_onSub _ _ h | exact Port.wf_onLane _ _ h | (with_unfolding_all exact h) | (split <;> with_unfolding_all exact h) | exact Port.wf_onSubRun _ _ _ h | exact Port.wf_comeUp _ _ _ h | exact Port.wf_fold (fun q i h => Port.wf_onSub _ _ h) _ h)) | apply emit_kept | intro _ | apply ite_kept | split | (simp_all; done)
@[simp] theorem heard_kept (port sub : Nat) (s : State) {P : List Part} {s0 : State} (hP : [.ports] ⊆ P) (hk : Kept P s0 s) : Kept P s0 (State.heard port sub s) := by
  unfold State.heard; try dsimp only
  repeat' with_reducible first | assumption | (with_unfolding_all exact among hP rfl) | exact fun _ hx => hx | (with_reducible apply onPort_kept; case hf => (intro q h; first | exact Port.wf_onSub _ _ h | exact Port.wf_onLane _ _ h | (with_unfolding_all exact h) | (split <;> with_unfolding_all exact h) | exact Port.wf_onSubRun _ _ _ h | exact Port.wf_comeUp _ _ _ h | exact Port.wf_fold (fun q i h => Port.wf_onSub _ _ h) _ h)) | intro _ | apply ite_kept | split | (simp_all; done)
@[simp] theorem sendNow_kept (port sub : Nat) (o : Out) (len : Nat) (s : State) {P : List Part} {s0 : State} (hP : [.counters, .ports, .out] ⊆ P) (hk : Kept P s0 s) : Kept P s0 (State.sendNow port sub o len s) := by
  unfold State.sendNow; try dsimp only
  repeat' with_reducible first | assumption | (with_unfolding_all exact among hP rfl) | exact fun _ hx => hx | apply leave_kept | apply portCount_kept | intro _ | apply ite_kept | split | (simp_all; done)
@[simp] theorem sendOut_kept (w : Waiting) (s : State) {P : List Part} {s0 : State} (hP : [.counters, .ports, .out] ⊆ P) (hk : Kept P s0 s) : Kept P s0 (State.sendOut w s) := by
  unfold State.sendOut; try dsimp only
  repeat' with_reducible first | assumption | (with_unfolding_all exact among hP rfl) | exact fun _ hx => hx | apply bump_kept | apply sendNow_kept | intro _ | apply ite_kept | split | (simp_all; done)
@[simp] theorem sendWaiting_kept (w : Waiting) (s : State) {P : List Part} {s0 : State} (hP : [.counters, .ports, .traffic, .out] ⊆ P) (hk : Kept P s0 s) : Kept P s0 (State.sendWaiting w s) := by
  unfold State.sendWaiting; try dsimp only
  repeat' with_reducible first | assumption | (with_unfolding_all exact among hP rfl) | exact fun _ hx => hx | apply onTraffic_kept | apply sendOut_kept | intro _ | apply ite_kept | split | (simp_all; done)
@[simp] theorem transmit_kept (port sub : Nat) (o : Out) (len : Nat) (s : State) {P : List Part} {s0 : State} (hP : [.counters, .ports, .traffic, .out] ⊆ P) (hk : Kept P s0 s) : Kept P s0 (State.transmit port sub o len s) := by
  unfold State.transmit; try dsimp only
  repeat' with_reducible first | assumption | (with_unfolding_all exact among hP rfl) | exact fun _ hx => hx | apply sendWaiting_kept | intro _ | apply ite_kept | split | (simp_all; done)
@[simp] theorem sendCross_kept (die cls order : Nat) (w : Waiting) (s : State) {P : List Part} {s0 : State} (hP : [.counters, .ports, .traffic, .net, .out] ⊆ P) (hk : Kept P s0 s) : Kept P s0 (State.sendCross die cls order w s) := by
  unfold State.sendCross; try dsimp only
  repeat' with_reducible first | assumption | (with_unfolding_all exact among hP rfl) | exact fun _ hx => hx | apply launch_kept | apply transmit_kept | intro _ | apply ite_kept | split | (simp_all; done)
@[simp] theorem sendFrom_kept (die cls order port sub : Nat) (o : Out) (len : Nat) (s : State) {P : List Part} {s0 : State} (hP : [.counters, .ports, .traffic, .net, .out] ⊆ P) (hk : Kept P s0 s) : Kept P s0 (State.sendFrom die cls order port sub o len s) := by
  unfold State.sendFrom; try dsimp only
  repeat' with_reducible first | assumption | (with_unfolding_all exact among hP rfl) | exact fun _ hx => hx | apply sendCross_kept | intro _ | apply ite_kept | split | (simp_all; done)
@[simp] theorem flushOne_kept (w : Waiting) (s : State) {P : List Part} {s0 : State} (hP : [.counters, .ports, .traffic, .out] ⊆ P) (hk : Kept P s0 s) : Kept P s0 (State.flushOne w s) := by
  unfold State.flushOne; try dsimp only
  repeat' with_reducible first | assumption | (with_unfolding_all exact among hP rfl) | exact fun _ hx => hx | apply onTraffic_kept | apply sendOut_kept | intro _ | apply ite_kept | split | (simp_all; done)
@[simp] theorem flushWaiting_kept (s : State) {P : List Part} {s0 : State} (hP : [.counters, .ports, .traffic, .out] ⊆ P) (hk : Kept P s0 s) : Kept P s0 (State.flushWaiting s) := by
  unfold State.flushWaiting; try dsimp only
  repeat' with_reducible first | assumption | (with_unfolding_all exact among hP rfl) | exact fun _ hx => hx | apply flushOne_kept | apply onTraffic_kept | apply each_kept | intro _ | apply ite_kept | split | (simp_all; done)
@[simp] theorem sendSelid_kept (r : Route) (kind session seq fragIndex fragLast : Nat) (plain payload : Bytes) (s : State) {P : List Part} {s0 : State} (hP : [.counters, .ports, .traffic, .net, .out] ⊆ P) (hk : Kept P s0 s) : Kept P s0 (State.sendSelid r kind session seq fragIndex fragLast plain payload s) := by
  unfold State.sendSelid; try dsimp only
  repeat' with_reducible first | assumption | (with_unfolding_all exact among hP rfl) | exact fun _ hx => hx | apply sendFrom_kept | intro _ | apply ite_kept | split | (simp_all; done)
@[simp] theorem sendReject_kept (r : Route) (status : Nat) (nonce : Bytes) (s : State) {P : List Part} {s0 : State} (hP : [.counters, .ports, .traffic, .net, .out] ⊆ P) (hk : Kept P s0 s) : Kept P s0 (State.sendReject r status nonce s) := by
  unfold State.sendReject; try dsimp only
  repeat' with_reducible first | assumption | (with_unfolding_all exact among hP rfl) | exact fun _ hx => hx | apply sendSelid_kept | intro _ | apply ite_kept | split | (simp_all; done)
@[simp] theorem onSession_kept (n : Nat) (f : Session → Session) (s : State) {P : List Part} {s0 : State} (hP : [.selid] ⊆ P) (hk : Kept P s0 s) : Kept P s0 (State.onSession n f s) := by
  unfold State.onSession; try dsimp only
  repeat' with_reducible first | assumption | (with_unfolding_all exact among hP rfl) | exact fun _ hx => hx | apply onSelid_kept | intro _ | apply ite_kept | split | (simp_all; done)
@[simp] theorem sendProtected_kept (n : Nat) (r : Route) (plain : Bytes) (s : State) {P : List Part} {s0 : State} (hP : [.counters, .selid, .ports, .traffic, .net, .out] ⊆ P) (hk : Kept P s0 s) : Kept P s0 (State.sendProtected n r plain s) := by
  unfold State.sendProtected; try dsimp only
  repeat' with_reducible first | assumption | (with_unfolding_all exact among hP rfl) | exact fun _ hx => hx | apply onSession_kept | apply sendSelid_kept | intro _ | apply ite_kept | split | (simp_all; done)
@[simp] theorem discardStage_kept (k : Nat) (s : State) {P : List Part} {s0 : State} (hP : [.counters, .objects] ⊆ P) (hk : Kept P s0 s) : Kept P s0 (State.discardStage k s) := by
  unfold State.discardStage; try dsimp only
  repeat' with_reducible first | assumption | (with_unfolding_all exact among hP rfl) | exact fun _ hx => hx | apply bump_kept | apply free_kept | apply onObjects_kept | intro _ | apply ite_kept | split | (simp_all; done)
theorem unlockOf_seal (n : Nat) (h : PageHdr) (hl : h.lock = .sealed) : (PageHdr.unlockOf n h).lock = .sealed := by
  unfold PageHdr.unlockOf; split
  · rename_i hc; rw [hl] at hc; exact absurd hc.1 (by decide)
  · exact hl
@[simp] theorem endSession_kept (n : Nat) (s : State) {P : List Part} {s0 : State} (hP : [.headers, .counters, .selid, .objects, .sec] ⊆ P) (hk : Kept P s0 s) : Kept P s0 (State.endSession n s) := by
  unfold State.endSession; try dsimp only
  repeat' with_reducible first | assumption | (with_unfolding_all exact among hP rfl) | exact fun _ hx => hx | exact unlockOf_seal _ _ ‹_› | apply bump_kept | apply discardStage_kept | apply free_kept | apply onHdr_kept | apply onSec_kept | apply onSelid_kept | apply each_kept | intro _ | apply ite_kept | split | (simp_all; done)
@[simp] theorem recordCmd_kept (n : Nat) (c : Cmd) (status : Nat) (s : State) {P : List Part} {s0 : State} (hP : [.score] ⊆ P) (hk : Kept P s0 s) : Kept P s0 (State.recordCmd n c status s) := by
  unfold State.recordCmd; try dsimp only
  repeat' with_reducible first | assumption | (with_unfolding_all exact among hP rfl) | exact fun _ hx => hx | apply scoreItem_kept | intro _ | apply ite_kept | split | (simp_all; done)
@[simp] theorem complete_kept (n opcode status detail : Nat) (body : Bytes) (s : State) {P : List Part} {s0 : State} (hP : [.counters, .selid, .ports, .traffic, .net, .score, .out] ⊆ P) (hk : Kept P s0 s) : Kept P s0 (State.complete n opcode status detail body s) := by
  unfold State.complete; try dsimp only
  repeat' with_reducible first | assumption | (with_unfolding_all exact among hP rfl) | exact fun _ hx => hx | apply onSession_kept | apply recordCmd_kept | apply sendProtected_kept | intro _ | apply ite_kept | split | (simp_all; done)
@[simp] theorem startCmd_kept (n opcode : Nat) (s : State) {P : List Part} {s0 : State} (hP : [.selid] ⊆ P) (hk : Kept P s0 s) : Kept P s0 (State.startCmd n opcode s) := by
  unfold State.startCmd; try dsimp only
  repeat' with_reducible first | assumption | (with_unfolding_all exact among hP rfl) | exact fun _ hx => hx | apply onSession_kept | intro _ | apply ite_kept | split | (simp_all; done)
theorem command_kept {n op : Nat} {run : Session → Cmd → State → State} {P : List Part} {s u : State} (hP : [] ⊆ P) (hr : ∀ x c t, Kept P s t → Kept P s (run x c t)) (h : Kept P s u) : Kept P s (State.command n op run u) := by
  unfold State.command; split
  · exact h
  · exact hr _ _ _ h
theorem sized_kept {x : Session} {c : Cmd} {n : Nat} {run : State → State} {P : List Part} {s u : State} (hP : [.counters, .selid, .ports, .traffic, .net, .score, .out] ⊆ P) (hr : ∀ t, Kept P s t → Kept P s (run t)) (h : Kept P s u) : Kept P s (State.sized x c n run u) := by
  unfold State.sized; split
  · exact complete_kept _ _ _ _ _ _ (among hP rfl) h
  · exact hr _ h
@[simp] theorem answerWrites_kept (n : Nat) (s : State) {P : List Part} {s0 : State} (hP : [.counters, .selid, .ports, .traffic, .net, .score, .out] ⊆ P) (hk : Kept P s0 s) : Kept P s0 (State.answerWrites n s) := by
  unfold State.answerWrites; try dsimp only
  repeat' with_reducible first | assumption | (with_unfolding_all exact among hP rfl) | exact fun _ hx => hx | apply complete_kept | intro _ | apply ite_kept | split | (simp_all; done)
@[simp] theorem noteEntry_kept (n st : Nat) (s : State) {P : List Part} {s0 : State} (hP : [.counters, .selid, .ports, .traffic, .net, .score, .out] ⊆ P) (hk : Kept P s0 s) : Kept P s0 (State.noteEntry n st s) := by
  unfold State.noteEntry; try dsimp only
  repeat' with_reducible first | assumption | (with_unfolding_all exact among hP rfl) | exact fun _ hx => hx | apply answerWrites_kept | apply onSelid_kept | apply onSession_kept | intro _ | apply ite_kept | split | (simp_all; done)
@[simp] theorem abortWrites_kept (x : Nat) (s : State) {P : List Part} {s0 : State} (hP : [.selid] ⊆ P) (hk : Kept P s0 s) : Kept P s0 (State.abortWrites x s) := by
  unfold State.abortWrites; try dsimp only
  repeat' with_reducible first | assumption | (with_unfolding_all exact among hP rfl) | exact fun _ hx => hx | apply onSelid_kept | apply onSession_kept | apply each_kept | intro _ | apply ite_kept | split | (simp_all; done)
@[simp] theorem settleWrites_kept (s : State) {P : List Part} {s0 : State} (hP : [.counters, .selid, .ports, .traffic, .net, .score, .out] ⊆ P) (hk : Kept P s0 s) : Kept P s0 (State.settleWrites s) := by
  unfold State.settleWrites; try dsimp only
  repeat' with_reducible first | assumption | (with_unfolding_all exact among hP rfl) | exact fun _ hx => hx | apply answerWrites_kept | apply onSelid_kept | apply each_kept | intro _ | apply ite_kept | split | (simp_all; done)
@[simp] theorem discardHeld_kept (x : Nat) (s : State) {P : List Part} {s0 : State} (hP : [.counters, .selid, .ports, .traffic, .net, .score, .out] ⊆ P) (hk : Kept P s0 s) : Kept P s0 (State.discardHeld x s) := by
  unfold State.discardHeld; try dsimp only
  repeat' with_reducible first | assumption | (with_unfolding_all exact among hP rfl) | exact fun _ hx => hx | apply noteEntry_kept | apply each_kept | intro _ | apply ite_kept | split | (simp_all; done)
@[simp] theorem sendTeamAs_kept (core : Option Nat) (order die port kind : Nat) (plain : Bytes) (s : State) {P : List Part} {s0 : State} (hP : [.counters, .ports, .traffic, .net, .team, .out] ⊆ P) (hk : Kept P s0 s) : Kept P s0 (State.sendTeamAs core order die port kind plain s) := by
  unfold State.sendTeamAs; try dsimp only
  repeat' with_reducible first | assumption | (with_unfolding_all exact among hP rfl) | exact fun _ hx => hx | apply onTeam_kept | apply sendCross_kept | intro _ | apply ite_kept | split | (simp_all; done)
@[simp] theorem sendTeam_kept (die port kind : Nat) (plain : Bytes) (s : State) {P : List Part} {s0 : State} (hP : [.counters, .ports, .traffic, .net, .team, .out] ⊆ P) (hk : Kept P s0 s) : Kept P s0 (State.sendTeam die port kind plain s) := by
  unfold State.sendTeam; try dsimp only
  repeat' with_reducible first | assumption | (with_unfolding_all exact among hP rfl) | exact fun _ hx => hx | apply sendTeamAs_kept | intro _ | apply ite_kept | split | (simp_all; done)
@[simp] theorem grantTeam_kept (port m n : Nat) (s : State) {P : List Part} {s0 : State} (hP : [.counters, .ports, .traffic, .net, .team, .out] ⊆ P) (hk : Kept P s0 s) : Kept P s0 (State.grantTeam port m n s) := by
  unfold State.grantTeam; try dsimp only
  repeat' with_reducible first | assumption | (with_unfolding_all exact among hP rfl) | exact fun _ hx => hx | apply onTeam_kept | apply sendTeam_kept | intro _ | apply ite_kept | split | (simp_all; done)
@[simp] theorem sendPair_kept (port kind : Nat) (plain : Bytes) (s : State) {P : List Part} {s0 : State} (hP : [.counters, .ports, .traffic, .net, .pair, .out] ⊆ P) (hk : Kept P s0 s) : Kept P s0 (State.sendPair port kind plain s) := by
  unfold State.sendPair; try dsimp only
  repeat' with_reducible first | assumption | (with_unfolding_all exact among hP rfl) | exact fun _ hx => hx | apply onPair_kept | apply sendFrom_kept | intro _ | apply ite_kept | split | (simp_all; done)
@[simp] theorem grantPair_kept (port n : Nat) (s : State) {P : List Part} {s0 : State} (hP : [.counters, .ports, .traffic, .net, .pair, .out] ⊆ P) (hk : Kept P s0 s) : Kept P s0 (State.grantPair port n s) := by
  unfold State.grantPair; try dsimp only
  repeat' with_reducible first | assumption | (with_unfolding_all exact among hP rfl) | exact fun _ hx => hx | apply onPair_kept | apply sendPair_kept | intro _ | apply ite_kept | split | (simp_all; done)
@[simp] theorem peerUp_kept (port : Nat) (s : State) {P : List Part} {s0 : State} (hP : [.counters, .ports, .traffic, .net, .team, .pair, .out] ⊆ P) (hk : Kept P s0 s) : Kept P s0 (State.peerUp port s) := by
  unfold State.peerUp; try dsimp only
  repeat' with_reducible first | assumption | (with_unfolding_all exact among hP rfl) | exact fun _ hx => hx | apply grantPair_kept | apply grantTeam_kept | apply onPair_kept | apply onTeam_kept | apply each_kept | intro _ | apply ite_kept | split | (simp_all; done)
@[simp] theorem greetTeam_kept (s : State) {P : List Part} {s0 : State} (hP : [.counters, .ports, .traffic, .net, .team, .out] ⊆ P) (hk : Kept P s0 s) : Kept P s0 (State.greetTeam s) := by
  unfold State.greetTeam; try dsimp only
  repeat' with_reducible first | assumption | (with_unfolding_all exact among hP rfl) | exact fun _ hx => hx | apply grantTeam_kept | apply onTeam_kept | apply each_kept | intro _ | apply ite_kept | split | (simp_all; done)
@[simp] theorem greetPair_kept (s : State) {P : List Part} {s0 : State} (hP : [.counters, .ports, .traffic, .net, .pair, .out] ⊆ P) (hk : Kept P s0 s) : Kept P s0 (State.greetPair s) := by
  unfold State.greetPair; try dsimp only
  repeat' with_reducible first | assumption | (with_unfolding_all exact among hP rfl) | exact fun _ hx => hx | apply grantPair_kept | apply onPair_kept | apply each_kept | intro _ | apply ite_kept | split | (simp_all; done)
@[simp] theorem peerDown_kept (port : Nat) (s : State) {P : List Part} {s0 : State} (hP : [.headers, .score] ⊆ P) (hk : Kept P s0 s) : Kept P s0 (State.peerDown port s) := by
  unfold State.peerDown; try dsimp only
  repeat' with_reducible first | assumption | (with_unfolding_all exact among hP rfl) | exact fun _ hx => hx | apply setEvent_kept | intro _ | apply ite_kept | split | (simp_all; done)
@[simp] theorem sendRecord_kept (r : MirrorRec) (s : State) {P : List Part} {s0 : State} (hP : [.counters, .ports, .traffic, .net, .pair, .out] ⊆ P) (hk : Kept P s0 s) : Kept P s0 (State.sendRecord r s).1 := by
  unfold State.sendRecord; try dsimp only
  repeat' with_reducible first | assumption | (with_unfolding_all exact among hP rfl) | exact fun _ hx => hx | apply bump_kept | apply onPair_kept | apply sendPair_kept | intro _ | apply ite_kept | split | (simp_all; done)
@[simp] theorem sendRecords_kept (l : List MirrorRec) (s : State) {P : List Part} {s0 : State} (hP : [.counters, .ports, .traffic, .net, .pair, .out] ⊆ P) (hk : Kept P s0 s) : Kept P s0 (State.sendRecords l s) := by
  induction l generalizing s  with
  | nil => unfold State.sendRecords; repeat' with_reducible first | assumption | (with_unfolding_all exact among hP rfl) | exact fun _ hx => hx | apply sendRecord_kept | intro _ | apply ite_kept | split | (simp_all; done)
  | cons r rest ih =>
    unfold State.sendRecords; try dsimp only
    repeat' with_reducible first | assumption | (with_unfolding_all exact among hP rfl) | exact fun _ hx => hx | apply ih | apply sendRecord_kept | intro _ | apply ite_kept | split | (simp_all; done)
@[simp] theorem queueRecord_kept (ty whr : Nat) (body : Bytes) (s : State) {P : List Part} {s0 : State} (hP : [.pair] ⊆ P) (hk : Kept P s0 s) : Kept P s0 (State.queueRecord ty whr body s) := by
  unfold State.queueRecord; try dsimp only
  repeat' with_reducible first | assumption | (with_unfolding_all exact among hP rfl) | exact fun _ hx => hx | apply onPair_kept | intro _ | apply ite_kept | split | (simp_all; done)
@[simp] theorem mirror_kept (ty whr : Nat) (body : Bytes) (s : State) {P : List Part} {s0 : State} (hP : [.counters, .ports, .traffic, .net, .pair, .out] ⊆ P) (hk : Kept P s0 s) : Kept P s0 (State.mirror ty whr body s) := by
  unfold State.mirror; try dsimp only
  repeat' with_reducible first | assumption | (with_unfolding_all exact among hP rfl) | exact fun _ hx => hx | apply onPair_kept | apply queueRecord_kept | apply sendRecords_kept | intro _ | apply ite_kept | split | (simp_all; done)
@[simp] theorem onLane_kept (die : Nat) (f : Lane → Lane) (s : State) {P : List Part} {s0 : State} (hP : [.selid] ⊆ P) (hk : Kept P s0 s) : Kept P s0 (State.onLane die f s) := by
  unfold State.onLane; try dsimp only
  repeat' with_reducible first | assumption | (with_unfolding_all exact among hP rfl) | exact fun _ hx => hx | apply onSelid_kept | intro _ | apply ite_kept | split | (simp_all; done)
@[simp] theorem laneCount_kept (die k : Nat) (s : State) {P : List Part} {s0 : State} (hP : [.counters] ⊆ P) (hk : Kept P s0 s) : Kept P s0 (State.laneCount die k s) := by
  unfold State.laneCount; try dsimp only
  repeat' with_reducible first | assumption | (with_unfolding_all exact among hP rfl) | exact fun _ hx => hx | apply bump_kept | intro _ | apply ite_kept | split | (simp_all; done)
@[simp] theorem laneAdmit_kept (die : Nat) (toSession : Bool) (lf : LaneFrame) (s : State) {P : List Part} {s0 : State} (hP : [.counters, .selid] ⊆ P) (hk : Kept P s0 s) : Kept P s0 (State.laneAdmit die toSession lf s).1 := by
  unfold State.laneAdmit; try dsimp only
  repeat' with_reducible first | assumption | (with_unfolding_all exact among hP rfl) | exact fun _ hx => hx | apply laneCount_kept | apply onLane_kept | intro _ | apply ite_kept | split | (simp_all; done)
@[simp] theorem admitSelid_kept (lf : LaneFrame) (s : State) {P : List Part} {s0 : State} (hP : [.counters, .selid] ⊆ P) (hk : Kept P s0 s) : Kept P s0 (State.admitSelid lf s).1 := by
  unfold State.admitSelid; try dsimp only
  repeat' with_reducible first | assumption | (with_unfolding_all exact among hP rfl) | exact fun _ hx => hx | apply laneAdmit_kept | apply laneCount_kept | intro _ | apply ite_kept | split | (simp_all; done)
@[simp] theorem rxJudge_kept (max port sub : Nat) (f : Bytes) (s : State) {P : List Part} {s0 : State} (hP : [.counters] ⊆ P) (hk : Kept P s0 s) : Kept P s0 (State.rxJudge max port sub f s).1 := by
  unfold State.rxJudge; try dsimp only
  repeat' with_reducible first | assumption | (with_unfolding_all exact among hP rfl) | exact fun _ hx => hx | apply portCount_kept | intro _ | apply ite_kept | split | (simp_all; done)
@[simp] theorem rxCheck_kept (port sub : Nat) (f : Bytes) (s : State) {P : List Part} {s0 : State} (hP : [.counters, .ports] ⊆ P) (hk : Kept P s0 s) : Kept P s0 (State.rxCheck port sub f s).1 := by
  unfold State.rxCheck; try dsimp only
  repeat' with_reducible first | assumption | (with_unfolding_all exact among hP rfl) | exact fun _ hx => hx | apply heard_kept | apply rxJudge_kept | intro _ | apply ite_kept | split | (simp_all; done)
@[simp] theorem takeHead_kept (port sub : Nat) (f : Bytes) (s : State) {P : List Part} {s0 : State} (hP : [.selid, .net] ⊆ P) (hk : Kept P s0 s) : Kept P s0 (State.takeHead port sub f s).1 := by
  unfold State.takeHead; try dsimp only
  repeat' with_reducible first | assumption | (with_unfolding_all exact among hP rfl) | exact fun _ hx => hx | apply landed_kept | apply onLane_kept | intro _ | apply ite_kept | split | (simp_all; done)
@[simp] theorem hostArrival_kept (port sub : Nat) (f : Bytes) (s : State) {P : List Part} {s0 : State} (hP : [.counters, .selid, .ports] ⊆ P) (hk : Kept P s0 s) : Kept P s0 (State.hostArrival port sub f s) := by
  unfold State.hostArrival; try dsimp only
  repeat' with_reducible first | assumption | (with_unfolding_all exact among hP rfl) | exact fun _ hx => hx | apply admitSelid_kept | apply portCount_kept | apply rxCheck_kept | intro _ | apply ite_kept | split | (simp_all; done)
@[simp] theorem takeFrame_kept (port sub : Nat) (f : Bytes) (s : State) {P : List Part} {s0 : State} (hP : [.counters, .selid, .ports, .net] ⊆ P) (hk : Kept P s0 s) : Kept P s0 (State.takeFrame port sub f s).1 := by
  unfold State.takeFrame; try dsimp only
  repeat' with_reducible first | assumption | (with_unfolding_all exact among hP rfl) | exact fun _ hx => hx | apply hostArrival_kept | apply takeHead_kept | intro _ | apply ite_kept | split | (simp_all; done)
@[simp] theorem takeProbe_kept (kind : LaneKind) (port sub : Nat) (f : Bytes) (s : State) {P : List Part} {s0 : State} (hP : [.counters, .selid, .ports, .net] ⊆ P) (hk : Kept P s0 s) : Kept P s0 (State.takeProbe kind port sub f s).1 := by
  unfold State.takeProbe; try dsimp only
  repeat' with_reducible first | assumption | (with_unfolding_all exact among hP rfl) | exact fun _ hx => hx | apply rxCheck_kept | apply takeHead_kept | intro _ | apply ite_kept | split | (simp_all; done)
@[simp] theorem advertise_kept (p : Nat) (s : State) {P : List Part} {s0 : State} (hP : [.ports] ⊆ P) (hk : Kept P s0 s) : Kept P s0 (State.advertise p s) := by
  unfold State.advertise; dsimp only
  exact onPort_kept _ _ (among hP rfl) hk fun q h => Port.wf_fold (fun q i h => Port.wf_onSub _ _ h) _ h
@[simp] theorem enablePort_kept (p : Nat) (s : State) {P : List Part} {s0 : State} (hP : [.ports] ⊆ P) (hk : Kept P s0 s) : Kept P s0 (State.enablePort p s) := by
  unfold State.enablePort; dsimp only
  split
  · exact onPort_kept _ _ (among hP rfl) hk fun q h => Port.wf_by (Port.wf_subs h) (Port.wf_lanes h) rfl rfl
  · refine onPort_kept _ _ (among hP rfl) hk fun q h => ?_
    generalize hg : Port.configure _ _ _ = r
    have hc : r.wf = true := by rw [← hg]; exact Port.wf_configure _ _ (Port.wf_by (Port.wf_subs h) (Port.wf_lanes h) rfl rfl)
    exact Port.wf_by (Port.wf_subs hc) (Port.wf_lanes hc) rfl rfl
@[simp] theorem subDown_kept (p i : Nat) (s : State) {P : List Part} {s0 : State} (hP : [.headers, .ports, .score] ⊆ P) (hk : Kept P s0 s) : Kept P s0 (State.subDown p i s) := by
  unfold State.subDown; try dsimp only
  repeat' with_reducible first | assumption | (with_unfolding_all exact among hP rfl) | exact fun _ hx => hx | (with_reducible apply onPort_kept; case hf => (intro q h; first | exact Port.wf_onSub _ _ h | exact Port.wf_onLane _ _ h | (with_unfolding_all exact h) | (split <;> with_unfolding_all exact h) | exact Port.wf_onSubRun _ _ _ h | exact Port.wf_comeUp _ _ _ h | exact Port.wf_fold (fun q i h => Port.wf_onSub _ _ h) _ h)) | apply peerDown_kept | apply setEvent_kept | intro _ | apply ite_kept | split | (simp_all; done)
@[simp] theorem portDown_kept (p : Nat) (s : State) {P : List Part} {s0 : State} (hP : [.headers, .ports, .score] ⊆ P) (hk : Kept P s0 s) : Kept P s0 (State.portDown p s) := by
  unfold State.portDown; try dsimp only
  repeat' with_reducible first | assumption | (with_unfolding_all exact among hP rfl) | exact fun _ hx => hx | apply subDown_kept | apply each_kept | intro _ | apply ite_kept | split | (simp_all; done)
@[simp] theorem disablePort_kept (p : Nat) (s : State) {P : List Part} {s0 : State} (hP : [.headers, .ports, .score] ⊆ P) (hk : Kept P s0 s) : Kept P s0 (State.disablePort p s) := by
  unfold State.disablePort; try dsimp only
  repeat' with_reducible first | assumption | (with_unfolding_all exact among hP rfl) | exact fun _ hx => hx | (with_reducible apply onPort_kept; case hf => (intro q h; first | exact Port.wf_onSub _ _ h | exact Port.wf_onLane _ _ h | (with_unfolding_all exact h) | (split <;> with_unfolding_all exact h) | exact Port.wf_onSubRun _ _ _ h | exact Port.wf_comeUp _ _ _ h | exact Port.wf_fold (fun q i h => Port.wf_onSub _ _ h) _ h)) | apply advertise_kept | apply portDown_kept | intro _ | apply ite_kept | split | (simp_all; done)
@[simp] theorem clearCounters_kept (p i : Nat) (s : State) {P : List Part} {s0 : State} (hP : [.counters] ⊆ P) (hk : Kept P s0 s) : Kept P s0 (State.clearCounters p i s) := by
  unfold State.clearCounters; try dsimp only
  repeat' with_reducible first | assumption | (with_unfolding_all exact among hP rfl) | exact fun _ hx => hx | apply setCtr_kept | apply each_kept | intro _ | apply ite_kept | split | (simp_all; done)
@[simp] theorem restartSub_kept (p k lanes : Nat) (s : State) {P : List Part} {s0 : State} (hP : [.ports] ⊆ P) (hk : Kept P s0 s) : Kept P s0 (State.restartSub p k lanes s) := by
  unfold State.restartSub; dsimp only
  refine onPort_kept _ _ (among hP rfl) hk fun q h => ?_
  refine Port.wf_onSubRun _ _ _ ?_
  split
  · exact h
  · exact Port.wf_by (Port.wf_subs h) (Port.wf_lanes h) rfl rfl
@[simp] theorem readmit_kept (p i : Nat) (s : State) {P : List Part} {s0 : State} (hP : [.headers, .ports, .score] ⊆ P) (hk : Kept P s0 s) : Kept P s0 (State.readmit p i s) := by
  unfold State.readmit; try dsimp only
  repeat' with_reducible first | assumption | (with_unfolding_all exact among hP rfl) | exact fun _ hx => hx | (with_reducible apply onPort_kept; case hf => (intro q h; first | exact Port.wf_onSub _ _ h | exact Port.wf_onLane _ _ h | (with_unfolding_all exact h) | (split <;> with_unfolding_all exact h) | exact Port.wf_onSubRun _ _ _ h | exact Port.wf_comeUp _ _ _ h | exact Port.wf_fold (fun q i h => Port.wf_onSub _ _ h) _ h)) | apply onLane_kept | apply restartSub_kept | apply setFaulted_kept | apply subDown_kept | intro _ | apply ite_kept | split | (simp_all; done)
@[simp] theorem portWrite_kept (p off : Nat) (v : Word) (s : State) {P : List Part} {s0 : State} (hP : [.headers, .registers, .counters, .ports, .score] ⊆ P) (hk : Kept P s0 s) : Kept P s0 (State.portWrite p off v s) := by
  unfold State.portWrite; try dsimp only
  repeat' with_reducible first | assumption | (with_unfolding_all exact among hP rfl) | exact fun _ hx => hx | apply clearCounters_kept | apply readmit_kept | apply setReg_kept | apply each_kept | intro _ | apply ite_kept | split | (simp_all; done)
@[simp] theorem laneFail_kept (port lane : Nat) (s : State) {P : List Part} {s0 : State} (hP : [.headers, .ports, .score] ⊆ P) (hk : Kept P s0 s) : Kept P s0 (State.laneFail port lane s) := by
  unfold State.laneFail; try dsimp only
  repeat' with_reducible first | assumption | (with_unfolding_all exact among hP rfl) | exact fun _ hx => hx | (with_reducible apply onPort_kept; case hf => (intro q h; first | exact Port.wf_onSub _ _ h | exact Port.wf_onLane _ _ h | (with_unfolding_all exact h) | (split <;> with_unfolding_all exact h) | exact Port.wf_onSubRun _ _ _ h | exact Port.wf_comeUp _ _ _ h | exact Port.wf_fold (fun q i h => Port.wf_onSub _ _ h) _ h)) | apply onLane_kept | apply setEvent_kept | apply setFaulted_kept | apply subDown_kept | intro _ | apply ite_kept | split | (simp_all; done)
theorem execPauseQuantaExpire_kept (port sub : Nat) (s : State) {P : List Part} {s0 : State} (hP : [.ports] ⊆ P) (hk : Kept P s0 s) : ∃ t, execPauseQuantaExpire port sub s = .next t ∧ Kept P s0 t := by
  unfold execPauseQuantaExpire; try dsimp only
  repeat' with_reducible first | refine ⟨_, rfl, ?_⟩ | assumption | (with_unfolding_all exact among hP rfl) | exact fun _ hx => hx | exact grant_kept _ _ _ _ (among hP rfl) hk ‹_› | (with_reducible apply onPort_kept; case hf => (intro q h; first | exact Port.wf_onSub _ _ h | exact Port.wf_onLane _ _ h | (with_unfolding_all exact h) | (split <;> with_unfolding_all exact h) | exact Port.wf_onSubRun _ _ _ h | exact Port.wf_comeUp _ _ _ h | exact Port.wf_fold (fun q i h => Port.wf_onSub _ _ h) _ h)) | intro _ | apply ite_kept | split | (simp_all; done)
theorem execPfcStorm_kept (port sub prio : Nat) (s : State) {P : List Part} {s0 : State} (hP : [.headers, .ports, .score] ⊆ P) (hk : Kept P s0 s) : ∃ t, execPfcStorm port sub prio s = .next t ∧ Kept P s0 t := by
  unfold execPfcStorm; try dsimp only
  repeat' with_reducible first | refine ⟨_, rfl, ?_⟩ | assumption | (with_unfolding_all exact among hP rfl) | exact fun _ hx => hx | exact grant_kept _ _ _ _ (among hP rfl) hk ‹_› | (with_reducible apply onPort_kept; case hf => (intro q h; first | exact Port.wf_onSub _ _ h | exact Port.wf_onLane _ _ h | (with_unfolding_all exact h) | (split <;> with_unfolding_all exact h) | exact Port.wf_onSubRun _ _ _ h | exact Port.wf_comeUp _ _ _ h | exact Port.wf_fold (fun q i h => Port.wf_onSub _ _ h) _ h)) | apply setEvent_kept | intro _ | apply ite_kept | split | (simp_all; done)
@[simp] theorem sendPause_kept (port sub key quanta : Nat) (s : State) {P : List Part} {s0 : State} (hP : [.counters, .ports, .out] ⊆ P) (hk : Kept P s0 s) : Kept P s0 (State.sendPause port sub key quanta s) := by
  unfold State.sendPause; try dsimp only
  repeat' with_reducible first | assumption | (with_unfolding_all exact among hP rfl) | exact fun _ hx => hx | apply portCount_kept | apply sendNow_kept | intro _ | apply ite_kept | split | (simp_all; done)
@[simp] theorem checkKey_kept (port sub key : Nat) (s : State) {P : List Part} {s0 : State} (hP : [.counters, .ports, .out] ⊆ P) (hk : Kept P s0 s) : Kept P s0 (State.checkKey port sub key s) := by
  unfold State.checkKey; try dsimp only
  repeat' with_reducible first | assumption | (with_unfolding_all exact among hP rfl) | exact fun _ hx => hx | (with_reducible apply onPort_kept; case hf => (intro q h; first | exact Port.wf_onSub _ _ h | exact Port.wf_onLane _ _ h | (with_unfolding_all exact h) | (split <;> with_unfolding_all exact h) | exact Port.wf_onSubRun _ _ _ h | exact Port.wf_comeUp _ _ _ h | exact Port.wf_fold (fun q i h => Port.wf_onSub _ _ h) _ h)) | apply sendPause_kept | intro _ | apply ite_kept | split | (simp_all; done)
@[simp] theorem checkPause_kept (port sub prio : Nat) (s : State) {P : List Part} {s0 : State} (hP : [.counters, .ports, .out] ⊆ P) (hk : Kept P s0 s) : Kept P s0 (State.checkPause port sub prio s) := by
  unfold State.checkPause; try dsimp only
  repeat' with_reducible first | assumption | (with_unfolding_all exact among hP rfl) | exact fun _ hx => hx | apply checkKey_kept | intro _ | apply ite_kept | split | (simp_all; done)
@[simp] theorem holdBytes_kept (port sub prio : Nat) (f : Nat → Nat) (s : State) {P : List Part} {s0 : State} (hP : [.counters, .ports, .out] ⊆ P) (hk : Kept P s0 s) : Kept P s0 (State.holdBytes port sub prio f s) := by
  unfold State.holdBytes; try dsimp only
  repeat' with_reducible first | assumption | (with_unfolding_all exact among hP rfl) | exact fun _ hx => hx | (with_reducible apply onPort_kept; case hf => (intro q h; first | exact Port.wf_onSub _ _ h | exact Port.wf_onLane _ _ h | (with_unfolding_all exact h) | (split <;> with_unfolding_all exact h) | exact Port.wf_onSubRun _ _ _ h | exact Port.wf_comeUp _ _ _ h | exact Port.wf_fold (fun q i h => Port.wf_onSub _ _ h) _ h)) | apply checkPause_kept | intro _ | apply ite_kept | split | (simp_all; done)
theorem execPauseResend_kept (port sub key : Nat) (s : State) {P : List Part} {s0 : State} (hP : [.counters, .ports, .out] ⊆ P) (hk : Kept P s0 s) : ∃ t, execPauseResend port sub key s = .next t ∧ Kept P s0 t := by
  unfold execPauseResend; try dsimp only
  repeat' with_reducible first | refine ⟨_, rfl, ?_⟩ | assumption | (with_unfolding_all exact among hP rfl) | exact fun _ hx => hx | exact grant_kept _ _ _ _ (among hP rfl) hk ‹_› | (with_reducible apply onPort_kept; case hf => (intro q h; first | exact Port.wf_onSub _ _ h | exact Port.wf_onLane _ _ h | (with_unfolding_all exact h) | (split <;> with_unfolding_all exact h) | exact Port.wf_onSubRun _ _ _ h | exact Port.wf_comeUp _ _ _ h | exact Port.wf_fold (fun q i h => Port.wf_onSub _ _ h) _ h)) | apply sendPause_kept | intro _ | apply ite_kept | split | (simp_all; done)
theorem execRefHoldoverEnd_kept (s : State) {P : List Part} {s0 : State} (hP : [.headers, .ports, .ref, .score] ⊆ P) (hk : Kept P s0 s) : ∃ t, execRefHoldoverEnd s = .next t ∧ Kept P s0 t := by
  unfold execRefHoldoverEnd; try dsimp only
  repeat' with_reducible first | refine ⟨_, rfl, ?_⟩ | assumption | (with_unfolding_all exact among hP rfl) | exact fun _ hx => hx | exact grant_kept _ _ _ _ (among hP rfl) hk ‹_› | (with_reducible apply onPort_kept; case hf => (intro q h; first | exact Port.wf_onSub _ _ h | exact Port.wf_onLane _ _ h | (with_unfolding_all exact h) | (split <;> with_unfolding_all exact h) | exact Port.wf_onSubRun _ _ _ h | exact Port.wf_comeUp _ _ _ h | exact Port.wf_fold (fun q i h => Port.wf_onSub _ _ h) _ h)) | apply advertise_kept | apply onRef_kept | apply portDown_kept | apply each_kept | intro _ | apply ite_kept | split | (simp_all; done)
@[simp] theorem useVault_kept (core n : Nat) (s : State) {P : List Part} {s0 : State} (hP : [.compute] ⊆ P) (hk : Kept P s0 s) : Kept P s0 (State.useVault core n s) := by
  unfold State.useVault; try dsimp only
  repeat' with_reducible first | assumption | (with_unfolding_all exact among hP rfl) | exact fun _ hx => hx | (with_reducible apply onCompute_kept; case hf => intro x; with_unfolding_all rfl) | (with_reducible apply onCompute_kept; case hf => intro x; split <;> with_unfolding_all rfl) | (with_reducible apply onComputeWf_kept; case hf => intro x c; with_unfolding_all exact Table.wf_set _ _ c) | (with_reducible apply onComputeWf_kept; case hf => intro x c; with_unfolding_all exact Table.wf_erase _ c) | (with_reducible apply onComputeWf_kept; case hf => intro x c; with_unfolding_all exact Table.wf_mapFilter _ (fun _ => rfl) c) | intro _ | apply ite_kept | split | (simp_all; done)
@[simp] theorem slowRequests_kept (vault n : Nat) (s : State) {P : List Part} {s0 : State} (hP : [.compute] ⊆ P) (hk : Kept P s0 s) : Kept P s0 (State.slowRequests vault n s) := by
  unfold State.slowRequests; try dsimp only
  repeat' with_reducible first | assumption | (with_unfolding_all exact among hP rfl) | exact fun _ hx => hx | (with_reducible apply onCompute_kept; case hf => intro x; with_unfolding_all rfl) | (with_reducible apply onCompute_kept; case hf => intro x; split <;> with_unfolding_all rfl) | (with_reducible apply onComputeWf_kept; case hf => intro x c; with_unfolding_all exact Table.wf_set _ _ c) | (with_reducible apply onComputeWf_kept; case hf => intro x c; with_unfolding_all exact Table.wf_erase _ c) | (with_reducible apply onComputeWf_kept; case hf => intro x c; with_unfolding_all exact Table.wf_mapFilter _ (fun _ => rfl) c) | intro _ | apply ite_kept | split | (simp_all; done)
@[simp] theorem settleVaults_kept (s : State) {P : List Part} {s0 : State} (hP : [.compute] ⊆ P) (hk : Kept P s0 s) : Kept P s0 (State.settleVaults s) := by
  unfold State.settleVaults; try dsimp only
  repeat' with_reducible first | assumption | (with_unfolding_all exact among hP rfl) | exact fun _ hx => hx | (with_reducible apply onCompute_kept; case hf => intro x; with_unfolding_all rfl) | (with_reducible apply onCompute_kept; case hf => intro x; split <;> with_unfolding_all rfl) | (with_reducible apply onComputeWf_kept; case hf => intro x c; with_unfolding_all exact Table.wf_set _ _ c) | (with_reducible apply onComputeWf_kept; case hf => intro x c; with_unfolding_all exact Table.wf_erase _ c) | (with_reducible apply onComputeWf_kept; case hf => intro x c; with_unfolding_all exact Table.wf_mapFilter _ (fun _ => rfl) c) | intro _ | apply ite_kept | split | (simp_all; done)
@[simp] theorem onRing_kept (n : Nat) (f : Ring → Ring) (s : State) {P : List Part} {s0 : State} (hP : [.objects] ⊆ P) (hk : Kept P s0 s) : Kept P s0 (State.onRing n f s) := by
  unfold State.onRing; try dsimp only
  repeat' with_reducible first | assumption | (with_unfolding_all exact among hP rfl) | exact fun _ hx => hx | apply onObjects_kept | intro _ | apply ite_kept | split | (simp_all; done)
@[simp] theorem ringMark_kept (n : Nat) (before : Bool) (s : State) {P : List Part} {s0 : State} (hP : [.headers, .score] ⊆ P) (hk : Kept P s0 s) : Kept P s0 (State.ringMark n before s) := by
  unfold State.ringMark; try dsimp only
  repeat' with_reducible first | assumption | (with_unfolding_all exact among hP rfl) | exact fun _ hx => hx | apply setEvent_kept | intro _ | apply ite_kept | split | (simp_all; done)
@[simp] theorem touchRing_kept (n prec : Nat) (s : State) {P : List Part} {s0 : State} (hP : [.score] ⊆ P) (hk : Kept P s0 s) : Kept P s0 (State.touchRing n prec s) := by
  unfold State.touchRing; try dsimp only
  repeat' with_reducible first | assumption | (with_unfolding_all exact among hP rfl) | exact fun _ hx => hx | apply touch_kept | intro _ | apply ite_kept | split | (simp_all; done)
@[simp] theorem ringPut_kept (n : Nat) (i : Item) (s : State) {P : List Part} {s0 : State} (hP : [.headers, .counters, .objects, .compute, .score] ⊆ P) (hk : Kept P s0 s) : Kept P s0 (State.ringPut n i s).1 := by
  unfold State.ringPut; try dsimp only
  repeat' with_reducible first | assumption | (with_unfolding_all exact among hP rfl) | exact fun _ hx => hx | apply finish_kept | apply free_kept | apply onRing_kept | apply ringMark_kept | apply setEvent_kept | apply touchRing_kept | intro _ | apply ite_kept | split | (simp_all; done)
@[simp] theorem allocRing_kept (die : Nat) (use : RingUse) (v : Nat) (host : Bool) (s : State) {P : List Part} {s0 : State} (hP : [.registers, .objects] ⊆ P) (hk : Kept P s0 s) : Kept P s0 (State.allocRing die use v host s).1 := by
  unfold State.allocRing; try dsimp only
  repeat' with_reducible first | assumption | (with_unfolding_all exact among hP rfl) | exact fun _ hx => hx | apply onObjects_kept | apply setReg_kept | intro _ | apply ite_kept | split | (simp_all; done)
@[simp] theorem freeRing_kept (n : Nat) (s : State) {P : List Part} {s0 : State} (hP : [.registers, .objects] ⊆ P) (hk : Kept P s0 s) : Kept P s0 (State.freeRing n s) := by
  unfold State.freeRing; try dsimp only
  repeat' with_reducible first | assumption | (with_unfolding_all exact among hP rfl) | exact fun _ hx => hx | apply onObjects_kept | apply setReg_kept | intro _ | apply ite_kept | split | (simp_all; done)
@[simp] theorem ringConsume_kept (n : Nat) (s : State) {P : List Part} {s0 : State} (hP : [.objects] ⊆ P) (hk : Kept P s0 s) : Kept P s0 (State.ringConsume n s).1 := by
  unfold State.ringConsume; try dsimp only
  repeat' with_reducible first | assumption | (with_unfolding_all exact among hP rfl) | exact fun _ hx => hx | apply onRing_kept | intro _ | apply ite_kept | split | (simp_all; done)
theorem ringCommand_kept {sess op len : Nat} {resv : List (Nat × Nat)} {side : Option Bool} {cursor : Bool} {run : Session → Cmd → Nat → State → State} {P : List Part} {s u : State} (hP : [.counters, .selid, .ports, .traffic, .net, .objects, .score, .out] ⊆ P) (hr : ∀ x c n t, Kept P s t → Kept P s (run x c n t)) (h : Kept P s u) : Kept P s (State.ringCommand sess op len resv side cursor run u) := by
  unfold State.ringCommand; refine command_kept (among hP rfl) ?_ h; intro x c t ht; try dsimp only
  repeat' with_reducible first | assumption | (with_unfolding_all exact among hP rfl) | exact fun _ hx => hx | apply hr | apply complete_kept | apply onRing_kept | apply touchRing_kept | apply command_kept | intro _ | apply ite_kept | split | (simp_all; done)
@[simp] theorem rewindRing_kept (n : Nat) (s : State) {P : List Part} {s0 : State} (hP : [.counters, .selid, .ports, .traffic, .net, .objects, .score, .out] ⊆ P) (hk : Kept P s0 s) : Kept P s0 (State.rewindRing n s) := by
  unfold State.rewindRing; try dsimp only
  repeat' with_reducible first | assumption | (with_unfolding_all exact among hP rfl) | exact fun _ hx => hx | apply complete_kept | apply onRing_kept | intro _ | apply ite_kept | split | (simp_all; done)
@[simp] theorem settleRewinds_kept (s : State) {P : List Part} {s0 : State} (hP : [.counters, .selid, .ports, .traffic, .net, .objects, .score, .out] ⊆ P) (hk : Kept P s0 s) : Kept P s0 (State.settleRewinds s) := by
  unfold State.settleRewinds; try dsimp only
  repeat' with_reducible first | assumption | (with_unfolding_all exact among hP rfl) | exact fun _ hx => hx | apply rewindRing_kept | apply each_kept | intro _ | apply ite_kept | split | (simp_all; done)
theorem execFlagFall_kept (n : Nat) (s : State) {P : List Part} {s0 : State} (hP : [.headers, .objects, .score] ⊆ P) (hk : Kept P s0 s) : ∃ t, execFlagFall n s = .next t ∧ Kept P s0 t := by
  unfold execFlagFall; try dsimp only
  repeat' with_reducible first | refine ⟨_, rfl, ?_⟩ | assumption | (with_unfolding_all exact among hP rfl) | exact fun _ hx => hx | exact grant_kept _ _ _ _ (among hP rfl) hk ‹_› | apply onRing_kept | apply setEvent_kept | intro _ | apply ite_kept | split | (simp_all; done)
theorem execPendingGap_kept (n : Nat) (s : State) {P : List Part} {s0 : State} (hP : [.headers, .objects, .score] ⊆ P) (hk : Kept P s0 s) : ∃ t, execPendingGap n s = .next t ∧ Kept P s0 t := by
  unfold execPendingGap; try dsimp only
  repeat' with_reducible first | refine ⟨_, rfl, ?_⟩ | assumption | (with_unfolding_all exact among hP rfl) | exact fun _ hx => hx | exact grant_kept _ _ _ _ (among hP rfl) hk ‹_› | apply onRing_kept | apply ringMark_kept | intro _ | apply ite_kept | split | (simp_all; done)
@[simp] theorem ringPageWrite_kept (g off : Nat) (v : Word) (s : State) {P : List Part} {s0 : State} (hP : [.registers] ⊆ P) (hk : Kept P s0 s) : Kept P s0 (State.ringPageWrite g off v s) := by
  unfold State.ringPageWrite; try dsimp only
  repeat' with_reducible first | assumption | (with_unfolding_all exact among hP rfl) | exact fun _ hx => hx | apply free_kept | apply setReg_kept | intro _ | apply ite_kept | split | (simp_all; done)
@[simp] theorem coreEvent_kept (type c bitNo : Nat) (s : State) {P : List Part} {s0 : State} (hP : [.headers, .score] ⊆ P) (hk : Kept P s0 s) : Kept P s0 (State.coreEvent type c bitNo s) := by
  unfold State.coreEvent; try dsimp only
  repeat' with_reducible first | assumption | (with_unfolding_all exact among hP rfl) | exact fun _ hx => hx | apply setEvent_kept | intro _ | apply ite_kept | split | (simp_all; done)
@[simp] theorem coreBump_kept (type c off n : Nat) (s : State) {P : List Part} {s0 : State} (hP : [.counters] ⊆ P) (hk : Kept P s0 s) : Kept P s0 (State.coreBump type c off n s) := by
  unfold State.coreBump; try dsimp only
  repeat' with_reducible first | assumption | (with_unfolding_all exact among hP rfl) | exact fun _ hx => hx | apply bump_kept | intro _ | apply ite_kept | split | (simp_all; done)
@[simp] theorem siteLineErr_kept (x line err : Nat) (s : State) {P : List Part} {s0 : State} (hP : [.headers, .counters, .power, .reliab, .score] ⊆ P) (hk : Kept P s0 s) : Kept P s0 (State.siteLineErr x line err s) := by
  unfold State.siteLineErr; try dsimp only
  repeat' with_reducible first | assumption | (with_unfolding_all exact among hP rfl) | exact fun _ hx => hx | apply bump_kept | apply onPower_kept | apply onReliab_kept | apply setEvent_kept | apply setFaulted_kept | intro _ | apply ite_kept | split | (simp_all; done)
@[simp] theorem lineErr_kept (core line err : Nat) (s : State) {P : List Part} {s0 : State} (hP : [.headers, .counters, .power, .reliab, .score] ⊆ P) (hk : Kept P s0 s) : Kept P s0 (State.lineErr core line err s) := by
  unfold State.lineErr; try dsimp only
  repeat' with_reducible first | assumption | (with_unfolding_all exact among hP rfl) | exact fun _ hx => hx | apply siteLineErr_kept | intro _ | apply ite_kept | split | (simp_all; done)
@[simp] theorem onChan_kept (n : Nat) (f : Channel → Channel) (s : State) {P : List Part} {s0 : State} (hP : [.objects] ⊆ P) (hk : Kept P s0 s) : Kept P s0 (State.onChan n f s) := by
  unfold State.onChan; try dsimp only
  repeat' with_reducible first | assumption | (with_unfolding_all exact among hP rfl) | exact fun _ hx => hx | apply onObjects_kept | intro _ | apply ite_kept | split | (simp_all; done)
@[simp] theorem chanCount_kept (n e k : Nat) (s : State) {P : List Part} {s0 : State} (hP : [.counters] ⊆ P) (hk : Kept P s0 s) : Kept P s0 (State.chanCount n e k s) := by
  unfold State.chanCount; try dsimp only
  repeat' with_reducible first | assumption | (with_unfolding_all exact among hP rfl) | exact fun _ hx => hx | apply bump_kept | intro _ | apply ite_kept | split | (simp_all; done)
@[simp] theorem chanRing_kept (die : Nat) (use : RingUse) (v : Nat) (host : Bool) (s : State) {P : List Part} {s0 : State} (hP : [.registers, .objects] ⊆ P) (hk : Kept P s0 s) : Kept P s0 (State.chanRing die use v host s).1 := by
  unfold State.chanRing; try dsimp only
  repeat' with_reducible first | assumption | (with_unfolding_all exact among hP rfl) | exact fun _ hx => hx | apply allocRing_kept | intro _ | apply ite_kept | split | (simp_all; done)
@[simp] theorem zeroChan_kept (n : Nat) (s : State) {P : List Part} {s0 : State} (hP : [.counters] ⊆ P) (hk : Kept P s0 s) : Kept P s0 (State.zeroChan n s) := by
  unfold State.zeroChan; try dsimp only
  repeat' with_reducible first | assumption | (with_unfolding_all exact among hP rfl) | exact fun _ hx => hx | apply setCtr_kept | apply each_kept | intro _ | apply ite_kept | split | (simp_all; done)
@[simp] theorem setupChan_kept (n : Nat) (b : Bytes) (s : State) {P : List Part} {s0 : State} (hP : [.registers, .counters, .objects, .compute] ⊆ P) (hk : Kept P s0 s) : Kept P s0 (State.setupChan n b s) := by
  unfold State.setupChan; try dsimp only
  repeat' with_reducible first | assumption | (with_unfolding_all exact among hP rfl) | exact fun _ hx => hx | (with_reducible apply onCompute_kept; case hf => intro x; with_unfolding_all rfl) | (with_reducible apply onCompute_kept; case hf => intro x; split <;> with_unfolding_all rfl) | (with_reducible apply onComputeWf_kept; case hf => intro x c; with_unfolding_all exact Table.wf_set _ _ c) | (with_reducible apply onComputeWf_kept; case hf => intro x c; with_unfolding_all exact Table.wf_erase _ c) | (with_reducible apply onComputeWf_kept; case hf => intro x c; with_unfolding_all exact Table.wf_mapFilter _ (fun _ => rfl) c) | apply chanRing_kept | apply onChan_kept | apply zeroChan_kept | intro _ | apply ite_kept | split | (simp_all; done)
@[simp] theorem endQuench_kept (q : Nat) (s : State) {P : List Part} {s0 : State} (hP : [.selid] ⊆ P) (hk : Kept P s0 s) : Kept P s0 (State.endQuench q s) := by
  unfold State.endQuench; try dsimp only
  repeat' with_reducible first | assumption | (with_unfolding_all exact among hP rfl) | exact fun _ hx => hx | apply onSelid_kept | intro _ | apply ite_kept | split | (simp_all; done)
@[simp] theorem destroyChan_kept (n : Nat) (s : State) {P : List Part} {s0 : State} (hP : [.counters, .selid, .objects] ⊆ P) (hk : Kept P s0 s) : Kept P s0 (State.destroyChan n s) := by
  unfold State.destroyChan; try dsimp only
  repeat' with_reducible first | assumption | (with_unfolding_all exact among hP rfl) | exact fun _ hx => hx | apply discardStage_kept | apply endQuench_kept | apply free_kept | apply onChan_kept | apply each_kept | intro _ | apply ite_kept | split | (simp_all; done)
@[simp] theorem retireGen_kept (deep : Bool) (target gen : Nat) (s : State) {P : List Part} {s0 : State} (hP : [.headers, .counters, .objects, .compute, .score] ⊆ P) (hk : Kept P s0 s) : Kept P s0 (State.retireGen deep target gen s) := by
  unfold State.retireGen; try dsimp only
  repeat' with_reducible first | assumption | (with_unfolding_all exact among hP rfl) | exact fun _ hx => hx | (with_reducible apply onCompute_kept; case hf => intro x; with_unfolding_all rfl) | (with_reducible apply onCompute_kept; case hf => intro x; split <;> with_unfolding_all rfl) | (with_reducible apply onComputeWf_kept; case hf => intro x c; with_unfolding_all exact Table.wf_set _ _ c) | (with_reducible apply onComputeWf_kept; case hf => intro x c; with_unfolding_all exact Table.wf_erase _ c) | (with_reducible apply onComputeWf_kept; case hf => intro x c; with_unfolding_all exact Table.wf_mapFilter _ (fun _ => rfl) c) | apply bump_kept | apply onObjects_kept | apply setEvent_kept | intro _ | apply ite_kept | split | (simp_all; done)
@[simp] theorem drainEnds_kept (n : Nat) (s : State) {P : List Part} {s0 : State} (hP : [.headers, .registers, .counters, .objects, .compute, .score] ⊆ P) (hk : Kept P s0 s) : Kept P s0 (State.drainEnds n s) := by
  unfold State.drainEnds; try dsimp only
  repeat' with_reducible first | assumption | (with_unfolding_all exact among hP rfl) | exact fun _ hx => hx | apply freeRing_kept | apply onObjects_kept | apply retireGen_kept | apply setEvent_kept | apply zeroChan_kept | apply each_kept | intro _ | apply ite_kept | split | (simp_all; done)
@[simp] theorem settleDrains_kept (s : State) {P : List Part} {s0 : State} (hP : [.headers, .registers, .counters, .objects, .compute, .score] ⊆ P) (hk : Kept P s0 s) : Kept P s0 (State.settleDrains s) := by
  unfold State.settleDrains; try dsimp only
  repeat' with_reducible first | assumption | (with_unfolding_all exact among hP rfl) | exact fun _ hx => hx | apply drainEnds_kept | apply each_kept | intro _ | apply ite_kept | split | (simp_all; done)
@[simp] theorem parserWrite_kept (die off : Nat) (v : Word) (s : State) {P : List Part} {s0 : State} (hP : [.registers] ⊆ P) (hk : Kept P s0 s) : Kept P s0 (State.parserWrite die off v s) := by
  unfold State.parserWrite; try dsimp only
  repeat' with_reducible first | assumption | (with_unfolding_all exact among hP rfl) | exact fun _ hx => hx | apply setReg_kept | intro _ | apply ite_kept | split | (simp_all; done)
@[simp] theorem onPacket_kept (k : Nat) (f : Packet → Packet) (s : State) {P : List Part} {s0 : State} (hP : [.traffic] ⊆ P) (hk : Kept P s0 s) : Kept P s0 (State.onPacket k f s) := by
  unfold State.onPacket; try dsimp only
  repeat' with_reducible first | assumption | (with_unfolding_all exact among hP rfl) | exact fun _ hx => hx | apply onTraffic_kept | intro _ | apply ite_kept | split | (simp_all; done)
@[simp] theorem settle_kept (k : Nat) (s : State) {P : List Part} {s0 : State} (hP : [.traffic] ⊆ P) (hk : Kept P s0 s) : Kept P s0 (State.settle k s) := by
  unfold State.settle; try dsimp only
  repeat' with_reducible first | assumption | (with_unfolding_all exact among hP rfl) | exact fun _ hx => hx | apply onTraffic_kept | intro _ | apply ite_kept | split | (simp_all; done)
@[simp] theorem packetCount_kept (p : Packet) (e : Nat) (s : State) {P : List Part} {s0 : State} (hP : [.counters] ⊆ P) (hk : Kept P s0 s) : Kept P s0 (State.packetCount p e s) := by
  unfold State.packetCount; try dsimp only
  repeat' with_reducible first | assumption | (with_unfolding_all exact among hP rfl) | exact fun _ hx => hx | apply chanCount_kept | intro _ | apply ite_kept | split | (simp_all; done)
@[simp] theorem packetEvent_kept (p : Packet) (b : Nat) (s : State) {P : List Part} {s0 : State} (hP : [.headers, .score] ⊆ P) (hk : Kept P s0 s) : Kept P s0 (State.packetEvent p b s) := by
  unfold State.packetEvent; try dsimp only
  repeat' with_reducible first | assumption | (with_unfolding_all exact among hP rfl) | exact fun _ hx => hx | apply setEvent_kept | intro _ | apply ite_kept | split | (simp_all; done)
@[simp] theorem formResult_kept (p : Packet) (v : Verdict) (s : State) {P : List Part} {s0 : State} (hP : [.headers, .counters, .objects, .compute, .score] ⊆ P) (hk : Kept P s0 s) : Kept P s0 (State.formResult p v s) := by
  unfold State.formResult; try dsimp only
  repeat' with_reducible first | assumption | (with_unfolding_all exact among hP rfl) | exact fun _ hx => hx | apply chanCount_kept | apply onRing_kept | apply ringPut_kept | apply setEvent_kept | intro _ | apply ite_kept | split | (simp_all; done)
@[simp] theorem readyRecord_kept (p : Packet) (v : Verdict) (noChannel : Bool) (s : State) {P : List Part} {s0 : State} (hP : [.traffic] ⊆ P) (hk : Kept P s0 s) : Kept P s0 (State.readyRecord p v noChannel s) := by
  unfold State.readyRecord; try dsimp only
  repeat' with_reducible first | assumption | (with_unfolding_all exact among hP rfl) | exact fun _ hx => hx | apply onTraffic_kept | intro _ | apply ite_kept | split | (simp_all; done)
@[simp] theorem recordVerdict_kept (p : Packet) (v : Verdict) (s : State) {P : List Part} {s0 : State} (hP : [.score] ⊆ P) (hk : Kept P s0 s) : Kept P s0 (State.recordVerdict p v s) := by
  unfold State.recordVerdict; try dsimp only
  repeat' with_reducible first | assumption | (with_unfolding_all exact among hP rfl) | exact fun _ hx => hx | apply scoreItem_kept | intro _ | apply ite_kept | split | (simp_all; done)
@[simp] theorem scoreCount_kept (e : Nat) (s : State) {P : List Part} {s0 : State} (hP : [.counters] ⊆ P) (hk : Kept P s0 s) : Kept P s0 (State.scoreCount e s) := by
  unfold State.scoreCount; try dsimp only
  repeat' with_reducible first | assumption | (with_unfolding_all exact among hP rfl) | exact fun _ hx => hx | apply bump_kept | intro _ | apply ite_kept | split | (simp_all; done)
@[simp] theorem compareReplay_kept (k : Nat) (p : Packet) (v : Verdict) (s : State) {P : List Part} {s0 : State} (hP : [.headers, .counters, .objects, .compute, .score] ⊆ P) (hk : Kept P s0 s) : Kept P s0 (State.compareReplay k p v s) := by
  unfold State.compareReplay; try dsimp only
  repeat' with_reducible first | assumption | (with_unfolding_all exact among hP rfl) | exact fun _ hx => hx | apply onScore_kept | apply ringPut_kept | apply scoreCount_kept | apply setEvent_kept | intro _ | apply ite_kept | split | (simp_all; done)
@[simp] theorem apply_kept (k : Nat) (v : Verdict) (s : State) {P : List Part} {s0 : State} (hP : [.headers, .counters, .traffic, .objects, .compute, .score] ⊆ P) (hk : Kept P s0 s) : Kept P s0 (State.apply k v s) := by
  unfold State.apply; try dsimp only
  repeat' with_reducible first | assumption | (with_unfolding_all exact among hP rfl) | exact fun _ hx => hx | apply compareReplay_kept | apply formResult_kept | apply onPacket_kept | apply readyRecord_kept | apply recordVerdict_kept | intro _ | apply ite_kept | split | (simp_all; done)
@[simp] theorem rxAs_kept (port sub : Nat) (kind : RxKind) (f : Bytes) (s : State) {P : List Part} {s0 : State} (hP : [.ports, .traffic] ⊆ P) (hk : Kept P s0 s) : Kept P s0 (State.rxAs port sub kind f s) := by
  unfold State.rxAs; try dsimp only
  repeat' with_reducible first | assumption | (with_unfolding_all exact among hP rfl) | exact fun _ hx => hx | apply heard_kept | apply onTraffic_kept | intro _ | apply ite_kept | split | (simp_all; done)
theorem dropAt_kept {port sub : Nat} {f : Bytes} {good : Bool} {count : State → State} {P : List Part} {s u : State} (hP : [.ports, .traffic] ⊆ P) (hr : ∀ t, Kept P s t → Kept P s (count t)) (h : Kept P s u) : Kept P s (State.dropAt port sub f good count u) := by
  unfold State.dropAt; repeat' with_reducible first | assumption | (with_unfolding_all exact among hP rfl) | exact fun _ hx => hx | apply hr | apply rxAs_kept | intro _ | apply ite_kept | split | (simp_all; done)
@[simp] theorem countExc_kept (die exc : Nat) (s : State) {P : List Part} {s0 : State} (hP : [.counters] ⊆ P) (hk : Kept P s0 s) : Kept P s0 (State.countExc die exc s) := by
  unfold State.countExc; try dsimp only
  repeat' with_reducible first | assumption | (with_unfolding_all exact among hP rfl) | exact fun _ hx => hx | apply bump_kept | apply each_kept | intro _ | apply ite_kept | split | (simp_all; done)
@[simp] theorem recordIngress_kept (a : Arrival) (first handle : Nat) (s : State) {P : List Part} {s0 : State} (hP : [.score] ⊆ P) (hk : Kept P s0 s) : Kept P s0 (State.recordIngress a first handle s) := by
  unfold State.recordIngress; try dsimp only
  repeat' with_reducible first | assumption | (with_unfolding_all exact among hP rfl) | exact fun _ hx => hx | apply capture_kept | apply scoreItem_kept | intro _ | apply ite_kept | split | (simp_all; done)
@[simp] theorem ingress_kept (a : Arrival) (s : State) {P : List Part} {s0 : State} (hP : [.headers, .counters, .ports, .traffic, .net, .objects, .compute, .score, .out] ⊆ P) (hk : Kept P s0 s) : Kept P s0 (State.ingress a s) := by
  unfold State.ingress; try dsimp only
  repeat' with_reducible first | assumption | (with_unfolding_all exact among hP rfl) | exact fun _ hx => hx | apply apply_kept | apply bump_kept | apply chanCount_kept | apply countExc_kept | apply holdBytes_kept | apply launch_kept | apply onTraffic_kept | apply portCount_kept | apply recordIngress_kept | apply rxAs_kept | apply setEvent_kept | apply dropAt_kept | intro _ | apply ite_kept | split | (simp_all; done)
@[simp] theorem freeBuffer_kept (k : Nat) (s : State) {P : List Part} {s0 : State} (hP : [.counters, .ports, .traffic, .out] ⊆ P) (hk : Kept P s0 s) : Kept P s0 (State.freeBuffer k s) := by
  unfold State.freeBuffer; try dsimp only
  repeat' with_reducible first | assumption | (with_unfolding_all exact among hP rfl) | exact fun _ hx => hx | apply holdBytes_kept | apply onPacket_kept | intro _ | apply ite_kept | split | (simp_all; done)
@[simp] theorem lateVerdict_kept (k : Nat) (p : Packet) (s : State) {P : List Part} {s0 : State} (hP : [.headers, .counters, .traffic, .score] ⊆ P) (hk : Kept P s0 s) : Kept P s0 (State.lateVerdict k p s) := by
  unfold State.lateVerdict; try dsimp only
  repeat' with_reducible first | assumption | (with_unfolding_all exact among hP rfl) | exact fun _ hx => hx | apply packetCount_kept | apply packetEvent_kept | apply settle_kept | intro _ | apply ite_kept | split | (simp_all; done)
@[simp] theorem takeVerdict_kept (k : Nat) (p : Packet) (v : Verdict) (s : State) {P : List Part} {s0 : State} (hP : [.headers, .counters, .traffic, .net, .objects, .compute, .score] ⊆ P) (hk : Kept P s0 s) : Kept P s0 (State.takeVerdict k p v s) := by
  unfold State.takeVerdict; try dsimp only
  repeat' with_reducible first | assumption | (with_unfolding_all exact among hP rfl) | exact fun _ hx => hx | apply apply_kept | apply landed_kept | apply lateVerdict_kept | apply onPacket_kept | apply packetCount_kept | apply settle_kept | intro _ | apply ite_kept | split | (simp_all; done)
theorem execVerdictArrival_kept (k : Nat) (s : State) {P : List Part} {s0 : State} (hP : [.headers, .counters, .traffic, .net, .objects, .compute, .score] ⊆ P) (hk : Kept P s0 s) : ∃ t, execVerdictArrival k s = .next t ∧ Kept P s0 t := by
  unfold execVerdictArrival; try dsimp only
  repeat' with_reducible first | refine ⟨_, rfl, ?_⟩ | assumption | (with_unfolding_all exact among hP rfl) | exact fun _ hx => hx | exact grant_kept _ _ _ _ (among hP rfl) hk ‹_› | apply takeVerdict_kept | intro _ | apply ite_kept | split | (simp_all; done)
theorem execDeadline_kept (k : Nat) (s : State) {P : List Part} {s0 : State} (hP : [.headers, .counters, .traffic, .net, .objects, .compute, .score] ⊆ P) (hk : Kept P s0 s) : ∃ t, execDeadline k s = .next t ∧ Kept P s0 t := by
  unfold execDeadline; try dsimp only
  repeat' with_reducible first | refine ⟨_, rfl, ?_⟩ | assumption | (with_unfolding_all exact among hP rfl) | exact fun _ hx => hx | exact grant_kept _ _ _ _ (among hP rfl) hk ‹_› | apply apply_kept | apply onPacket_kept | apply packetCount_kept | apply packetEvent_kept | apply settle_kept | apply takeVerdict_kept | intro _ | apply ite_kept | split | (simp_all; done)
theorem execEgressEligible_kept (k : Nat) (s : State) {P : List Part} {s0 : State} (hP : [.counters, .ports, .traffic, .out] ⊆ P) (hk : Kept P s0 s) : ∃ t, execEgressEligible k s = .next t ∧ Kept P s0 t := by
  unfold execEgressEligible; try dsimp only
  repeat' with_reducible first | refine ⟨_, rfl, ?_⟩ | assumption | (with_unfolding_all exact among hP rfl) | exact fun _ hx => hx | exact grant_kept _ _ _ _ (among hP rfl) hk ‹_› | apply freeBuffer_kept | apply leave_kept | apply onPacket_kept | apply onTraffic_kept | apply packetCount_kept | apply portCount_kept | apply settle_kept | intro _ | apply ite_kept | split | (simp_all; done)
theorem execVerdictFrame_kept (port sub : Nat) (s : State) {P : List Part} {s0 : State} (hP : [.counters, .ports, .traffic, .out] ⊆ P) (hk : Kept P s0 s) : ∃ t, execVerdictFrame port sub s = .next t ∧ Kept P s0 t := by
  unfold execVerdictFrame; try dsimp only
  repeat' with_reducible first | refine ⟨_, rfl, ?_⟩ | assumption | (with_unfolding_all exact among hP rfl) | exact fun _ hx => hx | exact grant_kept _ _ _ _ (among hP rfl) hk ‹_› | (with_reducible apply onPort_kept; case hf => (intro q h; first | exact Port.wf_onSub _ _ h | exact Port.wf_onLane _ _ h | (with_unfolding_all exact h) | (split <;> with_unfolding_all exact h) | exact Port.wf_onSubRun _ _ _ h | exact Port.wf_comeUp _ _ _ h | exact Port.wf_fold (fun q i h => Port.wf_onSub _ _ h) _ h)) | apply onTraffic_kept | apply sendWaiting_kept | intro _ | apply ite_kept | split | (simp_all; done)
@[simp] theorem authDropped_kept (s : State) {P : List Part} {s0 : State} (hP : [.counters] ⊆ P) (hk : Kept P s0 s) : Kept P s0 (State.authDropped s) := by
  unfold State.authDropped; try dsimp only
  repeat' with_reducible first | assumption | (with_unfolding_all exact among hP rfl) | exact fun _ hx => hx | apply bump_kept | intro _ | apply ite_kept | split | (simp_all; done)
@[simp] theorem formatDropped_kept (s : State) {P : List Part} {s0 : State} (hP : [.counters] ⊆ P) (hk : Kept P s0 s) : Kept P s0 (State.formatDropped s) := by
  unfold State.formatDropped; try dsimp only
  repeat' with_reducible first | assumption | (with_unfolding_all exact among hP rfl) | exact fun _ hx => hx | apply bump_kept | intro _ | apply ite_kept | split | (simp_all; done)
@[simp] theorem takeSelid_kept (port sub : Nat) (f : Bytes) (s : State) {P : List Part} {s0 : State} (hP : [.counters, .selid, .ports, .net] ⊆ P) (hk : Kept P s0 s) : Kept P s0 (State.takeSelid port sub f s).1 := by
  unfold State.takeSelid; try dsimp only
  repeat' with_reducible first | assumption | (with_unfolding_all exact among hP rfl) | exact fun _ hx => hx | apply formatDropped_kept | apply takeFrame_kept | intro _ | apply ite_kept | split | (simp_all; done)
theorem execSetupFragmentTimeout_kept (s : State) {P : List Part} {s0 : State} (hP : [.selid] ⊆ P) (hk : Kept P s0 s) : ∃ t, execSetupFragmentTimeout s = .next t ∧ Kept P s0 t := by
  unfold execSetupFragmentTimeout; try dsimp only
  repeat' with_reducible first | refine ⟨_, rfl, ?_⟩ | assumption | (with_unfolding_all exact among hP rfl) | exact fun _ hx => hx | exact grant_kept _ _ _ _ (among hP rfl) hk ‹_› | apply onSelid_kept | intro _ | apply ite_kept | split | (simp_all; done)
@[simp] theorem setupPayload_kept (r : Route) (h : SelidHead) (s : State) {P : List Part} {s0 : State} (hP : [.selid] ⊆ P) (hk : Kept P s0 s) : Kept P s0 (State.setupPayload r h s).1 := by
  unfold State.setupPayload; try dsimp only
  repeat' with_reducible first | assumption | (with_unfolding_all exact among hP rfl) | exact fun _ hx => hx | apply complete_kept | apply onSelid_kept | intro _ | apply ite_kept | split | (simp_all; done)
theorem execHalfOpenExpire_kept (n : Nat) (s : State) {P : List Part} {s0 : State} (hP : [.selid] ⊆ P) (hk : Kept P s0 s) : ∃ t, execHalfOpenExpire n s = .next t ∧ Kept P s0 t := by
  unfold execHalfOpenExpire; try dsimp only
  repeat' with_reducible first | refine ⟨_, rfl, ?_⟩ | assumption | (with_unfolding_all exact among hP rfl) | exact fun _ hx => hx | exact grant_kept _ _ _ _ (among hP rfl) hk ‹_› | apply onSelid_kept | intro _ | apply ite_kept | split | (simp_all; done)
@[simp] theorem lastUsed_kept (n : Nat) (last : Bool) (s : State) {P : List Part} {s0 : State} (hP : [.selid] ⊆ P) (hk : Kept P s0 s) : Kept P s0 (State.lastUsed n last s) := by
  unfold State.lastUsed; try dsimp only
  repeat' with_reducible first | assumption | (with_unfolding_all exact among hP rfl) | exact fun _ hx => hx | apply onSession_kept | intro _ | apply ite_kept | split | (simp_all; done)
@[simp] theorem acceptCmd_kept (n : Nat) (c : Cmd) (s : State) {P : List Part} {s0 : State} (hP : [.counters, .selid, .ports, .traffic, .net, .score, .out] ⊆ P) (hk : Kept P s0 s) : Kept P s0 (State.acceptCmd n c s) := by
  unfold State.acceptCmd; try dsimp only
  repeat' with_reducible first | assumption | (with_unfolding_all exact among hP rfl) | exact fun _ hx => hx | apply lastUsed_kept | apply onSession_kept | apply recordCmd_kept | apply sendProtected_kept | intro _ | apply ite_kept | split | (simp_all; done)
theorem execSessionIdleTimeout_kept (n : Nat) (s : State) {P : List Part} {s0 : State} (hP : [.headers, .counters, .selid, .objects, .sec] ⊆ P) (hk : Kept P s0 s) : ∃ t, execSessionIdleTimeout n s = .next t ∧ Kept P s0 t := by
  unfold execSessionIdleTimeout; try dsimp only
  repeat' with_reducible first | refine ⟨_, rfl, ?_⟩ | assumption | (with_unfolding_all exact among hP rfl) | exact fun _ hx => hx | exact grant_kept _ _ _ _ (among hP rfl) hk ‹_› | apply endSession_kept | intro _ | apply ite_kept | split | (simp_all; done)
@[simp] theorem ceaseQuenches_kept (s : State) {P : List Part} {s0 : State} (hP : [.selid] ⊆ P) (hk : Kept P s0 s) : Kept P s0 (State.ceaseQuenches s) := by
  unfold State.ceaseQuenches; try dsimp only
  repeat' with_reducible first | assumption | (with_unfolding_all exact among hP rfl) | exact fun _ hx => hx | apply endQuench_kept | apply each_kept | intro _ | apply ite_kept | split | (simp_all; done)
theorem execQuenchExpire_kept (q : Nat) (s : State) {P : List Part} {s0 : State} (hP : [.selid] ⊆ P) (hk : Kept P s0 s) : ∃ t, execQuenchExpire q s = .next t ∧ Kept P s0 t := by
  unfold execQuenchExpire; try dsimp only
  repeat' with_reducible first | refine ⟨_, rfl, ?_⟩ | assumption | (with_unfolding_all exact among hP rfl) | exact fun _ hx => hx | exact grant_kept _ _ _ _ (among hP rfl) hk ‹_› | apply endQuench_kept | intro _ | apply ite_kept | split | (simp_all; done)
theorem sinkCommand_kept {sess op : Nat} {run : Nat → State → State} {P : List Part} {s u : State} (hP : [.counters, .selid, .ports, .traffic, .net, .score, .out] ⊆ P) (hr : ∀ n t, Kept P s t → Kept P s (run n t)) (h : Kept P s u) : Kept P s (State.sinkCommand sess op run u) := by
  unfold State.sinkCommand; refine command_kept (among hP rfl) ?_ h; intro x c t ht; try dsimp only
  repeat' with_reducible first | assumption | (with_unfolding_all exact among hP rfl) | exact fun _ hx => hx | apply hr | apply complete_kept | apply command_kept | apply sized_kept | intro _ | apply ite_kept | split | (simp_all; done)
@[simp] theorem sinkAnswer_kept (sess op k : Nat) (s : State) {P : List Part} {s0 : State} (hP : [.counters, .selid, .ports, .traffic, .net, .score, .out] ⊆ P) (hk : Kept P s0 s) : Kept P s0 (State.sinkAnswer sess op k s) := by
  unfold State.sinkAnswer; try dsimp only
  repeat' with_reducible first | assumption | (with_unfolding_all exact among hP rfl) | exact fun _ hx => hx | apply complete_kept | intro _ | apply ite_kept | split | (simp_all; done)
theorem execEvent_kept (set sess : Nat) (s : State) {P : List Part} {s0 : State} (hP : [.counters, .selid, .ports, .traffic, .net, .out] ⊆ P) (hk : Kept P s0 s) : ∃ t, execEvent set sess s = .next t ∧ Kept P s0 t := by
  unfold execEvent; try dsimp only
  repeat' with_reducible first | refine ⟨_, rfl, ?_⟩ | assumption | (with_unfolding_all exact among hP rfl) | exact fun _ hx => hx | exact grant_kept _ _ _ _ (among hP rfl) hk ‹_› | apply bump_kept | apply onSelid_kept | apply sendProtected_kept | intro _ | apply ite_kept | split | (simp_all; done)
@[simp] theorem onSlice_kept (c : Nat) (f : Slice → Slice) (s : State) {P : List Part} {s0 : State} (hP : [.flow] ⊆ P) (hk : Kept P s0 s) : Kept P s0 (State.onSlice c f s) := by
  unfold State.onSlice; try dsimp only
  repeat' with_reducible first | assumption | (with_unfolding_all exact among hP rfl) | exact fun _ hx => hx | (with_reducible apply onFlow_kept; case hf => intro _; with_unfolding_all rfl) | intro _ | apply ite_kept | split | (simp_all; done)
@[simp] theorem stat_kept (die e : Nat) (s : State) {P : List Part} {s0 : State} (hP : [.counters] ⊆ P) (hk : Kept P s0 s) : Kept P s0 (State.stat die e s) := by
  unfold State.stat; try dsimp only
  repeat' with_reducible first | assumption | (with_unfolding_all exact among hP rfl) | exact fun _ hx => hx | apply bump_kept | intro _ | apply ite_kept | split | (simp_all; done)
@[simp] theorem setEntry_kept (l : Loc) (e : Bytes) (s : State) {P : List Part} {s0 : State} (hP : [.flow] ⊆ P) (hk : Kept P s0 s) : Kept P s0 (State.setEntry l e s) := by
  unfold State.setEntry; try dsimp only
  repeat' with_reducible first | assumption | (with_unfolding_all exact among hP rfl) | exact fun _ hx => hx | (with_reducible apply onFlow_kept; case hf => intro _; with_unfolding_all rfl) | intro _ | apply ite_kept | split | (simp_all; done)
@[simp] theorem touchEntry_kept (l : Loc) (prec : Nat) (s : State) {P : List Part} {s0 : State} (hP : [.score] ⊆ P) (hk : Kept P s0 s) : Kept P s0 (State.touchEntry l prec s) := by
  unfold State.touchEntry; try dsimp only
  repeat' with_reducible first | assumption | (with_unfolding_all exact among hP rfl) | exact fun _ hx => hx | apply touch_kept | intro _ | apply ite_kept | split | (simp_all; done)
@[simp] theorem updateEntry_kept (l : Loc) (f : Bytes → Bytes) (s : State) {P : List Part} {s0 : State} (hP : [.flow] ⊆ P) (hk : Kept P s0 s) : Kept P s0 (State.updateEntry l f s) := by
  unfold State.updateEntry; try dsimp only
  repeat' with_reducible first | assumption | (with_unfolding_all exact among hP rfl) | exact fun _ hx => hx | apply setEntry_kept | intro _ | apply ite_kept | split | (simp_all; done)
@[simp] theorem ownDirect_kept (l : Loc) (core : Nat) (s : State) {P : List Part} {s0 : State} (hP : [.flow] ⊆ P) (hk : Kept P s0 s) : Kept P s0 (State.ownDirect l core s) := by
  unfold State.ownDirect; try dsimp only
  repeat' with_reducible first | assumption | (with_unfolding_all exact among hP rfl) | exact fun _ hx => hx | (with_reducible apply onFlow_kept; case hf => intro _; with_unfolding_all rfl) | intro _ | apply ite_kept | split | (simp_all; done)
@[simp] theorem releaseState_kept (core slot : Nat) (s : State) {P : List Part} {s0 : State} (hP : [.counters, .flow, .compute] ⊆ P) (hk : Kept P s0 s) : Kept P s0 (State.releaseState core slot s) := by
  unfold State.releaseState; try dsimp only
  repeat' with_reducible first | assumption | (with_unfolding_all exact among hP rfl) | exact fun _ hx => hx | (with_reducible apply onCompute_kept; case hf => intro x; with_unfolding_all rfl) | (with_reducible apply onCompute_kept; case hf => intro x; split <;> with_unfolding_all rfl) | (with_reducible apply onComputeWf_kept; case hf => intro x c; with_unfolding_all exact Table.wf_set _ _ c) | (with_reducible apply onComputeWf_kept; case hf => intro x c; with_unfolding_all exact Table.wf_erase _ c) | (with_reducible apply onComputeWf_kept; case hf => intro x c; with_unfolding_all exact Table.wf_mapFilter _ (fun _ => rfl) c) | (with_reducible apply onFlow_kept; case hf => intro _; with_unfolding_all rfl) | apply bump_kept | intro _ | apply ite_kept | split | (simp_all; done)
@[simp] theorem mirrorEntry_kept (l : Loc) (s : State) {P : List Part} {s0 : State} (hP : [.counters, .ports, .traffic, .net, .pair, .out] ⊆ P) (hk : Kept P s0 s) : Kept P s0 (State.mirrorEntry l s) := by
  unfold State.mirrorEntry; try dsimp only
  repeat' with_reducible first | assumption | (with_unfolding_all exact among hP rfl) | exact fun _ hx => hx | apply mirror_kept | intro _ | apply ite_kept | split | (simp_all; done)
@[simp] theorem adopt_kept (core : Nat) (l : Loc) (s : State) {P : List Part} {s0 : State} (hP : [.counters, .flow, .compute, .pair] ⊆ P) (hk : Kept P s0 s) : Kept P s0 (State.adopt core l s) := by
  unfold State.adopt; try dsimp only
  repeat' with_reducible first | assumption | (with_unfolding_all exact among hP rfl) | exact fun _ hx => hx | (with_reducible apply onCompute_kept; case hf => intro x; with_unfolding_all rfl) | (with_reducible apply onCompute_kept; case hf => intro x; split <;> with_unfolding_all rfl) | (with_reducible apply onComputeWf_kept; case hf => intro x c; with_unfolding_all exact Table.wf_set _ _ c) | (with_reducible apply onComputeWf_kept; case hf => intro x c; with_unfolding_all exact Table.wf_erase _ c) | (with_reducible apply onComputeWf_kept; case hf => intro x c; with_unfolding_all exact Table.wf_mapFilter _ (fun _ => rfl) c) | (with_reducible apply onFlow_kept; case hf => intro _; with_unfolding_all rfl) | apply bump_kept | apply onPair_kept | apply ownDirect_kept | apply store_kept | apply updateEntry_kept | intro _ | apply ite_kept | split | (simp_all; done)
@[simp] theorem vacate_kept (c p : Nat) (e : Bytes) (s : State) {P : List Part} {s0 : State} (hP : [.flow] ⊆ P) (hk : Kept P s0 s) : Kept P s0 (State.vacate c p e s) := by
  unfold State.vacate; try dsimp only
  repeat' with_reducible first | assumption | (with_unfolding_all exact among hP rfl) | exact fun _ hx => hx | apply onSlice_kept | apply setEntry_kept | intro _ | apply ite_kept | split | (simp_all; done)
@[simp] theorem removeEntry_kept (l : Loc) (s : State) {P : List Part} {s0 : State} (hP : [.counters, .ports, .traffic, .net, .flow, .compute, .pair, .out] ⊆ P) (hk : Kept P s0 s) : Kept P s0 (State.removeEntry l s) := by
  unfold State.removeEntry; try dsimp only
  repeat' with_reducible first | assumption | (with_unfolding_all exact among hP rfl) | exact fun _ hx => hx | (with_reducible apply onFlow_kept; case hf => intro _; with_unfolding_all rfl) | apply mirrorEntry_kept | apply onSlice_kept | apply releaseState_kept | apply setEntry_kept | apply vacate_kept | intro _ | apply ite_kept | split | (simp_all; done)
@[simp] theorem searchEvents_kept (die failed : Nat) (bad : Nat) (dup : Bool) (s : State) {P : List Part} {s0 : State} (hP : [.headers, .counters, .score] ⊆ P) (hk : Kept P s0 s) : Kept P s0 (State.searchEvents die failed bad dup s) := by
  unfold State.searchEvents; try dsimp only
  repeat' with_reducible first | assumption | (with_unfolding_all exact among hP rfl) | exact fun _ hx => hx | apply bump_kept | apply setEvent_kept | apply setFaulted_kept | apply stat_kept | intro _ | apply ite_kept | split | (simp_all; done)
@[simp] theorem notice_kept (core n hash : Nat) (direct : Bool) (pk : Packet) (s : State) {P : List Part} {s0 : State} (hP : [.headers, .counters, .objects, .flow, .compute, .score] ⊆ P) (hk : Kept P s0 s) : Kept P s0 (State.notice core n hash direct pk s) := by
  unfold State.notice; try dsimp only
  repeat' with_reducible first | assumption | (with_unfolding_all exact among hP rfl) | exact fun _ hx => hx | apply onSlice_kept | apply ringPut_kept | apply setEvent_kept | apply stat_kept | intro _ | apply ite_kept | split | (simp_all; done)
@[simp] theorem badReads_kept (core n : Nat) (direct : Bool) (key : Bytes) (bad1 bad2 : Bool) (s : State) {P : List Part} {s0 : State} (hP : [.headers, .counters, .power, .reliab, .score] ⊆ P) (hk : Kept P s0 s) : Kept P s0 (State.badReads core n direct key bad1 bad2 s) := by
  unfold State.badReads; try dsimp only
  repeat' with_reducible first | assumption | (with_unfolding_all exact among hP rfl) | exact fun _ hx => hx | apply lineErr_kept | apply each_kept | intro _ | apply ite_kept | split | (simp_all; done)
@[simp] theorem lookup_kept (pk : Packet) (bad1 bad2 : Bool) (s : State) {P : List Part} {s0 : State} (hP : [.headers, .counters, .objects, .flow, .compute, .power, .reliab, .score] ⊆ P) (hk : Kept P s0 s) : Kept P s0 (State.lookup pk bad1 bad2 s).1 := by
  unfold State.lookup; try dsimp only
  repeat' with_reducible first | assumption | (with_unfolding_all exact among hP rfl) | exact fun _ hx => hx | apply badReads_kept | apply learn_kept | apply notice_kept | apply searchEvents_kept | apply stat_kept | apply touchEntry_kept | apply updateEntry_kept | intro _ | apply ite_kept | split | (simp_all; done)
@[simp] theorem clearFilter_kept (core slot hash : Nat) (s : State) {P : List Part} {s0 : State} (hP : [.flow] ⊆ P) (hk : Kept P s0 s) : Kept P s0 (State.clearFilter core slot hash s) := by
  unfold State.clearFilter; try dsimp only
  repeat' with_reducible first | assumption | (with_unfolding_all exact among hP rfl) | exact fun _ hx => hx | apply onSlice_kept | intro _ | apply ite_kept | split | (simp_all; done)
@[simp] theorem countEnd_kept (die : Nat) (r : InsertEnd) (s : State) {P : List Part} {s0 : State} (hP : [.headers, .counters, .selid, .ports, .traffic, .net, .flow, .compute, .pair, .score, .out, .draws] ⊆ P) (hk : Kept P s0 s) : Kept P s0 (State.countEnd die r s) := by
  unfold State.countEnd; try dsimp only
  repeat' with_reducible first | assumption | (with_unfolding_all exact among hP rfl) | exact fun _ hx => hx | apply present_kept | apply setEvent_kept | apply stat_kept | intro _ | apply ite_kept | split | (simp_all; done)
@[simp] theorem answerInsert_kept (who : Inserter) (status : Nat) (s : State) {P : List Part} {s0 : State} (hP : [.counters, .selid, .ports, .traffic, .net, .score, .out] ⊆ P) (hk : Kept P s0 s) : Kept P s0 (State.answerInsert who status s) := by
  unfold State.answerInsert; try dsimp only
  repeat' with_reducible first | assumption | (with_unfolding_all exact among hP rfl) | exact fun _ hx => hx | apply complete_kept | intro _ | apply ite_kept | split | (simp_all; done)
@[simp] theorem insertEnd_kept (core : Nat) (i : Insertion) (r : InsertEnd) (s : State) {P : List Part} {s0 : State} (hP : [.headers, .counters, .selid, .ports, .traffic, .net, .flow, .compute, .pair, .score, .out, .draws] ⊆ P) (hk : Kept P s0 s) : Kept P s0 (State.insertEnd core i r s) := by
  unfold State.insertEnd; try dsimp only
  repeat' with_reducible first | assumption | (with_unfolding_all exact among hP rfl) | exact fun _ hx => hx | apply answerInsert_kept | apply clearFilter_kept | apply countEnd_kept | apply onSlice_kept | intro _ | apply ite_kept | split | (simp_all; done)
@[simp] theorem pathSearch_kept (core : Nat) (fuel bucket : Nat) (path : List Nat) (s : State) {P : List Part} {s0 : State} (hP : [.draws] ⊆ P) (hk : Kept P s0 s) : Kept P s0 (pathSearch core fuel bucket path s).1 := by
  induction fuel generalizing s bucket path with
  | zero => unfold pathSearch; repeat' with_reducible first | assumption | (with_unfolding_all exact among hP rfl) | exact fun _ hx => hx | apply choice_kept | intro _ | apply ite_kept | split | (simp_all; done)
  | succ k ih =>
    unfold pathSearch; try dsimp only
    repeat' with_reducible first | assumption | (with_unfolding_all exact among hP rfl) | exact fun _ hx => hx | apply ih | apply choice_kept | intro _ | apply ite_kept | split | (simp_all; done)
@[simp] theorem moveFirst_kept (core a b : Nat) (s : State) {P : List Part} {s0 : State} (hP : [.flow, .score] ⊆ P) (hk : Kept P s0 s) : Kept P s0 (State.moveFirst core a b s) := by
  unfold State.moveFirst; try dsimp only
  repeat' with_reducible first | assumption | (with_unfolding_all exact among hP rfl) | exact fun _ hx => hx | apply onSlice_kept | apply setEntry_kept | apply touchEntry_kept | intro _ | apply ite_kept | split | (simp_all; done)
@[simp] theorem insertAt_kept (core p : Nat) (i : Insertion) (s : State) {P : List Part} {s0 : State} (hP : [.headers, .counters, .selid, .ports, .traffic, .net, .flow, .compute, .pair, .score, .out, .draws] ⊆ P) (hk : Kept P s0 s) : Kept P s0 (State.insertAt core p i s) := by
  unfold State.insertAt; try dsimp only
  repeat' with_reducible first | assumption | (with_unfolding_all exact among hP rfl) | exact fun _ hx => hx | apply adopt_kept | apply insertEnd_kept | apply setEntry_kept | apply setEvent_kept | apply stat_kept | apply touchEntry_kept | intro _ | apply ite_kept | split | (simp_all; done)
@[simp] theorem stashOrEvict_kept (core b1 b2 : Nat) (i : Insertion) (s : State) {P : List Part} {s0 : State} (hP : [.headers, .counters, .selid, .ports, .traffic, .net, .flow, .compute, .pair, .score, .out, .draws] ⊆ P) (hk : Kept P s0 s) : Kept P s0 (State.stashOrEvict core b1 b2 i s) := by
  unfold State.stashOrEvict; try dsimp only
  repeat' with_reducible first | assumption | (with_unfolding_all exact among hP rfl) | exact fun _ hx => hx | apply choice_kept | apply insertAt_kept | apply insertEnd_kept | apply releaseState_kept | apply setEvent_kept | apply stat_kept | intro _ | apply ite_kept | split | (simp_all; done)
@[simp] theorem insertTop_kept (core : Nat) (i : Insertion) (s : State) {P : List Part} {s0 : State} (hP : [.headers, .counters, .selid, .ports, .traffic, .net, .flow, .compute, .pair, .score, .out, .draws] ⊆ P) (hk : Kept P s0 s) : Kept P s0 (State.insertTop core i s) := by
  unfold State.insertTop; try dsimp only
  repeat' with_reducible first | assumption | (with_unfolding_all exact among hP rfl) | exact fun _ hx => hx | apply choice_kept | apply insertAt_kept | apply insertEnd_kept | apply moveFirst_kept | apply onSlice_kept | apply present_kept | apply stashOrEvict_kept | apply pathSearch_kept | intro _ | apply ite_kept | split | (simp_all; done)
@[simp] theorem insertGoOn_kept (core : Nat) (i : Insertion) (s : State) {P : List Part} {s0 : State} (hP : [.headers, .counters, .selid, .ports, .traffic, .net, .flow, .compute, .pair, .score, .out, .draws] ⊆ P) (hk : Kept P s0 s) : Kept P s0 (State.insertGoOn core i s) := by
  unfold State.insertGoOn; try dsimp only
  repeat' with_reducible first | assumption | (with_unfolding_all exact among hP rfl) | exact fun _ hx => hx | apply insertAt_kept | apply insertEnd_kept | apply insertTop_kept | apply moveFirst_kept | apply onSlice_kept | intro _ | apply ite_kept | split | (simp_all; done)
@[simp] theorem runSlice_kept (core : Nat) (fuel : Nat) (s : State) {P : List Part} {s0 : State} (hP : [.headers, .counters, .selid, .ports, .traffic, .net, .flow, .compute, .pair, .score, .out, .draws] ⊆ P) (hk : Kept P s0 s) : Kept P s0 (State.runSlice core fuel s) := by
  induction fuel generalizing s  with
  | zero => unfold State.runSlice; repeat' with_reducible first | assumption | (with_unfolding_all exact among hP rfl) | exact fun _ hx => hx | apply insertGoOn_kept | apply onSlice_kept | intro _ | apply ite_kept | split | (simp_all; done)
  | succ k ih =>
    unfold State.runSlice; try dsimp only
    repeat' with_reducible first | assumption | (with_unfolding_all exact among hP rfl) | exact fun _ hx => hx | apply ih | apply insertGoOn_kept | apply onSlice_kept | intro _ | apply ite_kept | split | (simp_all; done)
@[simp] theorem offer_kept (core : Nat) (i : Insertion) (s : State) {P : List Part} {s0 : State} (hP : [.headers, .counters, .selid, .ports, .traffic, .net, .flow, .compute, .pair, .score, .out, .draws] ⊆ P) (hk : Kept P s0 s) : Kept P s0 (State.offer core i s) := by
  unfold State.offer; try dsimp only
  repeat' with_reducible first | assumption | (with_unfolding_all exact among hP rfl) | exact fun _ hx => hx | apply clearFilter_kept | apply complete_kept | apply onSlice_kept | apply runSlice_kept | apply setEvent_kept | apply stat_kept | intro _ | apply ite_kept | split | (simp_all; done)
@[simp] theorem insertDirect_kept (core n g tag : Nat) (e : Bytes) (s : State) {P : List Part} {s0 : State} (hP : [.headers, .counters, .ports, .traffic, .net, .flow, .compute, .pair, .score, .out] ⊆ P) (hk : Kept P s0 s) : Kept P s0 (State.insertDirect core n g tag e s).1 := by
  unfold State.insertDirect; try dsimp only
  repeat' with_reducible first | assumption | (with_unfolding_all exact among hP rfl) | exact fun _ hx => hx | apply adopt_kept | apply mirrorEntry_kept | apply setEntry_kept | apply setEvent_kept | apply stat_kept | apply touchEntry_kept | intro _ | apply ite_kept | split | (simp_all; done)
@[simp] theorem present_kept (core : Nat) (direct : Bool) (i : Insertion) (s : State) {P : List Part} {s0 : State} (hP : [.headers, .counters, .selid, .ports, .traffic, .net, .flow, .compute, .pair, .score, .out, .draws] ⊆ P) (hk : Kept P s0 s) : Kept P s0 (State.present core direct i s) := by
  unfold State.present; try dsimp only
  repeat' with_reducible first | assumption | (with_unfolding_all exact among hP rfl) | exact fun _ hx => hx | apply answerInsert_kept | apply clearFilter_kept | apply countEnd_kept | apply insertDirect_kept | apply offer_kept | intro _ | apply ite_kept | split | (simp_all; done)
@[simp] theorem flowDue_kept (o : FlowOp) (s : State) {P : List Part} {s0 : State} (hP : [.flow] ⊆ P) (hk : Kept P s0 s) : Kept P s0 (State.flowDue o s) := by
  unfold State.flowDue; try dsimp only
  repeat' with_reducible first | assumption | (with_unfolding_all exact among hP rfl) | exact fun _ hx => hx | (with_reducible apply onFlow_kept; case hf => intro _; with_unfolding_all rfl) | intro _ | apply ite_kept | split | (simp_all; done)
@[simp] theorem learn_kept (die : Nat) (s : State) {P : List Part} {s0 : State} (hP : [.headers, .counters, .selid, .ports, .traffic, .net, .objects, .flow, .compute, .pair, .score, .out, .draws] ⊆ P) (hk : Kept P s0 s) : Kept P s0 (State.learn die s) := by
  unfold State.learn; try dsimp only
  repeat' with_reducible first | assumption | (with_unfolding_all exact among hP rfl) | exact fun _ hx => hx | apply present_kept | apply ringConsume_kept | apply stat_kept | intro _ | apply ite_kept | split | (simp_all; done)
@[simp] theorem moveSecond_kept (core : Nat) (s : State) {P : List Part} {s0 : State} (hP : [.headers, .counters, .selid, .ports, .traffic, .net, .flow, .compute, .pair, .score, .out, .draws] ⊆ P) (hk : Kept P s0 s) : Kept P s0 (State.moveSecond core s) := by
  unfold State.moveSecond; try dsimp only
  repeat' with_reducible first | assumption | (with_unfolding_all exact among hP rfl) | exact fun _ hx => hx | apply onSlice_kept | apply runSlice_kept | apply setEntry_kept | apply stat_kept | apply touchEntry_kept | intro _ | apply ite_kept | split | (simp_all; done)
@[simp] theorem stashSlot_kept (core : Nat) (e : Nat × Nat) (s : State) {P : List Part} {s0 : State} (hP : [.flow, .score] ⊆ P) (hk : Kept P s0 s) : Kept P s0 (State.stashSlot core e s) := by
  unfold State.stashSlot; try dsimp only
  repeat' with_reducible first | assumption | (with_unfolding_all exact among hP rfl) | exact fun _ hx => hx | apply moveFirst_kept | apply onSlice_kept | intro _ | apply ite_kept | split | (simp_all; done)
@[simp] theorem stashIn_kept (core : Nat) (s : State) {P : List Part} {s0 : State} (hP : [.flow, .score] ⊆ P) (hk : Kept P s0 s) : Kept P s0 (State.stashIn core s) := by
  unfold State.stashIn; try dsimp only
  repeat' with_reducible first | assumption | (with_unfolding_all exact among hP rfl) | exact fun _ hx => hx | apply stashSlot_kept | apply each_kept | intro _ | apply ite_kept | split | (simp_all; done)
theorem execPendingFilterExpire_kept (core : Nat) (s : State) {P : List Part} {s0 : State} (hP : [.flow] ⊆ P) (hk : Kept P s0 s) : ∃ t, execPendingFilterExpire core s = .next t ∧ Kept P s0 t := by
  unfold execPendingFilterExpire; try dsimp only
  repeat' with_reducible first | refine ⟨_, rfl, ?_⟩ | assumption | (with_unfolding_all exact among hP rfl) | exact fun _ hx => hx | exact grant_kept _ _ _ _ (among hP rfl) hk ‹_› | apply onSlice_kept | intro _ | apply ite_kept | split | (simp_all; done)
@[simp] theorem failuresGone_kept (die : Nat) (s : State) {P : List Part} {s0 : State} (hP : [.headers, .score] ⊆ P) (hk : Kept P s0 s) : Kept P s0 (State.failuresGone die s) := by
  unfold State.failuresGone; try dsimp only
  repeat' with_reducible first | assumption | (with_unfolding_all exact among hP rfl) | exact fun _ hx => hx | apply setFaulted_kept | intro _ | apply ite_kept | split | (simp_all; done)
@[simp] theorem scan_kept (l : Loc) (s : State) {P : List Part} {s0 : State} (hP : [.headers, .counters, .ports, .traffic, .net, .flow, .compute, .pair, .score, .out] ⊆ P) (hk : Kept P s0 s) : Kept P s0 (State.scan l s) := by
  unfold State.scan; try dsimp only
  repeat' with_reducible first | assumption | (with_unfolding_all exact among hP rfl) | exact fun _ hx => hx | apply failuresGone_kept | apply removeEntry_kept | apply setEvent_kept | apply stat_kept | apply touchEntry_kept | intro _ | apply ite_kept | split | (simp_all; done)
@[simp] theorem writeBack_kept (core n g : Nat) (direct : Bool) (key : Bytes) (v : Verdict) (s : State) {P : List Part} {s0 : State} (hP : [.counters, .ports, .traffic, .net, .flow, .pair, .score, .out] ⊆ P) (hk : Kept P s0 s) : Kept P s0 (State.writeBack core n g direct key v s).1 := by
  unfold State.writeBack; try dsimp only
  repeat' with_reducible first | assumption | (with_unfolding_all exact among hP rfl) | exact fun _ hx => hx | apply mirrorEntry_kept | apply stat_kept | apply touchEntry_kept | apply updateEntry_kept | intro _ | apply ite_kept | split | (simp_all; done)
theorem tableCommand_kept {sess op len : Nat} {rsv bad : Bytes → Option Nat} {run : Session → Cmd → Nat → Bool → State → State} {P : List Part} {s u : State} (hP : [.counters, .selid, .ports, .traffic, .net, .score, .out] ⊆ P) (hr : ∀ x c n d t, Kept P s t → Kept P s (run x c n d t)) (h : Kept P s u) : Kept P s (State.tableCommand sess op len rsv bad run u) := by
  unfold State.tableCommand; refine command_kept (among hP rfl) ?_ h; intro x c t ht; dsimp only
  repeat' with_reducible first | assumption | (with_unfolding_all exact among hP rfl) | exact fun _ hx => hx | apply hr | apply complete_kept | apply command_kept | intro _ | apply ite_kept | split | (simp_all; done)
@[simp] theorem sweepAt_kept (f : Flush) (unit pos : Nat) (s : State) {P : List Part} {s0 : State} (hP : [.counters, .ports, .traffic, .net, .flow, .compute, .pair, .score, .out] ⊆ P) (hk : Kept P s0 s) : Kept P s0 (State.sweepAt f unit pos s) := by
  unfold State.sweepAt; try dsimp only
  repeat' with_reducible first | assumption | (with_unfolding_all exact among hP rfl) | exact fun _ hx => hx | (with_reducible apply onFlow_kept; case hf => intro _; with_unfolding_all rfl) | apply removeEntry_kept | apply stat_kept | apply touchEntry_kept | intro _ | apply ite_kept | split | (simp_all; done)
@[simp] theorem flushEnd_kept (f : Flush) (s : State) {P : List Part} {s0 : State} (hP : [.headers, .counters, .selid, .ports, .traffic, .net, .flow, .score, .out] ⊆ P) (hk : Kept P s0 s) : Kept P s0 (State.flushEnd f s) := by
  unfold State.flushEnd; try dsimp only
  repeat' with_reducible first | assumption | (with_unfolding_all exact among hP rfl) | exact fun _ hx => hx | (with_reducible apply onFlow_kept; case hf => intro _; with_unfolding_all rfl) | apply complete_kept | apply setEvent_kept | intro _ | apply ite_kept | split | (simp_all; done)
@[simp] theorem flushLimit_kept (s : State) {P : List Part} {s0 : State} (hP : [.headers, .counters, .selid, .ports, .traffic, .net, .flow, .compute, .pair, .score, .out] ⊆ P) (hk : Kept P s0 s) : Kept P s0 (State.flushLimit s) := by
  unfold State.flushLimit; try dsimp only
  repeat' with_reducible first | assumption | (with_unfolding_all exact among hP rfl) | exact fun _ hx => hx | apply flushEnd_kept | apply sweepAt_kept | apply each_kept | intro _ | apply ite_kept | split | (simp_all; done)
@[simp] theorem flowCtlWrite_kept (off : Nat) (v : Word) (s : State) {P : List Part} {s0 : State} (hP : [.headers, .registers, .score] ⊆ P) (hk : Kept P s0 s) : Kept P s0 (State.flowCtlWrite off v s) := by
  unfold State.flowCtlWrite; try dsimp only
  repeat' with_reducible first | assumption | (with_unfolding_all exact among hP rfl) | exact fun _ hx => hx | apply setEvent_kept | apply setReg_kept | intro _ | apply ite_kept | split | (simp_all; done)
@[simp] theorem onCore_kept (c : Nat) (f : CoreState → CoreState) {P : List Part} {s u : State} (hP : [.compute] ⊆ P) (h : Kept P s u) : Kept P s (State.onCore c f u) := by
  unfold State.onCore; exact onComputeWf_kept _ hP h fun x c => Table.wf_modify _ _ c
@[simp] theorem onCtx_kept (c t : Nat) (f : Ctx → Ctx) (s : State) {P : List Part} {s0 : State} (hP : [.compute] ⊆ P) (hk : Kept P s0 s) : Kept P s0 (State.onCtx c t f s) := by
  unfold State.onCtx; try dsimp only
  repeat' with_reducible first | assumption | (with_unfolding_all exact among hP rfl) | exact fun _ hx => hx | apply onCore_kept | intro _ | apply ite_kept | split | (simp_all; done)
@[simp] theorem onWork_kept (c t i : Nat) (f : Work → Work) (s : State) {P : List Part} {s0 : State} (hP : [.compute] ⊆ P) (hk : Kept P s0 s) : Kept P s0 (State.onWork c t i f s) := by
  unfold State.onWork; try dsimp only
  repeat' with_reducible first | assumption | (with_unfolding_all exact among hP rfl) | exact fun _ hx => hx | apply onCtx_kept | intro _ | apply ite_kept | split | (simp_all; done)
@[simp] theorem seqCount_kept (c e n : Nat) (s : State) {P : List Part} {s0 : State} (hP : [.counters] ⊆ P) (hk : Kept P s0 s) : Kept P s0 (State.seqCount c e n s) := by
  unfold State.seqCount; try dsimp only
  repeat' with_reducible first | assumption | (with_unfolding_all exact among hP rfl) | exact fun _ hx => hx | apply coreBump_kept | intro _ | apply ite_kept | split | (simp_all; done)
@[simp] theorem onTempo_kept (die : Nat) (f : Tempo → Tempo) (s : State) {P : List Part} {s0 : State} (hP : [.power] ⊆ P) (hk : Kept P s0 s) : Kept P s0 (State.onTempo die f s) := by
  unfold State.onTempo; try dsimp only
  repeat' with_reducible first | assumption | (with_unfolding_all exact among hP rfl) | exact fun _ hx => hx | apply onPower_kept | intro _ | apply ite_kept | split | (simp_all; done)
@[simp] theorem tempoCount_kept (die e n : Nat) (s : State) {P : List Part} {s0 : State} (hP : [.counters] ⊆ P) (hk : Kept P s0 s) : Kept P s0 (State.tempoCount die e n s) := by
  unfold State.tempoCount; try dsimp only
  repeat' with_reducible first | assumption | (with_unfolding_all exact among hP rfl) | exact fun _ hx => hx | apply bump_kept | intro _ | apply ite_kept | split | (simp_all; done)
theorem grant_kept (c cls n : Nat) (s : State) {P : List Part} {s0 t : State} (hP : [.counters, .compute, .power] ⊆ P) (hk : Kept P s0 s) (h : State.grant c cls n s = some t) : Kept P s0 t := by
  unfold State.grant at h; dsimp only at h
  (repeat' split at h) <;> first | (cases h; done) | (injection h with h; subst h; repeat' (with_reducible first | assumption | (with_unfolding_all exact among hP rfl) | exact fun _ hx => hx | apply onCore_kept | apply onTempo_kept | apply tempoCount_kept | intro _ | apply ite_kept | split | (simp_all; done)))
@[simp] theorem noteRelease_kept (c : Nat) (s : State) {P : List Part} {s0 : State} (hP : [.compute] ⊆ P) (hk : Kept P s0 s) : Kept P s0 (State.noteRelease c s) := by
  unfold State.noteRelease; try dsimp only
  repeat' with_reducible first | assumption | (with_unfolding_all exact among hP rfl) | exact fun _ hx => hx | apply onCore_kept | intro _ | apply ite_kept | split | (simp_all; done)
@[simp] theorem goTo_kept (c t k : Nat) (s : State) {P : List Part} {s0 : State} (hP : [.compute] ⊆ P) (hk : Kept P s0 s) : Kept P s0 (State.goTo c t k s) := by
  unfold State.goTo; try dsimp only
  repeat' with_reducible first | assumption | (with_unfolding_all exact among hP rfl) | exact fun _ hx => hx | apply onCtx_kept | intro _ | apply ite_kept | split | (simp_all; done)
@[simp] theorem passAhead_kept (c t : Nat) (s : State) {P : List Part} {s0 : State} (hP : [.compute] ⊆ P) (hk : Kept P s0 s) : Kept P s0 (State.passAhead c t s) := by
  unfold State.passAhead; try dsimp only
  repeat' with_reducible first | assumption | (with_unfolding_all exact among hP rfl) | exact fun _ hx => hx | apply onCtx_kept | intro _ | apply ite_kept | split | (simp_all; done)
@[simp] theorem issued_kept (c t cost : Nat) (s : State) {P : List Part} {s0 : State} (hP : [.counters, .compute] ⊆ P) (hk : Kept P s0 s) : Kept P s0 (State.issued c t cost s) := by
  unfold State.issued; try dsimp only
  repeat' with_reducible first | assumption | (with_unfolding_all exact among hP rfl) | exact fun _ hx => hx | apply onCore_kept | apply onCtx_kept | apply seqCount_kept | intro _ | apply ite_kept | split | (simp_all; done)
theorem issueWhere_kept {place : Option (Ctx × Entry)} {cost : Ctx → Entry → Nat} {c t op : Nat} {sub : Nat → Bool} {ready : Ctx → Entry → Bool} {run : Ctx → Entry → State → State} {P : List Part} {s u : State} (hP : [.counters, .compute, .power] ⊆ P) (hr : ∀ x e t, Kept P s t → Kept P s (run x e t)) (h : Kept P s u) : Kept P s (State.issueWhere place cost c t op sub ready run u) := by
  unfold State.issueWhere; dsimp only
  repeat' with_reducible first | assumption | (with_unfolding_all exact among hP rfl) | exact fun _ hx => hx | apply hr | exact grant_kept _ _ _ _ (among hP rfl) h ‹_› | apply issued_kept | apply onCtx_kept | apply place_kept | apply tempoCount_kept | intro _ | apply ite_kept | split | (simp_all; done)
@[simp] theorem pass_kept (c t : Nat) (y : Ctx) (s : State) {P : List Part} {s0 : State} (hP : [.compute] ⊆ P) (hk : Kept P s0 s) : Kept P s0 (State.pass c t y s) := by
  unfold State.pass; try dsimp only
  repeat' with_reducible first | assumption | (with_unfolding_all exact among hP rfl) | exact fun _ hx => hx | apply goTo_kept | apply onCtx_kept | intro _ | apply ite_kept | split | (simp_all; done)
theorem issueFrom_kept {place : Option (Ctx × Entry)} {cost : Ctx → Entry → Nat} {c t op : Nat} {sub : Nat → Bool} {ready : Ctx → Entry → Bool} {run : Ctx → Entry → State → State} {P : List Part} {s u : State} (hP : [.counters, .compute, .power] ⊆ P) (hr : ∀ x e t, Kept P s t → Kept P s (run x e t)) (h : Kept P s u) : Kept P s (State.issueFrom place cost c t op sub ready run u) := by
  unfold State.issueFrom; exact issueWhere_kept (among hP rfl) (fun x e t ht => passAhead_kept _ _ _ (among hP rfl) (hr _ _ _ (pass_kept _ _ _ _ (among hP rfl) ht))) h
theorem issueRun_kept {cost : Ctx → Entry → Nat} {c t op : Nat} {ready : Ctx → Entry → Bool} {run : Ctx → Entry → State → State} {P : List Part} {s u : State} (hP : [.counters, .compute, .power] ⊆ P) (hr : ∀ x e t, Kept P s t → Kept P s (run x e t)) (h : Kept P s u) : Kept P s (State.issueRun cost c t op ready run u) := by
  unfold State.issueRun; exact issueWhere_kept (among hP rfl) (fun x e t ht => hr _ _ _ (onCtx_kept _ _ _ _ (among hP rfl) ht)) h
theorem issueAt_kept {cost : Ctx → Entry → Nat} {c t op : Nat} {sub : Nat → Bool} {ready : Ctx → Entry → Bool} {run : Ctx → Entry → State → State} {P : List Part} {s u : State} (hP : [.counters, .compute, .power] ⊆ P) (hr : ∀ x e t, Kept P s t → Kept P s (run x e t)) (h : Kept P s u) : Kept P s (State.issueAt cost c t op sub ready run u) := by
  unfold State.issueAt; exact issueFrom_kept (among hP rfl) hr h
theorem issue_kept {c t op : Nat} {sub : Nat → Bool} {ready : Ctx → Entry → Bool} {run : Ctx → Entry → State → State} {P : List Part} {s u : State} (hP : [.counters, .compute, .power] ⊆ P) (hr : ∀ x e t, Kept P s t → Kept P s (run x e t)) (h : Kept P s u) : Kept P s (State.issue c t op sub ready run u) := by
  unfold State.issue; exact issueAt_kept (among hP rfl) hr h
theorem issueCommit_kept {c t op : Nat} {sub : Nat → Bool} {run : Ctx → Entry → State → State} {P : List Part} {s u : State} (hP : [.counters, .compute, .power] ⊆ P) (hr : ∀ x e t, Kept P s t → Kept P s (run x e t)) (h : Kept P s u) : Kept P s (State.issueCommit c t op sub run u) := by
  unfold State.issueCommit; refine issue_kept (among hP rfl) (fun x e t ht => ?_) h; split
  · exact hr _ _ _ ht
  · exact ht
@[simp] theorem observe_kept (core key : Nat) (g : Generation) (rows : List CodeRow) (s : State) {P : List Part} {s0 : State} (hP : [.compute] ⊆ P) (hk : Kept P s0 s) : Kept P s0 (State.observe core key g rows s) := by
  unfold State.observe; try dsimp only
  repeat' with_reducible first | assumption | (with_unfolding_all exact among hP rfl) | exact fun _ hx => hx | apply onCore_kept | apply each_kept | intro _ | apply ite_kept | split | (simp_all; done)
@[simp] theorem windowEnd_kept (core chan gen : Nat) (s : State) {P : List Part} {s0 : State} (hP : [.counters, .compute] ⊆ P) (hk : Kept P s0 s) : Kept P s0 (State.windowEnd core chan gen s) := by
  unfold State.windowEnd; try dsimp only
  repeat' with_reducible first | assumption | (with_unfolding_all exact among hP rfl) | exact fun _ hx => hx | apply bump_kept | apply onCore_kept | apply each_kept | intro _ | apply ite_kept | split | (simp_all; done)
@[simp] theorem settleWindows_kept (s : State) {P : List Part} {s0 : State} (hP : [.headers, .registers, .counters, .compute, .score] ⊆ P) (hk : Kept P s0 s) : Kept P s0 (State.settleWindows s) := by
  unfold State.settleWindows; try dsimp only
  repeat' with_reducible first | assumption | (with_unfolding_all exact among hP rfl) | exact fun _ hx => hx | (with_reducible apply onCompute_kept; case hf => intro x; with_unfolding_all rfl) | (with_reducible apply onCompute_kept; case hf => intro x; split <;> with_unfolding_all rfl) | (with_reducible apply onComputeWf_kept; case hf => intro x c; with_unfolding_all exact Table.wf_set _ _ c) | (with_reducible apply onComputeWf_kept; case hf => intro x c; with_unfolding_all exact Table.wf_erase _ c) | (with_reducible apply onComputeWf_kept; case hf => intro x c; with_unfolding_all exact Table.wf_mapFilter _ (fun _ => rfl) c) | apply setEvent_kept | apply setReg_kept | apply windowEnd_kept | apply each_kept | intro _ | apply ite_kept | split | (simp_all; done)
@[simp] theorem hostItem_kept (chan : Nat) (s : State) {P : List Part} {s0 : State} (hP : [.headers, .registers, .counters, .net, .objects, .compute, .score] ⊆ P) (hk : Kept P s0 s) : Kept P s0 (State.hostItem chan s) := by
  unfold State.hostItem; try dsimp only
  repeat' with_reducible first | assumption | (with_unfolding_all exact among hP rfl) | exact fun _ hx => hx | (with_reducible apply onCompute_kept; case hf => intro x; with_unfolding_all rfl) | (with_reducible apply onCompute_kept; case hf => intro x; split <;> with_unfolding_all rfl) | (with_reducible apply onComputeWf_kept; case hf => intro x c; with_unfolding_all exact Table.wf_set _ _ c) | (with_reducible apply onComputeWf_kept; case hf => intro x c; with_unfolding_all exact Table.wf_erase _ c) | (with_reducible apply onComputeWf_kept; case hf => intro x c; with_unfolding_all exact Table.wf_mapFilter _ (fun _ => rfl) c) | apply bump_kept | apply onRing_kept | apply ringConsume_kept | apply sendParcel_kept | apply setEvent_kept | apply setReg_kept | apply each_kept | intro _ | apply ite_kept | split | (simp_all; done)
@[simp] theorem settleHostItems_kept (s : State) {P : List Part} {s0 : State} (hP : [.headers, .registers, .counters, .net, .objects, .compute, .score] ⊆ P) (hk : Kept P s0 s) : Kept P s0 (State.settleHostItems s) := by
  unfold State.settleHostItems; try dsimp only
  repeat' with_reducible first | assumption | (with_unfolding_all exact among hP rfl) | exact fun _ hx => hx | apply hostItem_kept | apply each_kept | intro _ | apply ite_kept | split | (simp_all; done)
@[simp] theorem applySlots_kept (s : State) {P : List Part} {s0 : State} (hP : [.counters, .compute] ⊆ P) (hk : Kept P s0 s) : Kept P s0 (State.applySlots s) := by
  unfold State.applySlots; try dsimp only
  repeat' with_reducible first | assumption | (with_unfolding_all exact among hP rfl) | exact fun _ hx => hx | (with_reducible apply onCompute_kept; case hf => intro x; with_unfolding_all rfl) | (with_reducible apply onCompute_kept; case hf => intro x; split <;> with_unfolding_all rfl) | (with_reducible apply onComputeWf_kept; case hf => intro x c; with_unfolding_all exact Table.wf_set _ _ c) | (with_reducible apply onComputeWf_kept; case hf => intro x c; with_unfolding_all exact Table.wf_erase _ c) | (with_reducible apply onComputeWf_kept; case hf => intro x c; with_unfolding_all exact Table.wf_mapFilter _ (fun _ => rfl) c) | apply bump_kept | apply free_kept | intro _ | apply ite_kept | split | (simp_all; done)
@[simp] theorem settleSlots_kept (s : State) {P : List Part} {s0 : State} (hP : [.counters, .compute] ⊆ P) (hk : Kept P s0 s) : Kept P s0 (State.settleSlots s) := by
  unfold State.settleSlots; try dsimp only
  repeat' with_reducible first | assumption | (with_unfolding_all exact among hP rfl) | exact fun _ hx => hx | apply applySlots_kept | apply each_kept | intro _ | apply ite_kept | split | (simp_all; done)
@[simp] theorem takeQuarters_kept (l : List (Nat × Nat)) (s : State) {P : List Part} {s0 : State} (hP : [.compute] ⊆ P) (hk : Kept P s0 s) : Kept P s0 (State.takeQuarters l s) := by
  unfold State.takeQuarters; try dsimp only
  repeat' with_reducible first | assumption | (with_unfolding_all exact among hP rfl) | exact fun _ hx => hx | apply onCore_kept | apply each_kept | intro _ | apply ite_kept | split | (simp_all; done)
@[simp] theorem setSlotHdr_kept (core slot : Nat) (h : Bytes) (s : State) {P : List Part} {s0 : State} (hP : [.stateMem, .compute] ⊆ P) (hk : Kept P s0 s) : Kept P s0 (State.setSlotHdr core slot h s) := by
  unfold State.setSlotHdr; try dsimp only
  repeat' with_reducible first | assumption | (with_unfolding_all exact among hP rfl) | exact fun _ hx => hx | (with_reducible apply onFlow_kept; case hf => intro _; with_unfolding_all rfl) | (with_reducible apply onMem_kept; case hx => intro _; with_unfolding_all rfl) | apply useVault_kept | intro _ | apply ite_kept | split | (simp_all; done)
@[simp] theorem deepCount_kept (e n : Nat) (s : State) {P : List Part} {s0 : State} (hP : [.counters] ⊆ P) (hk : Kept P s0 s) : Kept P s0 (State.deepCount e n s) := by
  unfold State.deepCount; try dsimp only
  repeat' with_reducible first | assumption | (with_unfolding_all exact among hP rfl) | exact fun _ hx => hx | apply bump_kept | intro _ | apply ite_kept | split | (simp_all; done)
@[simp] theorem promoteFlow_kept (core n hg : Nat) (key : Bytes) (slotDm : Nat) (s : State) {P : List Part} {s0 : State} (hP : [.headers, .counters, .ports, .traffic, .net, .flow, .stateMem, .compute, .pair, .score, .out] ⊆ P) (hk : Kept P s0 s) : Kept P s0 (State.promoteFlow core n hg key slotDm s) := by
  unfold State.promoteFlow; try dsimp only
  repeat' with_reducible first | assumption | (with_unfolding_all exact among hP rfl) | exact fun _ hx => hx | (with_reducible apply onCompute_kept; case hf => intro x; with_unfolding_all rfl) | (with_reducible apply onCompute_kept; case hf => intro x; split <;> with_unfolding_all rfl) | (with_reducible apply onComputeWf_kept; case hf => intro x c; with_unfolding_all exact Table.wf_set _ _ c) | (with_reducible apply onComputeWf_kept; case hf => intro x c; with_unfolding_all exact Table.wf_erase _ c) | (with_reducible apply onComputeWf_kept; case hf => intro x c; with_unfolding_all exact Table.wf_mapFilter _ (fun _ => rfl) c) | (with_reducible apply onFlow_kept; case hf => intro _; with_unfolding_all rfl) | apply deepCount_kept | apply mirrorEntry_kept | apply onCore_kept | apply ownDirect_kept | apply setEvent_kept | apply setSlotHdr_kept | apply touchEntry_kept | apply updateEntry_kept | intro _ | apply ite_kept | split | (simp_all; done)
@[simp] theorem promote_kept (core : Nat) (p : Packet) (g : Generation) (hit : Option Bytes) (s : State) {P : List Part} {s0 : State} (hP : [.counters, .flow] ⊆ P) (hk : Kept P s0 s) : Kept P s0 (State.promote core p g hit s) := by
  unfold State.promote; try dsimp only
  repeat' with_reducible first | assumption | (with_unfolding_all exact among hP rfl) | exact fun _ hx => hx | apply bump_kept | apply deepCount_kept | apply flowDue_kept | intro _ | apply ite_kept | split | (simp_all; done)
@[simp] theorem treeCount_kept (c e n : Nat) (s : State) {P : List Part} {s0 : State} (hP : [.counters] ⊆ P) (hk : Kept P s0 s) : Kept P s0 (State.treeCount c e n s) := by
  unfold State.treeCount; try dsimp only
  repeat' with_reducible first | assumption | (with_unfolding_all exact among hP rfl) | exact fun _ hx => hx | apply coreBump_kept | intro _ | apply ite_kept | split | (simp_all; done)
@[simp] theorem treeFlags_kept (core : Nat) (leaves : List Leaf) (corrected : Nat) (clamped : Bool) (s : State) {P : List Part} {s0 : State} (hP : [.headers, .counters, .score] ⊆ P) (hk : Kept P s0 s) : Kept P s0 (State.treeFlags core leaves corrected clamped s) := by
  unfold State.treeFlags; try dsimp only
  repeat' with_reducible first | assumption | (with_unfolding_all exact among hP rfl) | exact fun _ hx => hx | apply coreEvent_kept | apply treeCount_kept | intro _ | apply ite_kept | split | (simp_all; done)
@[simp] theorem amFail_kept (core q kind idx : Nat) (s : State) {P : List Part} {s0 : State} (hP : [.headers, .reliab, .score] ⊆ P) (hk : Kept P s0 s) : Kept P s0 (State.amFail core q kind idx s) := by
  unfold State.amFail; try dsimp only
  repeat' with_reducible first | assumption | (with_unfolding_all exact among hP rfl) | exact fun _ hx => hx | apply onReliab_kept | apply setFaulted_kept | intro _ | apply ite_kept | split | (simp_all; done)
@[simp] theorem amFailures_kept (core kind : Nat) (segs quarters bad : List Nat) (s : State) {P : List Part} {s0 : State} (hP : [.headers, .reliab, .score] ⊆ P) (hk : Kept P s0 s) : Kept P s0 (State.amFailures core kind segs quarters bad s) := by
  unfold State.amFailures; try dsimp only
  repeat' with_reducible first | assumption | (with_unfolding_all exact among hP rfl) | exact fun _ hx => hx | apply amFail_kept | apply each_kept | intro _ | apply ite_kept | split | (simp_all; done)
@[simp] theorem loadEnd_kept (core : Nat) (s : State) {P : List Part} {s0 : State} (hP : [.counters, .compute] ⊆ P) (hk : Kept P s0 s) : Kept P s0 (State.loadEnd core s) := by
  unfold State.loadEnd; try dsimp only
  repeat' with_reducible first | assumption | (with_unfolding_all exact among hP rfl) | exact fun _ hx => hx | apply onCore_kept | apply treeCount_kept | intro _ | apply ite_kept | split | (simp_all; done)
@[simp] theorem settleLoads_kept (s : State) {P : List Part} {s0 : State} (hP : [.counters, .compute] ⊆ P) (hk : Kept P s0 s) : Kept P s0 (State.settleLoads s) := by
  unfold State.settleLoads; try dsimp only
  repeat' with_reducible first | assumption | (with_unfolding_all exact among hP rfl) | exact fun _ hx => hx | apply loadEnd_kept | apply each_kept | intro _ | apply ite_kept | split | (simp_all; done)
@[simp] theorem loadStep_kept (core ctx key next : Nat) (g : Generation) (s : State) {P : List Part} {s0 : State} (hP : [.counters, .compute] ⊆ P) (hk : Kept P s0 s) : Kept P s0 (State.loadStep core ctx key next g s) := by
  unfold State.loadStep; try dsimp only
  repeat' with_reducible first | assumption | (with_unfolding_all exact among hP rfl) | exact fun _ hx => hx | apply loadEnd_kept | apply onCore_kept | intro _ | apply ite_kept | split | (simp_all; done)
@[simp] theorem treePass_kept (core ctx i : Nat) (p : Packet) (g : Generation) (pinned : Bool) (at_ : List Nat × List Nat) (rows comps : List Nat) (corrected : Nat) (s : State) {P : List Part} {s0 : State} (hP : [.headers, .counters, .flow, .compute, .reliab, .score] ⊆ P) (hk : Kept P s0 s) : Kept P s0 (State.treePass core ctx i p g pinned at_ rows comps corrected s) := by
  unfold State.treePass; try dsimp only
  repeat' with_reducible first | assumption | (with_unfolding_all exact among hP rfl) | exact fun _ hx => hx | apply amFailures_kept | apply onWork_kept | apply promote_kept | apply treeFlags_kept | intro _ | apply ite_kept | split | (simp_all; done)
@[simp] theorem releaseFlow_kept (core : Nat) (l : Loc) (s : State) {P : List Part} {s0 : State} (hP : [.counters, .ports, .traffic, .net, .flow, .compute, .pair, .out] ⊆ P) (hk : Kept P s0 s) : Kept P s0 (State.releaseFlow core l s) := by
  unfold State.releaseFlow; try dsimp only
  repeat' with_reducible first | assumption | (with_unfolding_all exact among hP rfl) | exact fun _ hx => hx | apply mirrorEntry_kept | apply releaseState_kept | apply updateEntry_kept | intro _ | apply ite_kept | split | (simp_all; done)
@[simp] theorem queueToken_kept (id : Nat) (t : Token) (g : Generation) (s : State) {P : List Part} {s0 : State} (hP : [.compute] ⊆ P) (hk : Kept P s0 s) : Kept P s0 (State.queueToken id t g s) := by
  unfold State.queueToken; try dsimp only
  repeat' with_reducible first | assumption | (with_unfolding_all exact among hP rfl) | exact fun _ hx => hx | apply onCore_kept | intro _ | apply ite_kept | split | (simp_all; done)
@[simp] theorem formToken_kept (core slot n : Nat) (p : Packet) (hit : Bytes) (key : Bytes) (h : Bytes) (pk by_ : Nat) (g : Generation) (badState : Bool) (s : State) {P : List Part} {s0 : State} (hP : [.flow, .stateMem, .compute] ⊆ P) (hk : Kept P s0 s) : Kept P s0 (State.formToken core slot n p hit key h pk by_ g badState s) := by
  unfold State.formToken; try dsimp only
  repeat' with_reducible first | assumption | (with_unfolding_all exact among hP rfl) | exact fun _ hx => hx | (with_reducible apply onCompute_kept; case hf => intro x; with_unfolding_all rfl) | (with_reducible apply onCompute_kept; case hf => intro x; split <;> with_unfolding_all rfl) | (with_reducible apply onComputeWf_kept; case hf => intro x c; with_unfolding_all exact Table.wf_set _ _ c) | (with_reducible apply onComputeWf_kept; case hf => intro x c; with_unfolding_all exact Table.wf_erase _ c) | (with_reducible apply onComputeWf_kept; case hf => intro x c; with_unfolding_all exact Table.wf_mapFilter _ (fun _ => rfl) c) | apply flowDue_kept | apply setSlotHdr_kept | intro _ | apply ite_kept | split | (simp_all; done)
@[simp] theorem promotedHit_kept (core n : Nat) (p : Packet) (l : Loc) (hit : Bytes) (badState : Bool) (s : State) {P : List Part} {s0 : State} (hP : [.counters, .ports, .traffic, .net, .flow, .stateMem, .compute, .pair, .out] ⊆ P) (hk : Kept P s0 s) : Kept P s0 (State.promotedHit core n p l hit badState s) := by
  unfold State.promotedHit; try dsimp only
  repeat' with_reducible first | assumption | (with_unfolding_all exact among hP rfl) | exact fun _ hx => hx | apply formToken_kept | apply releaseFlow_kept | apply setSlotHdr_kept | apply useVault_kept | intro _ | apply ite_kept | split | (simp_all; done)
@[simp] theorem onToken_kept (k : Nat) (f : Token → Token) (s : State) {P : List Part} {s0 : State} (hP : [.compute] ⊆ P) (hk : Kept P s0 s) : Kept P s0 (State.onToken k f s) := by
  unfold State.onToken; try dsimp only
  repeat' with_reducible first | assumption | (with_unfolding_all exact among hP rfl) | exact fun _ hx => hx | (with_reducible apply onCompute_kept; case hf => intro x; with_unfolding_all rfl) | (with_reducible apply onCompute_kept; case hf => intro x; split <;> with_unfolding_all rfl) | (with_reducible apply onComputeWf_kept; case hf => intro x c; with_unfolding_all exact Table.wf_set _ _ c) | (with_reducible apply onComputeWf_kept; case hf => intro x c; with_unfolding_all exact Table.wf_erase _ c) | (with_reducible apply onComputeWf_kept; case hf => intro x c; with_unfolding_all exact Table.wf_mapFilter _ (fun _ => rfl) c) | intro _ | apply ite_kept | split | (simp_all; done)
@[simp] theorem missed_kept (k layer expert : Nat) (s : State) {P : List Part} {s0 : State} (hP : [.headers, .counters, .compute, .score] ⊆ P) (hk : Kept P s0 s) : Kept P s0 (State.missed k layer expert s) := by
  unfold State.missed; try dsimp only
  repeat' with_reducible first | assumption | (with_unfolding_all exact among hP rfl) | exact fun _ hx => hx | apply deepCount_kept | apply onToken_kept | apply setEvent_kept | intro _ | apply ite_kept | split | (simp_all; done)
@[simp] theorem sendRequest_kept (k : Nat) (t : Token) (g : Generation) (l e : Nat) (s : State) {P : List Part} {s0 : State} (hP : [.headers, .counters, .net, .compute, .score] ⊆ P) (hk : Kept P s0 s) : Kept P s0 (State.sendRequest k t g l e s) := by
  unfold State.sendRequest; try dsimp only
  repeat' with_reducible first | assumption | (with_unfolding_all exact among hP rfl) | exact fun _ hx => hx | (with_reducible apply onCompute_kept; case hf => intro x; with_unfolding_all rfl) | (with_reducible apply onCompute_kept; case hf => intro x; split <;> with_unfolding_all rfl) | (with_reducible apply onComputeWf_kept; case hf => intro x c; with_unfolding_all exact Table.wf_set _ _ c) | (with_reducible apply onComputeWf_kept; case hf => intro x c; with_unfolding_all exact Table.wf_erase _ c) | (with_reducible apply onComputeWf_kept; case hf => intro x c; with_unfolding_all exact Table.wf_mapFilter _ (fun _ => rfl) c) | apply coreBump_kept | apply coreEvent_kept | apply missed_kept | apply onCore_kept | apply onToken_kept | apply sendParcel_kept | intro _ | apply ite_kept | split | (simp_all; done)
@[simp] theorem joinQueue_kept (q : ExpertReq) (s : State) {P : List Part} {s0 : State} (hP : [.compute] ⊆ P) (hk : Kept P s0 s) : Kept P s0 (State.joinQueue q s) := by
  unfold State.joinQueue; try dsimp only
  repeat' with_reducible first | assumption | (with_unfolding_all exact among hP rfl) | exact fun _ hx => hx | (with_reducible apply onCompute_kept; case hf => intro x; with_unfolding_all rfl) | (with_reducible apply onCompute_kept; case hf => intro x; split <;> with_unfolding_all rfl) | (with_reducible apply onComputeWf_kept; case hf => intro x c; with_unfolding_all exact Table.wf_set _ _ c) | (with_reducible apply onComputeWf_kept; case hf => intro x c; with_unfolding_all exact Table.wf_erase _ c) | (with_reducible apply onComputeWf_kept; case hf => intro x c; with_unfolding_all exact Table.wf_mapFilter _ (fun _ => rfl) c) | intro _ | apply ite_kept | split | (simp_all; done)
theorem execExpertBatchClose_kept (dm gen layer expert : Nat) (s : State) {P : List Part} {s0 : State} (hP : [.counters, .compute] ⊆ P) (hk : Kept P s0 s) : ∃ t, execExpertBatchClose dm gen layer expert s = .next t ∧ Kept P s0 t := by
  unfold execExpertBatchClose; try dsimp only
  repeat' with_reducible first | refine ⟨_, rfl, ?_⟩ | assumption | (with_unfolding_all exact among hP rfl) | exact fun _ hx => hx | exact grant_kept _ _ _ _ (among hP rfl) hk ‹_› | (with_reducible apply onCompute_kept; case hf => intro x; with_unfolding_all rfl) | (with_reducible apply onCompute_kept; case hf => intro x; split <;> with_unfolding_all rfl) | (with_reducible apply onComputeWf_kept; case hf => intro x c; with_unfolding_all exact Table.wf_set _ _ c) | (with_reducible apply onComputeWf_kept; case hf => intro x c; with_unfolding_all exact Table.wf_erase _ c) | (with_reducible apply onComputeWf_kept; case hf => intro x c; with_unfolding_all exact Table.wf_mapFilter _ (fun _ => rfl) c) | apply deepCount_kept | apply onCore_kept | intro _ | apply ite_kept | split | (simp_all; done)
@[simp] theorem takeResult_kept (q : ExpertReq) (s : State) {P : List Part} {s0 : State} (hP : [.counters, .compute] ⊆ P) (hk : Kept P s0 s) : Kept P s0 (State.takeResult q s) := by
  unfold State.takeResult; try dsimp only
  repeat' with_reducible first | assumption | (with_unfolding_all exact among hP rfl) | exact fun _ hx => hx | apply deepCount_kept | apply onToken_kept | intro _ | apply ite_kept | split | (simp_all; done)
theorem execExpertMissed_kept (k expert : Nat) (s : State) {P : List Part} {s0 : State} (hP : [.headers, .counters, .compute, .score] ⊆ P) (hk : Kept P s0 s) : ∃ t, execExpertMissed k expert s = .next t ∧ Kept P s0 t := by
  unfold execExpertMissed; try dsimp only
  repeat' with_reducible first | refine ⟨_, rfl, ?_⟩ | assumption | (with_unfolding_all exact among hP rfl) | exact fun _ hx => hx | exact grant_kept _ _ _ _ (among hP rfl) hk ‹_› | apply missed_kept | intro _ | apply ite_kept | split | (simp_all; done)
@[simp] theorem writeStates_kept (t : Token) (g : Generation) (s : State) {P : List Part} {s0 : State} (hP : [.stateMem] ⊆ P) (hk : Kept P s0 s) : Kept P s0 (State.writeStates t g s) := by
  unfold State.writeStates; try dsimp only
  repeat' with_reducible first | assumption | (with_unfolding_all exact among hP rfl) | exact fun _ hx => hx | (with_reducible apply onFlow_kept; case hf => intro _; with_unfolding_all rfl) | (with_reducible apply onMem_kept; case hx => intro _; with_unfolding_all rfl) | apply each_kept | intro _ | apply ite_kept | split | (simp_all; done)
@[simp] theorem tokenLog_kept (t : Token) (v : Verdict) (written released : Bool) (tokens : Nat) (s : State) {P : List Part} {s0 : State} (hP : [.headers, .counters, .objects, .compute, .score] ⊆ P) (hk : Kept P s0 s) : Kept P s0 (State.tokenLog t v written released tokens s) := by
  unfold State.tokenLog; try dsimp only
  repeat' with_reducible first | assumption | (with_unfolding_all exact among hP rfl) | exact fun _ hx => hx | apply ringPut_kept | intro _ | apply ite_kept | split | (simp_all; done)
@[simp] theorem dropToken_kept (k : Nat) (s : State) {P : List Part} {s0 : State} (hP : [.compute] ⊆ P) (hk : Kept P s0 s) : Kept P s0 (State.dropToken k s) := by
  unfold State.dropToken; try dsimp only
  repeat' with_reducible first | assumption | (with_unfolding_all exact among hP rfl) | exact fun _ hx => hx | (with_reducible apply onCompute_kept; case hf => intro x; with_unfolding_all rfl) | (with_reducible apply onCompute_kept; case hf => intro x; split <;> with_unfolding_all rfl) | (with_reducible apply onComputeWf_kept; case hf => intro x c; with_unfolding_all exact Table.wf_set _ _ c) | (with_reducible apply onComputeWf_kept; case hf => intro x c; with_unfolding_all exact Table.wf_erase _ c) | (with_reducible apply onComputeWf_kept; case hf => intro x c; with_unfolding_all exact Table.wf_mapFilter _ (fun _ => rfl) c) | intro _ | apply ite_kept | split | (simp_all; done)
@[simp] theorem abandon_kept (k : Nat) (s : State) {P : List Part} {s0 : State} (hP : [.headers, .counters, .stateMem, .compute, .score] ⊆ P) (hk : Kept P s0 s) : Kept P s0 (State.abandon k s) := by
  unfold State.abandon; try dsimp only
  repeat' with_reducible first | assumption | (with_unfolding_all exact among hP rfl) | exact fun _ hx => hx | apply deepCount_kept | apply dropToken_kept | apply setEvent_kept | apply setSlotHdr_kept | intro _ | apply ite_kept | split | (simp_all; done)
@[simp] theorem headDecision_kept (k : Nat) (t : Token) (g : Generation) (a : Nat) (bad : Bool) (s : State) {P : List Part} {s0 : State} (hP : [.headers, .counters, .ports, .traffic, .net, .objects, .flow, .stateMem, .compute, .pair, .score, .out] ⊆ P) (hk : Kept P s0 s) : Kept P s0 (State.headDecision k t g a bad s) := by
  unfold State.headDecision; try dsimp only
  repeat' with_reducible first | assumption | (with_unfolding_all exact among hP rfl) | exact fun _ hx => hx | apply deepCount_kept | apply dropToken_kept | apply releaseFlow_kept | apply setEvent_kept | apply setSlotHdr_kept | apply stat_kept | apply tokenLog_kept | apply writeBack_kept | apply writeStates_kept | intro _ | apply ite_kept | split | (simp_all; done)
@[simp] theorem headAct_kept (k : Nat) (bad : Bool) (s : State) {P : List Part} {s0 : State} (hP : [.headers, .counters, .ports, .traffic, .net, .objects, .flow, .stateMem, .compute, .pair, .score, .out] ⊆ P) (hk : Kept P s0 s) : Kept P s0 (State.headAct k bad s) := by
  unfold State.headAct; try dsimp only
  repeat' with_reducible first | assumption | (with_unfolding_all exact among hP rfl) | exact fun _ hx => hx | apply abandon_kept | apply headDecision_kept | apply releaseFlow_kept | apply useVault_kept | intro _ | apply ite_kept | split | (simp_all; done)
@[simp] theorem tokenForms_kept (k : Nat) (stale badState : Bool) (s : State) {P : List Part} {s0 : State} (hP : [.headers, .counters, .objects, .compute, .score] ⊆ P) (hk : Kept P s0 s) : Kept P s0 (State.tokenForms k stale badState s) := by
  unfold State.tokenForms; try dsimp only
  repeat' with_reducible first | assumption | (with_unfolding_all exact among hP rfl) | exact fun _ hx => hx | apply deepCount_kept | apply dropToken_kept | apply queueToken_kept | apply ringPut_kept | apply setEvent_kept | intro _ | apply ite_kept | split | (simp_all; done)
@[simp] theorem cancelEmpty_kept (core : Nat) (s : State) {P : List Part} {s0 : State} (hP : [.compute] ⊆ P) (hk : Kept P s0 s) : Kept P s0 (State.cancelEmpty core s) := by
  unfold State.cancelEmpty; try dsimp only
  repeat' with_reducible first | assumption | (with_unfolding_all exact among hP rfl) | exact fun _ hx => hx | apply free_kept | apply onCore_kept | intro _ | apply ite_kept | split | (simp_all; done)
theorem execTokenAbandoned_kept (k : Nat) (s : State) {P : List Part} {s0 : State} (hP : [.headers, .counters, .stateMem, .compute, .score] ⊆ P) (hk : Kept P s0 s) : ∃ t, execTokenAbandoned k s = .next t ∧ Kept P s0 t := by
  unfold execTokenAbandoned; try dsimp only
  repeat' with_reducible first | refine ⟨_, rfl, ?_⟩ | assumption | (with_unfolding_all exact among hP rfl) | exact fun _ hx => hx | exact grant_kept _ _ _ _ (among hP rfl) hk ‹_› | apply abandon_kept | apply cancelEmpty_kept | intro _ | apply ite_kept | split | (simp_all; done)
@[simp] theorem flowOp_kept (o : FlowOp) (s : State) {P : List Part} {s0 : State} (hP : [.headers, .counters, .selid, .ports, .traffic, .net, .objects, .flow, .stateMem, .compute, .pair, .score, .out, .draws] ⊆ P) (hk : Kept P s0 s) : Kept P s0 (State.flowOp o s) := by
  unfold State.flowOp; try dsimp only
  repeat' with_reducible first | assumption | (with_unfolding_all exact among hP rfl) | exact fun _ hx => hx | apply headAct_kept | apply learn_kept | apply moveSecond_kept | apply present_kept | apply promote_kept | apply promoteFlow_kept | apply scan_kept | apply stashIn_kept | apply tokenForms_kept | intro _ | apply ite_kept | split | (simp_all; done)
@[simp] theorem settleFlow_kept (s : State) {P : List Part} {s0 : State} (hP : [.headers, .counters, .selid, .ports, .traffic, .net, .objects, .flow, .stateMem, .compute, .pair, .score, .out, .draws] ⊆ P) (hk : Kept P s0 s) : Kept P s0 (State.settleFlow s) := by
  unfold State.settleFlow; try dsimp only
  repeat' with_reducible first | assumption | (with_unfolding_all exact among hP rfl) | exact fun _ hx => hx | (with_reducible apply onFlow_kept; case hf => intro _; with_unfolding_all rfl) | apply flowOp_kept | apply flushLimit_kept | apply runSlice_kept | apply stashIn_kept | apply each_kept | intro _ | apply ite_kept | split | (simp_all; done)
@[simp] theorem openTeam_kept (port : Nat) (f : Bytes) (h : SelidHead) (s : State) {P : List Part} {s0 : State} (hP : [.headers, .counters, .team, .score] ⊆ P) (hk : Kept P s0 s) : Kept P s0 (State.openTeam port f h s).1 := by
  unfold State.openTeam; try dsimp only
  repeat' with_reducible first | assumption | (with_unfolding_all exact among hP rfl) | exact fun _ hx => hx | apply deepCount_kept | apply onTeam_kept | apply setEvent_kept | intro _ | apply ite_kept | split | (simp_all; done)
@[simp] theorem teamRecord_kept (port : Nat) (g : Generation) (op layer : Nat) (b : Bytes) (s : State) {P : List Part} {s0 : State} (hP : [.net, .compute] ⊆ P) (hk : Kept P s0 s) : Kept P s0 (State.teamRecord port g op layer b s) := by
  unfold State.teamRecord; try dsimp only
  repeat' with_reducible first | assumption | (with_unfolding_all exact among hP rfl) | exact fun _ hx => hx | (with_reducible apply onCompute_kept; case hf => intro x; with_unfolding_all rfl) | (with_reducible apply onCompute_kept; case hf => intro x; split <;> with_unfolding_all rfl) | (with_reducible apply onComputeWf_kept; case hf => intro x c; with_unfolding_all exact Table.wf_set _ _ c) | (with_reducible apply onComputeWf_kept; case hf => intro x c; with_unfolding_all exact Table.wf_erase _ c) | (with_reducible apply onComputeWf_kept; case hf => intro x c; with_unfolding_all exact Table.wf_mapFilter _ (fun _ => rfl) c) | apply sendParcel_kept | intro _ | apply ite_kept | split | (simp_all; done)
@[simp] theorem teamRecords_kept (port : Nat) (g : Generation) (op layer n : Nat) (b : Bytes) (s : State) {P : List Part} {s0 : State} (hP : [.net, .compute] ⊆ P) (hk : Kept P s0 s) : Kept P s0 (State.teamRecords port g op layer n b s) := by
  induction n generalizing s b with
  | zero => unfold State.teamRecords; repeat' with_reducible first | assumption | (with_unfolding_all exact among hP rfl) | exact fun _ hx => hx | apply teamRecord_kept | intro _ | apply ite_kept | split | (simp_all; done)
  | succ k ih =>
    unfold State.teamRecords; try dsimp only
    repeat' with_reducible first | assumption | (with_unfolding_all exact among hP rfl) | exact fun _ hx => hx | apply ih | apply teamRecord_kept | intro _ | apply ite_kept | split | (simp_all; done)
@[simp] theorem takePeer_kept (port kind : Nat) (f : Bytes) (s : State) {P : List Part} {s0 : State} (hP : [.counters, .ports] ⊆ P) (hk : Kept P s0 s) : Kept P s0 (State.takePeer port kind f s).1 := by
  unfold State.takePeer; try dsimp only
  repeat' with_reducible first | assumption | (with_unfolding_all exact among hP rfl) | exact fun _ hx => hx | apply rxCheck_kept | intro _ | apply ite_kept | split | (simp_all; done)
@[simp] theorem deepWrite_kept (off : Nat) (v : Word) (s : State) {P : List Part} {s0 : State} (hP : [.registers] ⊆ P) (hk : Kept P s0 s) : Kept P s0 (State.deepWrite off v s) := by
  unfold State.deepWrite; try dsimp only
  repeat' with_reducible first | assumption | (with_unfolding_all exact among hP rfl) | exact fun _ hx => hx | apply setReg_kept | intro _ | apply ite_kept | split | (simp_all; done)
@[simp] theorem arrayCount_kept (c e n : Nat) (s : State) {P : List Part} {s0 : State} (hP : [.counters] ⊆ P) (hk : Kept P s0 s) : Kept P s0 (State.arrayCount c e n s) := by
  unfold State.arrayCount; try dsimp only
  repeat' with_reducible first | assumption | (with_unfolding_all exact among hP rfl) | exact fun _ hx => hx | apply coreBump_kept | intro _ | apply ite_kept | split | (simp_all; done)
@[simp] theorem arrayNote_kept (c e b n : Nat) (s : State) {P : List Part} {s0 : State} (hP : [.headers, .counters, .score] ⊆ P) (hk : Kept P s0 s) : Kept P s0 (State.arrayNote c e b n s) := by
  unfold State.arrayNote; try dsimp only
  repeat' with_reducible first | assumption | (with_unfolding_all exact among hP rfl) | exact fun _ hx => hx | apply coreBump_kept | apply coreEvent_kept | intro _ | apply ite_kept | split | (simp_all; done)
@[simp] theorem narrow_kept (core gen : Nat) (l : LayerD) (a4 : Bool) (relu : Bool) (rd : Nat → Byte) (chs : List Nat) (acc : List Int) (s : State) {P : List Part} {s0 : State} (hP : [.headers, .counters, .compute, .score] ⊆ P) (hk : Kept P s0 s) : Kept P s0 (State.narrow core gen l a4 relu rd chs acc s).1 := by
  unfold State.narrow; try dsimp only
  repeat' with_reducible first | assumption | (with_unfolding_all exact among hP rfl) | exact fun _ hx => hx | apply arrayNote_kept | apply observe_kept | apply onCore_kept | apply each_kept | intro _ | apply ite_kept | split | (simp_all; done)
@[simp] theorem layerEnd_kept (core ctx i a : Nat) (s : State) {P : List Part} {s0 : State} (hP : [.compute] ⊆ P) (hk : Kept P s0 s) : Kept P s0 (State.layerEnd core ctx i a s) := by
  unfold State.layerEnd; try dsimp only
  repeat' with_reducible first | assumption | (with_unfolding_all exact among hP rfl) | exact fun _ hx => hx | apply onCtx_kept | apply onToken_kept | intro _ | apply ite_kept | split | (simp_all; done)
@[simp] theorem finish_kept (core ctx : Nat) (x : Ctx) (i a j : Nat) (l : LayerD) (acc : List Int) (s : State) {P : List Part} {s0 : State} (hP : [.headers, .counters, .compute, .score] ⊆ P) (hk : Kept P s0 s) : Kept P s0 (State.finish core ctx x i a j l acc s) := by
  unfold State.finish; try dsimp only
  repeat' with_reducible first | assumption | (with_unfolding_all exact among hP rfl) | exact fun _ hx => hx | apply layerEnd_kept | apply narrow_kept | apply onCtx_kept | apply store_kept | intro _ | apply ite_kept | split | (simp_all; done)
@[simp] theorem passCounts_kept (core bad unused groupSat clamps : Nat) (s : State) {P : List Part} {s0 : State} (hP : [.headers, .counters, .score] ⊆ P) (hk : Kept P s0 s) : Kept P s0 (State.passCounts core bad unused groupSat clamps s) := by
  unfold State.passCounts; try dsimp only
  repeat' with_reducible first | assumption | (with_unfolding_all exact among hP rfl) | exact fun _ hx => hx | apply arrayNote_kept | intro _ | apply ite_kept | split | (simp_all; done)
@[simp] theorem joinTokens_kept (x : Ctx) (s : State) {P : List Part} {s0 : State} (hP : [.compute] ⊆ P) (hk : Kept P s0 s) : Kept P s0 (State.joinTokens x s) := by
  unfold State.joinTokens; try dsimp only
  repeat' with_reducible first | assumption | (with_unfolding_all exact among hP rfl) | exact fun _ hx => hx | apply onToken_kept | apply each_kept | intro _ | apply ite_kept | split | (simp_all; done)
@[simp] theorem passRan_kept (core : Nat) (l : LayerD) (j arr region : Nat) (slots : List Nat) (p : Pass) (s : State) {P : List Part} {s0 : State} (hP : [.headers, .counters, .compute, .score] ⊆ P) (hk : Kept P s0 s) : Kept P s0 (State.passRan core l j arr region slots p s) := by
  unfold State.passRan; try dsimp only
  repeat' with_reducible first | assumption | (with_unfolding_all exact among hP rfl) | exact fun _ hx => hx | apply onCore_kept | apply passCounts_kept | intro _ | apply ite_kept | split | (simp_all; done)
@[simp] theorem leaveRegion_kept (core : Nat) (r : ArrayRun) (scrap : Bool) (s : State) {P : List Part} {s0 : State} (hP : [.compute] ⊆ P) (hk : Kept P s0 s) : Kept P s0 (State.leaveRegion core r scrap s) := by
  unfold State.leaveRegion; try dsimp only
  repeat' with_reducible first | assumption | (with_unfolding_all exact among hP rfl) | exact fun _ hx => hx | apply onCore_kept | intro _ | apply ite_kept | split | (simp_all; done)
@[simp] theorem discardRun_kept (core ctx : Nat) (s : State) {P : List Part} {s0 : State} (hP : [.counters, .compute] ⊆ P) (hk : Kept P s0 s) : Kept P s0 (State.discardRun core ctx s) := by
  unfold State.discardRun; try dsimp only
  repeat' with_reducible first | assumption | (with_unfolding_all exact among hP rfl) | exact fun _ hx => hx | apply arrayCount_kept | apply leaveRegion_kept | intro _ | apply ite_kept | split | (simp_all; done)
@[simp] theorem markSuspect_kept (core arr : Nat) (s : State) {P : List Part} {s0 : State} (hP : [.headers, .compute, .score] ⊆ P) (hk : Kept P s0 s) : Kept P s0 (State.markSuspect core arr s) := by
  unfold State.markSuspect; try dsimp only
  repeat' with_reducible first | assumption | (with_unfolding_all exact among hP rfl) | exact fun _ hx => hx | apply onCore_kept | apply setFaulted_kept | intro _ | apply ite_kept | split | (simp_all; done)
@[simp] theorem struckTiles_kept (core kind : Nat) (r : ArrayRun) (x : Ctx) (e : Entry) (s : State) {P : List Part} {s0 : State} (hP : [.headers, .counters, .compute, .score] ⊆ P) (hk : Kept P s0 s) : Kept P s0 (State.struckTiles core kind r x e s) := by
  unfold State.struckTiles; try dsimp only
  repeat' with_reducible first | assumption | (with_unfolding_all exact among hP rfl) | exact fun _ hx => hx | apply passRan_kept | intro _ | apply ite_kept | split | (simp_all; done)
@[simp] theorem abortRun_kept (core kind arr limit : Nat) (r : ArrayRun) (s : State) {P : List Part} {s0 : State} (hP : [.headers, .counters, .compute, .score] ⊆ P) (hk : Kept P s0 s) : Kept P s0 (State.abortRun core kind arr limit r s) := by
  unfold State.abortRun; try dsimp only
  repeat' with_reducible first | assumption | (with_unfolding_all exact among hP rfl) | exact fun _ hx => hx | apply arrayCount_kept | apply coreEvent_kept | apply leaveRegion_kept | apply markSuspect_kept | apply onCtx_kept | apply struckTiles_kept | intro _ | apply ite_kept | split | (simp_all; done)
@[simp] theorem passFails_kept (core ctx kind arr region : Nat) (s : State) {P : List Part} {s0 : State} (hP : [.headers, .registers, .counters, .compute, .score] ⊆ P) (hk : Kept P s0 s) : Kept P s0 (State.passFails core ctx kind arr region s) := by
  unfold State.passFails; try dsimp only
  repeat' with_reducible first | assumption | (with_unfolding_all exact among hP rfl) | exact fun _ hx => hx | apply abortRun_kept | apply arrayNote_kept | apply markSuspect_kept | apply setFaulted_kept | apply setReg_kept | apply each_kept | intro _ | apply ite_kept | split | (simp_all; done)
@[simp] theorem startPass_kept (core ctx : Nat) (x : Ctx) (e : Entry) (s : State) {P : List Part} {s0 : State} (hP : [.headers, .registers, .counters, .compute, .score] ⊆ P) (hk : Kept P s0 s) : Kept P s0 (State.startPass core ctx x e s) := by
  unfold State.startPass; try dsimp only
  repeat' with_reducible first | assumption | (with_unfolding_all exact among hP rfl) | exact fun _ hx => hx | apply arrayCount_kept | apply joinTokens_kept | apply onCore_kept | apply passFails_kept | apply place_kept | apply setFaulted_kept | intro _ | apply ite_kept | split | (simp_all; done)
@[simp] theorem runDone_kept (core : Nat) (r : ArrayRun) (s : State) {P : List Part} {s0 : State} (hP : [.compute] ⊆ P) (hk : Kept P s0 s) : Kept P s0 (State.runDone core r s) := by
  unfold State.runDone; try dsimp only
  repeat' with_reducible first | assumption | (with_unfolding_all exact among hP rfl) | exact fun _ hx => hx | apply goTo_kept | apply leaveRegion_kept | apply onCtx_kept | apply passAhead_kept | intro _ | apply ite_kept | split | (simp_all; done)
@[simp] theorem passEnds_kept (core : Nat) (r : ArrayRun) (x : Ctx) (e : Entry) (s : State) {P : List Part} {s0 : State} (hP : [.headers, .counters, .compute, .score] ⊆ P) (hk : Kept P s0 s) : Kept P s0 (State.passEnds core r x e s) := by
  unfold State.passEnds; try dsimp only
  repeat' with_reducible first | assumption | (with_unfolding_all exact among hP rfl) | exact fun _ hx => hx | apply arrayCount_kept | apply finish_kept | apply passRan_kept | apply each_kept | intro _ | apply ite_kept | split | (simp_all; done)
@[simp] theorem mvecEnds_kept (core : Nat) (r : ArrayRun) (x : Ctx) (e : Entry) (s : State) {P : List Part} {s0 : State} (hP : [.headers, .counters, .compute, .score] ⊆ P) (hk : Kept P s0 s) : Kept P s0 (State.mvecEnds core r x e s) := by
  unfold State.mvecEnds; try dsimp only
  repeat' with_reducible first | assumption | (with_unfolding_all exact among hP rfl) | exact fun _ hx => hx | apply finish_kept | apply passCounts_kept | apply each_kept | intro _ | apply ite_kept | split | (simp_all; done)
@[simp] theorem sealed_kept (core : Nat) (r : ArrayRun) (m : SealedMove) (s : State) {P : List Part} {s0 : State} (hP : [.counters, .compute] ⊆ P) (hk : Kept P s0 s) : Kept P s0 (State.sealed core r m s) := by
  unfold State.sealed; try dsimp only
  repeat' with_reducible first | assumption | (with_unfolding_all exact among hP rfl) | exact fun _ hx => hx | apply arrayCount_kept | apply leaveRegion_kept | apply onCtx_kept | intro _ | apply ite_kept | split | (simp_all; done)
@[simp] theorem runEnds_kept (core : Nat) (r : ArrayRun) (s : State) {P : List Part} {s0 : State} (hP : [.headers, .counters, .compute, .score] ⊆ P) (hk : Kept P s0 s) : Kept P s0 (State.runEnds core r s) := by
  unfold State.runEnds; try dsimp only
  repeat' with_reducible first | assumption | (with_unfolding_all exact among hP rfl) | exact fun _ hx => hx | apply leaveRegion_kept | apply mvecEnds_kept | apply passEnds_kept | apply runDone_kept | apply sealed_kept | intro _ | apply ite_kept | split | (simp_all; done)
@[simp] theorem rescales_kept (core : Nat) (r : ArrayRun) (s : State) {P : List Part} {s0 : State} (hP : [.compute] ⊆ P) (hk : Kept P s0 s) : Kept P s0 (State.rescales core r s) := by
  unfold State.rescales; try dsimp only
  repeat' with_reducible first | assumption | (with_unfolding_all exact among hP rfl) | exact fun _ hx => hx | apply onCore_kept | intro _ | apply ite_kept | split | (simp_all; done)
@[simp] theorem settleArrays_kept (s : State) {P : List Part} {s0 : State} (hP : [.headers, .counters, .compute, .score] ⊆ P) (hk : Kept P s0 s) : Kept P s0 (State.settleArrays s) := by
  unfold State.settleArrays; try dsimp only
  repeat' with_reducible first | assumption | (with_unfolding_all exact among hP rfl) | exact fun _ hx => hx | apply rescales_kept | apply runEnds_kept | apply each_kept | intro _ | apply ite_kept | split | (simp_all; done)
@[simp] theorem takeUnit_kept (core n : Nat) (s : State) {P : List Part} {s0 : State} (hP : [.compute] ⊆ P) (hk : Kept P s0 s) : Kept P s0 (State.takeUnit core n s) := by
  unfold State.takeUnit; try dsimp only
  repeat' with_reducible first | assumption | (with_unfolding_all exact among hP rfl) | exact fun _ hx => hx | apply onCore_kept | intro _ | apply ite_kept | split | (simp_all; done)
@[simp] theorem charge_kept (core ctx n : Nat) (s : State) {P : List Part} {s0 : State} (hP : [.counters, .compute, .power] ⊆ P) (hk : Kept P s0 s) : Kept P s0 (State.charge core ctx n s) := by
  unfold State.charge
  have hg : Kept P s0 ((State.grant core (s.ctx core ctx).task.cls n s).getD s) := by
    cases h : State.grant core (s.ctx core ctx).task.cls n s with
    | none => exact hk
    | some v => exact grant_kept _ _ _ _ (among hP rfl) hk h
  repeat' with_reducible first | assumption | (with_unfolding_all exact among hP rfl) | exact fun _ hx => hx | exact hg | apply onCtx_kept | intro _ | apply ite_kept | split | (simp_all; done)
@[simp] theorem stepEnd_kept (core key : Nat) (s : State) {P : List Part} {s0 : State} (hP : [.counters, .compute] ⊆ P) (hk : Kept P s0 s) : Kept P s0 (State.stepEnd core key s) := by
  unfold State.stepEnd; try dsimp only
  repeat' with_reducible first | assumption | (with_unfolding_all exact among hP rfl) | exact fun _ hx => hx | apply arrayCount_kept | apply onCore_kept | intro _ | apply ite_kept | split | (simp_all; done)
@[simp] theorem settleSteps_kept (s : State) {P : List Part} {s0 : State} (hP : [.counters, .compute] ⊆ P) (hk : Kept P s0 s) : Kept P s0 (State.settleSteps s) := by
  unfold State.settleSteps; try dsimp only
  repeat' with_reducible first | assumption | (with_unfolding_all exact among hP rfl) | exact fun _ hx => hx | (with_reducible apply onCompute_kept; case hf => intro x; with_unfolding_all rfl) | (with_reducible apply onCompute_kept; case hf => intro x; split <;> with_unfolding_all rfl) | (with_reducible apply onComputeWf_kept; case hf => intro x c; with_unfolding_all exact Table.wf_set _ _ c) | (with_reducible apply onComputeWf_kept; case hf => intro x c; with_unfolding_all exact Table.wf_erase _ c) | (with_reducible apply onComputeWf_kept; case hf => intro x c; with_unfolding_all exact Table.wf_mapFilter _ (fun _ => rfl) c) | apply stepEnd_kept | apply each_kept | intro _ | apply ite_kept | split | (simp_all; done)
@[simp] theorem arrayWrite_kept (page off : Nat) (v : Word) (s : State) {P : List Part} {s0 : State} (hP : [.registers] ⊆ P) (hk : Kept P s0 s) : Kept P s0 (State.arrayWrite page off v s) := by
  unfold State.arrayWrite; try dsimp only
  repeat' with_reducible first | assumption | (with_unfolding_all exact among hP rfl) | exact fun _ hx => hx | apply setReg_kept | intro _ | apply ite_kept | split | (simp_all; done)
@[simp] theorem onStream_kept (c n : Nat) (f : Stream → Stream) (s : State) {P : List Part} {s0 : State} (hP : [.compute] ⊆ P) (hk : Kept P s0 s) : Kept P s0 (State.onStream c n f s) := by
  unfold State.onStream; try dsimp only
  repeat' with_reducible first | assumption | (with_unfolding_all exact among hP rfl) | exact fun _ hx => hx | apply onCore_kept | intro _ | apply ite_kept | split | (simp_all; done)
@[simp] theorem streamCount_kept (c e n : Nat) (s : State) {P : List Part} {s0 : State} (hP : [.counters] ⊆ P) (hk : Kept P s0 s) : Kept P s0 (State.streamCount c e n s) := by
  unfold State.streamCount; try dsimp only
  repeat' with_reducible first | assumption | (with_unfolding_all exact among hP rfl) | exact fun _ hx => hx | apply coreBump_kept | intro _ | apply ite_kept | split | (simp_all; done)
@[simp] theorem writeModel_kept (core sched gen a : Nat) (v : Byte) (s : State) {P : List Part} {s0 : State} (hP : [.objects, .stateMem] ⊆ P) (hk : Kept P s0 s) : Kept P s0 (State.writeModel core sched gen a v s) := by
  unfold State.writeModel; try dsimp only
  repeat' with_reducible first | assumption | (with_unfolding_all exact among hP rfl) | exact fun _ hx => hx | (with_reducible apply onFlow_kept; case hf => intro _; with_unfolding_all rfl) | (with_reducible apply onMem_kept; case hx => intro _; with_unfolding_all rfl) | apply onObjects_kept | apply place_kept | intro _ | apply ite_kept | split | (simp_all; done)
@[simp] theorem readData_kept (c n off len : Nat) (bytes : Bytes) (s : State) {P : List Part} {s0 : State} (hP : [.compute] ⊆ P) (hk : Kept P s0 s) : Kept P s0 (State.readData c n off len bytes s) := by
  unfold State.readData; try dsimp only
  repeat' with_reducible first | assumption | (with_unfolding_all exact among hP rfl) | exact fun _ hx => hx | apply finish_kept | apply onCore_kept | intro _ | apply ite_kept | split | (simp_all; done)
@[simp] theorem writeData_kept (c n sched gen off len a : Nat) (s : State) {P : List Part} {s0 : State} (hP : [.traffic, .objects, .stateMem, .compute] ⊆ P) (hk : Kept P s0 s) : Kept P s0 (State.writeData c n sched gen off len a s) := by
  unfold State.writeData; try dsimp only
  repeat' with_reducible first | assumption | (with_unfolding_all exact among hP rfl) | exact fun _ hx => hx | apply finish_kept | apply onCore_kept | apply onStream_kept | apply settle_kept | apply writeModel_kept | apply each_kept | intro _ | apply ite_kept | split | (simp_all; done)
@[simp] theorem freeStopped_kept (core : Nat) (s : State) {P : List Part} {s0 : State} (hP : [.compute] ⊆ P) (hk : Kept P s0 s) : Kept P s0 (State.freeStopped core s) := by
  unfold State.freeStopped; try dsimp only
  repeat' with_reducible first | assumption | (with_unfolding_all exact among hP rfl) | exact fun _ hx => hx | apply onCore_kept | intro _ | apply ite_kept | split | (simp_all; done)
@[simp] theorem pieceStep_kept (core : Nat) (s : State) {P : List Part} {s0 : State} (hP : [.compute] ⊆ P) (hk : Kept P s0 s) : Kept P s0 (State.pieceStep core s) := by
  unfold State.pieceStep; try dsimp only
  repeat' with_reducible first | assumption | (with_unfolding_all exact among hP rfl) | exact fun _ hx => hx | apply onCore_kept | intro _ | apply ite_kept | split | (simp_all; done)
@[simp] theorem launchPiece_kept (core : Nat) (p : Piece) (s : State) {P : List Part} {s0 : State} (hP : [.counters, .net, .compute] ⊆ P) (hk : Kept P s0 s) : Kept P s0 (State.launchPiece core p s) := by
  unfold State.launchPiece; try dsimp only
  repeat' with_reducible first | assumption | (with_unfolding_all exact among hP rfl) | exact fun _ hx => hx | apply issued_kept | apply onNet_kept | intro _ | apply ite_kept | split | (simp_all; done)
@[simp] theorem retirePage_kept (g : Generation) (page : Nat) (s : State) {P : List Part} {s0 : State} (hP : [.headers, .registers, .compute, .score] ⊆ P) (hk : Kept P s0 s) : Kept P s0 (State.retirePage g page s) := by
  unfold State.retirePage; try dsimp only
  repeat' with_reducible first | assumption | (with_unfolding_all exact among hP rfl) | exact fun _ hx => hx | (with_reducible apply onCompute_kept; case hf => intro x; with_unfolding_all rfl) | (with_reducible apply onCompute_kept; case hf => intro x; split <;> with_unfolding_all rfl) | (with_reducible apply onComputeWf_kept; case hf => intro x c; with_unfolding_all exact Table.wf_set _ _ c) | (with_reducible apply onComputeWf_kept; case hf => intro x c; with_unfolding_all exact Table.wf_erase _ c) | (with_reducible apply onComputeWf_kept; case hf => intro x c; with_unfolding_all exact Table.wf_mapFilter _ (fun _ => rfl) c) | apply setEvent_kept | apply setReg_kept | intro _ | apply ite_kept | split | (simp_all; done)
@[simp] theorem retireAt_kept (sched gen page : Nat) (s : State) {P : List Part} {s0 : State} (hP : [.headers, .registers, .compute, .score] ⊆ P) (hk : Kept P s0 s) : Kept P s0 (State.retireAt sched gen page s) := by
  unfold State.retireAt; try dsimp only
  repeat' with_reducible first | assumption | (with_unfolding_all exact among hP rfl) | exact fun _ hx => hx | apply retirePage_kept | intro _ | apply ite_kept | split | (simp_all; done)
@[simp] theorem pieceEnds_kept (core tag err : Nat) (p : Piece) (s : State) {P : List Part} {s0 : State} (hP : [.headers, .registers, .counters, .compute, .power, .reliab, .score] ⊆ P) (hk : Kept P s0 s) : Kept P s0 (State.pieceEnds core tag err p s) := by
  unfold State.pieceEnds; try dsimp only
  repeat' with_reducible first | assumption | (with_unfolding_all exact among hP rfl) | exact fun _ hx => hx | apply freeStopped_kept | apply lineErr_kept | apply onCore_kept | apply onStream_kept | apply readData_kept | apply retireAt_kept | apply streamCount_kept | intro _ | apply ite_kept | split | (simp_all; done)
@[simp] theorem takeVault_kept (core : Nat) (p : Piece) (s : State) {P : List Part} {s0 : State} (hP : [.counters, .net, .compute] ⊆ P) (hk : Kept P s0 s) : Kept P s0 (State.takeVault core p s) := by
  unfold State.takeVault; try dsimp only
  repeat' with_reducible first | assumption | (with_unfolding_all exact among hP rfl) | exact fun _ hx => hx | apply issued_kept | apply landed_kept | apply useVault_kept | intro _ | apply ite_kept | split | (simp_all; done)
theorem execPieceRetry_kept (core tag : Nat) (s : State) {P : List Part} {s0 : State} (hP : [.counters, .net, .compute] ⊆ P) (hk : Kept P s0 s) : ∃ t, execPieceRetry core tag s = .next t ∧ Kept P s0 t := by
  unfold execPieceRetry; try dsimp only
  repeat' with_reducible first | refine ⟨_, rfl, ?_⟩ | assumption | (with_unfolding_all exact among hP rfl) | exact fun _ hx => hx | exact grant_kept _ _ _ _ (among hP rfl) hk ‹_› | apply freeStopped_kept | apply launchPiece_kept | apply onCore_kept | apply onStream_kept | intro _ | apply ite_kept | split | (simp_all; done)
@[simp] theorem pageFault_kept (core ctx : Nat) (f : Nat × Nat × Nat) (s : State) {P : List Part} {s0 : State} (hP : [.headers, .registers, .counters, .compute, .score] ⊆ P) (hk : Kept P s0 s) : Kept P s0 (State.pageFault core ctx f s) := by
  unfold State.pageFault; try dsimp only
  repeat' with_reducible first | assumption | (with_unfolding_all exact among hP rfl) | exact fun _ hx => hx | apply coreEvent_kept | apply onCtx_kept | apply setReg_kept | apply streamCount_kept | intro _ | apply ite_kept | split | (simp_all; done)
theorem streamEntry_kept {core ctx cmd : Nat} {run : Ctx → Entry → StreamD → Nat → State → State} {P : List Part} {s u : State} (hP : [.counters, .compute, .power] ⊆ P) (hr : ∀ x e q n t, Kept P s t → Kept P s (run x e q n t)) (h : Kept P s u) : Kept P s (State.streamEntry core ctx cmd run u) := by
  unfold State.streamEntry; refine issueFrom_kept (among hP rfl) ?_ h; intro x e t ht; try dsimp only
  repeat' with_reducible first | assumption | (with_unfolding_all exact among hP rfl) | exact fun _ hx => hx | apply hr | apply issueFrom_kept | intro _ | apply ite_kept | split | (simp_all; done)
@[simp] theorem closeStream_kept (core n : Nat) (s : State) {P : List Part} {s0 : State} (hP : [.compute] ⊆ P) (hk : Kept P s0 s) : Kept P s0 (State.closeStream core n s) := by
  unfold State.closeStream; try dsimp only
  repeat' with_reducible first | assumption | (with_unfolding_all exact among hP rfl) | exact fun _ hx => hx | apply onCore_kept | intro _ | apply ite_kept | split | (simp_all; done)
theorem execLoadingTimeout_kept (core ctx : Nat) (s : State) {P : List Part} {s0 : State} (hP : [.headers, .registers, .counters, .compute, .score] ⊆ P) (hk : Kept P s0 s) : ∃ t, execLoadingTimeout core ctx s = .next t ∧ Kept P s0 t := by
  unfold execLoadingTimeout; try dsimp only
  repeat' with_reducible first | refine ⟨_, rfl, ?_⟩ | assumption | (with_unfolding_all exact among hP rfl) | exact fun _ hx => hx | exact grant_kept _ _ _ _ (among hP rfl) hk ‹_› | apply onStream_kept | apply pageFault_kept | intro _ | apply ite_kept | split | (simp_all; done)
@[simp] theorem missAll_kept (g : Generation) (op layer n : Nat) (b : Bytes) (s : State) {P : List Part} {s0 : State} (hP : [.headers, .counters, .compute, .score] ⊆ P) (hk : Kept P s0 s) : Kept P s0 (State.missAll g op layer n b s) := by
  induction n generalizing s b with
  | zero => unfold State.missAll; repeat' with_reducible first | assumption | (with_unfolding_all exact among hP rfl) | exact fun _ hx => hx | apply missed_kept | intro _ | apply ite_kept | split | (simp_all; done)
  | succ k ih =>
    unfold State.missAll; try dsimp only
    repeat' with_reducible first | assumption | (with_unfolding_all exact among hP rfl) | exact fun _ hx => hx | apply ih | apply missed_kept | intro _ | apply ite_kept | split | (simp_all; done)
@[simp] theorem missSlot_kept (p : PeerSlot) (s : State) {P : List Part} {s0 : State} (hP : [.headers, .counters, .compute, .score] ⊆ P) (hk : Kept P s0 s) : Kept P s0 (State.missSlot p s) := by
  unfold State.missSlot; try dsimp only
  repeat' with_reducible first | assumption | (with_unfolding_all exact among hP rfl) | exact fun _ hx => hx | apply missAll_kept | intro _ | apply ite_kept | split | (simp_all; done)
@[simp] theorem freePeer_kept (core i : Nat) (p : PeerSlot) (s : State) {P : List Part} {s0 : State} (hP : [.traffic, .compute] ⊆ P) (hk : Kept P s0 s) : Kept P s0 (State.freePeer core i p s) := by
  unfold State.freePeer; try dsimp only
  repeat' with_reducible first | assumption | (with_unfolding_all exact among hP rfl) | exact fun _ hx => hx | apply onCore_kept | apply onStream_kept | apply pieceStep_kept | apply settle_kept | intro _ | apply ite_kept | split | (simp_all; done)
@[simp] theorem tagWaits_kept (core : Nat) (s : State) {P : List Part} {s0 : State} (hP : [.counters, .compute] ⊆ P) (hk : Kept P s0 s) : Kept P s0 (State.tagWaits core s) := by
  unfold State.tagWaits; try dsimp only
  repeat' with_reducible first | assumption | (with_unfolding_all exact among hP rfl) | exact fun _ hx => hx | apply issued_kept | apply pieceStep_kept | apply streamCount_kept | intro _ | apply ite_kept | split | (simp_all; done)
@[simp] theorem frees_kept (n : Nat) (s : State) {P : List Part} {s0 : State} (hP : [.draws] ⊆ P) (hk : Kept P s0 s) : Kept P s0 (State.frees n s).2 := by
  induction n generalizing s  with
  | zero => unfold State.frees; repeat' with_reducible first | assumption | (with_unfolding_all exact among hP rfl) | exact fun _ hx => hx | apply free_kept | intro _ | apply ite_kept | split | (simp_all; done)
  | succ k ih =>
    unfold State.frees; try dsimp only
    repeat' with_reducible first | assumption | (with_unfolding_all exact among hP rfl) | exact fun _ hx => hx | apply ih | apply free_kept | intro _ | apply ite_kept | split | (simp_all; done)
@[simp] theorem fillTask_kept (v : Volume) (o : Nat) (t : TaskDesc) (s : State) {P : List Part} {s0 : State} (hP : [.draws] ⊆ P) (hk : Kept P s0 s) : Kept P s0 (State.fillTask v o t s).2 := by
  unfold State.fillTask; try dsimp only
  repeat' with_reducible first | assumption | (with_unfolding_all exact among hP rfl) | exact fun _ hx => hx | apply frees_kept | intro _ | apply ite_kept | split | (simp_all; done)
@[simp] theorem countShed_kept (die k : Nat) (s : State) {P : List Part} {s0 : State} (hP : [.counters] ⊆ P) (hk : Kept P s0 s) : Kept P s0 (State.countShed die k s) := by
  unfold State.countShed; try dsimp only
  repeat' with_reducible first | assumption | (with_unfolding_all exact among hP rfl) | exact fun _ hx => hx | apply tempoCount_kept | intro _ | apply ite_kept | split | (simp_all; done)
@[simp] theorem place_kept (core ctx : Nat) (t : TaskDesc) (rate : Nat) (s : State) {P : List Part} {s0 : State} (hP : [.counters, .compute] ⊆ P) (hk : Kept P s0 s) : Kept P s0 (State.place core ctx t rate s) := by
  unfold State.place; try dsimp only
  repeat' with_reducible first | assumption | (with_unfolding_all exact among hP rfl) | exact fun _ hx => hx | apply countShed_kept | apply noteRelease_kept | apply onCtx_kept | apply seqCount_kept | apply shed_kept | intro _ | apply ite_kept | split | (simp_all; done)
@[simp] theorem dropPackets_kept (l : List Nat) (s : State) {P : List Part} {s0 : State} (hP : [.traffic] ⊆ P) (hk : Kept P s0 s) : Kept P s0 (State.dropPackets l s) := by
  unfold State.dropPackets; try dsimp only
  repeat' with_reducible first | assumption | (with_unfolding_all exact among hP rfl) | exact fun _ hx => hx | apply onPacket_kept | apply settle_kept | apply each_kept | intro _ | apply ite_kept | split | (simp_all; done)
@[simp] theorem closeDue_kept (core n gen : Nat) (s : State) {P : List Part} {s0 : State} (hP : [.counters, .traffic, .compute] ⊆ P) (hk : Kept P s0 s) : Kept P s0 (State.closeDue core n gen s) := by
  unfold State.closeDue; try dsimp only
  repeat' with_reducible first | assumption | (with_unfolding_all exact among hP rfl) | exact fun _ hx => hx | apply dropPackets_kept | apply onCore_kept | apply tempoCount_kept | intro _ | apply ite_kept | split | (simp_all; done)
@[simp] theorem settleBatches_kept (s : State) {P : List Part} {s0 : State} (hP : [.counters, .traffic, .compute] ⊆ P) (hk : Kept P s0 s) : Kept P s0 (State.settleBatches s) := by
  unfold State.settleBatches; try dsimp only
  repeat' with_reducible first | assumption | (with_unfolding_all exact among hP rfl) | exact fun _ hx => hx | apply closeDue_kept | apply each_kept | intro _ | apply ite_kept | split | (simp_all; done)
@[simp] theorem joinBatch_kept (core n gen k : Nat) (s : State) {P : List Part} {s0 : State} (hP : [.counters, .traffic, .compute] ⊆ P) (hk : Kept P s0 s) : Kept P s0 (State.joinBatch core n gen k s) := by
  unfold State.joinBatch; try dsimp only
  repeat' with_reducible first | assumption | (with_unfolding_all exact among hP rfl) | exact fun _ hx => hx | apply closeDue_kept | apply onCore_kept | apply onPacket_kept | intro _ | apply ite_kept | split | (simp_all; done)
@[simp] theorem putVectors_kept (core : Nat) (t : TaskDesc) (s : State) {P : List Part} {s0 : State} (hP : [.compute] ⊆ P) (hk : Kept P s0 s) : Kept P s0 (State.putVectors core t s) := by
  unfold State.putVectors; try dsimp only
  repeat' with_reducible first | assumption | (with_unfolding_all exact among hP rfl) | exact fun _ hx => hx | apply onCore_kept | intro _ | apply ite_kept | split | (simp_all; done)
@[simp] theorem leaveBarriers_kept (core ctx : Nat) (s : State) {P : List Part} {s0 : State} (hP : [.compute] ⊆ P) (hk : Kept P s0 s) : Kept P s0 (State.leaveBarriers core ctx s) := by
  unfold State.leaveBarriers; try dsimp only
  repeat' with_reducible first | assumption | (with_unfolding_all exact among hP rfl) | exact fun _ hx => hx | (with_reducible apply onCompute_kept; case hf => intro x; with_unfolding_all rfl) | (with_reducible apply onCompute_kept; case hf => intro x; split <;> with_unfolding_all rfl) | (with_reducible apply onComputeWf_kept; case hf => intro x c; with_unfolding_all exact Table.wf_set _ _ c) | (with_reducible apply onComputeWf_kept; case hf => intro x c; with_unfolding_all exact Table.wf_erase _ c) | (with_reducible apply onComputeWf_kept; case hf => intro x c; with_unfolding_all exact Table.wf_mapFilter _ (fun _ => rfl) c) | intro _ | apply ite_kept | split | (simp_all; done)
@[simp] theorem stop_kept (core ctx : Nat) (s : State) {P : List Part} {s0 : State} (hP : [.counters, .traffic, .compute] ⊆ P) (hk : Kept P s0 s) : Kept P s0 (State.stop core ctx s) := by
  unfold State.stop; try dsimp only
  repeat' with_reducible first | assumption | (with_unfolding_all exact among hP rfl) | exact fun _ hx => hx | apply closeStream_kept | apply discardRun_kept | apply dropPackets_kept | apply freeStopped_kept | apply leaveBarriers_kept | apply onCore_kept | apply onCtx_kept | apply streamCount_kept | apply each_kept | intro _ | apply ite_kept | split | (simp_all; done)
@[simp] theorem ownerAbort_kept (core kind : Nat) (t : TaskDesc) (page : Option Nat) (s : State) {P : List Part} {s0 : State} (hP : [.headers, .counters, .stateMem, .compute, .score] ⊆ P) (hk : Kept P s0 s) : Kept P s0 (State.ownerAbort core kind t page s) := by
  unfold State.ownerAbort; try dsimp only
  repeat' with_reducible first | assumption | (with_unfolding_all exact among hP rfl) | exact fun _ hx => hx | apply abandon_kept | apply onCore_kept | apply onToken_kept | apply each_kept | intro _ | apply ite_kept | split | (simp_all; done)
@[simp] theorem recordAbort_kept (core ctx kind : Nat) (t : TaskDesc) (s : State) {P : List Part} {s0 : State} (hP : [.headers, .registers, .counters, .score] ⊆ P) (hk : Kept P s0 s) : Kept P s0 (State.recordAbort core ctx kind t s) := by
  unfold State.recordAbort; try dsimp only
  repeat' with_reducible first | assumption | (with_unfolding_all exact among hP rfl) | exact fun _ hx => hx | apply coreEvent_kept | apply seqCount_kept | apply setReg_kept | intro _ | apply ite_kept | split | (simp_all; done)
@[simp] theorem abortTask_kept (core ctx : Nat) (s : State) {P : List Part} {s0 : State} (hP : [.headers, .registers, .counters, .traffic, .stateMem, .compute, .score] ⊆ P) (hk : Kept P s0 s) : Kept P s0 (State.abortTask core ctx s) := by
  unfold State.abortTask; try dsimp only
  repeat' with_reducible first | assumption | (with_unfolding_all exact among hP rfl) | exact fun _ hx => hx | apply ownerAbort_kept | apply recordAbort_kept | apply stop_kept | intro _ | apply ite_kept | split | (simp_all; done)
@[simp] theorem cancelTask_kept (core ctx : Nat) (s : State) {P : List Part} {s0 : State} (hP : [.headers, .counters, .traffic, .stateMem, .compute, .score] ⊆ P) (hk : Kept P s0 s) : Kept P s0 (State.cancelTask core ctx s) := by
  unfold State.cancelTask; try dsimp only
  repeat' with_reducible first | assumption | (with_unfolding_all exact among hP rfl) | exact fun _ hx => hx | apply abandon_kept | apply seqCount_kept | apply stop_kept | apply each_kept | intro _ | apply ite_kept | split | (simp_all; done)
@[simp] theorem endTask_kept (core ctx : Nat) (s : State) {P : List Part} {s0 : State} (hP : [.counters, .traffic, .compute] ⊆ P) (hk : Kept P s0 s) : Kept P s0 (State.endTask core ctx s) := by
  unfold State.endTask; try dsimp only
  repeat' with_reducible first | assumption | (with_unfolding_all exact among hP rfl) | exact fun _ hx => hx | apply closeStream_kept | apply coreBump_kept | apply dropPackets_kept | apply onCore_kept | apply seqCount_kept | apply each_kept | intro _ | apply ite_kept | split | (simp_all; done)
@[simp] theorem settleTasks_kept (s : State) {P : List Part} {s0 : State} (hP : [.headers, .registers, .counters, .traffic, .stateMem, .compute, .score] ⊆ P) (hk : Kept P s0 s) : Kept P s0 (State.settleTasks s) := by
  unfold State.settleTasks; try dsimp only
  repeat' with_reducible first | assumption | (with_unfolding_all exact among hP rfl) | exact fun _ hx => hx | apply abortTask_kept | apply cancelTask_kept | apply endTask_kept | apply each_kept | intro _ | apply ite_kept | split | (simp_all; done)
@[simp] theorem follow_kept (core ctx : Nat) (y : Ctx) (s : State) {P : List Part} {s0 : State} (hP : [.compute] ⊆ P) (hk : Kept P s0 s) : Kept P s0 (State.follow core ctx y s) := by
  unfold State.follow; try dsimp only
  repeat' with_reducible first | assumption | (with_unfolding_all exact among hP rfl) | exact fun _ hx => hx | apply goTo_kept | apply onCtx_kept | intro _ | apply ite_kept | split | (simp_all; done)
@[simp] theorem onBarrier_kept (k : Nat) (f : Barrier → Barrier) (s : State) {P : List Part} {s0 : State} (hP : [.compute] ⊆ P) (hk : Kept P s0 s) : Kept P s0 (State.onBarrier k f s) := by
  unfold State.onBarrier; try dsimp only
  repeat' with_reducible first | assumption | (with_unfolding_all exact among hP rfl) | exact fun _ hx => hx | (with_reducible apply onCompute_kept; case hf => intro x; with_unfolding_all rfl) | (with_reducible apply onCompute_kept; case hf => intro x; split <;> with_unfolding_all rfl) | (with_reducible apply onComputeWf_kept; case hf => intro x c; with_unfolding_all exact Table.wf_set _ _ c) | (with_reducible apply onComputeWf_kept; case hf => intro x c; with_unfolding_all exact Table.wf_erase _ c) | (with_reducible apply onComputeWf_kept; case hf => intro x c; with_unfolding_all exact Table.wf_mapFilter _ (fun _ => rfl) c) | intro _ | apply ite_kept | split | (simp_all; done)
@[simp] theorem wake_kept (l : List (Nat × Nat)) (s : State) {P : List Part} {s0 : State} (hP : [.compute] ⊆ P) (hk : Kept P s0 s) : Kept P s0 (State.wake l s) := by
  unfold State.wake; try dsimp only
  repeat' with_reducible first | assumption | (with_unfolding_all exact among hP rfl) | exact fun _ hx => hx | apply onCtx_kept | apply each_kept | intro _ | apply ite_kept | split | (simp_all; done)
@[simp] theorem breakCounts_kept (die : Nat) (cores : List Nat) (b : Barrier) (s : State) {P : List Part} {s0 : State} (hP : [.headers, .counters, .score] ⊆ P) (hk : Kept P s0 s) : Kept P s0 (State.breakCounts die cores b s) := by
  unfold State.breakCounts; try dsimp only
  repeat' with_reducible first | assumption | (with_unfolding_all exact among hP rfl) | exact fun _ hx => hx | apply coreEvent_kept | apply seqCount_kept | apply each_kept | intro _ | apply ite_kept | split | (simp_all; done)
@[simp] theorem arrive_kept (core ctx : Nat) (wait : Bool) (x : Ctx) (e : Entry) (s : State) {P : List Part} {s0 : State} (hP : [.headers, .counters, .compute, .score] ⊆ P) (hk : Kept P s0 s) : Kept P s0 (State.arrive core ctx wait x e s) := by
  unfold State.arrive; try dsimp only
  repeat' with_reducible first | assumption | (with_unfolding_all exact among hP rfl) | exact fun _ hx => hx | apply breakCounts_kept | apply onBarrier_kept | apply onCtx_kept | apply wake_kept | intro _ | apply ite_kept | split | (simp_all; done)
@[simp] theorem barrierEntry_kept (core ctx sub : Nat) (s : State) {P : List Part} {s0 : State} (hP : [.headers, .counters, .compute, .power, .score] ⊆ P) (hk : Kept P s0 s) : Kept P s0 (State.barrierEntry core ctx sub s) := by
  unfold State.barrierEntry; try dsimp only
  repeat' with_reducible first | assumption | (with_unfolding_all exact among hP rfl) | exact fun _ hx => hx | apply arrive_kept | apply issue_kept | intro _ | apply ite_kept | split | (simp_all; done)
theorem execBarrierBreak_kept (die number : Nat) (s : State) {P : List Part} {s0 : State} (hP : [.headers, .counters, .compute, .score] ⊆ P) (hk : Kept P s0 s) : ∃ t, execBarrierBreak die number s = .next t ∧ Kept P s0 t := by
  unfold execBarrierBreak; try dsimp only
  repeat' with_reducible first | refine ⟨_, rfl, ?_⟩ | assumption | (with_unfolding_all exact among hP rfl) | exact fun _ hx => hx | exact grant_kept _ _ _ _ (among hP rfl) hk ‹_› | apply breakCounts_kept | apply onBarrier_kept | apply onCtx_kept | apply each_kept | intro _ | apply ite_kept | split | (simp_all; done)
theorem execBarrierReopen_kept (die number : Nat) (s : State) {P : List Part} {s0 : State} (hP : [.compute] ⊆ P) (hk : Kept P s0 s) : ∃ t, execBarrierReopen die number s = .next t ∧ Kept P s0 t := by
  unfold execBarrierReopen; try dsimp only
  repeat' with_reducible first | refine ⟨_, rfl, ?_⟩ | assumption | (with_unfolding_all exact among hP rfl) | exact fun _ hx => hx | exact grant_kept _ _ _ _ (among hP rfl) hk ‹_› | apply onBarrier_kept | intro _ | apply ite_kept | split | (simp_all; done)
@[simp] theorem watchdog_kept (core ctx : Nat) (s : State) {P : List Part} {s0 : State} (hP : [.headers, .counters, .compute, .score] ⊆ P) (hk : Kept P s0 s) : Kept P s0 (State.watchdog core ctx s) := by
  unfold State.watchdog; try dsimp only
  repeat' with_reducible first | assumption | (with_unfolding_all exact among hP rfl) | exact fun _ hx => hx | apply coreEvent_kept | apply onCore_kept | apply onCtx_kept | apply seqCount_kept | intro _ | apply ite_kept | split | (simp_all; done)
@[simp] theorem settleDogs_kept (s : State) {P : List Part} {s0 : State} (hP : [.headers, .counters, .compute, .score] ⊆ P) (hk : Kept P s0 s) : Kept P s0 (State.settleDogs s) := by
  unfold State.settleDogs; try dsimp only
  repeat' with_reducible first | assumption | (with_unfolding_all exact among hP rfl) | exact fun _ hx => hx | apply onCore_kept | apply watchdog_kept | apply each_kept | intro _ | apply ite_kept | split | (simp_all; done)
@[simp] theorem settleWaits_kept (s : State) {P : List Part} {s0 : State} (hP : [.compute] ⊆ P) (hk : Kept P s0 s) : Kept P s0 (State.settleWaits s) := by
  unfold State.settleWaits; try dsimp only
  repeat' with_reducible first | assumption | (with_unfolding_all exact among hP rfl) | exact fun _ hx => hx | apply onCore_kept | apply each_kept | intro _ | apply ite_kept | split | (simp_all; done)
@[simp] theorem seqWrite_kept (page off : Nat) (v : Word) (s : State) {P : List Part} {s0 : State} (hP : [.registers] ⊆ P) (hk : Kept P s0 s) : Kept P s0 (State.seqWrite page off v s) := by
  unfold State.seqWrite; try dsimp only
  repeat' with_reducible first | assumption | (with_unfolding_all exact among hP rfl) | exact fun _ hx => hx | apply setReg_kept | intro _ | apply ite_kept | split | (simp_all; done)
@[simp] theorem setStep_kept (site step : Nat) (s : State) {P : List Part} {s0 : State} (hP : [.headers, .compute, .power, .score] ⊆ P) (hk : Kept P s0 s) : Kept P s0 (State.setStep site step s) := by
  unfold State.setStep; try dsimp only
  repeat' with_reducible first | assumption | (with_unfolding_all exact among hP rfl) | exact fun _ hx => hx | apply onCore_kept | apply onTempo_kept | apply setEvent_kept | intro _ | apply ite_kept | split | (simp_all; done)
@[simp] theorem shed_kept (die stage : Nat) (s : State) {P : List Part} {s0 : State} (hP : [.counters, .traffic, .compute] ⊆ P) (hk : Kept P s0 s) : Kept P s0 (State.shed die stage s) := by
  unfold State.shed; try dsimp only
  repeat' with_reducible first | assumption | (with_unfolding_all exact among hP rfl) | exact fun _ hx => hx | apply countShed_kept | apply dropPackets_kept | apply free_kept | apply onCore_kept | apply onCtx_kept | apply tempoCount_kept | apply each_kept | intro _ | apply ite_kept | split | (simp_all; done)
@[simp] theorem windowTest_kept (die : Nat) (s : State) {P : List Part} {s0 : State} (hP : [.counters, .compute] ⊆ P) (hk : Kept P s0 s) : Kept P s0 (State.windowTest die s) := by
  unfold State.windowTest; try dsimp only
  repeat' with_reducible first | assumption | (with_unfolding_all exact among hP rfl) | exact fun _ hx => hx | apply onCore_kept | apply tempoCount_kept | apply each_kept | intro _ | apply ite_kept | split | (simp_all; done)
@[simp] theorem askSeals_kept (die : Nat) (s : State) {P : List Part} {s0 : State} (hP : [.counters, .compute] ⊆ P) (hk : Kept P s0 s) : Kept P s0 (State.askSeals die s) := by
  unfold State.askSeals; try dsimp only
  repeat' with_reducible first | assumption | (with_unfolding_all exact among hP rfl) | exact fun _ hx => hx | apply onCore_kept | apply tempoCount_kept | apply each_kept | intro _ | apply ite_kept | split | (simp_all; done)
@[simp] theorem endInterval_kept (die : Nat) (logic dram : List (Nat × Nat)) (watts : Nat) (s : State) {P : List Part} {s0 : State} (hP : [.headers, .counters, .traffic, .compute, .power, .reliab, .score] ⊆ P) (hk : Kept P s0 s) : Kept P s0 (State.endInterval die logic dram watts s) := by
  unfold State.endInterval; try dsimp only
  repeat' with_reducible first | assumption | (with_unfolding_all exact among hP rfl) | exact fun _ hx => hx | apply askSeals_kept | apply onReliab_kept | apply onTempo_kept | apply setEvents_kept | apply shed_kept | apply tempoCount_kept | apply windowTest_kept | intro _ | apply ite_kept | split | (simp_all; done)
@[simp] theorem settleIntervals_kept (s : State) {P : List Part} {s0 : State} (hP : [.headers, .counters, .traffic, .compute, .power, .reliab, .score] ⊆ P) (hk : Kept P s0 s) : Kept P s0 (State.settleIntervals s) := by
  unfold State.settleIntervals; try dsimp only
  repeat' with_reducible first | assumption | (with_unfolding_all exact among hP rfl) | exact fun _ hx => hx | apply endInterval_kept | apply each_kept | intro _ | apply ite_kept | split | (simp_all; done)
@[simp] theorem squelchAll_kept (s : State) {P : List Part} {s0 : State} (hP : [.headers, .ports, .score] ⊆ P) (hk : Kept P s0 s) : Kept P s0 (State.squelchAll s) := by
  unfold State.squelchAll; try dsimp only
  repeat' with_reducible first | assumption | (with_unfolding_all exact among hP rfl) | exact fun _ hx => hx | (with_reducible apply onPort_kept; case hf => (intro q h; first | exact Port.wf_onSub _ _ h | exact Port.wf_onLane _ _ h | (with_unfolding_all exact h) | (split <;> with_unfolding_all exact h) | exact Port.wf_onSubRun _ _ _ h | exact Port.wf_comeUp _ _ _ h | exact Port.wf_fold (fun q i h => Port.wf_onSub _ _ h) _ h)) | apply portDown_kept | apply each_kept | intro _ | apply ite_kept | split | (simp_all; done)
@[simp] theorem tempoWrite_kept (page off : Nat) (v : Word) (s : State) {P : List Part} {s0 : State} (hP : [.registers] ⊆ P) (hk : Kept P s0 s) : Kept P s0 (State.tempoWrite page off v s) := by
  unfold State.tempoWrite; try dsimp only
  repeat' with_reducible first | assumption | (with_unfolding_all exact among hP rfl) | exact fun _ hx => hx | apply setReg_kept | intro _ | apply ite_kept | split | (simp_all; done)
@[simp] theorem onStage_kept (k : Nat) (f : StageOp → StageOp) (s : State) {P : List Part} {s0 : State} (hP : [.objects] ⊆ P) (hk : Kept P s0 s) : Kept P s0 (State.onStage k f s) := by
  unfold State.onStage; try dsimp only
  repeat' with_reducible first | assumption | (with_unfolding_all exact among hP rfl) | exact fun _ hx => hx | apply onObjects_kept | intro _ | apply ite_kept | split | (simp_all; done)
@[simp] theorem stageCount_kept (e : Nat) (s : State) {P : List Part} {s0 : State} (hP : [.counters] ⊆ P) (hk : Kept P s0 s) : Kept P s0 (State.stageCount e s) := by
  unfold State.stageCount; try dsimp only
  repeat' with_reducible first | assumption | (with_unfolding_all exact among hP rfl) | exact fun _ hx => hx | apply bump_kept | intro _ | apply ite_kept | split | (simp_all; done)
theorem stageCmd_kept {sess op rsv len : Nat} {okLen : Nat → Bool} {run : Session → Cmd → State → State} {P : List Part} {s u : State} (hP : [.counters, .selid, .ports, .traffic, .net, .score, .out] ⊆ P) (hr : ∀ x c t, Kept P s t → Kept P s (run x c t)) (h : Kept P s u) : Kept P s (State.stageCmd sess op rsv len okLen run u) := by
  unfold State.stageCmd; refine command_kept (among hP rfl) ?_ h; intro x c t ht; try dsimp only
  repeat' with_reducible first | assumption | (with_unfolding_all exact among hP rfl) | exact fun _ hx => hx | apply hr | apply complete_kept | apply command_kept | intro _ | apply ite_kept | split | (simp_all; done)
@[simp] theorem openStage_kept (sess : Nat) (chan : Option Nat) (len : Nat) (s : State) {P : List Part} {s0 : State} (hP : [.counters, .objects] ⊆ P) (hk : Kept P s0 s) : Kept P s0 (State.openStage sess chan len s).1 := by
  unfold State.openStage; try dsimp only
  repeat' with_reducible first | assumption | (with_unfolding_all exact among hP rfl) | exact fun _ hx => hx | apply onObjects_kept | apply onStage_kept | apply stageCount_kept | intro _ | apply ite_kept | split | (simp_all; done)
@[simp] theorem mirrorImage_kept (whr : Nat) (op : StageOp) (s : State) {P : List Part} {s0 : State} (hP : [.counters, .ports, .traffic, .net, .pair, .out] ⊆ P) (hk : Kept P s0 s) : Kept P s0 (State.mirrorImage whr op s) := by
  unfold State.mirrorImage; try dsimp only
  repeat' with_reducible first | assumption | (with_unfolding_all exact among hP rfl) | exact fun _ hx => hx | apply mirror_kept | apply each_kept | intro _ | apply ite_kept | split | (simp_all; done)
@[simp] theorem loseSync_kept (s : State) {P : List Part} {s0 : State} (hP : [.headers, .pair, .score] ⊆ P) (hk : Kept P s0 s) : Kept P s0 (State.loseSync s) := by
  unfold State.loseSync; try dsimp only
  repeat' with_reducible first | assumption | (with_unfolding_all exact among hP rfl) | exact fun _ hx => hx | apply onPair_kept | apply setEvent_kept | intro _ | apply ite_kept | split | (simp_all; done)
@[simp] theorem endVerify_kept (k : Nat) (op : StageOp) (r : Verdicted) (s : State) {P : List Part} {s0 : State} (hP : [.headers, .counters, .ports, .traffic, .net, .objects, .compute, .pair, .score, .out] ⊆ P) (hk : Kept P s0 s) : Kept P s0 (State.endVerify k op r s) := by
  unfold State.endVerify; try dsimp only
  repeat' with_reducible first | assumption | (with_unfolding_all exact among hP rfl) | exact fun _ hx => hx | apply discardStage_kept | apply loseSync_kept | apply mirrorImage_kept | apply onStage_kept | apply setEvent_kept | apply stageCount_kept | apply takeQuarters_kept | intro _ | apply ite_kept | split | (simp_all; done)
@[simp] theorem swapAs_kept (n k : Nat) (op : StageOp) (s : State) {P : List Part} {s0 : State} (hP : [.headers, .registers, .counters, .ports, .traffic, .net, .objects, .compute, .pair, .score, .out] ⊆ P) (hk : Kept P s0 s) : Kept P s0 (State.swapAs n k op s) := by
  unfold State.swapAs; try dsimp only
  repeat' with_reducible first | assumption | (with_unfolding_all exact among hP rfl) | exact fun _ hx => hx | (with_reducible apply onCompute_kept; case hf => intro x; with_unfolding_all rfl) | (with_reducible apply onCompute_kept; case hf => intro x; split <;> with_unfolding_all rfl) | (with_reducible apply onComputeWf_kept; case hf => intro x c; with_unfolding_all exact Table.wf_set _ _ c) | (with_reducible apply onComputeWf_kept; case hf => intro x c; with_unfolding_all exact Table.wf_erase _ c) | (with_reducible apply onComputeWf_kept; case hf => intro x c; with_unfolding_all exact Table.wf_mapFilter _ (fun _ => rfl) c) | apply allocRing_kept | apply mirror_kept | apply onChan_kept | apply onObjects_kept | apply setEvent_kept | apply stageCount_kept | intro _ | apply ite_kept | split | (simp_all; done)
@[simp] theorem swap_kept (k : Nat) (op : StageOp) (s : State) {P : List Part} {s0 : State} (hP : [.headers, .registers, .counters, .ports, .traffic, .net, .objects, .compute, .pair, .score, .out] ⊆ P) (hk : Kept P s0 s) : Kept P s0 (State.swap k op s).1 := by
  unfold State.swap; try dsimp only
  repeat' with_reducible first | assumption | (with_unfolding_all exact among hP rfl) | exact fun _ hx => hx | apply swapAs_kept | intro _ | apply ite_kept | split | (simp_all; done)
@[simp] theorem retireDue_kept (deep : Bool) (target gen : Nat) (s : State) {P : List Part} {s0 : State} (hP : [.headers, .counters, .objects, .compute, .score] ⊆ P) (hk : Kept P s0 s) : Kept P s0 (State.retireDue deep target gen s) := by
  unfold State.retireDue; try dsimp only
  repeat' with_reducible first | assumption | (with_unfolding_all exact among hP rfl) | exact fun _ hx => hx | apply onChan_kept | apply retireGen_kept | intro _ | apply ite_kept | split | (simp_all; done)
@[simp] theorem settleGens_kept (s : State) {P : List Part} {s0 : State} (hP : [.headers, .counters, .objects, .compute, .score] ⊆ P) (hk : Kept P s0 s) : Kept P s0 (State.settleGens s) := by
  unfold State.settleGens; try dsimp only
  repeat' with_reducible first | assumption | (with_unfolding_all exact among hP rfl) | exact fun _ hx => hx | apply retireDue_kept | apply each_kept | intro _ | apply ite_kept | split | (simp_all; done)
@[simp] theorem logWrite_kept (b : Bool) (kind value : Nat) (bad moved : Bool) (s : State) {P : List Part} {s0 : State} (hP : [.headers, .sec, .score] ⊆ P) (hk : Kept P s0 s) : Kept P s0 (State.logWrite b kind value bad moved s).1 := by
  unfold State.logWrite; try dsimp only
  repeat' with_reducible first | assumption | (with_unfolding_all exact among hP rfl) | exact fun _ hx => hx | apply onSec_kept | apply setEvent_kept | intro _ | apply ite_kept | split | (simp_all; done)
@[simp] theorem logBoth_kept (kind value nor : Nat) (s : State) {P : List Part} {s0 : State} (hP : [.headers, .sec, .score] ⊆ P) (hk : Kept P s0 s) : Kept P s0 (State.logBoth kind value nor s).1 := by
  unfold State.logBoth; try dsimp only
  repeat' with_reducible first | assumption | (with_unfolding_all exact among hP rfl) | exact fun _ hx => hx | apply logWrite_kept | intro _ | apply ite_kept | split | (simp_all; done)
@[simp] theorem prepareTree_kept (s : State) {P : List Part} {s0 : State} (hP : [.headers, .sec, .score] ⊆ P) (hk : Kept P s0 s) : Kept P s0 (State.prepareTree s) := by
  unfold State.prepareTree; try dsimp only
  repeat' with_reducible first | assumption | (with_unfolding_all exact among hP rfl) | exact fun _ hx => hx | apply logBoth_kept | apply onSec_kept | intro _ | apply ite_kept | split | (simp_all; done)
@[simp] theorem sign_kept (nor : Nat) (s : State) {P : List Part} {s0 : State} (hP : [.headers, .sec, .score] ⊆ P) (hk : Kept P s0 s) : Kept P s0 (State.sign nor s).1 := by
  unfold State.sign; try dsimp only
  repeat' with_reducible first | assumption | (with_unfolding_all exact among hP rfl) | exact fun _ hx => hx | apply logBoth_kept | apply onSec_kept | apply prepareTree_kept | apply setEvent_kept | intro _ | apply ite_kept | split | (simp_all; done)
@[simp] theorem sendOffer_kept (r : Route) (num maxFrame : Nat) (offer : Bytes) (s : State) {P : List Part} {s0 : State} (hP : [.counters, .ports, .traffic, .net, .out] ⊆ P) (hk : Kept P s0 s) : Kept P s0 (State.sendOffer r num maxFrame offer s) := by
  unfold State.sendOffer; try dsimp only
  repeat' with_reducible first | assumption | (with_unfolding_all exact among hP rfl) | exact fun _ hx => hx | apply offer_kept | apply sendSelid_kept | apply each_kept | intro _ | apply ite_kept | split | (simp_all; done)
@[simp] theorem hello_kept (r : Route) (p : Bytes) (nor : Nat) (s : State) {P : List Part} {s0 : State} (hP : [.headers, .counters, .selid, .ports, .traffic, .net, .sec, .score, .out, .draws] ⊆ P) (hk : Kept P s0 s) : Kept P s0 (State.hello r p nor s) := by
  unfold State.hello; try dsimp only
  repeat' with_reducible first | assumption | (with_unfolding_all exact among hP rfl) | exact fun _ hx => hx | apply draw_kept | apply offer_kept | apply onSelid_kept | apply sendOffer_kept | apply sendReject_kept | apply sign_kept | intro _ | apply ite_kept | split | (simp_all; done)
@[simp] theorem dropHalf_kept (n : Nat) (s : State) {P : List Part} {s0 : State} (hP : [.selid] ⊆ P) (hk : Kept P s0 s) : Kept P s0 (State.dropHalf n s) := by
  unfold State.dropHalf; try dsimp only
  repeat' with_reducible first | assumption | (with_unfolding_all exact among hP rfl) | exact fun _ hx => hx | apply onSelid_kept | intro _ | apply ite_kept | split | (simp_all; done)
@[simp] theorem accept_kept (r : Route) (n : Nat) (p : Bytes) (s : State) {P : List Part} {s0 : State} (hP : [.headers, .counters, .selid, .ports, .traffic, .net, .objects, .sec, .out] ⊆ P) (hk : Kept P s0 s) : Kept P s0 (State.accept r n p s) := by
  unfold State.accept; try dsimp only
  repeat' with_reducible first | assumption | (with_unfolding_all exact among hP rfl) | exact fun _ hx => hx | apply bump_kept | apply dropHalf_kept | apply endSession_kept | apply hello_kept | apply offer_kept | apply onSelid_kept | apply sendProtected_kept | apply sendReject_kept | intro _ | apply ite_kept | split | (simp_all; done)
@[simp] theorem enrol_kept (sess : Nat) (fail : Bool) (x : Session) (c : Cmd) (s : State) {P : List Part} {s0 : State} (hP : [.headers, .counters, .selid, .ports, .traffic, .net, .objects, .sec, .score, .out] ⊆ P) (hk : Kept P s0 s) : Kept P s0 (State.enrol sess fail x c s) := by
  unfold State.enrol; try dsimp only
  repeat' with_reducible first | assumption | (with_unfolding_all exact among hP rfl) | exact fun _ hx => hx | apply complete_kept | apply endSession_kept | apply onSec_kept | apply setEvent_kept | apply each_kept | intro _ | apply ite_kept | split | (simp_all; done)
@[simp] theorem noteBundle_kept (b : Bytes) (s : State) {P : List Part} {s0 : State} (hP : [.sec] ⊆ P) (hk : Kept P s0 s) : Kept P s0 (State.noteBundle b s) := by
  unfold State.noteBundle; try dsimp only
  repeat' with_reducible first | assumption | (with_unfolding_all exact among hP rfl) | exact fun _ hx => hx | apply onSec_kept | intro _ | apply ite_kept | split | (simp_all; done)
@[simp] theorem refuseBundle_kept (sess st det : Nat) (s : State) {P : List Part} {s0 : State} (hP : [.counters, .selid, .ports, .traffic, .net, .score, .out] ⊆ P) (hk : Kept P s0 s) : Kept P s0 (State.refuseBundle sess st det s) := by
  unfold State.refuseBundle; try dsimp only
  repeat' with_reducible first | assumption | (with_unfolding_all exact among hP rfl) | exact fun _ hx => hx | apply complete_kept | intro _ | apply ite_kept | split | (simp_all; done)
theorem bundle_kept {sess k : Nat} {run : Cmd → Bytes → State → State} {P : List Part} {s u : State} (hP : [.headers, .counters, .selid, .ports, .traffic, .net, .score, .out] ⊆ P) (hr : ∀ c b t, Kept P s t → Kept P s (run c b t)) (h : Kept P s u) : Kept P s (State.bundle sess k run u) := by
  unfold State.bundle; refine command_kept (among hP rfl) ?_ h; intro x c t ht; try dsimp only
  repeat' with_reducible first | assumption | (with_unfolding_all exact among hP rfl) | exact fun _ hx => hx | apply hr | apply refuseBundle_kept | apply setEvent_kept | apply command_kept | intro _ | apply ite_kept | split | (simp_all; done)
@[simp] theorem drawSeeds_kept (s : State) {P : List Part} {s0 : State} (hP : [.registers, .sec, .draws] ⊆ P) (hk : Kept P s0 s) : Kept P s0 (State.drawSeeds s) := by
  unfold State.drawSeeds; try dsimp only
  repeat' with_reducible first | assumption | (with_unfolding_all exact among hP rfl) | exact fun _ hx => hx | apply draw_kept | apply onSec_kept | apply setReg_kept | intro _ | apply ite_kept | split | (simp_all; done)
@[simp] theorem settleReseed_kept (s : State) {P : List Part} {s0 : State} (hP : [.sec] ⊆ P) (hk : Kept P s0 s) : Kept P s0 (State.settleReseed s) := by
  unfold State.settleReseed; try dsimp only
  repeat' with_reducible first | assumption | (with_unfolding_all exact among hP rfl) | exact fun _ hx => hx | apply onSec_kept | intro _ | apply ite_kept | split | (simp_all; done)
@[simp] theorem settleTree_kept (s : State) {P : List Part} {s0 : State} (hP : [.headers, .sec, .score] ⊆ P) (hk : Kept P s0 s) : Kept P s0 (State.settleTree s) := by
  unfold State.settleTree; try dsimp only
  repeat' with_reducible first | assumption | (with_unfolding_all exact among hP rfl) | exact fun _ hx => hx | apply prepareTree_kept | intro _ | apply ite_kept | split | (simp_all; done)
theorem tap_kept {data : Bytes} {allowed : Bool} {run : State → State} {P : List Part} {s u : State} (hP : [.sec, .out] ⊆ P) (hr : ∀ t, Kept P s t → Kept P s (run t)) (h : Kept P s u) : Kept P s (State.tap data allowed run u) := by
  unfold State.tap; repeat' with_reducible first | assumption | (with_unfolding_all exact among hP rfl) | exact fun _ hx => hx | apply hr | apply emit_kept | apply onSec_kept | apply tap_kept | intro _ | apply ite_kept | split | (simp_all; done)
@[simp] theorem capture_kept (data : Bytes) (s : State) {P : List Part} {s0 : State} (hP : [.sec, .out, .draws] ⊆ P) (hk : Kept P s0 s) : Kept P s0 (State.capture data s) := by
  unfold State.capture; try dsimp only
  repeat' with_reducible first | assumption | (with_unfolding_all exact among hP rfl) | exact fun _ hx => hx | apply emit_kept | apply free_kept | apply tap_kept | intro _ | apply ite_kept | split | (simp_all; done)
@[simp] theorem secWrite_kept (off : Nat) (v : Word) (s : State) {P : List Part} {s0 : State} (hP : [.registers] ⊆ P) (hk : Kept P s0 s) : Kept P s0 (State.secWrite off v s) := by
  unfold State.secWrite; try dsimp only
  repeat' with_reducible first | assumption | (with_unfolding_all exact among hP rfl) | exact fun _ hx => hx | apply setReg_kept | intro _ | apply ite_kept | split | (simp_all; done)
@[simp] theorem relCount_kept (die e : Nat) (s : State) {P : List Part} {s0 : State} (hP : [.counters] ⊆ P) (hk : Kept P s0 s) : Kept P s0 (State.relCount die e s) := by
  unfold State.relCount; try dsimp only
  repeat' with_reducible first | assumption | (with_unfolding_all exact among hP rfl) | exact fun _ hx => hx | apply bump_kept | intro _ | apply ite_kept | split | (simp_all; done)
@[simp] theorem relEvent_kept (die b : Nat) (s : State) {P : List Part} {s0 : State} (hP : [.headers, .score] ⊆ P) (hk : Kept P s0 s) : Kept P s0 (State.relEvent die b s) := by
  unfold State.relEvent; try dsimp only
  repeat' with_reducible first | assumption | (with_unfolding_all exact among hP rfl) | exact fun _ hx => hx | apply setEvent_kept | intro _ | apply ite_kept | split | (simp_all; done)
@[simp] theorem setSite_kept (x : Nat) (v : Site) (s : State) {P : List Part} {s0 : State} (hP : [.reliab] ⊆ P) (hk : Kept P s0 s) : Kept P s0 (State.setSite x v s) := by
  unfold State.setSite; try dsimp only
  repeat' with_reducible first | assumption | (with_unfolding_all exact among hP rfl) | exact fun _ hx => hx | apply onReliab_kept | intro _ | apply ite_kept | split | (simp_all; done)
@[simp] theorem clearSite_kept (x : Nat) (s : State) {P : List Part} {s0 : State} (hP : [.headers, .registers, .counters, .latches] ⊆ P) (hk : Kept P s0 s) : Kept P s0 (State.clearSite x s) := by
  unfold State.clearSite; dsimp only
  refine onRegs_keeps _ hk (fun p hp => ?_) (fun c => ?_) fun c p hp q => ?_
  · cases p <;> first | exact Eq.refl _ | exact And.intro rfl rfl | exact absurd (hP (by decide)) hp
  · simp only [Regs.canonical, Bool.and_eq_true] at c ⊢
    exact ⟨⟨Table.canon_filter _ c.1.1, Table.canon_filter _ c.1.2⟩, Table.wf_filter _ c.2⟩
  · simp only [Regs.canonical, Bool.and_eq_true, Table.canon] at c
    rw [Table.get?_filter c.1.1.1 (by simp [hp])]
    exact q
@[simp] theorem resetSite_kept (x : Nat) (s : State) {P : List Part} {s0 : State} (hP : [.headers, .registers, .counters, .latches, .selid, .compute, .reliab] ⊆ P) (hk : Kept P s0 s) : Kept P s0 (State.resetSite x s) := by
  unfold State.resetSite; try dsimp only
  repeat' with_reducible first | assumption | (with_unfolding_all exact among hP rfl) | exact fun _ hx => hx | apply abortWrites_kept | apply clearSite_kept | apply onCore_kept | apply onReliab_kept | intro _ | apply ite_kept | split | (simp_all; done)
@[simp] theorem missRequest_kept (q : ExpertReq) (s : State) {P : List Part} {s0 : State} (hP : [.headers, .counters, .compute, .score] ⊆ P) (hk : Kept P s0 s) : Kept P s0 (State.missRequest q s) := by
  unfold State.missRequest; try dsimp only
  repeat' with_reducible first | assumption | (with_unfolding_all exact among hP rfl) | exact fun _ hx => hx | apply missed_kept | intro _ | apply ite_kept | split | (simp_all; done)
@[simp] theorem dropCore_kept (core : Nat) (s : State) {P : List Part} {s0 : State} (hP : [.headers, .registers, .counters, .traffic, .stateMem, .compute, .score] ⊆ P) (hk : Kept P s0 s) : Kept P s0 (State.dropCore core s) := by
  unfold State.dropCore; try dsimp only
  repeat' with_reducible first | assumption | (with_unfolding_all exact among hP rfl) | exact fun _ hx => hx | (with_reducible apply onCompute_kept; case hf => intro x; with_unfolding_all rfl) | (with_reducible apply onCompute_kept; case hf => intro x; split <;> with_unfolding_all rfl) | (with_reducible apply onComputeWf_kept; case hf => intro x c; with_unfolding_all exact Table.wf_set _ _ c) | (with_reducible apply onComputeWf_kept; case hf => intro x c; with_unfolding_all exact Table.wf_erase _ c) | (with_reducible apply onComputeWf_kept; case hf => intro x c; with_unfolding_all exact Table.wf_mapFilter _ (fun _ => rfl) c) | apply abandon_kept | apply dropPackets_kept | apply free_kept | apply missRequest_kept | apply ownerAbort_kept | apply recordAbort_kept | apply stop_kept | apply each_kept | intro _ | apply ite_kept | split | (simp_all; done)
@[simp] theorem loseSlice_kept (core : Nat) (s : State) {P : List Part} {s0 : State} (hP : [.counters, .ports, .traffic, .net, .flow, .stateMem, .compute, .pair, .out] ⊆ P) (hk : Kept P s0 s) : Kept P s0 (State.loseSlice core s) := by
  unfold State.loseSlice; try dsimp only
  repeat' with_reducible first | assumption | (with_unfolding_all exact among hP rfl) | exact fun _ hx => hx | (with_reducible apply onFlowMem_kept; case hf => (with_unfolding_all exact fun _ hx => Table.wf_filter _ hx)) | (with_reducible apply onCompute_kept; case hf => intro x; with_unfolding_all rfl) | (with_reducible apply onCompute_kept; case hf => intro x; split <;> with_unfolding_all rfl) | (with_reducible apply onComputeWf_kept; case hf => intro x c; with_unfolding_all exact Table.wf_set _ _ c) | (with_reducible apply onComputeWf_kept; case hf => intro x c; with_unfolding_all exact Table.wf_erase _ c) | (with_reducible apply onComputeWf_kept; case hf => intro x c; with_unfolding_all exact Table.wf_mapFilter _ (fun _ => rfl) c) | apply relCount_kept | apply removeEntry_kept | apply each_kept | intro _ | apply ite_kept | split | (simp_all; done)
@[simp] theorem loseVault_kept (core : Nat) (s : State) {P : List Part} {s0 : State} (hP : [.headers, .registers, .counters, .ports, .traffic, .net, .objects, .flow, .stateMem, .compute, .pair, .score, .out] ⊆ P) (hk : Kept P s0 s) : Kept P s0 (State.loseVault core s) := by
  unfold State.loseVault; try dsimp only
  repeat' with_reducible first | assumption | (with_unfolding_all exact among hP rfl) | exact fun _ hx => hx | apply free_kept | apply loseSlice_kept | apply onRing_kept | apply retirePage_kept | apply each_kept | intro _ | apply ite_kept | split | (simp_all; done)
@[simp] theorem mapSpare_kept (die f core : Nat) (vault : Bool) (s : State) {P : List Part} {s0 : State} (hP : [.headers, .counters, .ports, .traffic, .net, .objects, .flow, .stateMem, .compute, .pair, .reliab, .score, .out] ⊆ P) (hk : Kept P s0 s) : Kept P s0 (State.mapSpare die f core vault s) := by
  unfold State.mapSpare; try dsimp only
  repeat' with_reducible first | assumption | (with_unfolding_all exact among hP rfl) | exact fun _ hx => hx | apply loseSlice_kept | apply onObjects_kept | apply onReliab_kept | apply relCount_kept | apply relEvent_kept | apply setSite_kept | intro _ | apply ite_kept | split | (simp_all; done)
@[simp] theorem nextMapping_kept (die : Nat) (s : State) {P : List Part} {s0 : State} (hP : [.headers, .counters, .ports, .traffic, .net, .objects, .flow, .stateMem, .compute, .pair, .reliab, .score, .out] ⊆ P) (hk : Kept P s0 s) : Kept P s0 (State.nextMapping die s) := by
  unfold State.nextMapping; try dsimp only
  repeat' with_reducible first | assumption | (with_unfolding_all exact among hP rfl) | exact fun _ hx => hx | apply mapSpare_kept | apply onReliab_kept | intro _ | apply ite_kept | split | (simp_all; done)
@[simp] theorem failCore_kept (core cause : Nat) (s : State) {P : List Part} {s0 : State} (hP : [.headers, .registers, .counters, .selid, .ports, .traffic, .net, .objects, .flow, .stateMem, .compute, .pair, .reliab, .score, .out] ⊆ P) (hk : Kept P s0 s) : Kept P s0 (State.failCore core cause s) := by
  unfold State.failCore; try dsimp only
  repeat' with_reducible first | assumption | (with_unfolding_all exact among hP rfl) | exact fun _ hx => hx | apply discardHeld_kept | apply dropCore_kept | apply loseVault_kept | apply markFaulted_kept | apply nextMapping_kept | apply onReliab_kept | apply relCount_kept | apply relEvent_kept | apply setFaulted_kept | apply setSite_kept | intro _ | apply ite_kept | split | (simp_all; done)
@[simp] theorem activate_kept (die : Nat) (m : Mapping) (s : State) {P : List Part} {s0 : State} (hP : [.headers, .counters, .ports, .traffic, .net, .objects, .flow, .stateMem, .compute, .pair, .reliab, .score, .out] ⊆ P) (hk : Kept P s0 s) : Kept P s0 (State.activate die m s) := by
  unfold State.activate; try dsimp only
  repeat' with_reducible first | assumption | (with_unfolding_all exact among hP rfl) | exact fun _ hx => hx | apply nextMapping_kept | apply onCore_kept | apply onObjects_kept | apply onReliab_kept | apply relCount_kept | apply relEvent_kept | apply setSite_kept | intro _ | apply ite_kept | split | (simp_all; done)
@[simp] theorem settleFailures_kept (s : State) {P : List Part} {s0 : State} (hP : [.headers, .registers, .counters, .selid, .ports, .traffic, .net, .objects, .flow, .stateMem, .compute, .pair, .reliab, .score, .out] ⊆ P) (hk : Kept P s0 s) : Kept P s0 (State.settleFailures s) := by
  unfold State.settleFailures; try dsimp only
  repeat' with_reducible first | assumption | (with_unfolding_all exact among hP rfl) | exact fun _ hx => hx | apply failCore_kept | apply each_kept | intro _ | apply ite_kept | split | (simp_all; done)
@[simp] theorem settleMaps_kept (s : State) {P : List Part} {s0 : State} (hP : [.headers, .counters, .ports, .traffic, .net, .objects, .flow, .stateMem, .compute, .pair, .reliab, .score, .out] ⊆ P) (hk : Kept P s0 s) : Kept P s0 (State.settleMaps s) := by
  unfold State.settleMaps; try dsimp only
  repeat' with_reducible first | assumption | (with_unfolding_all exact among hP rfl) | exact fun _ hx => hx | apply activate_kept | apply each_kept | intro _ | apply ite_kept | split | (simp_all; done)
theorem execAmRemap_kept (core quarter kind index : Nat) (s : State) {P : List Part} {s0 : State} (hP : [.headers, .counters, .compute, .reliab, .score] ⊆ P) (hk : Kept P s0 s) : ∃ t, execAmRemap core quarter kind index s = .next t ∧ Kept P s0 t := by
  unfold execAmRemap; try dsimp only
  repeat' with_reducible first | refine ⟨_, rfl, ?_⟩ | assumption | (with_unfolding_all exact among hP rfl) | exact fun _ hx => hx | exact grant_kept _ _ _ _ (among hP rfl) hk ‹_› | apply onCore_kept | apply onReliab_kept | apply relCount_kept | apply relEvent_kept | apply setFaulted_kept | intro _ | apply ite_kept | split | (simp_all; done)
@[simp] theorem settleSpares_kept (s : State) {P : List Part} {s0 : State} (hP : [.headers, .counters, .compute, .reliab, .score] ⊆ P) (hk : Kept P s0 s) : Kept P s0 (State.settleSpares s) := by
  unfold State.settleSpares; try dsimp only
  repeat' with_reducible first | assumption | (with_unfolding_all exact among hP rfl) | exact fun _ hx => hx | apply execAmRemap_kept | apply each_kept | apply force_kept | intro _ | apply ite_kept | split | (simp_all; done)
@[simp] theorem pairCount_kept (e n : Nat) (s : State) {P : List Part} {s0 : State} (hP : [.counters] ⊆ P) (hk : Kept P s0 s) : Kept P s0 (State.pairCount e n s) := by
  unfold State.pairCount; try dsimp only
  repeat' with_reducible first | assumption | (with_unfolding_all exact among hP rfl) | exact fun _ hx => hx | apply bump_kept | intro _ | apply ite_kept | split | (simp_all; done)
@[simp] theorem pairEvent_kept (b : Nat) (s : State) {P : List Part} {s0 : State} (hP : [.headers, .score] ⊆ P) (hk : Kept P s0 s) : Kept P s0 (State.pairEvent b s) := by
  unfold State.pairEvent; try dsimp only
  repeat' with_reducible first | assumption | (with_unfolding_all exact among hP rfl) | exact fun _ hx => hx | apply setEvent_kept | intro _ | apply ite_kept | split | (simp_all; done)
theorem watchSync_kept {f : State → State} {P : List Part} {s u : State} (hP : [.headers, .score] ⊆ P) (hr : ∀ t, Kept P s t → Kept P s (f t)) (h : Kept P s u) : Kept P s (State.watchSync f u) := by
  unfold State.watchSync; dsimp only
  repeat' with_reducible first | assumption | (with_unfolding_all exact among hP rfl) | exact fun _ hx => hx | apply hr | apply pairEvent_kept | intro _ | apply ite_kept | split | (simp_all; done)
@[simp] theorem holdLines_kept (s : State) {P : List Part} {s0 : State} (hP : [.headers, .ports, .score] ⊆ P) (hk : Kept P s0 s) : Kept P s0 (State.holdLines s) := by
  unfold State.holdLines; try dsimp only
  repeat' with_reducible first | assumption | (with_unfolding_all exact among hP rfl) | exact fun _ hx => hx | (with_reducible apply onPort_kept; case hf => (intro q h; first | exact Port.wf_onSub _ _ h | exact Port.wf_onLane _ _ h | (with_unfolding_all exact h) | (split <;> with_unfolding_all exact h) | exact Port.wf_onSubRun _ _ _ h | exact Port.wf_comeUp _ _ _ h | exact Port.wf_fold (fun q i h => Port.wf_onSub _ _ h) _ h)) | apply portDown_kept | apply each_kept | intro _ | apply ite_kept | split | (simp_all; done)
@[simp] theorem releaseLines_kept (s : State) {P : List Part} {s0 : State} (hP : [.ports] ⊆ P) (hk : Kept P s0 s) : Kept P s0 (State.releaseLines s) := by
  unfold State.releaseLines; try dsimp only
  repeat' with_reducible first | assumption | (with_unfolding_all exact among hP rfl) | exact fun _ hx => hx | (with_reducible apply onPort_kept; case hf => (intro q h; first | exact Port.wf_onSub _ _ h | exact Port.wf_onLane _ _ h | (with_unfolding_all exact h) | (split <;> with_unfolding_all exact h) | exact Port.wf_onSubRun _ _ _ h | exact Port.wf_comeUp _ _ _ h | exact Port.wf_fold (fun q i h => Port.wf_onSub _ _ h) _ h)) | apply each_kept | intro _ | apply ite_kept | split | (simp_all; done)
@[simp] theorem applyPair_kept (p : Bytes) (s : State) {P : List Part} {s0 : State} (hP : [.headers, .ports, .pair, .score] ⊆ P) (hk : Kept P s0 s) : Kept P s0 (State.applyPair p s) := by
  unfold State.applyPair; try dsimp only
  repeat' with_reducible first | assumption | (with_unfolding_all exact among hP rfl) | exact fun _ hx => hx | apply onPair_kept | apply releaseLines_kept | apply watchSync_kept | intro _ | apply ite_kept | split | (simp_all; done)
theorem execHeartbeatSend_kept (s : State) {P : List Part} {s0 : State} (hP : [.counters, .ports, .traffic, .net, .pair, .out] ⊆ P) (hk : Kept P s0 s) : ∃ t, execHeartbeatSend s = .next t ∧ Kept P s0 t := by
  unfold execHeartbeatSend; try dsimp only
  repeat' with_reducible first | refine ⟨_, rfl, ?_⟩ | assumption | (with_unfolding_all exact among hP rfl) | exact fun _ hx => hx | exact grant_kept _ _ _ _ (among hP rfl) hk ‹_› | apply onPair_kept | apply pairCount_kept | apply sendPair_kept | apply each_kept | intro _ | apply ite_kept | split | (simp_all; done)
@[simp] theorem openPair_kept (port : Nat) (h : SelidHead) (s : State) {P : List Part} {s0 : State} (hP : [.counters, .pair] ⊆ P) (hk : Kept P s0 s) : Kept P s0 (State.openPair port h s).1 := by
  unfold State.openPair; try dsimp only
  repeat' with_reducible first | assumption | (with_unfolding_all exact among hP rfl) | exact fun _ hx => hx | apply onPair_kept | apply pairCount_kept | intro _ | apply ite_kept | split | (simp_all; done)
@[simp] theorem takePair_kept (port : Nat) (kinds : List Nat) (f : Bytes) (s : State) {P : List Part} {s0 : State} (hP : [.counters, .ports] ⊆ P) (hk : Kept P s0 s) : Kept P s0 (State.takePair port kinds f s).1 := by
  induction kinds generalizing s  with
  | nil => unfold State.takePair; repeat' with_reducible first | assumption | (with_unfolding_all exact among hP rfl) | exact fun _ hx => hx | apply takePeer_kept | intro _ | apply ite_kept | split | (simp_all; done)
  | cons k r ih =>
    unfold State.takePair; try dsimp only
    repeat' with_reducible first | assumption | (with_unfolding_all exact among hP rfl) | exact fun _ hx => hx | apply ih | apply takePeer_kept | intro _ | apply ite_kept | split | (simp_all; done)
@[simp] theorem becomeStandby_kept (s : State) {P : List Part} {s0 : State} (hP : [.headers, .counters, .ports, .traffic, .net, .flow, .compute, .pair, .score, .out] ⊆ P) (hk : Kept P s0 s) : Kept P s0 (State.becomeStandby s) := by
  unfold State.becomeStandby; try dsimp only
  repeat' with_reducible first | assumption | (with_unfolding_all exact among hP rfl) | exact fun _ hx => hx | apply holdLines_kept | apply onPair_kept | apply pairEvent_kept | apply releaseFlow_kept | apply store_kept | apply each_kept | apply watchSync_kept | intro _ | apply ite_kept | split | (simp_all; done)
@[simp] theorem castle_kept (missed : Bool) (s : State) {P : List Part} {s0 : State} (hP : [.headers, .counters, .ports, .objects, .flow, .pair, .score] ⊆ P) (hk : Kept P s0 s) : Kept P s0 (State.castle missed s) := by
  unfold State.castle; try dsimp only
  repeat' with_reducible first | assumption | (with_unfolding_all exact among hP rfl) | exact fun _ hx => hx | (with_reducible apply onFlow_kept; case hf => intro _; with_unfolding_all rfl) | apply discardStage_kept | apply free_kept | apply missed_kept | apply onPair_kept | apply pairCount_kept | apply pairEvent_kept | apply releaseLines_kept | apply store_kept | apply each_kept | apply watchSync_kept | intro _ | apply ite_kept | split | (simp_all; done)
@[simp] theorem castleDue_kept (s : State) {P : List Part} {s0 : State} (hP : [.headers, .counters, .ports, .objects, .flow, .pair, .score] ⊆ P) (hk : Kept P s0 s) : Kept P s0 (State.castleDue s) := by
  unfold State.castleDue; try dsimp only
  repeat' with_reducible first | assumption | (with_unfolding_all exact among hP rfl) | exact fun _ hx => hx | apply castle_kept | apply missed_kept | apply onPair_kept | intro _ | apply ite_kept | split | (simp_all; done)
@[simp] theorem yieldDue_kept (s : State) {P : List Part} {s0 : State} (hP : [.pair] ⊆ P) (hk : Kept P s0 s) : Kept P s0 (State.yieldDue s) := by
  unfold State.yieldDue; try dsimp only
  repeat' with_reducible first | assumption | (with_unfolding_all exact among hP rfl) | exact fun _ hx => hx | apply onPair_kept | intro _ | apply ite_kept | split | (simp_all; done)
@[simp] theorem settleRoles_kept (b : Bytes) (s : State) {P : List Part} {s0 : State} (hP : [.headers, .counters, .ports, .traffic, .net, .flow, .compute, .pair, .score, .out] ⊆ P) (hk : Kept P s0 s) : Kept P s0 (State.settleRoles b s) := by
  unfold State.settleRoles; try dsimp only
  repeat' with_reducible first | assumption | (with_unfolding_all exact among hP rfl) | exact fun _ hx => hx | apply becomeStandby_kept | apply onPair_kept | apply pairEvent_kept | intro _ | apply ite_kept | split | (simp_all; done)
theorem execStartingTimeout_kept (s : State) {P : List Part} {s0 : State} (hP : [.pair] ⊆ P) (hk : Kept P s0 s) : ∃ t, execStartingTimeout s = .next t ∧ Kept P s0 t := by
  unfold execStartingTimeout; try dsimp only
  repeat' with_reducible first | refine ⟨_, rfl, ?_⟩ | assumption | (with_unfolding_all exact among hP rfl) | exact fun _ hx => hx | exact grant_kept _ _ _ _ (among hP rfl) hk ‹_› | apply missed_kept | apply onPair_kept | intro _ | apply ite_kept | split | (simp_all; done)
theorem execHeartbeatMiss_kept (s : State) {P : List Part} {s0 : State} (hP : [.pair] ⊆ P) (hk : Kept P s0 s) : ∃ t, execHeartbeatMiss s = .next t ∧ Kept P s0 t := by
  unfold execHeartbeatMiss; try dsimp only
  repeat' with_reducible first | refine ⟨_, rfl, ?_⟩ | assumption | (with_unfolding_all exact among hP rfl) | exact fun _ hx => hx | exact grant_kept _ _ _ _ (among hP rfl) hk ‹_› | apply missed_kept | apply onPair_kept | intro _ | apply ite_kept | split | (simp_all; done)
@[simp] theorem endCkpt_kept (s : State) {P : List Part} {s0 : State} (hP : [.counters, .ports, .traffic, .net, .pair, .out] ⊆ P) (hk : Kept P s0 s) : Kept P s0 (State.endCkpt s) := by
  unfold State.endCkpt; try dsimp only
  repeat' with_reducible first | assumption | (with_unfolding_all exact among hP rfl) | exact fun _ hx => hx | apply mirror_kept | apply onPair_kept | intro _ | apply ite_kept | split | (simp_all; done)
@[simp] theorem pumpCkpt_kept (l : List Nat) (s : State) {P : List Part} {s0 : State} (hP : [.counters, .ports, .traffic, .net, .pair, .out] ⊆ P) (hk : Kept P s0 s) : Kept P s0 (State.pumpCkpt l s) := by
  induction l generalizing s  with
  | nil => unfold State.pumpCkpt; repeat' with_reducible first | assumption | (with_unfolding_all exact among hP rfl) | exact fun _ hx => hx | apply endCkpt_kept | apply mirror_kept | apply onPair_kept | intro _ | apply ite_kept | split | (simp_all; done)
  | cons k r ih =>
    unfold State.pumpCkpt; try dsimp only
    repeat' with_reducible first | assumption | (with_unfolding_all exact among hP rfl) | exact fun _ hx => hx | apply ih | apply endCkpt_kept | apply mirror_kept | apply onPair_kept | intro _ | apply ite_kept | split | (simp_all; done)
theorem execCheckpoint_kept (s : State) {P : List Part} {s0 : State} (hP : [.counters, .ports, .traffic, .net, .pair, .out] ⊆ P) (hk : Kept P s0 s) : ∃ t, execCheckpoint s = .next t ∧ Kept P s0 t := by
  unfold execCheckpoint; try dsimp only
  repeat' with_reducible first | refine ⟨_, rfl, ?_⟩ | assumption | (with_unfolding_all exact among hP rfl) | exact fun _ hx => hx | exact grant_kept _ _ _ _ (among hP rfl) hk ‹_› | apply endCkpt_kept | apply onPair_kept | apply pairCount_kept | apply pumpCkpt_kept | intro _ | apply ite_kept | split | (simp_all; done)
@[simp] theorem resync_kept (s : State) {P : List Part} {s0 : State} (hP : [.headers, .counters, .ports, .traffic, .net, .pair, .score, .out] ⊆ P) (hk : Kept P s0 s) : Kept P s0 (State.resync s) := by
  unfold State.resync; try dsimp only
  repeat' with_reducible first | assumption | (with_unfolding_all exact among hP rfl) | exact fun _ hx => hx | apply onPair_kept | apply pairCount_kept | apply pairEvent_kept | apply sendRecords_kept | intro _ | apply ite_kept | split | (simp_all; done)
@[simp] theorem resyncNow_kept (s : State) {P : List Part} {s0 : State} (hP : [.headers, .counters, .ports, .traffic, .net, .pair, .score, .out] ⊆ P) (hk : Kept P s0 s) : Kept P s0 (State.resyncNow s) := by
  unfold State.resyncNow; try dsimp only
  repeat' with_reducible first | assumption | (with_unfolding_all exact among hP rfl) | exact fun _ hx => hx | apply resync_kept | intro _ | apply ite_kept | split | (simp_all; done)
theorem execMirrorResend_kept (s : State) {P : List Part} {s0 : State} (hP : [.counters, .ports, .traffic, .net, .pair, .out] ⊆ P) (hk : Kept P s0 s) : ∃ t, execMirrorResend s = .next t ∧ Kept P s0 t := by
  unfold execMirrorResend; try dsimp only
  repeat' with_reducible first | refine ⟨_, rfl, ?_⟩ | assumption | (with_unfolding_all exact among hP rfl) | exact fun _ hx => hx | exact grant_kept _ _ _ _ (among hP rfl) hk ‹_› | apply onPair_kept | apply sendRecords_kept | intro _ | apply ite_kept | split | (simp_all; done)
@[simp] theorem store_kept (direct : Bool) (core : Nat) (e : Bytes) (s : State) {P : List Part} {s0 : State} (hP : [.headers, .pair, .score] ⊆ P) (hk : Kept P s0 s) : Kept P s0 (State.store direct core e s) := by
  unfold State.store; try dsimp only
  repeat' with_reducible first | assumption | (with_unfolding_all exact among hP rfl) | exact fun _ hx => hx | apply loseSync_kept | apply onPair_kept | intro _ | apply ite_kept | split | (simp_all; done)
@[simp] theorem mirrorSwap_kept (whr gen : Nat) (s : State) {P : List Part} {s0 : State} (hP : [.headers, .registers, .counters, .ports, .traffic, .net, .objects, .compute, .pair, .score, .out] ⊆ P) (hk : Kept P s0 s) : Kept P s0 (State.mirrorSwap whr gen s).1 := by
  unfold State.mirrorSwap; try dsimp only
  repeat' with_reducible first | assumption | (with_unfolding_all exact among hP rfl) | exact fun _ hx => hx | apply loseSync_kept | apply onPair_kept | apply swapAs_kept | intro _ | apply ite_kept | split | (simp_all; done)
@[simp] theorem mirrorSwaps_kept (s : State) {P : List Part} {s0 : State} (hP : [.headers, .registers, .counters, .ports, .traffic, .net, .objects, .compute, .pair, .score, .out] ⊆ P) (hk : Kept P s0 s) : Kept P s0 (State.mirrorSwaps s) := by
  unfold State.mirrorSwaps; try dsimp only
  repeat' with_reducible first | assumption | (with_unfolding_all exact among hP rfl) | exact fun _ hx => hx | apply mirrorSwap_kept | apply onPair_kept | apply each_kept | intro _ | apply ite_kept | split | (simp_all; done)
@[simp] theorem dropImage_kept (whr : Nat) (s : State) {P : List Part} {s0 : State} (hP : [.counters, .objects, .pair] ⊆ P) (hk : Kept P s0 s) : Kept P s0 (State.dropImage whr s) := by
  unfold State.dropImage; try dsimp only
  repeat' with_reducible first | assumption | (with_unfolding_all exact among hP rfl) | exact fun _ hx => hx | apply discardStage_kept | apply onPair_kept | intro _ | apply ite_kept | split | (simp_all; done)
@[simp] theorem dropMirrored_kept (s : State) {P : List Part} {s0 : State} (hP : [.headers, .registers, .counters, .selid, .objects, .flow, .compute, .pair, .score] ⊆ P) (hk : Kept P s0 s) : Kept P s0 (State.dropMirrored s) := by
  unfold State.dropMirrored; try dsimp only
  repeat' with_reducible first | assumption | (with_unfolding_all exact among hP rfl) | exact fun _ hx => hx | (with_reducible apply onFlow_kept; case hf => intro _; with_unfolding_all rfl) | apply destroyChan_kept | apply dropImage_kept | apply freeRing_kept | apply onObjects_kept | apply onPair_kept | apply retireGen_kept | apply store_kept | apply each_kept | intro _ | apply ite_kept | split | (simp_all; done)
@[simp] theorem mirrorCreate_kept (b : Bytes) (s : State) {P : List Part} {s0 : State} (hP : [.headers, .registers, .counters, .objects, .compute, .pair, .score] ⊆ P) (hk : Kept P s0 s) : Kept P s0 (State.mirrorCreate b s) := by
  unfold State.mirrorCreate; try dsimp only
  repeat' with_reducible first | assumption | (with_unfolding_all exact among hP rfl) | exact fun _ hx => hx | apply free_kept | apply loseSync_kept | apply onChan_kept | apply onObjects_kept | apply setupChan_kept | intro _ | apply ite_kept | split | (simp_all; done)
@[simp] theorem mirrorOpen_kept (whr : Nat) (b : Bytes) (s : State) {P : List Part} {s0 : State} (hP : [.headers, .counters, .objects, .pair, .score] ⊆ P) (hk : Kept P s0 s) : Kept P s0 (State.mirrorOpen whr b s) := by
  unfold State.mirrorOpen; try dsimp only
  repeat' with_reducible first | assumption | (with_unfolding_all exact among hP rfl) | exact fun _ hx => hx | apply dropImage_kept | apply loseSync_kept | apply onPair_kept | apply onStage_kept | apply openStage_kept | intro _ | apply ite_kept | split | (simp_all; done)
@[simp] theorem mirrorData_kept (whr : Nat) (b : Bytes) (s : State) {P : List Part} {s0 : State} (hP : [.headers, .objects, .pair, .score] ⊆ P) (hk : Kept P s0 s) : Kept P s0 (State.mirrorData whr b s) := by
  unfold State.mirrorData; try dsimp only
  repeat' with_reducible first | assumption | (with_unfolding_all exact among hP rfl) | exact fun _ hx => hx | apply loseSync_kept | apply onStage_kept | intro _ | apply ite_kept | split | (simp_all; done)
@[simp] theorem mirrorDirect_kept (die : Nat) (e : Bytes) (s : State) {P : List Part} {s0 : State} (hP : [.headers, .flow, .pair, .score] ⊆ P) (hk : Kept P s0 s) : Kept P s0 (State.mirrorDirect die e s) := by
  unfold State.mirrorDirect; try dsimp only
  repeat' with_reducible first | assumption | (with_unfolding_all exact among hP rfl) | exact fun _ hx => hx | apply setEntry_kept | apply store_kept | intro _ | apply ite_kept | split | (simp_all; done)
@[simp] theorem applyRecord_kept (seq : Nat) (r : RecordIn) (s : State) {P : List Part} {s0 : State} (hP : [.headers, .registers, .counters, .selid, .ports, .traffic, .net, .objects, .flow, .stateMem, .compute, .pair, .score, .out] ⊆ P) (hk : Kept P s0 s) : Kept P s0 (State.applyRecord seq r s) := by
  unfold State.applyRecord; try dsimp only
  repeat' with_reducible first | assumption | (with_unfolding_all exact among hP rfl) | exact fun _ hx => hx | (with_reducible apply onFlow_kept; case hf => intro _; with_unfolding_all rfl) | (with_reducible apply onMem_kept; case hx => intro _; with_unfolding_all rfl) | apply destroyChan_kept | apply dropMirrored_kept | apply mirrorCreate_kept | apply mirrorData_kept | apply mirrorDirect_kept | apply mirrorOpen_kept | apply mirrorSwap_kept | apply onPair_kept | apply store_kept | apply watchSync_kept | intro _ | apply ite_kept | split | (simp_all; done)
@[simp] theorem takeRecord_kept (seq : Nat) (r : RecordIn) (s : State) {P : List Part} {s0 : State} (hP : [.headers, .registers, .counters, .selid, .ports, .traffic, .net, .objects, .flow, .stateMem, .compute, .pair, .score, .out] ⊆ P) (hk : Kept P s0 s) : Kept P s0 (State.takeRecord seq r s) := by
  unfold State.takeRecord; try dsimp only
  repeat' with_reducible first | assumption | (with_unfolding_all exact among hP rfl) | exact fun _ hx => hx | apply applyRecord_kept | apply loseSync_kept | apply onPair_kept | intro _ | apply ite_kept | split | (simp_all; done)
@[simp] theorem settleSync_kept (s : State) {P : List Part} {s0 : State} (hP : [.headers, .pair, .score] ⊆ P) (hk : Kept P s0 s) : Kept P s0 (State.settleSync s) := by
  unfold State.settleSync; try dsimp only
  repeat' with_reducible first | assumption | (with_unfolding_all exact among hP rfl) | exact fun _ hx => hx | apply onPair_kept | apply pairEvent_kept | intro _ | apply ite_kept | split | (simp_all; done)
@[simp] theorem sweepEntry_kept (m : MirrorEntry) (s : State) {P : List Part} {s0 : State} (hP : [.counters, .flow, .compute, .pair] ⊆ P) (hk : Kept P s0 s) : Kept P s0 (State.sweepEntry m s) := by
  unfold State.sweepEntry; try dsimp only
  repeat' with_reducible first | assumption | (with_unfolding_all exact among hP rfl) | exact fun _ hx => hx | apply adopt_kept | intro _ | apply ite_kept | split | (simp_all; done)
@[simp] theorem expireEntry_kept (m : MirrorEntry) (s : State) {P : List Part} {s0 : State} (hP : [.counters, .flow, .pair] ⊆ P) (hk : Kept P s0 s) : Kept P s0 (State.expireEntry m s) := by
  unfold State.expireEntry; try dsimp only
  repeat' with_reducible first | assumption | (with_unfolding_all exact among hP rfl) | exact fun _ hx => hx | (with_reducible apply onFlow_kept; case hf => intro _; with_unfolding_all rfl) | apply onPair_kept | apply pairCount_kept | apply store_kept | intro _ | apply ite_kept | split | (simp_all; done)
@[simp] theorem settleStore_kept (s : State) {P : List Part} {s0 : State} (hP : [.counters, .flow, .compute, .pair] ⊆ P) (hk : Kept P s0 s) : Kept P s0 (State.settleStore s) := by
  unfold State.settleStore; try dsimp only
  repeat' with_reducible first | assumption | (with_unfolding_all exact among hP rfl) | exact fun _ hx => hx | apply expireEntry_kept | apply store_kept | apply sweepEntry_kept | apply each_kept | intro _ | apply ite_kept | split | (simp_all; done)
@[simp] theorem pairWrite_kept (off : Nat) (v : Word) (s : State) {P : List Part} {s0 : State} (hP : [.pair] ⊆ P) (hk : Kept P s0 s) : Kept P s0 (State.pairWrite off v s) := by
  unfold State.pairWrite; try dsimp only
  repeat' with_reducible first | assumption | (with_unfolding_all exact among hP rfl) | exact fun _ hx => hx | apply onPair_kept | intro _ | apply ite_kept | split | (simp_all; done)
@[simp] theorem freeOpt_kept (r : Option Nat) (s : State) {P : List Part} {s0 : State} (hP : [.registers, .objects] ⊆ P) (hk : Kept P s0 s) : Kept P s0 (State.freeOpt r s) := by
  unfold State.freeOpt; try dsimp only
  repeat' with_reducible first | assumption | (with_unfolding_all exact among hP rfl) | exact fun _ hx => hx | apply freeRing_kept | intro _ | apply ite_kept | split | (simp_all; done)
@[simp] theorem putItems_kept (l : List ScoreItem) (used0 used1 : Nat) (s : State) {P : List Part} {s0 : State} (hP : [.headers, .counters, .objects, .compute, .score] ⊆ P) (hk : Kept P s0 s) : Kept P s0 (State.putItems l used0 used1 s) := by
  induction l generalizing s used0 used1 with
  | nil => unfold State.putItems; exact hk
  | cons i r ih =>
    unfold State.putItems
    split
    · rename_i h _; cases h; dsimp only
      apply ih
      repeat' with_reducible first | assumption | (with_unfolding_all exact among hP rfl) | exact fun _ hx => hx | apply ringPut_kept | apply scoreCount_kept | apply setEvent_kept | intro _ | apply ite_kept | split | (simp_all; done)
    · exact hk
@[simp] theorem scoreFlush_kept (s : State) {P : List Part} {s0 : State} (hP : [.headers, .counters, .objects, .compute, .score] ⊆ P) (hk : Kept P s0 s) : Kept P s0 (State.scoreFlush s) := by
  unfold State.scoreFlush; try dsimp only
  repeat' with_reducible first | assumption | (with_unfolding_all exact among hP rfl) | exact fun _ hx => hx | apply onScore_kept | apply putItems_kept | intro _ | apply ite_kept | split | (simp_all; done)
@[simp] theorem endReplay_kept (s : State) {P : List Part} {s0 : State} (hP : [.headers, .score] ⊆ P) (hk : Kept P s0 s) : Kept P s0 (State.endReplay s) := by
  unfold State.endReplay; try dsimp only
  repeat' with_reducible first | assumption | (with_unfolding_all exact among hP rfl) | exact fun _ hx => hx | apply onScore_kept | apply setEvent_kept | intro _ | apply ite_kept | split | (simp_all; done)
@[simp] theorem inject_kept (b : Bytes) (s : State) {P : List Part} {s0 : State} (hP : [.headers, .counters, .ports, .traffic, .net, .objects, .compute, .score, .out] ⊆ P) (hk : Kept P s0 s) : Kept P s0 (State.inject b s).1 := by
  unfold State.inject; try dsimp only
  repeat' with_reducible first | assumption | (with_unfolding_all exact among hP rfl) | exact fun _ hx => hx | apply ingress_kept | intro _ | apply ite_kept | split | (simp_all; done)
theorem execReplayInject_kept (index : Nat) (s : State) {P : List Part} {s0 : State} (hP : [.headers, .counters, .ports, .traffic, .net, .objects, .compute, .score, .out] ⊆ P) (hk : Kept P s0 s) : ∃ t, execReplayInject index s = .next t ∧ Kept P s0 t := by
  unfold execReplayInject; try dsimp only
  repeat' with_reducible first | refine ⟨_, rfl, ?_⟩ | assumption | (with_unfolding_all exact among hP rfl) | exact fun _ hx => hx | exact grant_kept _ _ _ _ (among hP rfl) hk ‹_› | apply inject_kept | apply onScore_kept | apply scoreCount_kept | intro _ | apply ite_kept | split | (simp_all; done)
theorem execReplayEnd_kept (s : State) {P : List Part} {s0 : State} (hP : [.headers, .score] ⊆ P) (hk : Kept P s0 s) : ∃ t, execReplayEnd s = .next t ∧ Kept P s0 t := by
  unfold execReplayEnd; try dsimp only
  repeat' with_reducible first | refine ⟨_, rfl, ?_⟩ | assumption | (with_unfolding_all exact among hP rfl) | exact fun _ hx => hx | exact grant_kept _ _ _ _ (among hP rfl) hk ‹_› | apply endReplay_kept | intro _ | apply ite_kept | split | (simp_all; done)
@[simp] theorem settleReplay_kept (s : State) {P : List Part} {s0 : State} (hP : [.headers, .counters, .ports, .traffic, .net, .objects, .compute, .score, .out] ⊆ P) (hk : Kept P s0 s) : Kept P s0 (State.settleReplay s) := by
  unfold State.settleReplay; try dsimp only
  repeat' with_reducible first | assumption | (with_unfolding_all exact among hP rfl) | exact fun _ hx => hx | apply execReplayEnd_kept | apply execReplayInject_kept | apply each_kept | apply force_kept | intro _ | apply ite_kept | split | (simp_all; done)
@[simp] theorem scoreWrite_kept (off : Nat) (v : Word) (s : State) {P : List Part} {s0 : State} (hP : [.registers] ⊆ P) (hk : Kept P s0 s) : Kept P s0 (State.scoreWrite off v s) := by
  unfold State.scoreWrite; try dsimp only
  repeat' with_reducible first | assumption | (with_unfolding_all exact among hP rfl) | exact fun _ hx => hx | apply setReg_kept | intro _ | apply ite_kept | split | (simp_all; done)
@[simp] theorem backCount_kept (e : Nat) (s : State) {P : List Part} {s0 : State} (hP : [.counters] ⊆ P) (hk : Kept P s0 s) : Kept P s0 (State.backCount e s) := by
  unfold State.backCount; try dsimp only
  repeat' with_reducible first | assumption | (with_unfolding_all exact among hP rfl) | exact fun _ hx => hx | apply bump_kept | intro _ | apply ite_kept | split | (simp_all; done)
@[simp] theorem scrubError_kept (site line err : Nat) (pages : List (Nat × Nat)) (s : State) {P : List Part} {s0 : State} (hP : [.headers, .registers, .counters, .compute, .power, .reliab, .score] ⊆ P) (hk : Kept P s0 s) : Kept P s0 (State.scrubError site line err pages s) := by
  unfold State.scrubError; try dsimp only
  repeat' with_reducible first | assumption | (with_unfolding_all exact among hP rfl) | exact fun _ hx => hx | apply backCount_kept | apply retirePage_kept | apply siteLineErr_kept | apply each_kept | intro _ | apply ite_kept | split | (simp_all; done)
@[simp] theorem settleScrub_kept (s : State) {P : List Part} {s0 : State} (hP : [.headers, .compute, .score] ⊆ P) (hk : Kept P s0 s) : Kept P s0 (State.settleScrub s) := by
  unfold State.settleScrub; try dsimp only
  repeat' with_reducible first | assumption | (with_unfolding_all exact among hP rfl) | exact fun _ hx => hx | apply pass_kept | apply setEvent_kept | intro _ | apply ite_kept | split | (simp_all; done)
@[simp] theorem tuneFail_kept (port lane : Nat) (s : State) {P : List Part} {s0 : State} (hP : [.headers, .counters, .ports, .score] ⊆ P) (hk : Kept P s0 s) : Kept P s0 (State.tuneFail port lane s) := by
  unfold State.tuneFail; try dsimp only
  repeat' with_reducible first | assumption | (with_unfolding_all exact among hP rfl) | exact fun _ hx => hx | (with_reducible apply onPort_kept; case hf => (intro q h; first | exact Port.wf_onSub _ _ h | exact Port.wf_onLane _ _ h | (with_unfolding_all exact h) | (split <;> with_unfolding_all exact h) | exact Port.wf_onSubRun _ _ _ h | exact Port.wf_comeUp _ _ _ h | exact Port.wf_fold (fun q i h => Port.wf_onSub _ _ h) _ h)) | apply backCount_kept | apply laneFail_kept | apply onLane_kept | apply setEvent_kept | intro _ | apply ite_kept | split | (simp_all; done)
@[simp] theorem judgeWindow_kept (port lane ber : Nat) (s : State) {P : List Part} {s0 : State} (hP : [.headers, .counters, .ports, .score] ⊆ P) (hk : Kept P s0 s) : Kept P s0 (State.judgeWindow port lane ber s) := by
  unfold State.judgeWindow; try dsimp only
  repeat' with_reducible first | assumption | (with_unfolding_all exact among hP rfl) | exact fun _ hx => hx | (with_reducible apply onPort_kept; case hf => (intro q h; first | exact Port.wf_onSub _ _ h | exact Port.wf_onLane _ _ h | (with_unfolding_all exact h) | (split <;> with_unfolding_all exact h) | exact Port.wf_onSubRun _ _ _ h | exact Port.wf_comeUp _ _ _ h | exact Port.wf_fold (fun q i h => Port.wf_onSub _ _ h) _ h)) | apply backCount_kept | apply onLane_kept | apply tuneFail_kept | intro _ | apply ite_kept | split | (simp_all; done)
@[simp] theorem settleWindowsOf_kept (s : State) {P : List Part} {s0 : State} (hP : [.headers, .counters, .ports, .score] ⊆ P) (hk : Kept P s0 s) : Kept P s0 (State.settleWindowsOf s) := by
  unfold State.settleWindowsOf; try dsimp only
  repeat' with_reducible first | assumption | (with_unfolding_all exact among hP rfl) | exact fun _ hx => hx | apply judgeWindow_kept | apply each_kept | intro _ | apply ite_kept | split | (simp_all; done)
theorem execTelemetry_kept (s : State) {P : List Part} {s0 : State} (hP : [.headers, .counters, .objects, .compute, .power, .score, .back] ⊆ P) (hk : Kept P s0 s) : ∃ t, execTelemetry s = .next t ∧ Kept P s0 t := by
  unfold execTelemetry; try dsimp only
  repeat' with_reducible first | refine ⟨_, rfl, ?_⟩ | assumption | (with_unfolding_all exact among hP rfl) | exact fun _ hx => hx | exact grant_kept _ _ _ _ (among hP rfl) hk ‹_› | apply backCount_kept | apply onBack_kept | apply onTempo_kept | apply ringPut_kept | apply each_kept | intro _ | apply ite_kept | split | (simp_all; done)
@[simp] theorem backWrite_kept (off : Nat) (v : Word) (s : State) {P : List Part} {s0 : State} (hP : [.registers] ⊆ P) (hk : Kept P s0 s) : Kept P s0 (State.backWrite off v s) := by
  unfold State.backWrite; try dsimp only
  repeat' with_reducible first | assumption | (with_unfolding_all exact among hP rfl) | exact fun _ hx => hx | apply setReg_kept | intro _ | apply ite_kept | split | (simp_all; done)
@[simp] theorem readReg_kept (addr : Nat) (s : State) {P : List Part} {s0 : State} (hP : [.latches] ⊆ P) (hk : Kept P s0 s) : Kept P s0 (State.readReg addr s).1 := by
  unfold State.readReg; dsimp only
  split
  · exact hk
  · split
    · dsimp only
      refine onRegs_kept _ hk ?_ ?_ fun c => ?_
      · exact fun p hp => by cases p <;> first | exact Eq.refl _ | exact And.intro rfl rfl | exact absurd (hP (by decide)) hp
      · rfl
      · exact c
    · split <;> exact hk
@[simp] theorem globalWrite_kept (off : Nat) (v : Word) (s : State) {P : List Part} {s0 : State} (hP : [.headers, .registers, .score] ⊆ P) (hk : Kept P s0 s) : Kept P s0 (State.globalWrite off v s) := by
  unfold State.globalWrite; try dsimp only
  repeat' with_reducible first | assumption | (with_unfolding_all exact among hP rfl) | exact fun _ hx => hx | apply setEvent_kept | apply setReg_kept | intro _ | apply ite_kept | split | (simp_all; done)
@[simp] theorem resetWrite_kept (off : Nat) (v : Word) (s : State) {P : List Part} {s0 : State} (hP : [.startUp] ⊆ P) (hk : Kept P s0 s) : Kept P s0 (State.resetWrite off v s) := by
  unfold State.resetWrite; try dsimp only
  repeat' with_reducible first | assumption | (with_unfolding_all exact among hP rfl) | exact fun _ hx => hx | apply onStart_kept | intro _ | apply ite_kept | split | (simp_all; done)
@[simp] theorem blockWrite_kept (t i page off : Nat) (v : Word) (s : State) {P : List Part} {s0 : State} (hP : [.headers, .registers, .counters, .ports, .pair, .score, .startUp] ⊆ P) (hk : Kept P s0 s) : Kept P s0 (State.blockWrite t i page off v s) := by
  unfold State.blockWrite; try dsimp only
  repeat' with_reducible first | assumption | (with_unfolding_all exact among hP rfl) | exact fun _ hx => hx | apply arrayWrite_kept | apply backWrite_kept | apply deepWrite_kept | apply flowCtlWrite_kept | apply globalWrite_kept | apply pairWrite_kept | apply parserWrite_kept | apply portWrite_kept | apply resetWrite_kept | apply ringPageWrite_kept | apply scoreWrite_kept | apply secWrite_kept | apply seqWrite_kept | apply tempoWrite_kept | intro _ | apply ite_kept | split | (simp_all; done)
@[simp] theorem controlWrite_kept (t i page : Nat) (v : Word) (s : State) {P : List Part} {s0 : State} (hP : [.headers, .ports, .score] ⊆ P) (hk : Kept P s0 s) : Kept P s0 (State.controlWrite t i page v s) := by
  unfold State.controlWrite; try dsimp only
  repeat' with_reducible first | assumption | (with_unfolding_all exact among hP rfl) | exact fun _ hx => hx | (with_reducible apply onPort_kept; case hf => (intro q h; first | exact Port.wf_onSub _ _ h | exact Port.wf_onLane _ _ h | (with_unfolding_all exact h) | (split <;> with_unfolding_all exact h) | exact Port.wf_onSubRun _ _ _ h | exact Port.wf_comeUp _ _ _ h | exact Port.wf_fold (fun q i h => Port.wf_onSub _ _ h) _ h)) | apply disablePort_kept | apply enablePort_kept | apply onHdr_kept | intro _ | apply ite_kept | split | (simp_all; done)
theorem clearBits_lock (p : Nat) (v : Word) (h : PageHdr) : (PageHdr.clearBits p v h).lock = h.lock := rfl
theorem writeMask_lock (p : Nat) (v : Word) (h : PageHdr) : (PageHdr.writeMask p v h).lock = h.lock := rfl
@[simp] theorem performWrite_kept (addr : Nat) (v : Word) (s : State) {P : List Part} {s0 : State} (hP : [.headers, .registers, .counters, .ports, .pair, .score, .startUp] ⊆ P) (hk : Kept P s0 s) : Kept P s0 (State.performWrite addr v s) := by
  unfold State.performWrite; try dsimp only
  repeat' first | with_reducible assumption | (with_unfolding_all exact among hP rfl) | with_reducible exact fun _ hx => hx | exact fun _ hx => hx | with_reducible apply blockWrite_kept | with_reducible apply controlWrite_kept | with_reducible apply onHdr_kept | intro _ | with_reducible apply ite_kept | split | (simp_all; done)
theorem lockWrite_sealed (o n w : Nat) : lockWrite .sealed o n w = none := by
  unfold lockWrite; split <;> first | rfl | (rename_i h; cases h) | simp_all
@[simp] theorem writeLock_kept (n page w : Nat) (s : State) {P : List Part} {s0 : State} (hP : [.headers, .score] ⊆ P) (hk : Kept P s0 s) : Kept P s0 (State.writeLock n page w s).1 := by
  unfold State.writeLock; dsimp only
  split
  · rename_i st o ho
    split
    · exact hk
    · split
      all_goals
        refine setHdr_kept page _ (among hP rfl) hk fun q => ?_
        have hs : (s.start.hdr page).lock = .sealed := q.1
        rw [hs, lockWrite_sealed] at ho; cases ho
  · exact setEvent_kept _ _ _ (among hP rfl) hk
@[simp] theorem hostWrite_kept (n : Nat) (w : BatchWrite) (s : State) {P : List Part} {s0 : State} (hP : [.headers, .registers, .counters, .ports, .pair, .score, .startUp] ⊆ P) (hk : Kept P s0 s) : Kept P s0 (State.hostWrite n w s).1 := by
  unfold State.hostWrite; try dsimp only
  repeat' with_reducible first | assumption | (with_unfolding_all exact among hP rfl) | exact fun _ hx => hx | apply onHdr_kept | apply performWrite_kept | apply setEvent_kept | apply touchPage_kept | apply writeLock_kept | intro _ | apply ite_kept | split | (simp_all; done)
@[simp] theorem controlReset_kept (kind : Nat) (s : State) {P : List Part} {s0 : State} (hP : [.headers, .registers, .counters, .latches, .arbiter, .selid, .objects, .sec, .team, .pair, .reliab, .score, .startUp] ⊆ P) (hk : Kept P s0 s) : Kept P s0 (State.controlReset kind s) := by
  unfold State.controlReset; try dsimp only
  repeat' with_reducible first | assumption | (with_unfolding_all exact among hP rfl) | exact fun _ hx => hx | apply controlRegs_kept | apply endSession_kept | apply loseSync_kept | apply onObjects_kept | apply onPair_kept | apply onReliab_kept | apply onSec_kept | apply onSelid_kept | apply onStart_kept | apply onTeam_kept | apply setFaulted_kept | apply each_kept | intro _ | apply ite_kept | split | (simp_all; done)
@[simp] theorem startFirmware_kept (s : State) {P : List Part} {s0 : State} (hP : [.headers, .sec, .score, .draws] ⊆ P) (hk : Kept P s0 s) : Kept P s0 (State.startFirmware s) := by
  unfold State.startFirmware; try dsimp only
  repeat' with_reducible first | assumption | (with_unfolding_all exact among hP rfl) | exact fun _ hx => hx | apply free_kept | apply onSec_kept | apply setEvent_kept | intro _ | apply ite_kept | split | (simp_all; done)
@[simp] theorem startHostPorts_kept (s : State) {P : List Part} {s0 : State} (hP : [.ports] ⊆ P) (hk : Kept P s0 s) : Kept P s0 (State.startHostPorts s) := by
  unfold State.startHostPorts; try dsimp only
  repeat' with_reducible first | assumption | (with_unfolding_all exact among hP rfl) | exact fun _ hx => hx | apply enablePort_kept | apply each_kept | intro _ | apply ite_kept | split | (simp_all; done)
theorem endPhase_kept (s : State) {P : List Part} {s0 t : State} (hP : [.headers, .ports, .sec, .score, .startUp, .draws] ⊆ P) (hk : Kept P s0 s) (h : State.endPhase s = some t) : Kept P s0 t := by
  unfold State.endPhase at h
  split at h
  · simp only [Option.map_eq_some_iff] at h; obtain ⟨k, _, rfl⟩ := h; exact onSec_kept _ (among hP rfl) hk
  · cases h; exact startFirmware_kept _ (among hP rfl) hk
  · cases h; exact onSec_kept _ (among hP rfl) hk
  · split at h
    · cases h
    · cases h; exact startHostPorts_kept _ (among hP rfl) hk
  · cases h; exact onStart_kept _ (among hP rfl) hk
  · cases h; exact hk
@[simp] theorem bootStep_kept (s : State) {P : List Part} {s0 : State} (hP : [.headers, .ports, .sec, .score, .startUp, .draws] ⊆ P) (hk : Kept P s0 s) : Kept P s0 (State.bootStep s) := by
  unfold State.bootStep; try dsimp only
  repeat' with_reducible first | assumption | (with_unfolding_all exact among hP rfl) | exact fun _ hx => hx | exact endPhase_kept _ (among hP rfl) hk ‹_› | apply onStart_kept | apply setEvent_kept | intro _ | apply ite_kept | split | (simp_all; done)
@[simp] theorem retireAtStart_kept (cause x : Nat) (s : State) {P : List Part} {s0 : State} (hP : [.headers, .reliab, .score] ⊆ P) (hk : Kept P s0 s) : Kept P s0 (State.retireAtStart cause x s) := by
  unfold State.retireAtStart; try dsimp only
  repeat' with_reducible first | assumption | (with_unfolding_all exact among hP rfl) | exact fun _ hx => hx | apply markFaulted_kept | apply setSite_kept | intro _ | apply ite_kept | split | (simp_all; done)
@[simp] theorem fillCore_kept (core : Nat) (s : State) {P : List Part} {s0 : State} (hP : [.headers, .counters, .objects, .reliab, .score] ⊆ P) (hk : Kept P s0 s) : Kept P s0 (State.fillCore core s) := by
  unfold State.fillCore; try dsimp only
  repeat' with_reducible first | assumption | (with_unfolding_all exact among hP rfl) | exact fun _ hx => hx | apply onObjects_kept | apply relCount_kept | apply relEvent_kept | apply setSite_kept | intro _ | apply ite_kept | split | (simp_all; done)
@[simp] theorem startSites_kept (bad untrained : List Nat) (s : State) {P : List Part} {s0 : State} (hP : [.headers, .counters, .objects, .reliab, .score] ⊆ P) (hk : Kept P s0 s) : Kept P s0 (State.startSites bad untrained s) := by
  unfold State.startSites; try dsimp only
  repeat' with_reducible first | assumption | (with_unfolding_all exact among hP rfl) | exact fun _ hx => hx | apply bump_kept | apply fillCore_kept | apply relEvent_kept | apply retireAtStart_kept | apply each_kept | intro _ | apply ite_kept | split | (simp_all; done)
@[simp] theorem boardEntry_kept (addr : Nat) (v : Word) (s : State) {P : List Part} {s0 : State} (hP : [.headers, .registers, .counters, .ports, .pair, .score, .startUp] ⊆ P) (hk : Kept P s0 s) : Kept P s0 (State.boardEntry addr v s) := by
  unfold State.boardEntry; try dsimp only
  repeat' with_reducible first | assumption | (with_unfolding_all exact among hP rfl) | exact fun _ hx => hx | apply performWrite_kept | apply setEvent_kept | intro _ | apply ite_kept | split | (simp_all; done)
@[simp] theorem startBoard_kept (b : Bytes) (s : State) {P : List Part} {s0 : State} (hP : [.headers, .registers, .counters, .ports, .pair, .score, .startUp] ⊆ P) (hk : Kept P s0 s) : Kept P s0 (State.startBoard b s) := by
  unfold State.startBoard; try dsimp only
  repeat' with_reducible first | assumption | (with_unfolding_all exact among hP rfl) | exact fun _ hx => hx | apply boardEntry_kept | apply setEvent_kept | apply each_kept | intro _ | apply ite_kept | split | (simp_all; done)
@[simp] theorem startRings_kept (s : State) {P : List Part} {s0 : State} (hP : [.registers, .objects, .flow, .sec, .back, .draws] ⊆ P) (hk : Kept P s0 s) : Kept P s0 (State.startRings s) := by
  unfold State.startRings; try dsimp only
  repeat' with_reducible first | assumption | (with_unfolding_all exact among hP rfl) | exact fun _ hx => hx | (with_reducible apply onFlow_kept; case hf => intro _; with_unfolding_all rfl) | apply allocRing_kept | apply drawSeeds_kept | apply learn_kept | apply onBack_kept | apply onSec_kept | apply each_kept | intro _ | apply ite_kept | split | (simp_all; done)
@[simp] theorem smb_kept (data : Bytes) (s : State) {P : List Part} {s0 : State} (hP : [.out] ⊆ P) (hk : Kept P s0 s) : Kept P s0 (State.smb data s) := by
  unfold State.smb; try dsimp only
  repeat' with_reducible first | assumption | (with_unfolding_all exact among hP rfl) | exact fun _ hx => hx | apply emit_kept | intro _ | apply ite_kept | split | (simp_all; done)
@[simp] theorem readAll_kept (l : List Nat) (s : State) {P : List Part} {s0 : State} (hP : [.latches] ⊆ P) (hk : Kept P s0 s) : Kept P s0 (State.readAll l s).1 := by
  induction l generalizing s  with
  | nil => unfold State.readAll; repeat' with_reducible first | assumption | (with_unfolding_all exact among hP rfl) | exact fun _ hx => hx | apply readReg_kept | intro _ | apply ite_kept | split | (simp_all; done)
  | cons a r ih =>
    unfold State.readAll; try dsimp only
    repeat' with_reducible first | assumption | (with_unfolding_all exact among hP rfl) | exact fun _ hx => hx | apply ih | apply readReg_kept | intro _ | apply ite_kept | split | (simp_all; done)
@[simp] theorem writePage_kept (n : Nat) (w : BatchWrite) (s : State) {P : List Part} {s0 : State} (hP : [.headers, .registers, .counters, .arbiter, .selid, .ports, .traffic, .net, .pair, .score, .startUp, .out] ⊆ P) (hk : Kept P s0 s) : Kept P s0 (State.writePage n w s) := by
  unfold State.writePage; try dsimp only
  repeat' first | with_reducible assumption | (with_unfolding_all exact among hP rfl) | with_reducible exact fun _ hx => hx | (refine onRegs_kept _ ?_ (fun p hp => by cases p <;> first | exact Eq.refl _ | exact And.intro rfl rfl | exact absurd (hP (by decide)) hp) rfl id) | with_reducible apply hostWrite_kept | with_reducible apply noteEntry_kept | with_reducible apply onSelid_kept | intro _ | with_reducible apply ite_kept | split | (simp_all; done)
@[simp] theorem writeStep_kept (n : Nat) (row : WriteRow) (s : State) {P : List Part} {s0 : State} (hP : [.headers, .registers, .counters, .arbiter, .selid, .ports, .traffic, .net, .pair, .score, .startUp, .out] ⊆ P) (hk : Kept P s0 s) : Kept P s0 (State.writeStep n row s) := by
  unfold State.writeStep; try dsimp only
  repeat' with_reducible first | assumption | (with_unfolding_all exact among hP rfl) | exact fun _ hx => hx | apply writePage_kept | intro _ | apply ite_kept | split | (simp_all; done)
theorem execForcedSet_kept (page : Nat) (s : State) {P : List Part} {s0 : State} (hP : [.headers, .score] ⊆ P) (hk : Kept P s0 s) : ∃ t, execForcedSet page s = .next t ∧ Kept P s0 t := by
  unfold execForcedSet; try dsimp only
  repeat' with_reducible first | refine ⟨_, rfl, ?_⟩ | assumption | (with_unfolding_all exact among hP rfl) | exact fun _ hx => hx | exact grant_kept _ _ _ _ (among hP rfl) hk ‹_› | apply onHdr_kept | apply setEvents_kept | intro _ | apply ite_kept | split | (simp_all; done)
@[simp] theorem undelivered_kept (page : Nat) (s : State) {P : List Part} {s0 : State} (hP : [.headers, .counters, .score] ⊆ P) (hk : Kept P s0 s) : Kept P s0 (State.undelivered page s) := by
  unfold State.undelivered; try dsimp only
  repeat' with_reducible first | assumption | (with_unfolding_all exact among hP rfl) | exact fun _ hx => hx | apply bump_kept | apply setEvent_kept | intro _ | apply ite_kept | split | (simp_all; done)
@[simp] theorem queueTo_kept (set page : Nat) (r : EventRecord) (sess : Nat) (s : State) {P : List Part} {s0 : State} (hP : [.headers, .counters, .selid, .score] ⊆ P) (hk : Kept P s0 s) : Kept P s0 (State.queueTo set page r sess s) := by
  unfold State.queueTo; try dsimp only
  repeat' with_reducible first | assumption | (with_unfolding_all exact among hP rfl) | exact fun _ hx => hx | apply bump_kept | apply onSelid_kept | apply undelivered_kept | intro _ | apply ite_kept | split | (simp_all; done)
@[simp] theorem formFrame_kept (page : Nat) (s : State) {P : List Part} {s0 : State} (hP : [.headers, .counters, .selid, .score] ⊆ P) (hk : Kept P s0 s) : Kept P s0 (State.formFrame page s) := by
  unfold State.formFrame; try dsimp only
  repeat' with_reducible first | assumption | (with_unfolding_all exact among hP rfl) | exact fun _ hx => hx | apply onHdr_kept | apply queueTo_kept | apply undelivered_kept | apply each_kept | intro _ | apply ite_kept | split | (simp_all; done)
theorem execEventFrame_kept (page : Nat) (s : State) {P : List Part} {s0 : State} (hP : [.headers, .counters, .selid, .score] ⊆ P) (hk : Kept P s0 s) : ∃ t, execEventFrame page s = .next t ∧ Kept P s0 t := by
  unfold execEventFrame; try dsimp only
  repeat' with_reducible first | refine ⟨_, rfl, ?_⟩ | assumption | (with_unfolding_all exact among hP rfl) | exact fun _ hx => hx | exact grant_kept _ _ _ _ (among hP rfl) hk ‹_› | apply formFrame_kept | apply onHdr_kept | intro _ | apply ite_kept | split | (simp_all; done)
theorem execHoldoffExpire_kept (page : Nat) (s : State) {P : List Part} {s0 : State} (hP : [.headers, .counters, .selid, .score] ⊆ P) (hk : Kept P s0 s) : ∃ t, execHoldoffExpire page s = .next t ∧ Kept P s0 t := by
  unfold execHoldoffExpire; try dsimp only
  repeat' with_reducible first | refine ⟨_, rfl, ?_⟩ | assumption | (with_unfolding_all exact among hP rfl) | exact fun _ hx => hx | exact grant_kept _ _ _ _ (among hP rfl) hk ‹_› | apply formFrame_kept | apply onHdr_kept | intro _ | apply ite_kept | split | (simp_all; done)
@[simp] theorem refusePorts_kept (s : State) {P : List Part} {s0 : State} (hP : [.headers, .ports, .score] ⊆ P) (hk : Kept P s0 s) : Kept P s0 (State.refusePorts s) := by
  unfold State.refusePorts; try dsimp only
  repeat' with_reducible first | assumption | (with_unfolding_all exact among hP rfl) | exact fun _ hx => hx | (with_reducible apply onPort_kept; case hf => (intro q h; first | exact Port.wf_onSub _ _ h | exact Port.wf_onLane _ _ h | (with_unfolding_all exact h) | (split <;> with_unfolding_all exact h) | exact Port.wf_onSubRun _ _ _ h | exact Port.wf_comeUp _ _ _ h | exact Port.wf_fold (fun q i h => Port.wf_onSub _ _ h) _ h)) | apply onHdr_kept | apply setEvent_kept | apply each_kept | intro _ | apply ite_kept | split | (simp_all; done)
@[simp] theorem endSessions_kept (s : State) {P : List Part} {s0 : State} (hP : [.headers, .counters, .selid, .objects, .sec] ⊆ P) (hk : Kept P s0 s) : Kept P s0 (State.endSessions s) := by
  unfold State.endSessions; try dsimp only
  repeat' with_reducible first | assumption | (with_unfolding_all exact among hP rfl) | exact fun _ hx => hx | apply endSession_kept | apply each_kept | intro _ | apply ite_kept | split | (simp_all; done)
@[simp] theorem mapOn_kept (s : State) {P : List Part} {s0 : State} (hP : [.reliab] ⊆ P) (hk : Kept P s0 s) : Kept P s0 (State.mapOn s) := by
  unfold State.mapOn; try dsimp only
  repeat' with_reducible first | assumption | (with_unfolding_all exact among hP rfl) | exact fun _ hx => hx | apply onReliab_kept | intro _ | apply ite_kept | split | (simp_all; done)
@[simp] theorem laneOut_kept (s : State) {P : List Part} {s0 : State} (hP : [.selid, .net] ⊆ P) (hk : Kept P s0 s) : Kept P s0 (State.laneOut s) := by
  unfold State.laneOut; try dsimp only
  repeat' with_reducible first | assumption | (with_unfolding_all exact among hP rfl) | exact fun _ hx => hx | apply launch_kept | apply onLane_kept | apply takeHead_kept | intro _ | apply ite_kept | split | (simp_all; done)
@[simp] theorem carry_kept (s : State) {P : List Part} {s0 : State} (hP : [.counters, .selid, .ports, .traffic, .net, .out] ⊆ P) (hk : Kept P s0 s) : Kept P s0 (State.carry s) := by
  unfold State.carry; try dsimp only
  repeat' with_reducible first | assumption | (with_unfolding_all exact among hP rfl) | exact fun _ hx => hx | apply flushWaiting_kept | apply laneOut_kept | apply onNet_kept | apply sendWaiting_kept | apply each_kept | intro _ | apply ite_kept | split | (simp_all; done)
@[simp] theorem dropQueued_kept (s : State) {P : List Part} {s0 : State} (hP : [.counters, .ports, .traffic, .out] ⊆ P) (hk : Kept P s0 s) : Kept P s0 (State.dropQueued s) := by
  unfold State.dropQueued; try dsimp only
  repeat' with_reducible first | assumption | (with_unfolding_all exact among hP rfl) | exact fun _ hx => hx | apply freeBuffer_kept | apply onPacket_kept | apply onTraffic_kept | apply portCount_kept | apply settle_kept | apply each_kept | intro _ | apply ite_kept | split | (simp_all; done)
@[simp] theorem sampleLinks_kept (p : Nat) (s : State) {P : List Part} {s0 : State} (hP : [.headers, .counters, .score] ⊆ P) (hk : Kept P s0 s) : Kept P s0 (State.sampleLinks p s) := by
  unfold State.sampleLinks; try dsimp only
  repeat' with_reducible first | assumption | (with_unfolding_all exact among hP rfl) | exact fun _ hx => hx | apply portCount_kept | apply setEvent_kept | apply each_kept | intro _ | apply ite_kept | split | (simp_all; done)
@[simp] theorem pausesDue_kept (p i : Nat) (s : State) {P : List Part} {s0 : State} (hP : [.headers, .counters, .ports, .score, .out] ⊆ P) (hk : Kept P s0 s) : Kept P s0 (State.pausesDue p i s) := by
  unfold State.pausesDue; try dsimp only
  repeat' with_reducible first | assumption | (with_unfolding_all exact among hP rfl) | exact fun _ hx => hx | apply execPauseQuantaExpire_kept | apply execPauseResend_kept | apply execPfcStorm_kept | apply each_kept | apply force_kept | intro _ | apply ite_kept | split | (simp_all; done)
@[simp] theorem sampleNow_kept (s : State) {P : List Part} {s0 : State} (hP : [.ports] ⊆ P) (hk : Kept P s0 s) : Kept P s0 (State.sampleNow s) := by
  unfold State.sampleNow
  exact onDev_kept hk (fun p hp => by cases p <;> first | exact Eq.refl _ | exact And.intro rfl rfl | exact absurd (hP (List.mem_singleton.mpr rfl)) hp) rfl rfl id
@[simp] theorem portsDue_kept (s : State) {P : List Part} {s0 : State} (hP : [.headers, .counters, .ports, .ref, .traffic, .score, .out] ⊆ P) (hk : Kept P s0 s) : Kept P s0 (State.portsDue s) := by
  unfold State.portsDue; try dsimp only
  repeat' with_reducible first | assumption | (with_unfolding_all exact among hP rfl) | exact fun _ hx => hx | apply dropQueued_kept | apply pausesDue_kept | apply sampleLinks_kept | apply sampleNow_kept | apply settleWindowsOf_kept | apply execRefHoldoverEnd_kept | apply each_kept | apply force_kept | intro _ | apply ite_kept | split | (simp_all; done)
@[simp] theorem packetsDue_kept (s : State) {P : List Part} {s0 : State} (hP : [.headers, .counters, .ports, .traffic, .net, .objects, .compute, .score, .out] ⊆ P) (hk : Kept P s0 s) : Kept P s0 (State.packetsDue s) := by
  unfold State.packetsDue; try dsimp only
  repeat' with_reducible first | assumption | (with_unfolding_all exact among hP rfl) | exact fun _ hx => hx | apply execDeadline_kept | apply execEgressEligible_kept | apply execVerdictArrival_kept | apply each_kept | apply force_kept | intro _ | apply ite_kept | split | (simp_all; done)
@[simp] theorem verdictFramesDue_kept (s : State) {P : List Part} {s0 : State} (hP : [.counters, .ports, .traffic, .out] ⊆ P) (hk : Kept P s0 s) : Kept P s0 (State.verdictFramesDue s) := by
  unfold State.verdictFramesDue; try dsimp only
  repeat' with_reducible first | assumption | (with_unfolding_all exact among hP rfl) | exact fun _ hx => hx | apply execVerdictFrame_kept | apply each_kept | apply force_kept | intro _ | apply ite_kept | split | (simp_all; done)
@[simp] theorem eventsDue_kept (s : State) {P : List Part} {s0 : State} (hP : [.headers, .counters, .selid, .ports, .traffic, .net, .score, .out] ⊆ P) (hk : Kept P s0 s) : Kept P s0 (State.eventsDue s) := by
  unfold State.eventsDue; try dsimp only
  repeat' with_reducible first | assumption | (with_unfolding_all exact among hP rfl) | exact fun _ hx => hx | apply execEvent_kept | apply execEventFrame_kept | apply execForcedSet_kept | apply execHoldoffExpire_kept | apply each_kept | apply force_kept | intro _ | apply ite_kept | split | (simp_all; done)
@[simp] theorem selidDue_kept (s : State) {P : List Part} {s0 : State} (hP : [.headers, .counters, .selid, .ports, .traffic, .net, .objects, .sec, .score, .out] ⊆ P) (hk : Kept P s0 s) : Kept P s0 (State.selidDue s) := by
  unfold State.selidDue; try dsimp only
  repeat' with_reducible first | assumption | (with_unfolding_all exact among hP rfl) | exact fun _ hx => hx | apply settleWrites_kept | apply execHalfOpenExpire_kept | apply execQuenchExpire_kept | apply execSessionIdleTimeout_kept | apply execSetupFragmentTimeout_kept | apply each_kept | apply force_kept | intro _ | apply ite_kept | split | (simp_all; done)
@[simp] theorem ringsDue_kept (s : State) {P : List Part} {s0 : State} (hP : [.headers, .objects, .score] ⊆ P) (hk : Kept P s0 s) : Kept P s0 (State.ringsDue s) := by
  unfold State.ringsDue; try dsimp only
  repeat' with_reducible first | assumption | (with_unfolding_all exact among hP rfl) | exact fun _ hx => hx | apply onRing_kept | apply execFlagFall_kept | apply execPendingGap_kept | apply each_kept | apply force_kept | intro _ | apply ite_kept | split | (simp_all; done)
@[simp] theorem piecesDue_kept (s : State) {P : List Part} {s0 : State} (hP : [.headers, .registers, .counters, .net, .compute, .score] ⊆ P) (hk : Kept P s0 s) : Kept P s0 (State.piecesDue s) := by
  unfold State.piecesDue; try dsimp only
  repeat' with_reducible first | assumption | (with_unfolding_all exact among hP rfl) | exact fun _ hx => hx | apply tagWaits_kept | apply execLoadingTimeout_kept | apply execPieceRetry_kept | apply each_kept | apply force_kept | intro _ | apply ite_kept | split | (simp_all; done)
@[simp] theorem barriersDue_kept (s : State) {P : List Part} {s0 : State} (hP : [.headers, .counters, .compute, .score] ⊆ P) (hk : Kept P s0 s) : Kept P s0 (State.barriersDue s) := by
  unfold State.barriersDue; try dsimp only
  repeat' with_reducible first | assumption | (with_unfolding_all exact among hP rfl) | exact fun _ hx => hx | apply execBarrierBreak_kept | apply execBarrierReopen_kept | apply each_kept | apply force_kept | intro _ | apply ite_kept | split | (simp_all; done)
@[simp] theorem tokensDue_kept (s : State) {P : List Part} {s0 : State} (hP : [.headers, .counters, .stateMem, .compute, .score] ⊆ P) (hk : Kept P s0 s) : Kept P s0 (State.tokensDue s) := by
  unfold State.tokensDue; try dsimp only
  repeat' with_reducible first | assumption | (with_unfolding_all exact among hP rfl) | exact fun _ hx => hx | apply execExpertBatchClose_kept | apply execExpertMissed_kept | apply execTokenAbandoned_kept | apply each_kept | apply force_kept | intro _ | apply ite_kept | split | (simp_all; done)
@[simp] theorem filtersDue_kept (s : State) {P : List Part} {s0 : State} (hP : [.flow] ⊆ P) (hk : Kept P s0 s) : Kept P s0 (State.filtersDue s) := by
  unfold State.filtersDue; try dsimp only
  repeat' with_reducible first | assumption | (with_unfolding_all exact among hP rfl) | exact fun _ hx => hx | apply execPendingFilterExpire_kept | apply each_kept | apply force_kept | intro _ | apply ite_kept | split | (simp_all; done)
@[simp] theorem pairDue_kept (s : State) {P : List Part} {s0 : State} (hP : [.headers, .counters, .ports, .traffic, .net, .objects, .flow, .compute, .pair, .score, .out] ⊆ P) (hk : Kept P s0 s) : Kept P s0 (State.pairDue s) := by
  unfold State.pairDue; try dsimp only
  repeat' with_reducible first | assumption | (with_unfolding_all exact among hP rfl) | exact fun _ hx => hx | apply castleDue_kept | apply settleStore_kept | apply yieldDue_kept | apply execCheckpoint_kept | apply execHeartbeatMiss_kept | apply execHeartbeatSend_kept | apply execMirrorResend_kept | apply execStartingTimeout_kept | apply force_kept | intro _ | apply ite_kept | split | (simp_all; done)
@[simp] theorem backgroundDue_kept (s : State) {P : List Part} {s0 : State} (hP : [.headers, .counters, .ports, .traffic, .net, .objects, .compute, .power, .score, .back, .out] ⊆ P) (hk : Kept P s0 s) : Kept P s0 (State.backgroundDue s) := by
  unfold State.backgroundDue; try dsimp only
  repeat' with_reducible first | assumption | (with_unfolding_all exact among hP rfl) | exact fun _ hx => hx | apply settleReplay_kept | apply settleScrub_kept | apply execTelemetry_kept | apply force_kept | intro _ | apply ite_kept | split | (simp_all; done)
@[simp] theorem settleCores_kept (s : State) {P : List Part} {s0 : State} (hP : [.headers, .registers, .counters, .traffic, .net, .objects, .compute, .power, .reliab, .score] ⊆ P) (hk : Kept P s0 s) : Kept P s0 (State.settleCores s) := by
  unfold State.settleCores; try dsimp only
  repeat' with_reducible first | assumption | (with_unfolding_all exact among hP rfl) | exact fun _ hx => hx | apply settleArrays_kept | apply settleBatches_kept | apply settleDogs_kept | apply settleHostItems_kept | apply settleIntervals_kept | apply settleLoads_kept | apply settleSlots_kept | apply settleSteps_kept | apply settleVaults_kept | apply settleWindows_kept | intro _ | apply ite_kept | split | (simp_all; done)
@[simp] theorem settleParts_kept (s : State) {P : List Part} {s0 : State} (hP : [.headers, .registers, .counters, .selid, .ports, .traffic, .net, .objects, .flow, .stateMem, .compute, .pair, .reliab, .score, .out] ⊆ P) (hk : Kept P s0 s) : Kept P s0 (State.settleParts s) := by
  unfold State.settleParts; try dsimp only
  repeat' with_reducible first | assumption | (with_unfolding_all exact among hP rfl) | exact fun _ hx => hx | apply settleFailures_kept | apply settleMaps_kept | apply settleSpares_kept | intro _ | apply ite_kept | split | (simp_all; done)
@[simp] theorem settleControl_kept (s : State) {P : List Part} {s0 : State} (hP : [.headers, .registers, .counters, .ports, .traffic, .net, .objects, .compute, .sec, .team, .pair, .score, .out] ⊆ P) (hk : Kept P s0 s) : Kept P s0 (State.settleControl s) := by
  unfold State.settleControl; try dsimp only
  repeat' with_reducible first | assumption | (with_unfolding_all exact among hP rfl) | exact fun _ hx => hx | apply greetPair_kept | apply greetTeam_kept | apply onObjects_kept | apply settleDrains_kept | apply settleGens_kept | apply settleReseed_kept | apply settleTree_kept | intro _ | apply ite_kept | split | (simp_all; done)
@[simp] theorem endPly_kept (s : State) {P : List Part} {s0 : State} (hP : [.headers, .registers, .counters, .selid, .ports, .ref, .traffic, .net, .objects, .flow, .stateMem, .compute, .power, .sec, .team, .pair, .reliab, .score, .back, .out, .draws] ⊆ P) (hk : Kept P s0 s) : Kept P s0 (State.endPly s) := by
  unfold State.endPly; try dsimp only
  repeat' with_reducible first | assumption | (with_unfolding_all exact among hP rfl) | exact fun _ hx => hx | apply backgroundDue_kept | apply barriersDue_kept | apply carry_kept | apply eventsDue_kept | apply filtersDue_kept | apply packetsDue_kept | apply pairDue_kept | apply piecesDue_kept | apply portsDue_kept | apply ringsDue_kept | apply selidDue_kept | apply settleControl_kept | apply settleCores_kept | apply settleFlow_kept | apply settleParts_kept | apply settleTasks_kept | apply settleWaits_kept | apply tokensDue_kept | apply verdictFramesDue_kept | intro _ | apply ite_kept | split | (simp_all; done)
@[simp] theorem beginPly_kept (s : State) {P : List Part} {s0 : State} (hP : [.headers, .registers, .counters, .selid, .ports, .traffic, .net, .objects, .compute, .sec, .pair, .reliab, .score, .startUp, .out, .draws] ⊆ P) (hk : Kept P s0 s) : Kept P s0 (State.beginPly s) := by
  unfold State.beginPly; try dsimp only
  repeat' with_reducible first | assumption | (with_unfolding_all exact among hP rfl) | exact fun _ hx => hx | apply bootStep_kept | apply endSessions_kept | apply mapOn_kept | apply mirrorSwaps_kept | apply refusePorts_kept | apply resyncNow_kept | intro _ | apply ite_kept | split | (simp_all; done)
end Sys2Proof.Machine
end

