-- ==== Sys2Proof/Laws/Frames.lean ====
section
/-! SUPPORT. What the operations that most meanings use leave alone, part by part, as simp lemmas; each is the frame of the operation's lemma in KeptOps. -/
namespace Sys2Proof.Machine

theorem Kept.sameFlow {P : List Part} {s t : State} (k : Kept P s t) (h : Part.flow ∉ P) (m : Part.stateMem ∉ P) : t.dev.flow = s.dev.flow := by
  have a := k.frame .flow h
  have b := k.frame .stateMem m
  simp only [Part.Same] at a b
  cases hs : s.dev.flow; cases ht : t.dev.flow
  simp_all

@[simp] theorem setEvents_rw (page : Nat) (v : Word) (s : State) : (State.setEvents page v s).dev.regs.rw = s.dev.regs.rw :=
  ((setEvents_kept page v s (P := [.headers, .score]) (List.Subset.refl _) (Kept.rfl' _ s)).frame .registers (by decide)).symm
@[simp] theorem setEvents_ctr (page : Nat) (v : Word) (s : State) : (State.setEvents page v s).dev.regs.ctr = s.dev.regs.ctr :=
  ((setEvents_kept page v s (P := [.headers, .score]) (List.Subset.refl _) (Kept.rfl' _ s)).frame .counters (by decide)).symm
@[simp] theorem setEvents_selid (page : Nat) (v : Word) (s : State) : (State.setEvents page v s).dev.selid = s.dev.selid :=
  ((setEvents_kept page v s (P := [.headers, .score]) (List.Subset.refl _) (Kept.rfl' _ s)).frame .selid (by decide)).symm
@[simp] theorem setEvents_ports (page : Nat) (v : Word) (s : State) : (State.setEvents page v s).dev.ports = s.dev.ports :=
  ((setEvents_kept page v s (P := [.headers, .score]) (List.Subset.refl _) (Kept.rfl' _ s)).frame .ports (by decide)).1.symm
@[simp] theorem setEvents_ref (page : Nat) (v : Word) (s : State) : (State.setEvents page v s).dev.ref = s.dev.ref :=
  ((setEvents_kept page v s (P := [.headers, .score]) (List.Subset.refl _) (Kept.rfl' _ s)).frame .ref (by decide)).symm
@[simp] theorem setEvents_traffic (page : Nat) (v : Word) (s : State) : (State.setEvents page v s).dev.traffic = s.dev.traffic :=
  ((setEvents_kept page v s (P := [.headers, .score]) (List.Subset.refl _) (Kept.rfl' _ s)).frame .traffic (by decide)).symm
@[simp] theorem setEvents_net (page : Nat) (v : Word) (s : State) : (State.setEvents page v s).dev.net = s.dev.net :=
  ((setEvents_kept page v s (P := [.headers, .score]) (List.Subset.refl _) (Kept.rfl' _ s)).frame .net (by decide)).symm
@[simp] theorem setEvents_objects (page : Nat) (v : Word) (s : State) : (State.setEvents page v s).dev.objects = s.dev.objects :=
  ((setEvents_kept page v s (P := [.headers, .score]) (List.Subset.refl _) (Kept.rfl' _ s)).frame .objects (by decide)).symm
@[simp] theorem setEvents_compute (page : Nat) (v : Word) (s : State) : (State.setEvents page v s).dev.compute = s.dev.compute :=
  ((setEvents_kept page v s (P := [.headers, .score]) (List.Subset.refl _) (Kept.rfl' _ s)).frame .compute (by decide)).symm
@[simp] theorem setEvents_power (page : Nat) (v : Word) (s : State) : (State.setEvents page v s).dev.power = s.dev.power :=
  ((setEvents_kept page v s (P := [.headers, .score]) (List.Subset.refl _) (Kept.rfl' _ s)).frame .power (by decide)).symm
@[simp] theorem setEvents_sec (page : Nat) (v : Word) (s : State) : (State.setEvents page v s).dev.sec = s.dev.sec :=
  ((setEvents_kept page v s (P := [.headers, .score]) (List.Subset.refl _) (Kept.rfl' _ s)).frame .sec (by decide)).symm
@[simp] theorem setEvents_team (page : Nat) (v : Word) (s : State) : (State.setEvents page v s).dev.team = s.dev.team :=
  ((setEvents_kept page v s (P := [.headers, .score]) (List.Subset.refl _) (Kept.rfl' _ s)).frame .team (by decide)).symm
@[simp] theorem setEvents_pair (page : Nat) (v : Word) (s : State) : (State.setEvents page v s).dev.pair = s.dev.pair :=
  ((setEvents_kept page v s (P := [.headers, .score]) (List.Subset.refl _) (Kept.rfl' _ s)).frame .pair (by decide)).symm
@[simp] theorem setEvents_reliab (page : Nat) (v : Word) (s : State) : (State.setEvents page v s).dev.reliab = s.dev.reliab :=
  ((setEvents_kept page v s (P := [.headers, .score]) (List.Subset.refl _) (Kept.rfl' _ s)).frame .reliab (by decide)).symm
@[simp] theorem setEvents_back (page : Nat) (v : Word) (s : State) : (State.setEvents page v s).dev.back = s.dev.back :=
  ((setEvents_kept page v s (P := [.headers, .score]) (List.Subset.refl _) (Kept.rfl' _ s)).frame .back (by decide)).symm
@[simp] theorem setEvents_startUp (page : Nat) (v : Word) (s : State) : (State.setEvents page v s).dev.startUp = s.dev.startUp :=
  ((setEvents_kept page v s (P := [.headers, .score]) (List.Subset.refl _) (Kept.rfl' _ s)).frame .startUp (by decide)).symm
@[simp] theorem setEvents_out (page : Nat) (v : Word) (s : State) : (State.setEvents page v s).dev.out = s.dev.out :=
  ((setEvents_kept page v s (P := [.headers, .score]) (List.Subset.refl _) (Kept.rfl' _ s)).frame .out (by decide)).symm
@[simp] theorem setEvents_flow (page : Nat) (v : Word) (s : State) : (State.setEvents page v s).dev.flow = s.dev.flow :=
  (setEvents_kept page v s (P := [.headers, .score]) (List.Subset.refl _) (Kept.rfl' _ s)).sameFlow (by decide) (by decide)
@[simp] theorem setEvents_ply (page : Nat) (v : Word) (s : State) : (State.setEvents page v s).ply = s.ply := (setEvents_kept page v s (P := [.headers, .score]) (List.Subset.refl _) (Kept.rfl' _ s)).ply
@[simp] theorem setEvents_start (page : Nat) (v : Word) (s : State) : (State.setEvents page v s).start = s.start := (setEvents_kept page v s (P := [.headers, .score]) (List.Subset.refl _) (Kept.rfl' _ s)).start
@[simp] theorem setEvents_pending (page : Nat) (v : Word) (s : State) : (State.setEvents page v s).pending = s.pending := (setEvents_kept page v s (P := [.headers, .score]) (List.Subset.refl _) (Kept.rfl' _ s)).pending
@[simp] theorem setEvent_rw (page bitNo : Nat) (s : State) : (State.setEvent page bitNo s).dev.regs.rw = s.dev.regs.rw :=
  ((setEvent_kept page bitNo s (P := [.headers, .score]) (List.Subset.refl _) (Kept.rfl' _ s)).frame .registers (by decide)).symm
@[simp] theorem setEvent_ctr (page bitNo : Nat) (s : State) : (State.setEvent page bitNo s).dev.regs.ctr = s.dev.regs.ctr :=
  ((setEvent_kept page bitNo s (P := [.headers, .score]) (List.Subset.refl _) (Kept.rfl' _ s)).frame .counters (by decide)).symm
@[simp] theorem setEvent_selid (page bitNo : Nat) (s : State) : (State.setEvent page bitNo s).dev.selid = s.dev.selid :=
  ((setEvent_kept page bitNo s (P := [.headers, .score]) (List.Subset.refl _) (Kept.rfl' _ s)).frame .selid (by decide)).symm
@[simp] theorem setEvent_ports (page bitNo : Nat) (s : State) : (State.setEvent page bitNo s).dev.ports = s.dev.ports :=
  ((setEvent_kept page bitNo s (P := [.headers, .score]) (List.Subset.refl _) (Kept.rfl' _ s)).frame .ports (by decide)).1.symm
@[simp] theorem setEvent_ref (page bitNo : Nat) (s : State) : (State.setEvent page bitNo s).dev.ref = s.dev.ref :=
  ((setEvent_kept page bitNo s (P := [.headers, .score]) (List.Subset.refl _) (Kept.rfl' _ s)).frame .ref (by decide)).symm
@[simp] theorem setEvent_traffic (page bitNo : Nat) (s : State) : (State.setEvent page bitNo s).dev.traffic = s.dev.traffic :=
  ((setEvent_kept page bitNo s (P := [.headers, .score]) (List.Subset.refl _) (Kept.rfl' _ s)).frame .traffic (by decide)).symm
@[simp] theorem setEvent_net (page bitNo : Nat) (s : State) : (State.setEvent page bitNo s).dev.net = s.dev.net :=
  ((setEvent_kept page bitNo s (P := [.headers, .score]) (List.Subset.refl _) (Kept.rfl' _ s)).frame .net (by decide)).symm
@[simp] theorem setEvent_objects (page bitNo : Nat) (s : State) : (State.setEvent page bitNo s).dev.objects = s.dev.objects :=
  ((setEvent_kept page bitNo s (P := [.headers, .score]) (List.Subset.refl _) (Kept.rfl' _ s)).frame .objects (by decide)).symm
@[simp] theorem setEvent_compute (page bitNo : Nat) (s : State) : (State.setEvent page bitNo s).dev.compute = s.dev.compute :=
  ((setEvent_kept page bitNo s (P := [.headers, .score]) (List.Subset.refl _) (Kept.rfl' _ s)).frame .compute (by decide)).symm
@[simp] theorem setEvent_power (page bitNo : Nat) (s : State) : (State.setEvent page bitNo s).dev.power = s.dev.power :=
  ((setEvent_kept page bitNo s (P := [.headers, .score]) (List.Subset.refl _) (Kept.rfl' _ s)).frame .power (by decide)).symm
@[simp] theorem setEvent_sec (page bitNo : Nat) (s : State) : (State.setEvent page bitNo s).dev.sec = s.dev.sec :=
  ((setEvent_kept page bitNo s (P := [.headers, .score]) (List.Subset.refl _) (Kept.rfl' _ s)).frame .sec (by decide)).symm
@[simp] theorem setEvent_team (page bitNo : Nat) (s : State) : (State.setEvent page bitNo s).dev.team = s.dev.team :=
  ((setEvent_kept page bitNo s (P := [.headers, .score]) (List.Subset.refl _) (Kept.rfl' _ s)).frame .team (by decide)).symm
@[simp] theorem setEvent_pair (page bitNo : Nat) (s : State) : (State.setEvent page bitNo s).dev.pair = s.dev.pair :=
  ((setEvent_kept page bitNo s (P := [.headers, .score]) (List.Subset.refl _) (Kept.rfl' _ s)).frame .pair (by decide)).symm
@[simp] theorem setEvent_reliab (page bitNo : Nat) (s : State) : (State.setEvent page bitNo s).dev.reliab = s.dev.reliab :=
  ((setEvent_kept page bitNo s (P := [.headers, .score]) (List.Subset.refl _) (Kept.rfl' _ s)).frame .reliab (by decide)).symm
@[simp] theorem setEvent_back (page bitNo : Nat) (s : State) : (State.setEvent page bitNo s).dev.back = s.dev.back :=
  ((setEvent_kept page bitNo s (P := [.headers, .score]) (List.Subset.refl _) (Kept.rfl' _ s)).frame .back (by decide)).symm
@[simp] theorem setEvent_startUp (page bitNo : Nat) (s : State) : (State.setEvent page bitNo s).dev.startUp = s.dev.startUp :=
  ((setEvent_kept page bitNo s (P := [.headers, .score]) (List.Subset.refl _) (Kept.rfl' _ s)).frame .startUp (by decide)).symm
@[simp] theorem setEvent_out (page bitNo : Nat) (s : State) : (State.setEvent page bitNo s).dev.out = s.dev.out :=
  ((setEvent_kept page bitNo s (P := [.headers, .score]) (List.Subset.refl _) (Kept.rfl' _ s)).frame .out (by decide)).symm
@[simp] theorem setEvent_flow (page bitNo : Nat) (s : State) : (State.setEvent page bitNo s).dev.flow = s.dev.flow :=
  (setEvent_kept page bitNo s (P := [.headers, .score]) (List.Subset.refl _) (Kept.rfl' _ s)).sameFlow (by decide) (by decide)
@[simp] theorem setEvent_ply (page bitNo : Nat) (s : State) : (State.setEvent page bitNo s).ply = s.ply := (setEvent_kept page bitNo s (P := [.headers, .score]) (List.Subset.refl _) (Kept.rfl' _ s)).ply
@[simp] theorem setEvent_start (page bitNo : Nat) (s : State) : (State.setEvent page bitNo s).start = s.start := (setEvent_kept page bitNo s (P := [.headers, .score]) (List.Subset.refl _) (Kept.rfl' _ s)).start
@[simp] theorem setEvent_pending (page bitNo : Nat) (s : State) : (State.setEvent page bitNo s).pending = s.pending := (setEvent_kept page bitNo s (P := [.headers, .score]) (List.Subset.refl _) (Kept.rfl' _ s)).pending
@[simp] theorem setFaulted_rw (page : Nat) (f : Bool) (s : State) : (State.setFaulted page f s).dev.regs.rw = s.dev.regs.rw :=
  ((setFaulted_kept page f s (P := [.headers, .score]) (List.Subset.refl _) (Kept.rfl' _ s)).frame .registers (by decide)).symm
@[simp] theorem setFaulted_ctr (page : Nat) (f : Bool) (s : State) : (State.setFaulted page f s).dev.regs.ctr = s.dev.regs.ctr :=
  ((setFaulted_kept page f s (P := [.headers, .score]) (List.Subset.refl _) (Kept.rfl' _ s)).frame .counters (by decide)).symm
@[simp] theorem setFaulted_selid (page : Nat) (f : Bool) (s : State) : (State.setFaulted page f s).dev.selid = s.dev.selid :=
  ((setFaulted_kept page f s (P := [.headers, .score]) (List.Subset.refl _) (Kept.rfl' _ s)).frame .selid (by decide)).symm
@[simp] theorem setFaulted_ports (page : Nat) (f : Bool) (s : State) : (State.setFaulted page f s).dev.ports = s.dev.ports :=
  ((setFaulted_kept page f s (P := [.headers, .score]) (List.Subset.refl _) (Kept.rfl' _ s)).frame .ports (by decide)).1.symm
@[simp] theorem setFaulted_ref (page : Nat) (f : Bool) (s : State) : (State.setFaulted page f s).dev.ref = s.dev.ref :=
  ((setFaulted_kept page f s (P := [.headers, .score]) (List.Subset.refl _) (Kept.rfl' _ s)).frame .ref (by decide)).symm
@[simp] theorem setFaulted_traffic (page : Nat) (f : Bool) (s : State) : (State.setFaulted page f s).dev.traffic = s.dev.traffic :=
  ((setFaulted_kept page f s (P := [.headers, .score]) (List.Subset.refl _) (Kept.rfl' _ s)).frame .traffic (by decide)).symm
@[simp] theorem setFaulted_net (page : Nat) (f : Bool) (s : State) : (State.setFaulted page f s).dev.net = s.dev.net :=
  ((setFaulted_kept page f s (P := [.headers, .score]) (List.Subset.refl _) (Kept.rfl' _ s)).frame .net (by decide)).symm
@[simp] theorem setFaulted_objects (page : Nat) (f : Bool) (s : State) : (State.setFaulted page f s).dev.objects = s.dev.objects :=
  ((setFaulted_kept page f s (P := [.headers, .score]) (List.Subset.refl _) (Kept.rfl' _ s)).frame .objects (by decide)).symm
@[simp] theorem setFaulted_compute (page : Nat) (f : Bool) (s : State) : (State.setFaulted page f s).dev.compute = s.dev.compute :=
  ((setFaulted_kept page f s (P := [.headers, .score]) (List.Subset.refl _) (Kept.rfl' _ s)).frame .compute (by decide)).symm
@[simp] theorem setFaulted_power (page : Nat) (f : Bool) (s : State) : (State.setFaulted page f s).dev.power = s.dev.power :=
  ((setFaulted_kept page f s (P := [.headers, .score]) (List.Subset.refl _) (Kept.rfl' _ s)).frame .power (by decide)).symm
@[simp] theorem setFaulted_sec (page : Nat) (f : Bool) (s : State) : (State.setFaulted page f s).dev.sec = s.dev.sec :=
  ((setFaulted_kept page f s (P := [.headers, .score]) (List.Subset.refl _) (Kept.rfl' _ s)).frame .sec (by decide)).symm
@[simp] theorem setFaulted_team (page : Nat) (f : Bool) (s : State) : (State.setFaulted page f s).dev.team = s.dev.team :=
  ((setFaulted_kept page f s (P := [.headers, .score]) (List.Subset.refl _) (Kept.rfl' _ s)).frame .team (by decide)).symm
@[simp] theorem setFaulted_pair (page : Nat) (f : Bool) (s : State) : (State.setFaulted page f s).dev.pair = s.dev.pair :=
  ((setFaulted_kept page f s (P := [.headers, .score]) (List.Subset.refl _) (Kept.rfl' _ s)).frame .pair (by decide)).symm
@[simp] theorem setFaulted_reliab (page : Nat) (f : Bool) (s : State) : (State.setFaulted page f s).dev.reliab = s.dev.reliab :=
  ((setFaulted_kept page f s (P := [.headers, .score]) (List.Subset.refl _) (Kept.rfl' _ s)).frame .reliab (by decide)).symm
@[simp] theorem setFaulted_back (page : Nat) (f : Bool) (s : State) : (State.setFaulted page f s).dev.back = s.dev.back :=
  ((setFaulted_kept page f s (P := [.headers, .score]) (List.Subset.refl _) (Kept.rfl' _ s)).frame .back (by decide)).symm
@[simp] theorem setFaulted_startUp (page : Nat) (f : Bool) (s : State) : (State.setFaulted page f s).dev.startUp = s.dev.startUp :=
  ((setFaulted_kept page f s (P := [.headers, .score]) (List.Subset.refl _) (Kept.rfl' _ s)).frame .startUp (by decide)).symm
@[simp] theorem setFaulted_out (page : Nat) (f : Bool) (s : State) : (State.setFaulted page f s).dev.out = s.dev.out :=
  ((setFaulted_kept page f s (P := [.headers, .score]) (List.Subset.refl _) (Kept.rfl' _ s)).frame .out (by decide)).symm
@[simp] theorem setFaulted_flow (page : Nat) (f : Bool) (s : State) : (State.setFaulted page f s).dev.flow = s.dev.flow :=
  (setFaulted_kept page f s (P := [.headers, .score]) (List.Subset.refl _) (Kept.rfl' _ s)).sameFlow (by decide) (by decide)
@[simp] theorem setFaulted_ply (page : Nat) (f : Bool) (s : State) : (State.setFaulted page f s).ply = s.ply := (setFaulted_kept page f s (P := [.headers, .score]) (List.Subset.refl _) (Kept.rfl' _ s)).ply
@[simp] theorem setFaulted_start (page : Nat) (f : Bool) (s : State) : (State.setFaulted page f s).start = s.start := (setFaulted_kept page f s (P := [.headers, .score]) (List.Subset.refl _) (Kept.rfl' _ s)).start
@[simp] theorem setFaulted_pending (page : Nat) (f : Bool) (s : State) : (State.setFaulted page f s).pending = s.pending := (setFaulted_kept page f s (P := [.headers, .score]) (List.Subset.refl _) (Kept.rfl' _ s)).pending
@[simp] theorem touchPage_hdr (page prec : Nat) (s : State) : (State.touchPage page prec s).dev.regs.hdr = s.dev.regs.hdr :=
  ((touchPage_kept page prec s (P := [.score]) (List.Subset.refl _) (Kept.rfl' _ s)).frame .headers (by decide)).symm
@[simp] theorem touchPage_rw (page prec : Nat) (s : State) : (State.touchPage page prec s).dev.regs.rw = s.dev.regs.rw :=
  ((touchPage_kept page prec s (P := [.score]) (List.Subset.refl _) (Kept.rfl' _ s)).frame .registers (by decide)).symm
@[simp] theorem touchPage_ctr (page prec : Nat) (s : State) : (State.touchPage page prec s).dev.regs.ctr = s.dev.regs.ctr :=
  ((touchPage_kept page prec s (P := [.score]) (List.Subset.refl _) (Kept.rfl' _ s)).frame .counters (by decide)).symm
@[simp] theorem touchPage_selid (page prec : Nat) (s : State) : (State.touchPage page prec s).dev.selid = s.dev.selid :=
  ((touchPage_kept page prec s (P := [.score]) (List.Subset.refl _) (Kept.rfl' _ s)).frame .selid (by decide)).symm
@[simp] theorem touchPage_ports (page prec : Nat) (s : State) : (State.touchPage page prec s).dev.ports = s.dev.ports :=
  ((touchPage_kept page prec s (P := [.score]) (List.Subset.refl _) (Kept.rfl' _ s)).frame .ports (by decide)).1.symm
@[simp] theorem touchPage_ref (page prec : Nat) (s : State) : (State.touchPage page prec s).dev.ref = s.dev.ref :=
  ((touchPage_kept page prec s (P := [.score]) (List.Subset.refl _) (Kept.rfl' _ s)).frame .ref (by decide)).symm
@[simp] theorem touchPage_traffic (page prec : Nat) (s : State) : (State.touchPage page prec s).dev.traffic = s.dev.traffic :=
  ((touchPage_kept page prec s (P := [.score]) (List.Subset.refl _) (Kept.rfl' _ s)).frame .traffic (by decide)).symm
@[simp] theorem touchPage_net (page prec : Nat) (s : State) : (State.touchPage page prec s).dev.net = s.dev.net :=
  ((touchPage_kept page prec s (P := [.score]) (List.Subset.refl _) (Kept.rfl' _ s)).frame .net (by decide)).symm
@[simp] theorem touchPage_objects (page prec : Nat) (s : State) : (State.touchPage page prec s).dev.objects = s.dev.objects :=
  ((touchPage_kept page prec s (P := [.score]) (List.Subset.refl _) (Kept.rfl' _ s)).frame .objects (by decide)).symm
@[simp] theorem touchPage_compute (page prec : Nat) (s : State) : (State.touchPage page prec s).dev.compute = s.dev.compute :=
  ((touchPage_kept page prec s (P := [.score]) (List.Subset.refl _) (Kept.rfl' _ s)).frame .compute (by decide)).symm
@[simp] theorem touchPage_power (page prec : Nat) (s : State) : (State.touchPage page prec s).dev.power = s.dev.power :=
  ((touchPage_kept page prec s (P := [.score]) (List.Subset.refl _) (Kept.rfl' _ s)).frame .power (by decide)).symm
@[simp] theorem touchPage_sec (page prec : Nat) (s : State) : (State.touchPage page prec s).dev.sec = s.dev.sec :=
  ((touchPage_kept page prec s (P := [.score]) (List.Subset.refl _) (Kept.rfl' _ s)).frame .sec (by decide)).symm
@[simp] theorem touchPage_team (page prec : Nat) (s : State) : (State.touchPage page prec s).dev.team = s.dev.team :=
  ((touchPage_kept page prec s (P := [.score]) (List.Subset.refl _) (Kept.rfl' _ s)).frame .team (by decide)).symm
@[simp] theorem touchPage_pair (page prec : Nat) (s : State) : (State.touchPage page prec s).dev.pair = s.dev.pair :=
  ((touchPage_kept page prec s (P := [.score]) (List.Subset.refl _) (Kept.rfl' _ s)).frame .pair (by decide)).symm
@[simp] theorem touchPage_reliab (page prec : Nat) (s : State) : (State.touchPage page prec s).dev.reliab = s.dev.reliab :=
  ((touchPage_kept page prec s (P := [.score]) (List.Subset.refl _) (Kept.rfl' _ s)).frame .reliab (by decide)).symm
@[simp] theorem touchPage_back (page prec : Nat) (s : State) : (State.touchPage page prec s).dev.back = s.dev.back :=
  ((touchPage_kept page prec s (P := [.score]) (List.Subset.refl _) (Kept.rfl' _ s)).frame .back (by decide)).symm
@[simp] theorem touchPage_startUp (page prec : Nat) (s : State) : (State.touchPage page prec s).dev.startUp = s.dev.startUp :=
  ((touchPage_kept page prec s (P := [.score]) (List.Subset.refl _) (Kept.rfl' _ s)).frame .startUp (by decide)).symm
@[simp] theorem touchPage_out (page prec : Nat) (s : State) : (State.touchPage page prec s).dev.out = s.dev.out :=
  ((touchPage_kept page prec s (P := [.score]) (List.Subset.refl _) (Kept.rfl' _ s)).frame .out (by decide)).symm
@[simp] theorem touchPage_flow (page prec : Nat) (s : State) : (State.touchPage page prec s).dev.flow = s.dev.flow :=
  (touchPage_kept page prec s (P := [.score]) (List.Subset.refl _) (Kept.rfl' _ s)).sameFlow (by decide) (by decide)
@[simp] theorem touchPage_ply (page prec : Nat) (s : State) : (State.touchPage page prec s).ply = s.ply := (touchPage_kept page prec s (P := [.score]) (List.Subset.refl _) (Kept.rfl' _ s)).ply
@[simp] theorem touchPage_start (page prec : Nat) (s : State) : (State.touchPage page prec s).start = s.start := (touchPage_kept page prec s (P := [.score]) (List.Subset.refl _) (Kept.rfl' _ s)).start
@[simp] theorem touchPage_pending (page prec : Nat) (s : State) : (State.touchPage page prec s).pending = s.pending := (touchPage_kept page prec s (P := [.score]) (List.Subset.refl _) (Kept.rfl' _ s)).pending
@[simp] theorem portCount_hdr (port sub k n : Nat) (s : State) : (State.portCount port sub k n s).dev.regs.hdr = s.dev.regs.hdr :=
  ((portCount_kept port sub k n s (P := [.counters]) (List.Subset.refl _) (Kept.rfl' _ s)).frame .headers (by decide)).symm
@[simp] theorem portCount_rw (port sub k n : Nat) (s : State) : (State.portCount port sub k n s).dev.regs.rw = s.dev.regs.rw :=
  ((portCount_kept port sub k n s (P := [.counters]) (List.Subset.refl _) (Kept.rfl' _ s)).frame .registers (by decide)).symm
@[simp] theorem portCount_selid (port sub k n : Nat) (s : State) : (State.portCount port sub k n s).dev.selid = s.dev.selid :=
  ((portCount_kept port sub k n s (P := [.counters]) (List.Subset.refl _) (Kept.rfl' _ s)).frame .selid (by decide)).symm
@[simp] theorem portCount_ports (port sub k n : Nat) (s : State) : (State.portCount port sub k n s).dev.ports = s.dev.ports :=
  ((portCount_kept port sub k n s (P := [.counters]) (List.Subset.refl _) (Kept.rfl' _ s)).frame .ports (by decide)).1.symm
@[simp] theorem portCount_ref (port sub k n : Nat) (s : State) : (State.portCount port sub k n s).dev.ref = s.dev.ref :=
  ((portCount_kept port sub k n s (P := [.counters]) (List.Subset.refl _) (Kept.rfl' _ s)).frame .ref (by decide)).symm
@[simp] theorem portCount_traffic (port sub k n : Nat) (s : State) : (State.portCount port sub k n s).dev.traffic = s.dev.traffic :=
  ((portCount_kept port sub k n s (P := [.counters]) (List.Subset.refl _) (Kept.rfl' _ s)).frame .traffic (by decide)).symm
@[simp] theorem portCount_net (port sub k n : Nat) (s : State) : (State.portCount port sub k n s).dev.net = s.dev.net :=
  ((portCount_kept port sub k n s (P := [.counters]) (List.Subset.refl _) (Kept.rfl' _ s)).frame .net (by decide)).symm
@[simp] theorem portCount_objects (port sub k n : Nat) (s : State) : (State.portCount port sub k n s).dev.objects = s.dev.objects :=
  ((portCount_kept port sub k n s (P := [.counters]) (List.Subset.refl _) (Kept.rfl' _ s)).frame .objects (by decide)).symm
@[simp] theorem portCount_compute (port sub k n : Nat) (s : State) : (State.portCount port sub k n s).dev.compute = s.dev.compute :=
  ((portCount_kept port sub k n s (P := [.counters]) (List.Subset.refl _) (Kept.rfl' _ s)).frame .compute (by decide)).symm
@[simp] theorem portCount_power (port sub k n : Nat) (s : State) : (State.portCount port sub k n s).dev.power = s.dev.power :=
  ((portCount_kept port sub k n s (P := [.counters]) (List.Subset.refl _) (Kept.rfl' _ s)).frame .power (by decide)).symm
@[simp] theorem portCount_sec (port sub k n : Nat) (s : State) : (State.portCount port sub k n s).dev.sec = s.dev.sec :=
  ((portCount_kept port sub k n s (P := [.counters]) (List.Subset.refl _) (Kept.rfl' _ s)).frame .sec (by decide)).symm
@[simp] theorem portCount_team (port sub k n : Nat) (s : State) : (State.portCount port sub k n s).dev.team = s.dev.team :=
  ((portCount_kept port sub k n s (P := [.counters]) (List.Subset.refl _) (Kept.rfl' _ s)).frame .team (by decide)).symm
@[simp] theorem portCount_pair (port sub k n : Nat) (s : State) : (State.portCount port sub k n s).dev.pair = s.dev.pair :=
  ((portCount_kept port sub k n s (P := [.counters]) (List.Subset.refl _) (Kept.rfl' _ s)).frame .pair (by decide)).symm
@[simp] theorem portCount_reliab (port sub k n : Nat) (s : State) : (State.portCount port sub k n s).dev.reliab = s.dev.reliab :=
  ((portCount_kept port sub k n s (P := [.counters]) (List.Subset.refl _) (Kept.rfl' _ s)).frame .reliab (by decide)).symm
@[simp] theorem portCount_score (port sub k n : Nat) (s : State) : (State.portCount port sub k n s).dev.score = s.dev.score :=
  ((portCount_kept port sub k n s (P := [.counters]) (List.Subset.refl _) (Kept.rfl' _ s)).frame .score (by decide)).symm
@[simp] theorem portCount_back (port sub k n : Nat) (s : State) : (State.portCount port sub k n s).dev.back = s.dev.back :=
  ((portCount_kept port sub k n s (P := [.counters]) (List.Subset.refl _) (Kept.rfl' _ s)).frame .back (by decide)).symm
@[simp] theorem portCount_startUp (port sub k n : Nat) (s : State) : (State.portCount port sub k n s).dev.startUp = s.dev.startUp :=
  ((portCount_kept port sub k n s (P := [.counters]) (List.Subset.refl _) (Kept.rfl' _ s)).frame .startUp (by decide)).symm
@[simp] theorem portCount_out (port sub k n : Nat) (s : State) : (State.portCount port sub k n s).dev.out = s.dev.out :=
  ((portCount_kept port sub k n s (P := [.counters]) (List.Subset.refl _) (Kept.rfl' _ s)).frame .out (by decide)).symm
@[simp] theorem portCount_flow (port sub k n : Nat) (s : State) : (State.portCount port sub k n s).dev.flow = s.dev.flow :=
  (portCount_kept port sub k n s (P := [.counters]) (List.Subset.refl _) (Kept.rfl' _ s)).sameFlow (by decide) (by decide)
@[simp] theorem portCount_ply (port sub k n : Nat) (s : State) : (State.portCount port sub k n s).ply = s.ply := (portCount_kept port sub k n s (P := [.counters]) (List.Subset.refl _) (Kept.rfl' _ s)).ply
@[simp] theorem portCount_start (port sub k n : Nat) (s : State) : (State.portCount port sub k n s).start = s.start := (portCount_kept port sub k n s (P := [.counters]) (List.Subset.refl _) (Kept.rfl' _ s)).start
@[simp] theorem portCount_pending (port sub k n : Nat) (s : State) : (State.portCount port sub k n s).pending = s.pending := (portCount_kept port sub k n s (P := [.counters]) (List.Subset.refl _) (Kept.rfl' _ s)).pending
@[simp] theorem bump_hdr (page off n : Nat) (s : State) : (State.bump page off n s).dev.regs.hdr = s.dev.regs.hdr := rfl
@[simp] theorem bump_rw (page off n : Nat) (s : State) : (State.bump page off n s).dev.regs.rw = s.dev.regs.rw := rfl
@[simp] theorem bump_selid (page off n : Nat) (s : State) : (State.bump page off n s).dev.selid = s.dev.selid := rfl
@[simp] theorem bump_ports (page off n : Nat) (s : State) : (State.bump page off n s).dev.ports = s.dev.ports := rfl
@[simp] theorem bump_ref (page off n : Nat) (s : State) : (State.bump page off n s).dev.ref = s.dev.ref := rfl
@[simp] theorem bump_traffic (page off n : Nat) (s : State) : (State.bump page off n s).dev.traffic = s.dev.traffic := rfl
@[simp] theorem bump_net (page off n : Nat) (s : State) : (State.bump page off n s).dev.net = s.dev.net := rfl
@[simp] theorem bump_objects (page off n : Nat) (s : State) : (State.bump page off n s).dev.objects = s.dev.objects := rfl
@[simp] theorem bump_compute (page off n : Nat) (s : State) : (State.bump page off n s).dev.compute = s.dev.compute := rfl
@[simp] theorem bump_power (page off n : Nat) (s : State) : (State.bump page off n s).dev.power = s.dev.power := rfl
@[simp] theorem bump_sec (page off n : Nat) (s : State) : (State.bump page off n s).dev.sec = s.dev.sec := rfl
@[simp] theorem bump_team (page off n : Nat) (s : State) : (State.bump page off n s).dev.team = s.dev.team := rfl
@[simp] theorem bump_pair (page off n : Nat) (s : State) : (State.bump page off n s).dev.pair = s.dev.pair := rfl
@[simp] theorem bump_reliab (page off n : Nat) (s : State) : (State.bump page off n s).dev.reliab = s.dev.reliab := rfl
@[simp] theorem bump_score (page off n : Nat) (s : State) : (State.bump page off n s).dev.score = s.dev.score := rfl
@[simp] theorem bump_back (page off n : Nat) (s : State) : (State.bump page off n s).dev.back = s.dev.back := rfl
@[simp] theorem bump_startUp (page off n : Nat) (s : State) : (State.bump page off n s).dev.startUp = s.dev.startUp := rfl
@[simp] theorem bump_out (page off n : Nat) (s : State) : (State.bump page off n s).dev.out = s.dev.out := rfl
@[simp] theorem bump_flow (page off n : Nat) (s : State) : (State.bump page off n s).dev.flow = s.dev.flow := rfl
@[simp] theorem bump_ply (page off n : Nat) (s : State) : (State.bump page off n s).ply = s.ply := rfl
@[simp] theorem bump_start (page off n : Nat) (s : State) : (State.bump page off n s).start = s.start := rfl
@[simp] theorem bump_pending (page off n : Nat) (s : State) : (State.bump page off n s).pending = s.pending := rfl
@[simp] theorem setReg_hdr (addr : Nat) (v : Word) (s : State) : (State.setReg addr v s).dev.regs.hdr = s.dev.regs.hdr := rfl
@[simp] theorem setReg_ctr (addr : Nat) (v : Word) (s : State) : (State.setReg addr v s).dev.regs.ctr = s.dev.regs.ctr := rfl
@[simp] theorem setReg_selid (addr : Nat) (v : Word) (s : State) : (State.setReg addr v s).dev.selid = s.dev.selid := rfl
@[simp] theorem setReg_ports (addr : Nat) (v : Word) (s : State) : (State.setReg addr v s).dev.ports = s.dev.ports := rfl
@[simp] theorem setReg_ref (addr : Nat) (v : Word) (s : State) : (State.setReg addr v s).dev.ref = s.dev.ref := rfl
@[simp] theorem setReg_traffic (addr : Nat) (v : Word) (s : State) : (State.setReg addr v s).dev.traffic = s.dev.traffic := rfl
@[simp] theorem setReg_net (addr : Nat) (v : Word) (s : State) : (State.setReg addr v s).dev.net = s.dev.net := rfl
@[simp] theorem setReg_objects (addr : Nat) (v : Word) (s : State) : (State.setReg addr v s).dev.objects = s.dev.objects := rfl
@[simp] theorem setReg_compute (addr : Nat) (v : Word) (s : State) : (State.setReg addr v s).dev.compute = s.dev.compute := rfl
@[simp] theorem setReg_power (addr : Nat) (v : Word) (s : State) : (State.setReg addr v s).dev.power = s.dev.power := rfl
@[simp] theorem setReg_sec (addr : Nat) (v : Word) (s : State) : (State.setReg addr v s).dev.sec = s.dev.sec := rfl
@[simp] theorem setReg_team (addr : Nat) (v : Word) (s : State) : (State.setReg addr v s).dev.team = s.dev.team := rfl
@[simp] theorem setReg_pair (addr : Nat) (v : Word) (s : State) : (State.setReg addr v s).dev.pair = s.dev.pair := rfl
@[simp] theorem setReg_reliab (addr : Nat) (v : Word) (s : State) : (State.setReg addr v s).dev.reliab = s.dev.reliab := rfl
@[simp] theorem setReg_score (addr : Nat) (v : Word) (s : State) : (State.setReg addr v s).dev.score = s.dev.score := rfl
@[simp] theorem setReg_back (addr : Nat) (v : Word) (s : State) : (State.setReg addr v s).dev.back = s.dev.back := rfl
@[simp] theorem setReg_startUp (addr : Nat) (v : Word) (s : State) : (State.setReg addr v s).dev.startUp = s.dev.startUp := rfl
@[simp] theorem setReg_out (addr : Nat) (v : Word) (s : State) : (State.setReg addr v s).dev.out = s.dev.out := rfl
@[simp] theorem setReg_flow (addr : Nat) (v : Word) (s : State) : (State.setReg addr v s).dev.flow = s.dev.flow := rfl
@[simp] theorem setReg_ply (addr : Nat) (v : Word) (s : State) : (State.setReg addr v s).ply = s.ply := rfl
@[simp] theorem setReg_start (addr : Nat) (v : Word) (s : State) : (State.setReg addr v s).start = s.start := rfl
@[simp] theorem setReg_pending (addr : Nat) (v : Word) (s : State) : (State.setReg addr v s).pending = s.pending := rfl
@[simp] theorem transmit_hdr (port sub : Nat) (o : Out) (len : Nat) (s : State) : (State.transmit port sub o len s).dev.regs.hdr = s.dev.regs.hdr :=
  ((transmit_kept port sub o len s (P := [.counters, .ports, .traffic, .out]) (List.Subset.refl _) (Kept.rfl' _ s)).frame .headers (by decide)).symm
@[simp] theorem transmit_rw (port sub : Nat) (o : Out) (len : Nat) (s : State) : (State.transmit port sub o len s).dev.regs.rw = s.dev.regs.rw :=
  ((transmit_kept port sub o len s (P := [.counters, .ports, .traffic, .out]) (List.Subset.refl _) (Kept.rfl' _ s)).frame .registers (by decide)).symm
@[simp] theorem transmit_selid (port sub : Nat) (o : Out) (len : Nat) (s : State) : (State.transmit port sub o len s).dev.selid = s.dev.selid :=
  ((transmit_kept port sub o len s (P := [.counters, .ports, .traffic, .out]) (List.Subset.refl _) (Kept.rfl' _ s)).frame .selid (by decide)).symm
@[simp] theorem transmit_ref (port sub : Nat) (o : Out) (len : Nat) (s : State) : (State.transmit port sub o len s).dev.ref = s.dev.ref :=
  ((transmit_kept port sub o len s (P := [.counters, .ports, .traffic, .out]) (List.Subset.refl _) (Kept.rfl' _ s)).frame .ref (by decide)).symm
@[simp] theorem transmit_net (port sub : Nat) (o : Out) (len : Nat) (s : State) : (State.transmit port sub o len s).dev.net = s.dev.net :=
  ((transmit_kept port sub o len s (P := [.counters, .ports, .traffic, .out]) (List.Subset.refl _) (Kept.rfl' _ s)).frame .net (by decide)).symm
@[simp] theorem transmit_objects (port sub : Nat) (o : Out) (len : Nat) (s : State) : (State.transmit port sub o len s).dev.objects = s.dev.objects :=
  ((transmit_kept port sub o len s (P := [.counters, .ports, .traffic, .out]) (List.Subset.refl _) (Kept.rfl' _ s)).frame .objects (by decide)).symm
@[simp] theorem transmit_compute (port sub : Nat) (o : Out) (len : Nat) (s : State) : (State.transmit port sub o len s).dev.compute = s.dev.compute :=
  ((transmit_kept port sub o len s (P := [.counters, .ports, .traffic, .out]) (List.Subset.refl _) (Kept.rfl' _ s)).frame .compute (by decide)).symm
@[simp] theorem transmit_power (port sub : Nat) (o : Out) (len : Nat) (s : State) : (State.transmit port sub o len s).dev.power = s.dev.power :=
  ((transmit_kept port sub o len s (P := [.counters, .ports, .traffic, .out]) (List.Subset.refl _) (Kept.rfl' _ s)).frame .power (by decide)).symm
@[simp] theorem transmit_sec (port sub : Nat) (o : Out) (len : Nat) (s : State) : (State.transmit port sub o len s).dev.sec = s.dev.sec :=
  ((transmit_kept port sub o len s (P := [.counters, .ports, .traffic, .out]) (List.Subset.refl _) (Kept.rfl' _ s)).frame .sec (by decide)).symm
@[simp] theorem transmit_team (port sub : Nat) (o : Out) (len : Nat) (s : State) : (State.transmit port sub o len s).dev.team = s.dev.team :=
  ((transmit_kept port sub o len s (P := [.counters, .ports, .traffic, .out]) (List.Subset.refl _) (Kept.rfl' _ s)).frame .team (by decide)).symm
@[simp] theorem transmit_pair (port sub : Nat) (o : Out) (len : Nat) (s : State) : (State.transmit port sub o len s).dev.pair = s.dev.pair :=
  ((transmit_kept port sub o len s (P := [.counters, .ports, .traffic, .out]) (List.Subset.refl _) (Kept.rfl' _ s)).frame .pair (by decide)).symm
@[simp] theorem transmit_reliab (port sub : Nat) (o : Out) (len : Nat) (s : State) : (State.transmit port sub o len s).dev.reliab = s.dev.reliab :=
  ((transmit_kept port sub o len s (P := [.counters, .ports, .traffic, .out]) (List.Subset.refl _) (Kept.rfl' _ s)).frame .reliab (by decide)).symm
@[simp] theorem transmit_score (port sub : Nat) (o : Out) (len : Nat) (s : State) : (State.transmit port sub o len s).dev.score = s.dev.score :=
  ((transmit_kept port sub o len s (P := [.counters, .ports, .traffic, .out]) (List.Subset.refl _) (Kept.rfl' _ s)).frame .score (by decide)).symm
@[simp] theorem transmit_back (port sub : Nat) (o : Out) (len : Nat) (s : State) : (State.transmit port sub o len s).dev.back = s.dev.back :=
  ((transmit_kept port sub o len s (P := [.counters, .ports, .traffic, .out]) (List.Subset.refl _) (Kept.rfl' _ s)).frame .back (by decide)).symm
@[simp] theorem transmit_startUp (port sub : Nat) (o : Out) (len : Nat) (s : State) : (State.transmit port sub o len s).dev.startUp = s.dev.startUp :=
  ((transmit_kept port sub o len s (P := [.counters, .ports, .traffic, .out]) (List.Subset.refl _) (Kept.rfl' _ s)).frame .startUp (by decide)).symm
@[simp] theorem transmit_flow (port sub : Nat) (o : Out) (len : Nat) (s : State) : (State.transmit port sub o len s).dev.flow = s.dev.flow :=
  (transmit_kept port sub o len s (P := [.counters, .ports, .traffic, .out]) (List.Subset.refl _) (Kept.rfl' _ s)).sameFlow (by decide) (by decide)
@[simp] theorem transmit_ply (port sub : Nat) (o : Out) (len : Nat) (s : State) : (State.transmit port sub o len s).ply = s.ply := (transmit_kept port sub o len s (P := [.counters, .ports, .traffic, .out]) (List.Subset.refl _) (Kept.rfl' _ s)).ply
@[simp] theorem transmit_start (port sub : Nat) (o : Out) (len : Nat) (s : State) : (State.transmit port sub o len s).start = s.start := (transmit_kept port sub o len s (P := [.counters, .ports, .traffic, .out]) (List.Subset.refl _) (Kept.rfl' _ s)).start
@[simp] theorem transmit_pending (port sub : Nat) (o : Out) (len : Nat) (s : State) : (State.transmit port sub o len s).pending = s.pending := (transmit_kept port sub o len s (P := [.counters, .ports, .traffic, .out]) (List.Subset.refl _) (Kept.rfl' _ s)).pending
@[simp] theorem recordCmd_hdr (n : Nat) (c : Cmd) (status : Nat) (s : State) : (State.recordCmd n c status s).dev.regs.hdr = s.dev.regs.hdr :=
  ((recordCmd_kept n c status s (P := [.score]) (List.Subset.refl _) (Kept.rfl' _ s)).frame .headers (by decide)).symm
@[simp] theorem recordCmd_rw (n : Nat) (c : Cmd) (status : Nat) (s : State) : (State.recordCmd n c status s).dev.regs.rw = s.dev.regs.rw :=
  ((recordCmd_kept n c status s (P := [.score]) (List.Subset.refl _) (Kept.rfl' _ s)).frame .registers (by decide)).symm
@[simp] theorem recordCmd_ctr (n : Nat) (c : Cmd) (status : Nat) (s : State) : (State.recordCmd n c status s).dev.regs.ctr = s.dev.regs.ctr :=
  ((recordCmd_kept n c status s (P := [.score]) (List.Subset.refl _) (Kept.rfl' _ s)).frame .counters (by decide)).symm
@[simp] theorem recordCmd_selid (n : Nat) (c : Cmd) (status : Nat) (s : State) : (State.recordCmd n c status s).dev.selid = s.dev.selid :=
  ((recordCmd_kept n c status s (P := [.score]) (List.Subset.refl _) (Kept.rfl' _ s)).frame .selid (by decide)).symm
@[simp] theorem recordCmd_ports (n : Nat) (c : Cmd) (status : Nat) (s : State) : (State.recordCmd n c status s).dev.ports = s.dev.ports :=
  ((recordCmd_kept n c status s (P := [.score]) (List.Subset.refl _) (Kept.rfl' _ s)).frame .ports (by decide)).1.symm
@[simp] theorem recordCmd_ref (n : Nat) (c : Cmd) (status : Nat) (s : State) : (State.recordCmd n c status s).dev.ref = s.dev.ref :=
  ((recordCmd_kept n c status s (P := [.score]) (List.Subset.refl _) (Kept.rfl' _ s)).frame .ref (by decide)).symm
@[simp] theorem recordCmd_traffic (n : Nat) (c : Cmd) (status : Nat) (s : State) : (State.recordCmd n c status s).dev.traffic = s.dev.traffic :=
  ((recordCmd_kept n c status s (P := [.score]) (List.Subset.refl _) (Kept.rfl' _ s)).frame .traffic (by decide)).symm
@[simp] theorem recordCmd_net (n : Nat) (c : Cmd) (status : Nat) (s : State) : (State.recordCmd n c status s).dev.net = s.dev.net :=
  ((recordCmd_kept n c status s (P := [.score]) (List.Subset.refl _) (Kept.rfl' _ s)).frame .net (by decide)).symm
@[simp] theorem recordCmd_objects (n : Nat) (c : Cmd) (status : Nat) (s : State) : (State.recordCmd n c status s).dev.objects = s.dev.objects :=
  ((recordCmd_kept n c status s (P := [.score]) (List.Subset.refl _) (Kept.rfl' _ s)).frame .objects (by decide)).symm
@[simp] theorem recordCmd_compute (n : Nat) (c : Cmd) (status : Nat) (s : State) : (State.recordCmd n c status s).dev.compute = s.dev.compute :=
  ((recordCmd_kept n c status s (P := [.score]) (List.Subset.refl _) (Kept.rfl' _ s)).frame .compute (by decide)).symm
@[simp] theorem recordCmd_power (n : Nat) (c : Cmd) (status : Nat) (s : State) : (State.recordCmd n c status s).dev.power = s.dev.power :=
  ((recordCmd_kept n c status s (P := [.score]) (List.Subset.refl _) (Kept.rfl' _ s)).frame .power (by decide)).symm
@[simp] theorem recordCmd_sec (n : Nat) (c : Cmd) (status : Nat) (s : State) : (State.recordCmd n c status s).dev.sec = s.dev.sec :=
  ((recordCmd_kept n c status s (P := [.score]) (List.Subset.refl _) (Kept.rfl' _ s)).frame .sec (by decide)).symm
@[simp] theorem recordCmd_team (n : Nat) (c : Cmd) (status : Nat) (s : State) : (State.recordCmd n c status s).dev.team = s.dev.team :=
  ((recordCmd_kept n c status s (P := [.score]) (List.Subset.refl _) (Kept.rfl' _ s)).frame .team (by decide)).symm
@[simp] theorem recordCmd_pair (n : Nat) (c : Cmd) (status : Nat) (s : State) : (State.recordCmd n c status s).dev.pair = s.dev.pair :=
  ((recordCmd_kept n c status s (P := [.score]) (List.Subset.refl _) (Kept.rfl' _ s)).frame .pair (by decide)).symm
@[simp] theorem recordCmd_reliab (n : Nat) (c : Cmd) (status : Nat) (s : State) : (State.recordCmd n c status s).dev.reliab = s.dev.reliab :=
  ((recordCmd_kept n c status s (P := [.score]) (List.Subset.refl _) (Kept.rfl' _ s)).frame .reliab (by decide)).symm
@[simp] theorem recordCmd_back (n : Nat) (c : Cmd) (status : Nat) (s : State) : (State.recordCmd n c status s).dev.back = s.dev.back :=
  ((recordCmd_kept n c status s (P := [.score]) (List.Subset.refl _) (Kept.rfl' _ s)).frame .back (by decide)).symm
@[simp] theorem recordCmd_startUp (n : Nat) (c : Cmd) (status : Nat) (s : State) : (State.recordCmd n c status s).dev.startUp = s.dev.startUp :=
  ((recordCmd_kept n c status s (P := [.score]) (List.Subset.refl _) (Kept.rfl' _ s)).frame .startUp (by decide)).symm
@[simp] theorem recordCmd_out (n : Nat) (c : Cmd) (status : Nat) (s : State) : (State.recordCmd n c status s).dev.out = s.dev.out :=
  ((recordCmd_kept n c status s (P := [.score]) (List.Subset.refl _) (Kept.rfl' _ s)).frame .out (by decide)).symm
@[simp] theorem recordCmd_flow (n : Nat) (c : Cmd) (status : Nat) (s : State) : (State.recordCmd n c status s).dev.flow = s.dev.flow :=
  (recordCmd_kept n c status s (P := [.score]) (List.Subset.refl _) (Kept.rfl' _ s)).sameFlow (by decide) (by decide)
@[simp] theorem recordCmd_ply (n : Nat) (c : Cmd) (status : Nat) (s : State) : (State.recordCmd n c status s).ply = s.ply := (recordCmd_kept n c status s (P := [.score]) (List.Subset.refl _) (Kept.rfl' _ s)).ply
@[simp] theorem recordCmd_start (n : Nat) (c : Cmd) (status : Nat) (s : State) : (State.recordCmd n c status s).start = s.start := (recordCmd_kept n c status s (P := [.score]) (List.Subset.refl _) (Kept.rfl' _ s)).start
@[simp] theorem recordCmd_pending (n : Nat) (c : Cmd) (status : Nat) (s : State) : (State.recordCmd n c status s).pending = s.pending := (recordCmd_kept n c status s (P := [.score]) (List.Subset.refl _) (Kept.rfl' _ s)).pending
@[simp] theorem sendProtected_hdr (n : Nat) (r : Route) (plain : Bytes) (s : State) : (State.sendProtected n r plain s).dev.regs.hdr = s.dev.regs.hdr :=
  ((sendProtected_kept n r plain s (P := [.counters, .selid, .ports, .traffic, .net, .out]) (List.Subset.refl _) (Kept.rfl' _ s)).frame .headers (by decide)).symm
@[simp] theorem sendProtected_rw (n : Nat) (r : Route) (plain : Bytes) (s : State) : (State.sendProtected n r plain s).dev.regs.rw = s.dev.regs.rw :=
  ((sendProtected_kept n r plain s (P := [.counters, .selid, .ports, .traffic, .net, .out]) (List.Subset.refl _) (Kept.rfl' _ s)).frame .registers (by decide)).symm
@[simp] theorem sendProtected_ref (n : Nat) (r : Route) (plain : Bytes) (s : State) : (State.sendProtected n r plain s).dev.ref = s.dev.ref :=
  ((sendProtected_kept n r plain s (P := [.counters, .selid, .ports, .traffic, .net, .out]) (List.Subset.refl _) (Kept.rfl' _ s)).frame .ref (by decide)).symm
@[simp] theorem sendProtected_objects (n : Nat) (r : Route) (plain : Bytes) (s : State) : (State.sendProtected n r plain s).dev.objects = s.dev.objects :=
  ((sendProtected_kept n r plain s (P := [.counters, .selid, .ports, .traffic, .net, .out]) (List.Subset.refl _) (Kept.rfl' _ s)).frame .objects (by decide)).symm
@[simp] theorem sendProtected_compute (n : Nat) (r : Route) (plain : Bytes) (s : State) : (State.sendProtected n r plain s).dev.compute = s.dev.compute :=
  ((sendProtected_kept n r plain s (P := [.counters, .selid, .ports, .traffic, .net, .out]) (List.Subset.refl _) (Kept.rfl' _ s)).frame .compute (by decide)).symm
@[simp] theorem sendProtected_power (n : Nat) (r : Route) (plain : Bytes) (s : State) : (State.sendProtected n r plain s).dev.power = s.dev.power :=
  ((sendProtected_kept n r plain s (P := [.counters, .selid, .ports, .traffic, .net, .out]) (List.Subset.refl _) (Kept.rfl' _ s)).frame .power (by decide)).symm
@[simp] theorem sendProtected_sec (n : Nat) (r : Route) (plain : Bytes) (s : State) : (State.sendProtected n r plain s).dev.sec = s.dev.sec :=
  ((sendProtected_kept n r plain s (P := [.counters, .selid, .ports, .traffic, .net, .out]) (List.Subset.refl _) (Kept.rfl' _ s)).frame .sec (by decide)).symm
@[simp] theorem sendProtected_team (n : Nat) (r : Route) (plain : Bytes) (s : State) : (State.sendProtected n r plain s).dev.team = s.dev.team :=
  ((sendProtected_kept n r plain s (P := [.counters, .selid, .ports, .traffic, .net, .out]) (List.Subset.refl _) (Kept.rfl' _ s)).frame .team (by decide)).symm
@[simp] theorem sendProtected_pair (n : Nat) (r : Route) (plain : Bytes) (s : State) : (State.sendProtected n r plain s).dev.pair = s.dev.pair :=
  ((sendProtected_kept n r plain s (P := [.counters, .selid, .ports, .traffic, .net, .out]) (List.Subset.refl _) (Kept.rfl' _ s)).frame .pair (by decide)).symm
@[simp] theorem sendProtected_reliab (n : Nat) (r : Route) (plain : Bytes) (s : State) : (State.sendProtected n r plain s).dev.reliab = s.dev.reliab :=
  ((sendProtected_kept n r plain s (P := [.counters, .selid, .ports, .traffic, .net, .out]) (List.Subset.refl _) (Kept.rfl' _ s)).frame .reliab (by decide)).symm
@[simp] theorem sendProtected_score (n : Nat) (r : Route) (plain : Bytes) (s : State) : (State.sendProtected n r plain s).dev.score = s.dev.score :=
  ((sendProtected_kept n r plain s (P := [.counters, .selid, .ports, .traffic, .net, .out]) (List.Subset.refl _) (Kept.rfl' _ s)).frame .score (by decide)).symm
@[simp] theorem sendProtected_back (n : Nat) (r : Route) (plain : Bytes) (s : State) : (State.sendProtected n r plain s).dev.back = s.dev.back :=
  ((sendProtected_kept n r plain s (P := [.counters, .selid, .ports, .traffic, .net, .out]) (List.Subset.refl _) (Kept.rfl' _ s)).frame .back (by decide)).symm
@[simp] theorem sendProtected_startUp (n : Nat) (r : Route) (plain : Bytes) (s : State) : (State.sendProtected n r plain s).dev.startUp = s.dev.startUp :=
  ((sendProtected_kept n r plain s (P := [.counters, .selid, .ports, .traffic, .net, .out]) (List.Subset.refl _) (Kept.rfl' _ s)).frame .startUp (by decide)).symm
@[simp] theorem sendProtected_flow (n : Nat) (r : Route) (plain : Bytes) (s : State) : (State.sendProtected n r plain s).dev.flow = s.dev.flow :=
  (sendProtected_kept n r plain s (P := [.counters, .selid, .ports, .traffic, .net, .out]) (List.Subset.refl _) (Kept.rfl' _ s)).sameFlow (by decide) (by decide)
@[simp] theorem sendProtected_ply (n : Nat) (r : Route) (plain : Bytes) (s : State) : (State.sendProtected n r plain s).ply = s.ply := (sendProtected_kept n r plain s (P := [.counters, .selid, .ports, .traffic, .net, .out]) (List.Subset.refl _) (Kept.rfl' _ s)).ply
@[simp] theorem sendProtected_start (n : Nat) (r : Route) (plain : Bytes) (s : State) : (State.sendProtected n r plain s).start = s.start := (sendProtected_kept n r plain s (P := [.counters, .selid, .ports, .traffic, .net, .out]) (List.Subset.refl _) (Kept.rfl' _ s)).start
@[simp] theorem sendProtected_pending (n : Nat) (r : Route) (plain : Bytes) (s : State) : (State.sendProtected n r plain s).pending = s.pending := (sendProtected_kept n r plain s (P := [.counters, .selid, .ports, .traffic, .net, .out]) (List.Subset.refl _) (Kept.rfl' _ s)).pending
@[simp] theorem complete_hdr (n opcode status detail : Nat) (body : Bytes) (s : State) : (State.complete n opcode status detail body s).dev.regs.hdr = s.dev.regs.hdr :=
  ((complete_kept n opcode status detail body s (P := [.counters, .selid, .ports, .traffic, .net, .score, .out]) (List.Subset.refl _) (Kept.rfl' _ s)).frame .headers (by decide)).symm
@[simp] theorem complete_rw (n opcode status detail : Nat) (body : Bytes) (s : State) : (State.complete n opcode status detail body s).dev.regs.rw = s.dev.regs.rw :=
  ((complete_kept n opcode status detail body s (P := [.counters, .selid, .ports, .traffic, .net, .score, .out]) (List.Subset.refl _) (Kept.rfl' _ s)).frame .registers (by decide)).symm
@[simp] theorem complete_ref (n opcode status detail : Nat) (body : Bytes) (s : State) : (State.complete n opcode status detail body s).dev.ref = s.dev.ref :=
  ((complete_kept n opcode status detail body s (P := [.counters, .selid, .ports, .traffic, .net, .score, .out]) (List.Subset.refl _) (Kept.rfl' _ s)).frame .ref (by decide)).symm
@[simp] theorem complete_objects (n opcode status detail : Nat) (body : Bytes) (s : State) : (State.complete n opcode status detail body s).dev.objects = s.dev.objects :=
  ((complete_kept n opcode status detail body s (P := [.counters, .selid, .ports, .traffic, .net, .score, .out]) (List.Subset.refl _) (Kept.rfl' _ s)).frame .objects (by decide)).symm
@[simp] theorem complete_compute (n opcode status detail : Nat) (body : Bytes) (s : State) : (State.complete n opcode status detail body s).dev.compute = s.dev.compute :=
  ((complete_kept n opcode status detail body s (P := [.counters, .selid, .ports, .traffic, .net, .score, .out]) (List.Subset.refl _) (Kept.rfl' _ s)).frame .compute (by decide)).symm
@[simp] theorem complete_power (n opcode status detail : Nat) (body : Bytes) (s : State) : (State.complete n opcode status detail body s).dev.power = s.dev.power :=
  ((complete_kept n opcode status detail body s (P := [.counters, .selid, .ports, .traffic, .net, .score, .out]) (List.Subset.refl _) (Kept.rfl' _ s)).frame .power (by decide)).symm
@[simp] theorem complete_sec (n opcode status detail : Nat) (body : Bytes) (s : State) : (State.complete n opcode status detail body s).dev.sec = s.dev.sec :=
  ((complete_kept n opcode status detail body s (P := [.counters, .selid, .ports, .traffic, .net, .score, .out]) (List.Subset.refl _) (Kept.rfl' _ s)).frame .sec (by decide)).symm
@[simp] theorem complete_team (n opcode status detail : Nat) (body : Bytes) (s : State) : (State.complete n opcode status detail body s).dev.team = s.dev.team :=
  ((complete_kept n opcode status detail body s (P := [.counters, .selid, .ports, .traffic, .net, .score, .out]) (List.Subset.refl _) (Kept.rfl' _ s)).frame .team (by decide)).symm
@[simp] theorem complete_pair (n opcode status detail : Nat) (body : Bytes) (s : State) : (State.complete n opcode status detail body s).dev.pair = s.dev.pair :=
  ((complete_kept n opcode status detail body s (P := [.counters, .selid, .ports, .traffic, .net, .score, .out]) (List.Subset.refl _) (Kept.rfl' _ s)).frame .pair (by decide)).symm
@[simp] theorem complete_reliab (n opcode status detail : Nat) (body : Bytes) (s : State) : (State.complete n opcode status detail body s).dev.reliab = s.dev.reliab :=
  ((complete_kept n opcode status detail body s (P := [.counters, .selid, .ports, .traffic, .net, .score, .out]) (List.Subset.refl _) (Kept.rfl' _ s)).frame .reliab (by decide)).symm
@[simp] theorem complete_back (n opcode status detail : Nat) (body : Bytes) (s : State) : (State.complete n opcode status detail body s).dev.back = s.dev.back :=
  ((complete_kept n opcode status detail body s (P := [.counters, .selid, .ports, .traffic, .net, .score, .out]) (List.Subset.refl _) (Kept.rfl' _ s)).frame .back (by decide)).symm
@[simp] theorem complete_startUp (n opcode status detail : Nat) (body : Bytes) (s : State) : (State.complete n opcode status detail body s).dev.startUp = s.dev.startUp :=
  ((complete_kept n opcode status detail body s (P := [.counters, .selid, .ports, .traffic, .net, .score, .out]) (List.Subset.refl _) (Kept.rfl' _ s)).frame .startUp (by decide)).symm
@[simp] theorem complete_flow (n opcode status detail : Nat) (body : Bytes) (s : State) : (State.complete n opcode status detail body s).dev.flow = s.dev.flow :=
  (complete_kept n opcode status detail body s (P := [.counters, .selid, .ports, .traffic, .net, .score, .out]) (List.Subset.refl _) (Kept.rfl' _ s)).sameFlow (by decide) (by decide)
@[simp] theorem complete_ply (n opcode status detail : Nat) (body : Bytes) (s : State) : (State.complete n opcode status detail body s).ply = s.ply := (complete_kept n opcode status detail body s (P := [.counters, .selid, .ports, .traffic, .net, .score, .out]) (List.Subset.refl _) (Kept.rfl' _ s)).ply
@[simp] theorem complete_start (n opcode status detail : Nat) (body : Bytes) (s : State) : (State.complete n opcode status detail body s).start = s.start := (complete_kept n opcode status detail body s (P := [.counters, .selid, .ports, .traffic, .net, .score, .out]) (List.Subset.refl _) (Kept.rfl' _ s)).start
@[simp] theorem complete_pending (n opcode status detail : Nat) (body : Bytes) (s : State) : (State.complete n opcode status detail body s).pending = s.pending := (complete_kept n opcode status detail body s (P := [.counters, .selid, .ports, .traffic, .net, .score, .out]) (List.Subset.refl _) (Kept.rfl' _ s)).pending
@[simp] theorem onPort_hdr (p : Nat) (f : Port → Port) (s : State) : (State.onPort p f s).dev.regs.hdr = s.dev.regs.hdr := rfl
@[simp] theorem onPort_rw (p : Nat) (f : Port → Port) (s : State) : (State.onPort p f s).dev.regs.rw = s.dev.regs.rw := rfl
@[simp] theorem onPort_ctr (p : Nat) (f : Port → Port) (s : State) : (State.onPort p f s).dev.regs.ctr = s.dev.regs.ctr := rfl
@[simp] theorem onPort_selid (p : Nat) (f : Port → Port) (s : State) : (State.onPort p f s).dev.selid = s.dev.selid := rfl
@[simp] theorem onPort_ref (p : Nat) (f : Port → Port) (s : State) : (State.onPort p f s).dev.ref = s.dev.ref := rfl
@[simp] theorem onPort_traffic (p : Nat) (f : Port → Port) (s : State) : (State.onPort p f s).dev.traffic = s.dev.traffic := rfl
@[simp] theorem onPort_net (p : Nat) (f : Port → Port) (s : State) : (State.onPort p f s).dev.net = s.dev.net := rfl
@[simp] theorem onPort_objects (p : Nat) (f : Port → Port) (s : State) : (State.onPort p f s).dev.objects = s.dev.objects := rfl
@[simp] theorem onPort_compute (p : Nat) (f : Port → Port) (s : State) : (State.onPort p f s).dev.compute = s.dev.compute := rfl
@[simp] theorem onPort_power (p : Nat) (f : Port → Port) (s : State) : (State.onPort p f s).dev.power = s.dev.power := rfl
@[simp] theorem onPort_sec (p : Nat) (f : Port → Port) (s : State) : (State.onPort p f s).dev.sec = s.dev.sec := rfl
@[simp] theorem onPort_team (p : Nat) (f : Port → Port) (s : State) : (State.onPort p f s).dev.team = s.dev.team := rfl
@[simp] theorem onPort_pair (p : Nat) (f : Port → Port) (s : State) : (State.onPort p f s).dev.pair = s.dev.pair := rfl
@[simp] theorem onPort_reliab (p : Nat) (f : Port → Port) (s : State) : (State.onPort p f s).dev.reliab = s.dev.reliab := rfl
@[simp] theorem onPort_score (p : Nat) (f : Port → Port) (s : State) : (State.onPort p f s).dev.score = s.dev.score := rfl
@[simp] theorem onPort_back (p : Nat) (f : Port → Port) (s : State) : (State.onPort p f s).dev.back = s.dev.back := rfl
@[simp] theorem onPort_startUp (p : Nat) (f : Port → Port) (s : State) : (State.onPort p f s).dev.startUp = s.dev.startUp := rfl
@[simp] theorem onPort_out (p : Nat) (f : Port → Port) (s : State) : (State.onPort p f s).dev.out = s.dev.out := rfl
@[simp] theorem onPort_flow (p : Nat) (f : Port → Port) (s : State) : (State.onPort p f s).dev.flow = s.dev.flow := rfl
@[simp] theorem onPort_ply (p : Nat) (f : Port → Port) (s : State) : (State.onPort p f s).ply = s.ply := rfl
@[simp] theorem onPort_start (p : Nat) (f : Port → Port) (s : State) : (State.onPort p f s).start = s.start := rfl
@[simp] theorem onPort_pending (p : Nat) (f : Port → Port) (s : State) : (State.onPort p f s).pending = s.pending := rfl
@[simp] theorem onCore_hdr (c : Nat) (f : CoreState → CoreState) (s : State) : (State.onCore c f s).dev.regs.hdr = s.dev.regs.hdr := rfl
@[simp] theorem onCore_rw (c : Nat) (f : CoreState → CoreState) (s : State) : (State.onCore c f s).dev.regs.rw = s.dev.regs.rw := rfl
@[simp] theorem onCore_ctr (c : Nat) (f : CoreState → CoreState) (s : State) : (State.onCore c f s).dev.regs.ctr = s.dev.regs.ctr := rfl
@[simp] theorem onCore_selid (c : Nat) (f : CoreState → CoreState) (s : State) : (State.onCore c f s).dev.selid = s.dev.selid := rfl
@[simp] theorem onCore_ports (c : Nat) (f : CoreState → CoreState) (s : State) : (State.onCore c f s).dev.ports = s.dev.ports := rfl
@[simp] theorem onCore_ref (c : Nat) (f : CoreState → CoreState) (s : State) : (State.onCore c f s).dev.ref = s.dev.ref := rfl
@[simp] theorem onCore_traffic (c : Nat) (f : CoreState → CoreState) (s : State) : (State.onCore c f s).dev.traffic = s.dev.traffic := rfl
@[simp] theorem onCore_net (c : Nat) (f : CoreState → CoreState) (s : State) : (State.onCore c f s).dev.net = s.dev.net := rfl
@[simp] theorem onCore_objects (c : Nat) (f : CoreState → CoreState) (s : State) : (State.onCore c f s).dev.objects = s.dev.objects := rfl
@[simp] theorem onCore_power (c : Nat) (f : CoreState → CoreState) (s : State) : (State.onCore c f s).dev.power = s.dev.power := rfl
@[simp] theorem onCore_sec (c : Nat) (f : CoreState → CoreState) (s : State) : (State.onCore c f s).dev.sec = s.dev.sec := rfl
@[simp] theorem onCore_team (c : Nat) (f : CoreState → CoreState) (s : State) : (State.onCore c f s).dev.team = s.dev.team := rfl
@[simp] theorem onCore_pair (c : Nat) (f : CoreState → CoreState) (s : State) : (State.onCore c f s).dev.pair = s.dev.pair := rfl
@[simp] theorem onCore_reliab (c : Nat) (f : CoreState → CoreState) (s : State) : (State.onCore c f s).dev.reliab = s.dev.reliab := rfl
@[simp] theorem onCore_score (c : Nat) (f : CoreState → CoreState) (s : State) : (State.onCore c f s).dev.score = s.dev.score := rfl
@[simp] theorem onCore_back (c : Nat) (f : CoreState → CoreState) (s : State) : (State.onCore c f s).dev.back = s.dev.back := rfl
@[simp] theorem onCore_startUp (c : Nat) (f : CoreState → CoreState) (s : State) : (State.onCore c f s).dev.startUp = s.dev.startUp := rfl
@[simp] theorem onCore_out (c : Nat) (f : CoreState → CoreState) (s : State) : (State.onCore c f s).dev.out = s.dev.out := rfl
@[simp] theorem onCore_flow (c : Nat) (f : CoreState → CoreState) (s : State) : (State.onCore c f s).dev.flow = s.dev.flow := rfl
@[simp] theorem onCore_ply (c : Nat) (f : CoreState → CoreState) (s : State) : (State.onCore c f s).ply = s.ply := rfl
@[simp] theorem onCore_start (c : Nat) (f : CoreState → CoreState) (s : State) : (State.onCore c f s).start = s.start := rfl
@[simp] theorem onCore_pending (c : Nat) (f : CoreState → CoreState) (s : State) : (State.onCore c f s).pending = s.pending := rfl

end Sys2Proof.Machine
end

