-- ==== Sys2Proof/Laws/Reads.lean ====
section
/-! SUPPORT. What a page header, a writable register and a counter read as after the operations that change them (R39, R47, R63, R141). -/
namespace Sys2Proof.Machine

theorem hdr_congr {d e : Dev} (h : d.regs.hdr = e.regs.hdr) (p : Nat) : d.hdr p = e.hdr p := by unfold Dev.hdr; rw [h]
theorem reg_congr {d e : Dev} (h : d.regs.rw = e.regs.rw) (a : Nat) : d.reg a = e.reg a := by unfold Dev.reg; rw [h]
theorem ctr_congr {d e : Dev} (h : d.regs.ctr = e.regs.ctr) (p o : Nat) : d.ctr p o = e.ctr p o := by unfold Dev.ctr; rw [h]

/-- A header that is set to something other than its reset value reads as that. -/
theorem hdr_setHdr_new (p : Nat) (v : PageHdr) (s : State) (h : v ≠ PageHdr.reset p) : (s.setHdr p v).dev.hdr p = v := by
  show Table.get _ (Table.set _ _ p v) p = v
  unfold Table.set Table.get
  rw [if_neg h, Table.get?_put, if_pos rfl]; rfl

/-- Setting a header, in registers of canonical form. -/
theorem hdr_setHdr_canon (p : Nat) (v : PageHdr) (s : State) (c : s.dev.canonical = true) (q : Nat) :
    (s.setHdr p v).dev.hdr q = if p = q then v else s.dev.hdr q := by
  simp only [Dev.canonical, Bool.and_eq_true] at c
  exact hdr_setHdr p v s.dev q c.1

/-- Changing a header, in registers of canonical form. -/
theorem hdr_onHdr (p : Nat) (f : PageHdr → PageHdr) (s : State) (c : s.dev.canonical = true) (q : Nat) :
    (s.onHdr p f).dev.hdr q = if p = q then f (s.dev.hdr p) else s.dev.hdr q := hdr_setHdr_canon p _ s c q

/-- A reset header has no EVENT bit set. -/
theorem PageHdr.reset_event (p : Nat) : (PageHdr.reset p).event = 0 := by unfold PageHdr.reset; split <;> rfl

theorem clearedNow_touch (page prec q : Nat) (s : State) : (s.touchPage page prec).clearedNow q = s.clearedNow q := by
  unfold State.touchPage State.touch; split <;> rfl

/-- A set of EVENT bits in a ply in which no reset clears the page (R63, R51). -/
theorem setEvents_event (p : Nat) (v : Word) (s : State) (hv : v ≠ 0) (hc : s.clearedNow p = false) :
    ((s.setEvents p v).dev.hdr p).event = (s.dev.hdr p).event ||| v := by
  have hc' := clearedNow_touch p 3 p s
  rw [hc] at hc'
  have key : ∀ u : State, ((u.onHdr p (PageHdr.setBitsIn s.now (s.start.hdr p).mask v)).dev.hdr p).event = (u.dev.hdr p).event ||| v := by
    intro u
    unfold State.onHdr
    rw [hdr_setHdr_new]
    · rfl
    · intro h
      have h2 := congrArg PageHdr.event h
      rw [PageHdr.reset_event] at h2
      have h3 : (u.dev.hdr p).event ||| v = 0 := h2
      apply hv
      ext i hi
      have := congrArg (fun w : Word => w[i]) h3
      simp at this
      simpa using this.2
  unfold State.setEvents
  simp only [hv, if_false, hc', Bool.false_eq_true]
  have hn : (s.touchPage p 3).now = s.now := by unfold State.now; simp
  have hs : (s.touchPage p 3).start = s.start := by simp
  rw [hn, hs, key, hdr_congr (touchPage_hdr p 3 s)]

/-- A set of one EVENT bit: the bit is 1 after it. -/
theorem setEvent_raised (p b : Nat) (s : State) (hb : b < 32) (hc : s.clearedNow p = false) : ((s.setEvent p b).dev.hdr p).event.getLsbD b = true := by
  unfold State.setEvent
  rw [setEvents_event]
  · simp [oneBit, hb]
  · intro h
    have := congrArg (fun w : Word => w.getLsbD b) h
    simp [oneBit, hb] at this
  · exact hc

theorem setEvent_raised' (p b : Nat) (s : State) (hb : b < 32) (hc : s.clearedNow p = false) : (s.setEvent p b).raised p b := setEvent_raised p b s hb hc

/-- A flag that is 1 stays 1 where the headers stay. -/
theorem raised_of_hdr {s t : State} (h : t.dev.regs.hdr = s.dev.regs.hdr) {p b : Nat} (r : s.raised p b) : t.raised p b := by
  unfold State.raised; rw [hdr_congr h]; exact r

/-- A flag that is 1 stays 1 when the block sets flags, of whatever page. -/
theorem raised_setEvents (q : Nat) (v : Word) {s : State} (c : s.dev.canonical = true) {p b : Nat} (r : s.raised p b) :
    (s.setEvents q v).raised p b := by
  unfold State.setEvents
  have h : (if v = 0 then s else s.touchPage q 3).dev.regs.hdr = s.dev.regs.hdr := by split <;> simp
  have c' : (if v = 0 then s else s.touchPage q 3).dev.canonical = true := by
    split
    · exact c
    · exact (touchPage_kept q 3 s (P := [.score]) (List.Subset.refl _) (Kept.rfl' _ s)).canon c
  have r' := raised_of_hdr h r
  generalize (if v = 0 then s else s.touchPage q 3) = u at c' r'
  dsimp only
  split
  · exact r'
  · unfold State.raised
    rw [hdr_onHdr _ _ _ c']
    split
    · rename_i hq; subst hq
      unfold State.raised at r'
      show ((u.dev.hdr q).event ||| v).getLsbD b = true
      simp [r']
    · exact r'

theorem raised_setEvent (q k : Nat) {s : State} (c : s.dev.canonical = true) {p b : Nat} (r : s.raised p b) : (s.setEvent q k).raised p b :=
  raised_setEvents q _ c r

/-- Advancing a counter, in registers of canonical form. -/
theorem ctr_bump (p o n : Nat) (s : State) (c : s.dev.canonical = true) (q r : Nat) :
    (s.bump p o n).dev.ctr q r = if addrOf p o = addrOf q r then s.dev.ctr q r + BitVec.ofNat 64 n else s.dev.ctr q r := by
  simp only [Dev.canonical, Regs.canonical, Table.wf, Bool.and_eq_true] at c
  unfold Dev.ctr
  show Table.get 0 (Table.modify 0 s.dev.regs.ctr (addrOf p o) (fun c => c + BitVec.ofNat 64 n)) (addrOf q r) = _
  unfold Table.modify
  rw [Table.get_set 0 _ _ c.1.2.1]
  split
  · rename_i h; rw [h]
  · rfl

/-- Setting a writable register, in registers of canonical form. -/
theorem reg_setReg (a : Nat) (v : Word) (s : State) (c : s.dev.canonical = true) (b : Nat) :
    (s.setReg a v).dev.reg b = if a = b then v else s.dev.reg b := by
  simp only [Dev.canonical, Regs.canonical, Table.canon, Bool.and_eq_true] at c
  show Table.get (regReset b) (Table.set (regReset a) s.dev.regs.rw a v) b = _
  by_cases h : a = b
  · subst h; rw [if_pos rfl, Table.get_set _ _ _ c.1.1.2.1, if_pos rfl]
  · rw [if_neg h]
    unfold Table.set
    split
    · unfold Dev.reg Table.get; rw [Table.get?_erase _ c.1.1.2.1, if_neg h]
    · unfold Dev.reg Table.get; rw [Table.get?_put, if_neg h]

/-- Changing one entry of a table whose form is canonical. -/
theorem Table.get_modify {α : Type} [DecidableEq α] (d : α) {t : Table α} (k : Nat) (f : α → α) (h : Table.wf d t = true) (j : Nat) :
    Table.get d (Table.modify d t k f) j = if k = j then f (Table.get d t k) else Table.get d t j := by
  unfold Table.modify
  simp only [Table.wf, Bool.and_eq_true] at h
  rw [Table.get_set d k _ h.1]

/-- Changing a port, in tables of canonical form. -/
theorem port_onPort (p : Nat) (f : Port → Port) (s : State) (c : s.dev.canonical = true) (q : Nat) :
    (s.onPort p f).dev.port q = if p = q then f (s.dev.port p) else s.dev.port q := by
  simp only [Dev.canonical, portsWf, Bool.and_eq_true] at c
  exact Table.get_modify {} p f c.2.2.1.1 q

/-- Changing a core, in a table of canonical form. -/
theorem core_onCore (k : Nat) (f : CoreState → CoreState) (s : State) (c : s.dev.canonical = true) (q : Nat) :
    (s.onCore k f).dev.core q = if k = q then f (s.dev.core k) else s.dev.core q := by
  simp only [Dev.canonical, coresWf, Bool.and_eq_true] at c
  exact Table.get_modify {} k f c.2.2.2 q

end Sys2Proof.Machine
end

