-- ==== Sys2Proof/WellFormed.lean ====
section
/-! DEFINITION. Well-formed commands: every operand in the range the spec gives the thing it names. -/
namespace Sys2Proof

/-- Operands in range: 66 ports with at most 4 sub-ports (R116, R120), 800 logical cores (R17), 16 contexts (R363), 4 compute dies (R13), 832 core
sites (R16), 256 generations (R433), and so on. Frames, readings and what the device numbers for itself are free. -/
def Instr.wf (i : Instr) : Bool :=
  match i with
  | .frameStart port sub _ => decide (port < 66 ∧ sub < 4)
  | .frameTail port sub => decide (port < 66 ∧ sub < 4)
  | .headerVector _ => true
  | .batchClose core chan gen => decide (core < 800 ∧ chan < 4096 ∧ gen < 256)
  | .verdictArrival _ => true
  | .deadline _ => true
  | .egressEligible _ => true
  | .verdictFrame port sub => decide (port < 66 ∧ sub < 4)
  | .arpRequest port sub _ => decide (port < 66 ∧ sub < 4)
  | .neighbourSolicitation port sub _ => decide (port < 66 ∧ sub < 4)
  | .pauseFrame port sub _ => decide (port < 66 ∧ sub < 4)
  | .pfcFrame port sub _ => decide (port < 66 ∧ sub < 4)
  | .pauseResend port sub key => decide (port < 66 ∧ sub < 4 ∧ key < 9)
  | .pfcStorm port sub prio => decide (port < 66 ∧ sub < 4 ∧ prio < 8)
  | .linkDown port sub => decide (port < 66 ∧ sub < 4)
  | .linkUp port sub => decide (port < 66 ∧ sub < 4)
  | .laneFailure port lane => decide (port < 66 ∧ lane < 4)
  | .refLoss => true
  | .refHoldoverEnd => true
  | .refReturn => true
  | .hello port sub _ nor => decide (port < 66 ∧ sub < 4 ∧ nor < 16)
  | .accept port sub _ => decide (port < 66 ∧ sub < 4)
  | .setupFragmentTimeout => true
  | .halfOpenExpire num => decide (num < 256)
  | .protectedFrame port sub _ => decide (port < 66 ∧ sub < 4)
  | .sessionIdleTimeout sess => decide (sess < 256)
  | .echo sess => decide (sess < 256)
  | .close sess => decide (sess < 256)
  | .readBatch sess => decide (sess < 256)
  | .readBlock sess => decide (sess < 256)
  | .writeBatch sess => decide (sess < 256)
  | .registerWrite sess => decide (sess < 256)
  | .eventClear sess => decide (sess < 256)
  | .eventMaskWrite sess => decide (sess < 256)
  | .eventForce sess => decide (sess < 256)
  | .forcedSet page => decide (page < 65536)
  | .lockWrite sess => decide (sess < 256)
  | .eventFrame page => decide (page < 65536)
  | .holdoffExpire page => decide (page < 65536)
  | .event set sess => decide (set < 16 ∧ sess < 256)
  | .portEnable sess => decide (sess < 256)
  | .portDisable sess => decide (sess < 256)
  | .counterClear sess => decide (sess < 256)
  | .readmit sess => decide (sess < 256)
  | .learnAgentSwitch sess => decide (sess < 256)
  | .deepEnWrite sess => decide (sess < 256)
  | .resync sess => decide (sess < 256)
  | .castle sess => decide (sess < 256)
  | .deviceReset sess => decide (sess < 256)
  | .controlReset sess => decide (sess < 256)
  | .channelCreate sess => decide (sess < 256)
  | .channelDestroy sess => decide (sess < 256)
  | .channelDrained chan => decide (chan < 4096)
  | .tableSearch sess _ _ => decide (sess < 256)
  | .tableNext sess => decide (sess < 256)
  | .tableFlush sess => decide (sess < 256)
  | .flushDone => true
  | .tableInsert sess => decide (sess < 256)
  | .tableDelete sess _ _ => decide (sess < 256)
  | .ringRead sess => decide (sess < 256)
  | .ringAck sess => decide (sess < 256)
  | .ringWrite sess => decide (sess < 256)
  | .ringFlush sess => decide (sess < 256)
  | .ringResign sess => decide (sess < 256)
  | .ringMark sess => decide (sess < 256)
  | .ringRewind sess => decide (sess < 256)
  | .flagFall ring => decide (ring < 65536)
  | .pendingGap ring => decide (ring < 65536)
  | .stageOpen sess => decide (sess < 256)
  | .stageData sess => decide (sess < 256)
  | .stageVerify sess => decide (sess < 256)
  | .stageSwap sess => decide (sess < 256)
  | .stageDiscard sess => decide (sess < 256)
  | .genRetire _ target gen => decide (target < 4096 ∧ gen < 256)
  | .quench sess => decide (sess < 256)
  | .unquench sess => decide (sess < 256)
  | .quenchExpire qid => decide (qid < 64)
  | .scoreStart sess => decide (sess < 256)
  | .scoreStop sess => decide (sess < 256)
  | .replayStart sess => decide (sess < 256)
  | .replayStop sess => decide (sess < 256)
  | .replayInject _ => true
  | .replayEnd => true
  | .sinkJoin sess => decide (sess < 256)
  | .sinkLeave sess => decide (sess < 256)
  | .attest sess nor => decide (sess < 256 ∧ nor < 16)
  | .enrol sess _ => decide (sess < 256)
  | .registersBundle sess => decide (sess < 256)
  | .teamBundle sess => decide (sess < 256)
  | .fwManifestBundle sess => decide (sess < 256)
  | .fwDataBundle sess _ => decide (sess < 256)
  | .releaseBundle sess => decide (sess < 256)
  | .pairBundle sess => decide (sess < 256)
  | .pawnDispatch core ctx => decide (core < 800 ∧ ctx < 16)
  | .taskAdmit core ctx => decide (core < 800 ∧ ctx < 16)
  | .tableFetch core ctx _ _ => decide (core < 800 ∧ ctx < 16)
  | .endTask core ctx => decide (core < 800 ∧ ctx < 16)
  | .array core ctx => decide (core < 800 ∧ ctx < 16)
  | .tree core ctx _ _ _ => decide (core < 800 ∧ ctx < 16)
  | .front core ctx => decide (core < 800 ∧ ctx < 16)
  | .lookup core ctx _ _ _ _ => decide (core < 800 ∧ ctx < 16)
  | .rescale core ctx => decide (core < 800 ∧ ctx < 16)
  | .mvec core ctx => decide (core < 800 ∧ ctx < 16)
  | .emitVerdict core ctx => decide (core < 800 ∧ ctx < 16)
  | .emitToken core ctx => decide (core < 800 ∧ ctx < 16)
  | .emitResult core ctx => decide (core < 800 ∧ ctx < 16)
  | .emitState core ctx _ => decide (core < 800 ∧ ctx < 16)
  | .barrierWait core ctx => decide (core < 800 ∧ ctx < 16)
  | .barrierArrive core ctx => decide (core < 800 ∧ ctx < 16)
  | .loopBegin core ctx => decide (core < 800 ∧ ctx < 16)
  | .loopNext core ctx => decide (core < 800 ∧ ctx < 16)
  | .arm core ctx => decide (core < 800 ∧ ctx < 16)
  | .rearm core ctx => decide (core < 800 ∧ ctx < 16)
  | .acquire core ctx => decide (core < 800 ∧ ctx < 16)
  | .release core ctx => decide (core < 800 ∧ ctx < 16)
  | .flush core ctx => decide (core < 800 ∧ ctx < 16)
  | .streamClose core ctx => decide (core < 800 ∧ ctx < 16)
  | .pieceIssue core => decide (core < 800)
  | .pieceComplete core tag _ => decide (core < 800 ∧ tag < 64)
  | .writeAck core tag => decide (core < 800 ∧ tag < 64)
  | .pieceRetry core tag => decide (core < 800 ∧ tag < 64)
  | .loadingTimeout core ctx => decide (core < 800 ∧ ctx < 16)
  | .peerSend core => decide (core < 800)
  | .adjournment core ctx _ => decide (core < 800 ∧ ctx < 16)
  | .cancel core ctx => decide (core < 800 ∧ ctx < 16)
  | .abort core ctx => decide (core < 800 ∧ ctx < 16)
  | .watchdog core ctx => decide (core < 800 ∧ ctx < 16)
  | .issueStall core => decide (core < 800)
  | .barrierBreak die number => decide (die < 4 ∧ number < 1024)
  | .barrierReopen die number => decide (die < 4 ∧ number < 1024)
  | .pendingFilterExpire core => decide (core < 800)
  | .learningInsertion die => decide (die < 4)
  | .relocationMove core => decide (core < 800)
  | .stashMove core => decide (core < 800)
  | .scanVisit _ _ _ => true
  | .hostFeatureItem chan => decide (chan < 4096)
  | .hostSlotApply => true
  | .featureWindowEnd core chan gen => decide (core < 800 ∧ chan < 4096 ∧ gen < 256)
  | .rescaleStepEnd core _ target gen _ => decide (core < 800 ∧ target < 4096 ∧ gen < 256)
  | .expertRequest _ => true
  | .expertBatchClose dm gen layer expert => decide (dm < 16 ∧ gen < 256 ∧ layer < 64 ∧ expert < 4096)
  | .expertResult _ => true
  | .expertMissed _ expert => decide (expert < 4096)
  | .tokenAbandoned _ => true
  | .teamData port _ => decide (port < 66)
  | .teamCredit port _ => decide (port < 66)
  | .governorInterval die _ _ _ _ _ _ => decide (die < 4)
  | .speedReport site step => decide (site < 832 ∧ step < 256)
  | .thermalTrip _ die site reading => decide (die < 4 ∧ site < 832 ∧ reading < 4096)
  | .railFault rail => decide (rail < 7)
  | .coreFailure core _ => decide (core < 800)
  | .selfTest site _ => decide (site < 832)
  | .spareActivation die => decide (die < 4)
  | .amRemap core quarter _ _ => decide (core < 800 ∧ quarter < 4)
  | .vaultRemap site _ _ => decide (site < 832)
  | .cpStopped stop => decide (stop.1 < 8)
  | .heartbeatSend => true
  | .heartbeat port _ => decide (port < 66)
  | .startingTimeout => true
  | .heartbeatMiss => true
  | .mirror port _ => decide (port < 66)
  | .mirrorCredit port _ => decide (port < 66)
  | .mirrorResend => true
  | .checkpoint => true
  | .adoptExpire _ => true
  | .dramScrub site _ _ => decide (site < 832)
  | .amScrub core quarter _ _ _ => decide (core < 800 ∧ quarter < 4)
  | .calibration core step => decide (core < 800 ∧ step < 256)
  | .adaptation port lane _ => decide (port < 66 ∧ lane < 4)
  | .wearMove die => decide (die < 4)
  | .amRotation core quarter _ => decide (core < 800 ∧ quarter < 4)
  | .telemetry => true
  | .drbgReseed => true
  | .entropyFail => true
  | .treeReady => true
  | .bypass _ => true
  | .idcode => true
  | .samplePreload _ => true
  | .extest _ => true
  | .scan _ => true
  | .ownerClear _ => true
  | .powerOnReset => true
  | .pinReset => true
  | .deviceResetDue => true
  | .controlResetDue => true
  | .controlWatchdog => true
  | .ready _ _ => true
  | .controlRestartReady => true
  | .smbStatus => true
  | .smbPhase => true
  | .smbLifecycle => true
  | .smbStages => true
  | .smbRailFault => true
  | .smbLogicTemp die => decide (die < 4)
  | .smbDramTemp die => decide (die < 4)
  | .smbPortTemp die => decide (die < 2)
  | .smbPower => true
  | .smbVcore die => decide (die < 4)
  | .smbSerial => true
  | .smbRefused => true
  | .smbAlertResponse => true
  | .pwrGoodFall => true
  | .resetNRelease => true
  | .bootFailure _ => true
  | .frameTransmit port sub => decide (port < 66 ∧ sub < 4)
  | .pauseQuantaExpire port sub => decide (port < 66 ∧ sub < 4)
  | .setupFragment port sub _ => decide (port < 66 ∧ sub < 4)
  | .rxDiscard port sub _ => decide (port < 66 ∧ sub < 4)
  | .verificationEnd stage => decide (stage < 16)
  | .flushSweepVisit _ _ => true
  | .mirrorStoreSweep _ => true
  | .arrayFault core ctx _ arr region => decide (core < 800 ∧ ctx < 16 ∧ arr < 2 ∧ region < 4)

end Sys2Proof
end

