-- ==== Sys2Proof/Tests/Slice0.lean ====
section
/-! SUPPORT. The spec's worked examples, commands that are not well formed, and for every statement with premises a state and operands that meet them.

A witness is given for each clause; its states are small and take part in nothing else. -/

namespace Sys2Proof.Tests
set_option maxRecDepth 100000
set_option Elab.async false
open Sys2Proof Sys2Proof.Machine

/-- A device, at the start of a ply and now. -/
def at_ (ply : Nat) (d : Dev) : State := { ply := BitVec.ofNat 64 ply, dev := d, start := d }

/-- One port, up on sub-port 0. -/
def upPort (p : Nat) : Table Port :=
  [(p, { enabled := true, squelched := false, subs := [(0, { up := true, lanes := 15, speed := 4 })] })]

/-- Ports 0 and 1 as an inline pair, up on sub-port 0. -/
def pairUp : Table Port :=
  let q : Port := { enabled := true, attach := 1, limit := 1, squelched := false, subs := [(0, { up := true, lanes := 15, speed := 4 })] }
  [(0, q), (1, q)]

/-- A session with one command waiting. -/
def sess (op : Nat) (body : Bytes) : Session := { num := 1, maxFrame := 9216, cmds := [{ opcode := op, tag := 7, body := body }] }

/-- A device with that session. -/
def withCmd (op : Nat) (body : Bytes) (d : Dev) : Dev := { d with selid := { d.selid with sessions := [sess op body] } }

/-- The command of `sess`. -/
def cmd (op : Nat) (body : Bytes) : Cmd := { opcode := op, tag := 7, body := body }

/-- A device whose session 1 has one register write waiting. -/
def withWrite (a : Nat) (v : Word) (d : Dev) : Dev :=
  { d with selid := { d.selid with sessions := [{ num := 1, writes := [{ addr := a, value := v }] }] } }

/-- A channel descriptor with these flags, key byte and ports, whose core set is core 799. -/
def descOf (flags key ports : Nat) : Bytes :=
  [1, 0, 0, 0, byte flags, byte key, 0, 0] ++ zeros 4 ++ toLE 4 ports ++ zeros 20 ++ zeros 4 ++ zeros 99 ++ [0x80] ++ zeros 4

/-- A channel in slot 5 with that descriptor. -/
def chanOf5 (flags key : Nat) : Channel := { state := .bound, hgen := 2, desc := descOf flags key 3, cores := [799], gen := 3 }

/-- Bytes at an address, as cells. -/
def cellsAt (a : Nat) (b : Bytes) : Mem := (b.zipIdx.map fun e => (a + e.2, e.1)).filter fun e => decide (e.2 ≠ 0)

/-- An image of `n` structures whose volume holds one table, whose model pages begin with `pages`, and whose structure 6, if any, is `deep`. -/
def imageDeep (n : Nat) (binding ensemble feats table pages deep : Bytes) : Mem :=
  cellsAt 12 (toLE 2 n) ++ cellsAt 64 ((List.range n).map fun i => toLE 8 (i + 1) ++ toLE 8 (4096 * (i + 1)) ++ toLE 8 4096 ++ zeros 8).flatten ++
    cellsAt 4096 binding ++ cellsAt 8192 feats ++ cellsAt 12288 ensemble ++
    cellsAt 16384 (toLE 2 1 ++ toLE 2 1 ++ zeros 12 ++ toLE 4 24 ++ toLE 4 table.length ++ table) ++ cellsAt 20480 pages ++ cellsAt 24576 deep
def imageOf (binding ensemble feats table pages : Bytes) : Mem := imageDeep 5 binding ensemble feats table pages []

/-- An entry of a table, and a table of two loops at most twice round. -/
def entry_ (op sub flags dur energy operand : Nat) : Bytes :=
  [byte (op + 16 * sub), byte flags] ++ toLE 3 dur ++ [0] ++ toLE 2 energy ++ toLE 8 operand
def tableOf (cls : Nat) (es : List Bytes) : Bytes :=
  toLE 2 1 ++ toLE 2 es.length ++ toLE 4 cls ++ toLE 2 2 ++ toLE 2 2 ++ zeros 4 ++ toLE 4 1000 ++ toLE 4 500 ++ toLE 4 700 ++ zeros 4 ++ es.flatten

/-- Generation 3 of channel 5 with that image. -/
def gen5 (m : Mem) : Generation := { target := 5, gen := 3, image := m }

/-- A device whose logical core 799 is at site 831 and active, whose channel 5 has generation 3 with that image, and the core as given. -/
def dev799 (c : Channel) (m : Mem) (core : CoreState) : Dev :=
  { objects := { channels := [(5, c)], gens := [(genKey false 5 3, gen5 m)], siteMap := [(799, some 831)] }
    reliab := { sites := [(831, { state := .active })] }
    compute := { cores := [(799, core)] } }

/-- An image whose only table is streamed. -/
def streamed : Mem := imageOf [] [] [] (tableOf 1 [entry_ 0 0 0 2 0 0]) []

/-- A task of channel 5's table 0, a context that runs it, and a device whose core 799 has such a context and whose table has these entries. -/
def task5 : TaskDesc := { sched := 2 ^ 28 + 5 * 65536, gen := 3, cls := 0, lc := [2, 0, 0, 0], ba := [0], deadline := 999999 }
def ctx5 : Ctx := { state := .running, task := task5, iter := [0, 0, 0, 0] }
def tbl5 (cls : Nat) (es : List Bytes) : Mem := imageOf [] [] [] (tableOf cls es) []
def run799 (ctx : Nat) (x : Ctx) (core : CoreState) (m : Mem) : Dev := dev799 (chanOf5 0 0) m { core with ctxs := [(ctx, x)] }

/-- What a context's next entry is granted is its state with the energy charged. -/
theorem granted {o : Option State} (h : o.isSome = true) : o = some (o.get h) := (Option.some_get h).symm

/-- A layer of one weight: wide input and output, its rows at address 64 and its scales at 256. -/
def layer1 (mode ofmt adapt : Nat) : Bytes :=
  [0, 0, byte mode, byte (1 + 8 * ofmt + 32), 0, 0, 0, 0] ++ toLE 4 1 ++ toLE 4 1 ++ [1, byte adapt] ++ zeros 6 ++ toLE 8 64 ++ toLE 8 256 ++ zeros 24
def pages1 (mode ofmt adapt : Nat) : Bytes := layer1 mode ofmt adapt ++ List.replicate 104 242 ++ zeros 88 ++ [0, 1, 0x43, 0, 2, 5, 0, 0]
def img1 (mode ofmt adapt cls : Nat) (es : List Bytes) : Mem := imageOf [] [] [] (tableOf cls es) (pages1 mode ofmt adapt)
def ctx6 : Ctx := { ctx5 with task := { task5 with items := [6] }, vecs := [(0, { raw := [5] })] }
def ctx7 : Ctx := { ctx6 with task := { task5 with items := [6], cls := 2 } }

/-- A packet that core 799 works on, and a device with it. -/
def pkt6 : Packet := { chan := some (5, 2), gen := 3, core := 799, stage := .running, deadline := 999999, vector := zeros 96 }
def withPkt (p : Packet) (d : Dev) : Dev := { d with traffic := { packets := [(6, p)] } }

/-- One feature with a window of 2 plies, and an ensemble of one segment without trees and two actions. -/
def feats1 : Bytes := [1, 0, 1, 0, 1] ++ zeros 11 ++ [0x40] ++ zeros 15 ++ [3, 0, 7] ++ zeros 13
def ens1 : Bytes := [1, 0, 1, 0, 2] ++ zeros 11 ++ toLE 4 5 ++ toLE 4 9 ++ zeros 56 ++ toLE 4 0x03010007 ++ toLE 4 0x02020008 ++ zeros 120 ++ List.replicate 16 255
def img2 (es : List Bytes) : Mem := imageOf [] ens1 feats1 (tableOf 0 es) []

/-- A stream descriptor, a table with one STREAM entry and that descriptor, and a device that comes to it on stream 7. -/
def streamDesc (cmd ty n : Nat) : Bytes :=
  [byte (16 * cmd), byte (3 + 4 * ty), 2, 0, 0, 0, 0, byte n] ++ zeros 8 ++ toLE 4 512 ++ [1, 0, 1, 0, 1, 0] ++ zeros 18 ++ toLE 4 1000 ++ zeros 16
def imgS (cmd ty n : Nat) : Mem := imageOf [] [] [] (tableOf 0 [entry_ 5 0 0 2 3 0]) (streamDesc cmd ty n)
def devS (cmd ty n : Nat) (u : Stream) : Dev := dev799 (chanOf5 0 0) (imgS cmd ty n) { ctxs := [(1, ctx5)], streams := [(7, u)] }
def stream7 (ty : Nat) (st : SlotState) : Stream :=
  { armed := true, ty, len0 := 512, counts := [1, 1, 1], strides := [0, 0, 0], period := 1000, slots := List.replicate 2 { state := st } }

/-- A table whose second entry is the STREAM entry of an ARM. -/
def imgA : Mem := imageOf [] [] [] (tableOf 0 [entry_ 1 0 0 2 3 0, entry_ 5 0 0 2 3 0]) (streamDesc 0 0 1)

/-- A deep model with one layer of one expert on core 799, and a device that runs a task of it. -/
def deep1 : Bytes :=
  [0, 0, 1, 0, 1, 0, 0, 1, 4, 0, 1, 0] ++ toLE 4 9 ++ toLE 4 100 ++ toLE 4 1000 ++ toLE 4 5000 ++ toLE 4 77 ++ zeros 160 ++
    [3, 0, 4, 0, 1, 0, 0, 0, 0, 0, 1, 0] ++ zeros 12 ++ toLE 8 128 ++ zeros 16
def imgD (es : List Bytes) : Mem := imageDeep 6 [] [] [] (tableOf 2 es) (layer1 0 2 0 ++ zeros 64 ++ [0, 0] ++ toLE 2 799 ++ zeros 28) deep1
def genD (m : Mem) : Generation := { kind := 2, target := 5, gen := 3, image := m }
def taskD (owner : Nat) : TaskDesc := { sched := deepSched 5 0, gen := 3, owner, cls := 2, lc := [2, 0, 0, 0], ba := [0], items := [6] }
def ctxD (owner : Nat) : Ctx := { state := .running, task := taskD owner, iter := [0, 0, 0, 0] }
def devD (m : Mem) (core : CoreState) : Dev :=
  { objects := { gens := [(genKey true 5 3, genD m)], siteMap := [(799, some 831)] }
    reliab := { sites := [(831, { state := .active })] }
    compute := { cores := [(799, core)] } }
def withTok (a : Token) (d : Dev) : Dev := { d with compute := { d.compute with tokens := [(6, a)] } }
def tok6 : Token := { core := 799, chan := 5, hgen := 2, dm := 5, gen := 3, r := [4], u := [5] }

/-- An entry of channel 5 with key 0, and one whose CHECK fails. -/
def entry5 : Bytes := sealEntry (zeros 42 ++ toLE 2 (5 + 4096) ++ zeros 14 ++ toLE 2 2 ++ zeros 4)
def badEntry : Bytes := entry5.dropLast ++ [0xEE]
def direct5 : Channel := chanOf5 0 2
def withFlow (f : Flow) (d : Dev) : Dev := { d with flow := f }
def tblDev (c : Channel) (op : Nat) (body : Bytes) (f : Flow) : Dev :=
  withCmd op body (withFlow f { dev799 c [] { lastIssue := some 1 } with ports := upPort 0 })

/-- A device with one staging operation in slot 1, and a command on it. -/
def stageDev (op : Nat) (body : Bytes) (g : StageOp) : Dev :=
  withCmd op body { ports := upPort 0, objects := { stages := [(1, g)], stagePool := { fresh := 2 } } }
def stage1 (st : StageState) : StageOp := { state := st, hgen := 4, sess := 1, len := 128, image := [(12, 0)] }

/-- An HSS public key, and the frame of a signature under it. -/
def hssKey : Bytes := toBE 4 1 ++ toBE 4 5 ++ toBE 4 4 ++ zeros 48
def hssSig : Bytes := zeros 8 ++ toBE 4 4 ++ zeros 1120 ++ toBE 4 5 ++ zeros 160

/-- The body of a BUNDLE_APPLY, and an owned device with one waiting. -/
def bundleOf (kind serial : Nat) (pay sig : Bytes) : Bytes :=
  let b := toLE 4 0x444E424B ++ toLE 2 1 ++ [byte kind, 0] ++ toLE 4 serial ++ toLE 4 pay.length ++ zeros 48 ++ pay ++ toLE 4 sig.length ++ sig
  toLE 4 b.length ++ b
def owned (body : Bytes) (d : Dev) : Dev :=
  withCmd 0x92 body { d with ports := upPort 0, sec := { d.sec with nvm := { d.sec.nvm with lifecycle := 1, ownerKey := hssKey } } }

/-- Registers of the global control page: control addresses of port die 0. -/
def ctrlRegs : Table Word :=
  [(addrOf pgGlobal 0x50, 0x0302014B), (addrOf pgGlobal 0x54, 0x0504), (addrOf pgGlobal 0x58, 0x0A000001), (addrOf pgGlobal 0x5C, 0x000000FD),
   (addrOf pgGlobal 0x68, 0x01000000)]

/-- The control MAC address they give, and a host's. -/
def devMac : Bytes := [0x4B, 1, 2, 3, 4, 5]
def hostMac : Bytes := [2, 0, 0, 0, 0, 9]

/-- A Selid frame from the host to that address, with any FCS. -/
def selidFrame (kind session fragIndex fragLast seq : Nat) (payload : Bytes) : Bytes :=
  devMac ++ hostMac ++ [0x88, 0xB5] ++ [byte (1 + 16 * kind), byte session] ++ toLE 2 payload.length ++
    [byte (fragIndex + 16 * fragLast), 0, 0, 0] ++ toLE 8 seq ++ payload ++ zeros (64 - (30 + payload.length)) ++ zeros 4

/-- A peer frame with any FCS. -/
def peerFrame (kind session fragIndex seq : Nat) (payload : Bytes) : Bytes :=
  withFcs (zeros 6 ++ hostMac ++ [0x88, 0xB5] ++ [byte (1 + 16 * kind), byte session] ++ toLE 2 payload.length ++
    [byte fragIndex, 0, 0, 0] ++ toLE 8 seq ++ payload ++ zeros (60 - (30 + payload.length)))

/-- A device on whose port 0 that frame waits first in its lane, taken for a Selid frame or an enquiry. -/
def laneOf (kind : LaneKind) (f : Bytes) : LaneFrame :=
  { port := 0, sub := 0, ply := 5, frame := f, kind := kind, route := { hostMac := hostMac, devMac := devMac }, off := 14 }
def withLane (kind : LaneKind) (f : Bytes) (d : Dev) : Dev :=
  { d with
    ports := upPort 0, regs := { d.regs with rw := ctrlRegs }
    selid := { d.selid with lane0 := { session := [laneOf kind f] } } }
def inLane (f : Bytes) (d : Dev) : Dev := withLane .selid f d

/-- An ARP request and a neighbour solicitation for the control addresses, without FCS, and a device with host port 64 in use. -/
def arpAsk : Bytes :=
  zeros 6 ++ hostMac ++ [8, 6, 0, 1, 8, 0, 6, 4, 0, 1] ++ hostMac ++ [9, 9, 9, 9] ++ zeros 6 ++ [1, 0, 0, 0x0A] ++ zeros 18
def neighbourAsk : Bytes :=
  zeros 6 ++ hostMac ++ [0x86, 0xDD, 0x60, 0, 0, 0, 0, 24, 58, 255] ++ [1] ++ zeros 31 ++ [135, 0, 0, 0, 0, 0, 0, 0, 0xFD] ++ zeros 14 ++ [1]
def hostDev : Dev :=
  { ports := [(64, { enabled := true, attach := 1, squelched := false, subs := [(0, { up := true, lanes := 15, speed := 4 })] })]
    regs := { rw := ctrlRegs } }

/-- A HELLO and an ACCEPT payload. -/
def helloBody : Bytes := zeros 32 ++ toLE 2 9216 ++ toLE 2 60 ++ zeros 4
def acceptBody : Bytes := zeros 1604

/-- A device of a team of two on port 32. -/
def teamDev : Dev :=
  { ports := [(32, { enabled := true, attach := 1, squelched := false, subs := [(0, { up := true, lanes := 15, speed := 4 })] })]
    team := { members := 2, self := 1, id := 9, ports := [32] } }

/-- Nothing has been reset in the ply. -/
theorem clear (ply : Nat) (d : Dev) (h : d.regs.lastReset = none) (g : d.reliab.resetPly = []) (p : Nat) :
    (at_ ply d).clearedNow p = false := by
  simp only [State.clearedNow, State.siteResetNow, at_, h, g]
  cases pageKind p <;> simp [Table.get?]

/-- A pair whose second part is known. -/
theorem pairEq {α β : Type} {p : α × β} {b : β} (h : p.2 = b) : p = (p.1, b) := by rw [← h]

/-- A frame that is taken, with what it holds. -/
theorem takes {p : State × Option (Route × SelidHead × Nat)} (h : p.2.isSome = true) :
    p = (p.1, some ((p.2.get h).1, (p.2.get h).2.1, (p.2.get h).2.2)) := pairEq (Option.some_get h).symm

theorem reset_mac (n : Nat) : (0x0302014B : Word) ≠ BitVec.ofNat 32 (0x4B02 + n / 65536 % 256 * 65536 + n / 256 % 256 * 16777216) := by
  intro h
  have := congrArg BitVec.toNat h
  simp at this
  omega

theorem reset_mac_high (n : Nat) : (0x0504 : Word) ≠ BitVec.ofNat 32 (n % 256) := by
  intro h
  have := congrArg BitVec.toNat h
  simp at this
  omega

/-- The registers of `ctrlRegs` are in canonical form, whatever the serial number that gives the reset address. -/
theorem ctrl_canon : Table.canon regReset ctrlRegs = true := by
  have a : regReset (addrOf pgGlobal 0x50) =
    BitVec.ofNat 32 (0x4B02 + Config.serial.toNat / 65536 % 256 * 65536 + Config.serial.toNat / 256 % 256 * 16777216) := rfl
  have b : regReset (addrOf pgGlobal 0x54) = BitVec.ofNat 32 (Config.serial.toNat % 256) := rfl
  have c : Table.risingFrom ctrlRegs 0 = true := by decide +kernel
  simp only [Table.canon, ctrlRegs, List.all_cons, List.all_nil, Bool.and_true, Bool.and_eq_true, decide_eq_true_eq, a, b]
  exact ⟨c, reset_mac _, reset_mac_high _, by decide +kernel, by decide +kernel, by decide +kernel⟩

/-- A device with those registers is in canonical form if the rest of it is. -/
theorem canonCtrl {d : Dev} (h : d.regs.rw = ctrlRegs) (k : Dev.canonical { d with regs := { d.regs with rw := [] } } = true) :
    d.canonical = true := by
  simp only [Dev.canonical, Regs.canonical, h, ctrl_canon, Bool.and_eq_true] at k ⊢
  exact ⟨⟨⟨k.1.1.1, trivial⟩, k.1.2⟩, k.2⟩

/-- A device whose logical core 600 is at site 831 and active. -/
def dev600 (r : Reliab) (core : CoreState) : Dev :=
  { objects := { siteMap := [(600, some 831)] }, reliab := { r with sites := [(831, { state := .active })] }, compute := { cores := Table.set {} [] 600 core } }

/-- The cores of compute die 3 on its first 200 sites. -/
def allMapped : Table (Option Nat) := (List.range 200).map fun i => (600 + i, some (624 + i))

/-- A device whose compute die 3 has one spare, at site 831, and whose core 600 is at the worn site 628. -/
def wornDev : Dev :=
  { objects := { siteMap := [(600, some 628)] }
    regs := { rw := [(addrOf pgBackground 0x48, 0x107)] }
    reliab := { sites := (List.range 207).map (fun i => (624 + i, { state := .active })) ++ [(831, { state := .spare })], wear := [(628, 9)] } }

/-- A device of a pair, whose one pair port is up, with these tables. -/
def paired (role : Role) (flow : Flow) : Dev :=
  { ports := [(32, { enabled := true, attach := 2, squelched := false, subs := [(0, { up := true, lanes := 15, speed := 4 })] })], flow
    pair := { id := 9, priority := 7, ports := 1, key := zeros 32, partner := zeros 32, role } }

/-- A pair frame on port instance 32, with a tag of zeros. -/
def pairFrame (kind seq : Nat) (b : Bytes) : Bytes := peerFrame kind 1 0 seq (b ++ zeros 16)

/-- A device with ports up and a channel bound. -/
def aDev : Dev := { ports := upPort 0, objects := { channels := [(5, direct5)] } }

/-- The state a command leaves. -/
def leftBy (o : Host.Outcome State Fault Refusal) : State := match o with
  | .next t => t
  | _ => State.reset

/-- A device whose session 1 ends, with a page it has locked and a page that is sealed. -/
def ending : Dev :=
  { selid := { sessions := [{ num := 1, ending := some 9 }] }, regs := { hdr := [(5, { lock := .locked, owner := 1 }), (6, { lock := .sealed, owner := 2 })] } }

/-! ### The spec's worked examples -/

/-- The example under R278: C8h holds +1, −1, 0, 0, +1. -/
theorem test_trits : (List.range 5).map (tritAt 200) = [1, -1, 0, 0, 1] := by decide +kernel

/-- R279: an invalid byte reads as five zero trits. -/
theorem test_trits_invalid : (List.range 5).map (tritAt 243) = [0, 0, 0, 0, 0] := by decide +kernel

/-- The worked example of chapter 11: alignment, rescale, saturation and the step up. -/
theorem test_rescale : rneS 500 (-3) = 4000 ∧ rescaleY 3972 33 10 = 128 ∧ rescaleCode false 128 = 127 ∧ rescaleSat false 128 = true ∧
    scaleStep (Adapt.observe false 128 { shift := 10 }) 8 14 = 1 ∧ rescaleY 3972 33 11 = 64 ∧
    scaleStep (Adapt.observe false 64 { shift := 11 }) 8 14 = 0 := by decide +kernel

/-- The example of chapter 2 on serial numbers: generation 3 is later than 250. -/
theorem test_later : laterThan 8 3 250 = true ∧ laterThan 8 250 3 = false := by decide +kernel

/-- The example of chapter 2 on EVENT: a host's clear and a hardware set of one bit in one ply leave the bit set and count it. -/
theorem test_event_set_wins :
    let h := PageHdr.clearBits 2000 8 (PageHdr.setBitsIn 2000 0 8 { event := 8, count := 7 })
    h.event = 8 ∧ h.count = 8 ∧ (PageHdr.clearBits 2500 8 h).event = 0 := by decide +kernel

/-- The lock table of R69. -/
theorem test_lock_table : lockWrite .unlocked 0 5 1 = some (.locked, 5) ∧ lockWrite .locked 5 5 0 = some (.unlocked, 0) ∧
    lockWrite .locked 5 5 2 = some (.sealed, 5) ∧ lockWrite .locked 5 6 1 = none ∧ lockWrite .sealed 5 5 0 = none := by decide +kernel

/-- The example of chapter 17: the pools at the reset values, and at SCALE 124. -/
theorem test_pools : pools 235 128 64 8 = (601600, 75200, 1729600) ∧ pools 235 124 64 8 = (582800, 72850, 1675550) := by decide +kernel

/-- The example of chapter 21: RESET_CAUSE after a device reset and then a control reset, and with the watchdog's. -/
theorem test_reset_cause :
    let s := leftBy (exec .deviceResetDue (at_ 9 { startUp := { due := [(9, true)] } }))
    let s' := { s with ply := 30, dev := { s.dev with startUp := { s.dev.startUp with due := [(30, false)] } } }
    (leftBy (exec .controlResetDue s')).dev.startUp.cause = 0x40000002 ∧
      (leftBy (exec .controlWatchdog { s with ply := 30 })).dev.startUp.cause = 0x50000002 := by decide +kernel

/-- The example under R105, on a page whose STATUS has no bit from a pin: READ_BATCH of STATUS and of a misaligned offset. -/
theorem test_read_batch :
    (leftBy (exec (.readBatch 1) (at_ 9 (withCmd 0x10 [2, 0, 0, 0, 8, 0, 1, 0x10, 0x22, 0, 1, 0x10]
      { ports := upPort 0, regs := { hdr := [(0x1001, { event := 1, mask := 0 })] } })))).dev.out.getLast?.map (fun o => match o with
        | .selid _ _ _ _ b _ => b
        | _ => []) =
      some [0x10, 0x80, 7, 0, 0x14, 0, 0, 0, 1, 0, 1, 0, 2, 0, 0, 0, 0, 0, 0, 0x40, 0, 0, 0, 0, 0, 0, 0, 0, 1, 0, 0, 0] := by decide +kernel

/-! ### Commands that are not well formed -/

def illFormed1 : List Instr :=
  [
    .frameStart 66 0 [], .frameStart 0 4 [], .frameTail 66 0, .frameTail 0 4, .batchClose 800 0 0, .batchClose 0 4096 0, .batchClose 0 0 256,
    .verdictFrame 66 0, .verdictFrame 0 4, .arpRequest 66 0 [], .arpRequest 0 4 [], .neighbourSolicitation 66 0 [], .neighbourSolicitation 0 4 [],
    .pauseFrame 66 0 [], .pauseFrame 0 4 [], .pfcFrame 66 0 [], .pfcFrame 0 4 [], .pauseResend 66 0 0, .pauseResend 0 4 0, .pauseResend 0 0 9,
    .pfcStorm 66 0 0, .pfcStorm 0 4 0, .pfcStorm 0 0 8, .linkDown 66 0, .linkDown 0 4, .linkUp 66 0, .linkUp 0 4, .laneFailure 66 0, .laneFailure 0 4,
    .hello 66 0 [] 0, .hello 0 4 [] 0, .hello 0 0 [] 16, .accept 66 0 [], .accept 0 4 [], .halfOpenExpire 256, .protectedFrame 66 0 [],
    .protectedFrame 0 4 [], .sessionIdleTimeout 256, .echo 256, .close 256, .readBatch 256, .readBlock 256, .writeBatch 256, .registerWrite 256,
    .eventClear 256, .eventMaskWrite 256
  ]

def illFormed2 : List Instr :=
  [
    .eventForce 256, .forcedSet 65536, .lockWrite 256, .eventFrame 65536, .holdoffExpire 65536, .event 16 0, .event 0 256, .portEnable 256,
    .portDisable 256, .counterClear 256, .readmit 256, .learnAgentSwitch 256, .deepEnWrite 256, .resync 256, .castle 256, .deviceReset 256,
    .controlReset 256, .channelCreate 256, .channelDestroy 256, .channelDrained 4096, .tableSearch 256 false false, .tableNext 256, .tableFlush 256,
    .tableInsert 256, .tableDelete 256 false false, .ringRead 256, .ringAck 256, .ringWrite 256, .ringFlush 256, .ringResign 256, .ringMark 256,
    .ringRewind 256, .flagFall 65536, .pendingGap 65536, .stageOpen 256, .stageData 256, .stageVerify 256, .stageSwap 256, .stageDiscard 256,
    .genRetire false 4096 0, .genRetire false 0 256, .quench 256, .unquench 256, .quenchExpire 64, .scoreStart 256, .scoreStop 256
  ]

def illFormed3 : List Instr :=
  [
    .replayStart 256, .replayStop 256, .sinkJoin 256, .sinkLeave 256, .attest 256 0, .attest 0 16, .enrol 256 false, .registersBundle 256,
    .teamBundle 256, .fwManifestBundle 256, .fwDataBundle 256 false, .releaseBundle 256, .pairBundle 256, .pawnDispatch 800 0, .pawnDispatch 0 16,
    .taskAdmit 800 0, .taskAdmit 0 16, .tableFetch 800 0 false false, .tableFetch 0 16 false false, .endTask 800 0, .endTask 0 16, .array 800 0,
    .array 0 16, .tree 800 0 [] [] 0, .tree 0 16 [] [] 0, .front 800 0, .front 0 16, .lookup 800 0 false false false false,
    .lookup 0 16 false false false false, .rescale 800 0, .rescale 0 16, .mvec 800 0, .mvec 0 16, .emitVerdict 800 0, .emitVerdict 0 16,
    .emitToken 800 0, .emitToken 0 16, .emitResult 800 0, .emitResult 0 16, .emitState 800 0 false, .emitState 0 16 false, .barrierWait 800 0,
    .barrierWait 0 16, .barrierArrive 800 0, .barrierArrive 0 16, .loopBegin 800 0
  ]

def illFormed4 : List Instr :=
  [
    .loopBegin 0 16, .loopNext 800 0, .loopNext 0 16, .arm 800 0, .arm 0 16, .rearm 800 0, .rearm 0 16, .acquire 800 0, .acquire 0 16, .release 800 0,
    .release 0 16, .flush 800 0, .flush 0 16, .streamClose 800 0, .streamClose 0 16, .pieceIssue 800, .pieceComplete 800 0 0, .pieceComplete 0 64 0,
    .writeAck 800 0, .writeAck 0 64, .pieceRetry 800 0, .pieceRetry 0 64, .loadingTimeout 800 0, .loadingTimeout 0 16, .peerSend 800,
    .adjournment 800 0 0, .adjournment 0 16 0, .cancel 800 0, .cancel 0 16, .abort 800 0, .abort 0 16, .watchdog 800 0, .watchdog 0 16,
    .issueStall 800, .barrierBreak 4 0, .barrierBreak 0 1024, .barrierReopen 4 0, .barrierReopen 0 1024, .pendingFilterExpire 800,
    .learningInsertion 4, .relocationMove 800, .stashMove 800, .hostFeatureItem 4096, .featureWindowEnd 800 0 0, .featureWindowEnd 0 4096 0,
    .featureWindowEnd 0 0 256
  ]

def illFormed5 : List Instr :=
  [
    .rescaleStepEnd 800 false 0 0 0, .rescaleStepEnd 0 false 4096 0 0, .rescaleStepEnd 0 false 0 256 0, .expertBatchClose 16 0 0 0,
    .expertBatchClose 0 256 0 0, .expertBatchClose 0 0 64 0, .expertBatchClose 0 0 0 4096, .expertMissed 0 4096, .teamData 66 [], .teamCredit 66 [],
    .governorInterval 4 [] [] 0 0 0 0, .speedReport 832 0, .speedReport 0 256, .thermalTrip 0 4 0 0, .thermalTrip 0 0 832 0, .thermalTrip 0 0 0 4096,
    .railFault 7, .coreFailure 800 0, .selfTest 832 false, .spareActivation 4, .amRemap 800 0 0 0, .amRemap 0 4 0 0, .vaultRemap 832 0 [],
    .cpStopped (8, []), .heartbeat 66 [], .mirror 66 [], .mirrorCredit 66 [], .dramScrub 832 0 [], .amScrub 800 0 0 0 0, .amScrub 0 4 0 0 0,
    .calibration 800 0, .calibration 0 256, .adaptation 66 0 0, .adaptation 0 4 0, .wearMove 4, .amRotation 800 0 0, .amRotation 0 4 0,
    .smbLogicTemp 4, .smbDramTemp 4, .smbPortTemp 2, .smbVcore 4, .frameTransmit 66 0, .frameTransmit 0 4, .pauseQuantaExpire 66 0,
    .pauseQuantaExpire 0 4, .setupFragment 66 0 []
  ]

def illFormed6 : List Instr :=
  [
    .setupFragment 0 4 [], .rxDiscard 66 0 [], .rxDiscard 0 4 [], .verificationEnd 16, .arrayFault 800 0 0 0 0, .arrayFault 0 16 0 0 0,
    .arrayFault 0 0 0 2 0, .arrayFault 0 0 0 0 4
  ]

/-! Every range of `Instr.wf` refuses a command at its bound. -/
theorem test_ill_formed_1 : illFormed1.all (fun i => !i.wf) = true := by decide +kernel
theorem test_ill_formed_2 : illFormed2.all (fun i => !i.wf) = true := by decide +kernel
theorem test_ill_formed_3 : illFormed3.all (fun i => !i.wf) = true := by decide +kernel
theorem test_ill_formed_4 : illFormed4.all (fun i => !i.wf) = true := by decide +kernel
theorem test_ill_formed_5 : illFormed5.all (fun i => !i.wf) = true := by decide +kernel
theorem test_ill_formed_6 : illFormed6.all (fun i => !i.wf) = true := by decide +kernel

/-! ### The premises of the statements can be met -/

/-- The premises of StepRunsTheFrontCommand can be met. -/
theorem witness_StepRunsTheFrontCommand :
    ∃ s : State, ∃ c : Instr, ∃ rest : List Instr, s.pending = c :: rest :=
  ⟨{ at_ 9 {} with pending := [.smbStatus] }, Instr.smbStatus, ([] : List Instr), by decide +kernel⟩

/-- The premises of IdleStepEndsThePly can be met. -/
theorem witness_IdleStepEndsThePly :
    ∃ s : State, s.pending = [] :=
  ⟨at_ 9 {}, by decide +kernel⟩

/-- The premises of PlyCounterCounts can be met. -/
theorem witness_PlyCounterCounts :
    (∃ s : State, ∃ t : State, step s = .next t ∧ s.pending = []) ∧
    (∃ s : State, ∃ t : State, ∃ c, ∃ rest : List Instr, step s = .next t ∧ s.pending = c :: rest) :=
  ⟨⟨at_ 9 {}, leftBy (step (at_ 9 {})), by and_intros <;> (try decide +kernel) <;> exact rfl⟩,
   ⟨{ at_ 9 {} with pending := [.smbStatus] }, leftBy (step ({ at_ 9 {} with pending := [.smbStatus] })), Instr.smbStatus, ([] : List Instr),
      by and_intros <;> (try decide +kernel) <;> exact rfl⟩⟩

/-- The premises of ResetValues can be met. -/
theorem witness_ResetValues :
    (∃ p : Nat, p < 32) ∧
    (∃ p : Nat, p < 32) ∧
    (∃ k : Nat, k < 4) ∧
    (∃ k : Nat, k < 4) :=
  ⟨⟨31, by decide +kernel⟩,
   ⟨31, by decide +kernel⟩,
   ⟨3, by decide +kernel⟩,
   ⟨3, by decide +kernel⟩⟩

/-- The premises of StepsKeepCanonical can be met. -/
theorem witness_StepsKeepCanonical :
    ∃ s : State, ∃ t : State, s.canonical = true ∧ step s = .next t :=
  ⟨at_ 9 {}, leftBy (step (at_ 9 {})), by and_intros <;> (try decide +kernel) <;> exact rfl⟩

/-- The premises of CommandsKeepWithinTheirFootprint can be met. -/
theorem witness_CommandsKeepWithinTheirFootprint :
    ∃ i : Instr, resetsDevice i = false :=
  ⟨Instr.smbStatus, by decide +kernel⟩

/-- The premises of SealsHold can be met. -/
theorem witness_SealsHold :
    ∃ s : State, ∃ t : State, ∃ page : Nat, s.dev.canonical = true ∧ perCorePage page = false ∧ s.sealedAt page ∧ ((∀ c rest, s.pending = c :: rest →
      resetsDevice c = false)) ∧ ((s.pending = [] → s.resetNow = false ∧ s.dueReset true = false)) ∧ step s = .next t :=
  ⟨at_ 9 ending, leftBy (step (at_ 9 ending)), 6, by and_intros <;> (try intro _ _ h; cases h) <;> (try decide +kernel) <;> exact rfl⟩

/-- The premises of EndedSessionsFreeTheirLocks can be met. -/
theorem witness_EndedSessionsFreeTheirLocks :
    (∃ s : State, ∃ t : State, ∃ n : Nat, ∃ page : Nat, s.dev.canonical = true ∧ (s.session? n).isSome = true ∧ t.session? n = none ∧
      ((exec (.close n) s = .next t ∨ exec (.sessionIdleTimeout n) s = .next t ∨ (∃ cp l, exec (.cpStopped (cp,
      l)) s = .next t) ∨ exec .controlWatchdog s = .next t ∨ (s.pending = [] ∧ s.resetNow = false ∧ s.dueReset true = false ∧ step s = .next t))) ∧
      (s.dev.hdr page).lock = .locked ∧ (s.dev.hdr page).owner = n) ∧
    (∃ s : State, ∃ t : State, ∃ n : Nat, ∃ page : Nat, s.dev.canonical = true ∧ (s.session? n).isSome = true ∧ t.session? n = none ∧
      ((exec (.close n) s = .next t ∨ exec (.sessionIdleTimeout n) s = .next t ∨ (∃ cp l, exec (.cpStopped (cp,
      l)) s = .next t) ∨ exec .controlWatchdog s = .next t ∨ (s.pending = [] ∧ s.resetNow = false ∧ s.dueReset true = false ∧ step s = .next t))) ∧
      (s.dev.hdr page).lock = .sealed ∧ perCorePage page = false) :=
  ⟨⟨at_ 9 ending, leftBy (step (at_ 9 ending)), 1, 5,
      by and_intros <;> (try exact .inr (.inr (.inr (.inr ⟨rfl, rfl, rfl, rfl⟩)))) <;> decide +kernel⟩,
   ⟨at_ 9 ending, leftBy (step (at_ 9 ending)), 1, 6,
      by and_intros <;> (try exact .inr (.inr (.inr (.inr ⟨rfl, rfl, rfl, rfl⟩)))) <;> decide +kernel⟩⟩

/-- The premises of AlertLineAsserts can be met. -/
theorem witness_AlertLineAsserts :
    (∃ s : State, s.smbAnswers = true ∧ s.start.smbAlert = true) ∧
    (∃ s : State, s.start.smbAlert = false) :=
  ⟨⟨at_ 9 { startUp := { smbFrom := 9 }, power := { tripped := true } }, by decide +kernel⟩,
   ⟨at_ 9 { regs := { rw := [(addrOf (pageOf tTempo 0) 0x4C, 0x7F7F7F7F), (addrOf (pageOf tTempo 1) 0x4C, 0x7F7F7F7F), (addrOf (pageOf tTempo 2) 0x4C, 0x7F7F7F7F), (addrOf (pageOf tTempo 3) 0x4C, 0x7F7F7F7F)] } },
      by decide +kernel⟩⟩

/-- The premises of ManifestsBindTheBootSlot can be met. -/
theorem witness_ManifestsBindTheBootSlot :
    (∃ s : State, ∃ sess : Nat, ∃ x, ∃ c, s.bundleReady sess 3 x c) ∧
    (∃ s : State, ∃ k : Nat, s.dev.sec.nvm.countersign = true ∧ s.dev.countersigned (s.dev.flash k) = false) :=
  ⟨⟨at_ 9 (owned (bundleOf 3 1 (toLE 4 6 ++ toLE 4 7 ++ toLE 4 70000 ++ zeros 36) []) {}), 1, Tests.sess 0x92 (bundleOf 3 1 (toLE 4 6 ++ toLE 4 7 ++
      toLE 4 70000 ++ zeros 36) []), cmd 0x92 (bundleOf 3 1 (toLE 4 6 ++ toLE 4 7 ++ toLE 4 70000 ++ zeros 36) []), by decide +kernel⟩,
   ⟨at_ 9 { sec := { nvm := { countersign := true, slotA := some [] } } }, 0, by decide +kernel⟩⟩

/-- The premises of LinksAndReferenceComeAndGo can be met. -/
theorem witness_LinksAndReferenceComeAndGo :
    (∃ s : State, ∃ port : Nat, ∃ sub : Nat, s.dev.canonical = true ∧ s.clearedNow (pageOf tPort port) = false ∧ sub < 4 ∧ s.subUp port sub = true) ∧
    (∃ s : State, ∃ port : Nat, ∃ sub : Nat, s.dev.canonical = true ∧ s.clearedNow (pageOf tPort port) = false ∧ sub < 4 ∧
      (s.dev.port port).enabled = true ∧ (s.dev.port port).squelched = false ∧ s.subUp port sub = false ∧
      (laneList ((s.dev.port port).subp sub).lanes).isEmpty = false) ∧
    (∃ s : State, ∃ port : Nat, ∃ lane : Nat, s.dev.canonical = true ∧ s.clearedNow (pageOf tPort port) = false ∧ lane < 4 ∧
      ((s.dev.port port).lane lane).failed = false) ∧
    (∃ s : State, s.dev.canonical = true ∧ ((∀ p, s.clearedNow p = false)) ∧ s.dev.ref.lost = false) ∧
    (∃ s : State, s.dev.canonical = true ∧ ((∀ p, s.clearedNow p = false)) ∧ s.dev.ref.lost = true ∧ s.dev.ref.expired = false ∧
      s.dev.ref.lostPly + 10 * plies1ms ≤ s.now) ∧
    (∃ s : State, s.dev.canonical = true ∧ ((∀ p, s.clearedNow p = false)) ∧ s.dev.ref.lost = true) :=
  ⟨⟨at_ 9 { ports := upPort 31 }, 31, 0, by decide +kernel⟩,
   ⟨at_ 9 { ports := [(31, { enabled := true, squelched := false, subs := [(3, { lanes := 8 })] })] }, 31, 3, by decide +kernel⟩,
   ⟨at_ 9 { ports := upPort 31 }, 31, 3, by decide +kernel⟩,
   ⟨at_ 9 { ports := upPort 31 }, by and_intros <;> (try exact clear _ _ rfl rfl) <;> (try decide +kernel) <;> decide⟩,
   ⟨at_ 15625000 { ports := upPort 31, ref := { lost := true, holdover := true } },
      by and_intros <;> (try exact clear _ _ rfl rfl) <;> (try decide +kernel) <;> decide⟩,
   ⟨at_ 15625001 { ports := upPort 31, ref := { lost := true, expired := true } },
      by and_intros <;> (try exact clear _ _ rfl rfl) <;> (try decide +kernel) <;> decide⟩⟩

/-- The premises of PausesHoldAndEnd can be met. -/
theorem witness_PausesHoldAndEnd :
    (∃ s : State, ∃ port : Nat, ∃ sub : Nat, ∃ f : Bytes, s.hears port sub f = true ∧ fcsGood f = true ∧ 64 ≤ f.length ∧ f.length ≤ s.maxFrame port ∧
      Bytes.be f (skipTags f 12 4) 2 = 0x8808 ∧ isPeer port = false ∧ Bytes.be f (skipTags f 12 4 + 2) 2 = 1 ∧
      pfcOn (s.start.rg (pageOf tPort port) 0x44) = false ∧ bit (s.start.rg (pageOf tPort port) 0x44) 16 = true) ∧
    (∃ s : State, ∃ port : Nat, ∃ sub : Nat, ∃ f : Bytes, s.hears port sub f = true ∧ fcsGood f = true ∧ 64 ≤ f.length ∧ f.length ≤ s.maxFrame port ∧
      Bytes.be f (skipTags f 12 4) 2 = 0x8808 ∧ isLine port = true ∧ Bytes.be f (skipTags f 12 4 + 2) 2 = 0x0101) ∧
    (∃ s : State, s.dev.canonical = true) ∧
    (∃ s : State, ∃ port : Nat, ∃ sub : Nat, ∃ prio : Nat, ∃ t0 : Nat, s.dev.canonical = true ∧
      Table.get? ((s.dev.port port).subp sub).since prio = some t0 ∧ prio < 8 ∧ 0 < s.rg (pageOf tPort port) 0x44 / 16777216 ∧
      t0 + s.rg (pageOf tPort port) 0x44 / 16777216 * plies1ms ≤ s.now ∧ pfcOn (s.rg (pageOf tPort port) 0x44) = true ∧
      s.clearedNow (pageOf tPort port) = false) ∧
    (∃ s : State, ∃ port : Nat, ∃ sub : Nat, ∃ prio : Nat, ∃ t0 : Nat, ∃ f, s.dev.canonical = true ∧
      Table.get? ((s.dev.port port).subp sub).xoff prio = some t0 ∧ f = pauseFrame (s.dev.ctrlMac (portDie port)) prio 0xFFFF ∧
      s.subUp port sub = true ∧ pauseOn (s.rg (pageOf tPort port) 0x44) prio = true) ∧
    (∃ s : State, ∃ port : Nat, ∃ sub : Nat, ∃ prio : Nat, ∃ t0 : Nat, ∃ f, s.dev.canonical = true ∧
      Table.get? ((s.dev.port port).subp sub).xoff prio = some t0 ∧ f = pauseFrame (s.dev.ctrlMac (portDie port)) prio 0xFFFF ∧
      pauseOn (s.rg (pageOf tPort port) 0x44) prio = false) :=
  ⟨⟨at_ 9 { ports := upPort 31, regs := { rw := [(addrOf (pageOf tPort 31) 0x44, 0x00010000)] } }, 31, 0, withFcs (zeros 12 ++ [0x88, 0x08, 0, 1,
      0xFF, 0xFF] ++ zeros 42), by decide +kernel⟩,
   ⟨at_ 9 { ports := upPort 31, regs := { rw := [(addrOf (pageOf tPort 31) 0x44, 0x640000FF)] } }, 31, 0, withFcs (zeros 12 ++ [0x88, 0x08, 1, 1, 0,
      0x80, 0xFF, 0xFF] ++ zeros 40), by decide +kernel⟩,
   ⟨at_ 9 { ports := [(65, { enabled := true, subs := [(3, { up := true, hold := [(0, 9), (1, 10)] })] })] }, by decide +kernel⟩,
   ⟨at_ 1562500 { ports := [(31, { enabled := true, subs := [(3, { up := true, hold := [(7, 1562600)], since := [(7, 0)] })] })], regs := { rw := [(addrOf (pageOf tPort 31) 0x44, 0x010000FF)] } },
      31, 3, 7, 0, by decide +kernel⟩,
   ⟨at_ 9 { ports := [(31, { enabled := true, subs := [(3, { up := true, xoff := [(8, 2)] })] })], regs := { rw := [(addrOf (pageOf tPort 31) 0x44, 0x20000)] } },
      31, 3, 8, 2, pauseFrame ((at_ 9 { ports := [(31, { enabled := true, subs := [(3, { up := true, xoff := [(8, 2)] })] })], regs := { rw := [(addrOf (pageOf tPort 31) 0x44, 0x20000)] } }).dev.ctrlMac (portDie 31)) 8 0xFFFF,
      by and_intros <;> (try with_reducible rfl) <;> decide +kernel⟩,
   ⟨at_ 9 { ports := [(31, { enabled := true, subs := [(3, { up := true, xoff := [(8, 2)] })] })], regs := { rw := [(addrOf (pageOf tPort 31) 0x44, 0x10000)] } },
      31, 3, 8, 2, pauseFrame ((at_ 9 { ports := [(31, { enabled := true, subs := [(3, { up := true, xoff := [(8, 2)] })] })], regs := { rw := [(addrOf (pageOf tPort 31) 0x44, 0x10000)] } }).dev.ctrlMac (portDie 31)) 8 0xFFFF,
      by and_intros <;> (try with_reducible rfl) <;> decide +kernel⟩⟩

/-- The premises of AddressesAnswered can be met. -/
theorem witness_AddressesAnswered :
    (∃ s : State, ∃ port : Nat, ∃ sub : Nat, ∃ f : Bytes, ∃ lf : LaneFrame, ∃ r, s.dev.canonical = true ∧ isHost port = false ∧
      s.laneHead (portDie port) = some lf ∧ lf.port = port ∧ lf.sub = sub ∧ lf.frame = f ∧ lf.kind = .arp ∧
      r = padded (arpReply (s.dev.ctrlMac (portDie port)) (s.dev.ctrlIp4 (portDie port)) f lf.off)) ∧
    (∃ s : State, ∃ port : Nat, ∃ sub : Nat, ∃ f : Bytes, ∃ lf : LaneFrame, ∃ r, s.dev.canonical = true ∧ isHost port = false ∧
      s.laneHead (portDie port) = some lf ∧ lf.port = port ∧ lf.sub = sub ∧ lf.frame = f ∧ lf.kind = .solicit ∧
      r = padded (neighbourReply (s.dev.ctrlMac (portDie port)) (s.dev.ctrlIp6 (portDie port)) f lf.off)) ∧
    (∃ s : State, ∃ port : Nat, ∃ sub : Nat, ∃ f : Bytes, ∃ lf : LaneFrame, ∃ r, s.dev.canonical = true ∧ isHost port = true ∧ s.hostOn port = true ∧
      s.hears port sub f = true ∧ fcsGood f = true ∧ 64 ≤ f.length ∧ f.length ≤ s.maxFrame port ∧ s.laneFrame? port sub f = some lf ∧
      lf.kind = .arp ∧ r = padded (arpReply (s.dev.ctrlMac (portDie port)) (s.dev.ctrlIp4 (portDie port)) f lf.off)) ∧
    (∃ s : State, ∃ port : Nat, ∃ sub : Nat, ∃ f : Bytes, ∃ lf : LaneFrame, ∃ r, s.dev.canonical = true ∧ isHost port = true ∧ s.hostOn port = true ∧
      s.hears port sub f = true ∧ fcsGood f = true ∧ 64 ≤ f.length ∧ f.length ≤ s.maxFrame port ∧ s.laneFrame? port sub f = some lf ∧
      lf.kind = .solicit ∧ r = padded (neighbourReply (s.dev.ctrlMac (portDie port)) (s.dev.ctrlIp6 (portDie port)) f lf.off)) ∧
    (∃ s : State, ∃ port : Nat, ∃ sub : Nat, ∃ f : Bytes, s.dev.canonical = true ∧ sub < 4 ∧ s.hears port sub f = true ∧ fcsGood f = true ∧
      64 ≤ f.length ∧ f.length ≤ s.maxFrame port ∧ ((isPeer port = true ∧ s.start.takesPeer port f = false) ∨ (isHost port = true ∧
      s.laneFrame? port sub f = none ∧
      (s.hostOn port = false ∨ Bytes.be f (skipTags f 12 4) 2 ≠ 0x8808 ∨ Bytes.be f (skipTags f 12 4 + 2) 2 ≠ 1)))) ∧
    (∃ s : State, ∃ port : Nat, ∃ sub : Nat, ∃ f : Bytes, s.dev.canonical = true ∧ sub < 4 ∧ s.hears port sub f = true ∧ fcsGood f = true ∧
      64 ≤ f.length ∧ f.length ≤ s.maxFrame port ∧ ((isPeer port = true ∧ s.start.takesPeer port f = false) ∨ (isHost port = true ∧
      s.laneFrame? port sub f = none ∧
      (s.hostOn port = false ∨ Bytes.be f (skipTags f 12 4) 2 ≠ 0x8808 ∨ Bytes.be f (skipTags f 12 4 + 2) 2 ≠ 1)))) :=
  ⟨⟨at_ 9 (withLane .arp (withFcs arpAsk) {}), 0, 0, withFcs arpAsk, laneOf .arp (withFcs arpAsk),
      padded (arpReply ((at_ 9 (withLane .arp (withFcs arpAsk) {})).dev.ctrlMac 0) ((at_ 9 (withLane .arp (withFcs arpAsk) {})).dev.ctrlIp4 0) (withFcs arpAsk) 14),
      by and_intros <;> (try exact canonCtrl (by decide +kernel) (by decide +kernel)) <;> (try decide +kernel) <;> exact rfl⟩,
   ⟨at_ 9 (withLane .solicit (withFcs neighbourAsk) {}), 0, 0, withFcs neighbourAsk, laneOf .solicit (withFcs neighbourAsk),
      padded (neighbourReply ((at_ 9 (withLane .solicit (withFcs neighbourAsk) {})).dev.ctrlMac 0) ((at_ 9 (withLane .solicit (withFcs neighbourAsk) {})).dev.ctrlIp6 0) (withFcs neighbourAsk) 14),
      by and_intros <;> (try exact canonCtrl (by decide +kernel) (by decide +kernel)) <;> (try decide +kernel) <;> exact rfl⟩,
   ⟨at_ 9 hostDev, 64, 0, withFcs arpAsk, { port := 64, sub := 0, ply := 9, frame := withFcs arpAsk, kind := .arp, off := 14 },
      padded (arpReply ((at_ 9 hostDev).dev.ctrlMac (portDie 64)) ((at_ 9 hostDev).dev.ctrlIp4 (portDie 64)) (withFcs arpAsk) 14),
      by and_intros <;> (try exact canonCtrl (by decide +kernel) (by decide +kernel)) <;> (try decide +kernel) <;> exact rfl⟩,
   ⟨at_ 9 hostDev, 64, 0, withFcs neighbourAsk, { port := 64, sub := 0, ply := 9, frame := withFcs neighbourAsk, kind := .solicit, off := 14 },
      padded (neighbourReply ((at_ 9 hostDev).dev.ctrlMac (portDie 64)) ((at_ 9 hostDev).dev.ctrlIp6 (portDie 64)) (withFcs neighbourAsk) 14),
      by and_intros <;> (try exact canonCtrl (by decide +kernel) (by decide +kernel)) <;> (try decide +kernel) <;> exact rfl⟩,
   ⟨at_ 9 { ports := upPort 47, regs := { rw := ctrlRegs } }, 47, 3, withFcs (zeros 60),
      by and_intros <;> (try exact canonCtrl (by decide +kernel) (by decide +kernel)) <;> (try exact .inl (by decide +kernel)) <;> decide +kernel⟩,
   ⟨at_ 9 hostDev, 64, 3, withFcs (zeros 60),
      by and_intros <;> (try exact canonCtrl (by decide +kernel) (by decide +kernel)) <;> (try exact .inr (by decide +kernel)) <;> decide +kernel⟩⟩

/-- The premises of SetupOpensSessions can be met. -/
theorem witness_SetupOpensSessions :
    (∃ s : State, ∃ u : State, ∃ port : Nat, ∃ sub : Nat, ∃ nor : Nat, ∃ f : Bytes, ∃ r : Route, ∃ h : SelidHead, ∃ ply : Nat,
      s.takeSelid port sub f = (u, some (r, h, ply)) ∧ h.kind = 0 ∧ h.fragIndex = 0 ∧ h.fragLast = 0 ∧ u.dev.helloBad u.now h.payload = none ∧
      (u.sign nor).2.isSome = true) ∧
    (∃ s : State, ∃ u : State, ∃ port : Nat, ∃ sub : Nat, ∃ f : Bytes, ∃ r : Route, ∃ h : SelidHead, ∃ ply : Nat, ∃ x, s.takeSelid port sub f = (u,
      some (r, h, ply)) ∧ h.kind = 2 ∧ h.fragIndex = 0 ∧ h.fragLast = 0 ∧ (u.dev.selid.halfOpen.find? fun y => decide (y.num = h.session)) = some x ∧
      u.dev.acceptBad u.now (decide (u.start.sec.nvm.lifecycle ≠ 0)) (some x) h.payload = none ∧
      ((u.start.sec.nvm.lifecycle ≠ 0 ∨ u.dev.sec.nvm.lifecycle = 0))) ∧
    (∃ s : State, ∃ u : State, ∃ port : Nat, ∃ sub : Nat, ∃ f : Bytes, ∃ r : Route, ∃ h : SelidHead, ∃ ply : Nat, s.takeSelid port sub f = (u,
      some (r, h, ply)) ∧ ((h.kind = 0 ∨ h.kind = 2)) ∧ 0 < h.fragLast ∧ h.fragIndex ≤ h.fragLast ∧
      ((u.dev.selid.fragsOf s.now r h).keep s.now h).complete = false) :=
  ⟨⟨at_ 9 (inLane (selidFrame 0 0 0 0 0 helloBody) { startUp := { ready := true }, sec := { entropyOk := true } }),
      ((at_ 9 (inLane (selidFrame 0 0 0 0 0 helloBody) { startUp := { ready := true }, sec := { entropyOk := true } })).takeSelid 0 0 (selidFrame 0 0 0 0 0 helloBody)).1,
      0, 0, 0, selidFrame 0 0 0 0 0 helloBody,
      (((at_ 9 (inLane (selidFrame 0 0 0 0 0 helloBody) { startUp := { ready := true }, sec := { entropyOk := true } })).takeSelid 0 0 (selidFrame 0 0 0 0 0 helloBody)).2.get (by decide +kernel)).1,
      (((at_ 9 (inLane (selidFrame 0 0 0 0 0 helloBody) { startUp := { ready := true }, sec := { entropyOk := true } })).takeSelid 0 0 (selidFrame 0 0 0 0 0 helloBody)).2.get (by decide +kernel)).2.1,
      (((at_ 9 (inLane (selidFrame 0 0 0 0 0 helloBody) { startUp := { ready := true }, sec := { entropyOk := true } })).takeSelid 0 0 (selidFrame 0 0 0 0 0 helloBody)).2.get (by decide +kernel)).2.2,
      by and_intros <;> (try exact takes (by decide +kernel)) <;> decide +kernel⟩,
   ⟨at_ 9 (inLane (selidFrame 2 1 0 0 0 acceptBody) { selid := { halfOpen := [{ num := 1, hello := helloBody, offer := zeros 64 }] } }),
      ((at_ 9 (inLane (selidFrame 2 1 0 0 0 acceptBody) { selid := { halfOpen := [{ num := 1, hello := helloBody, offer := zeros 64 }] } })).takeSelid 0 0 (selidFrame 2 1 0 0 0 acceptBody)).1,
      0, 0, selidFrame 2 1 0 0 0 acceptBody,
      (((at_ 9 (inLane (selidFrame 2 1 0 0 0 acceptBody) { selid := { halfOpen := [{ num := 1, hello := helloBody, offer := zeros 64 }] } })).takeSelid 0 0 (selidFrame 2 1 0 0 0 acceptBody)).2.get (by decide +kernel)).1,
      (((at_ 9 (inLane (selidFrame 2 1 0 0 0 acceptBody) { selid := { halfOpen := [{ num := 1, hello := helloBody, offer := zeros 64 }] } })).takeSelid 0 0 (selidFrame 2 1 0 0 0 acceptBody)).2.get (by decide +kernel)).2.1,
      (((at_ 9 (inLane (selidFrame 2 1 0 0 0 acceptBody) { selid := { halfOpen := [{ num := 1, hello := helloBody, offer := zeros 64 }] } })).takeSelid 0 0 (selidFrame 2 1 0 0 0 acceptBody)).2.get (by decide +kernel)).2.2,
      { num := 1, hello := helloBody, offer := zeros 64 }, by and_intros <;> (try exact takes (by decide +kernel)) <;> decide +kernel⟩,
   ⟨at_ 9 (inLane (selidFrame 2 1 1 1 0 (zeros 40)) {}),
      ((at_ 9 (inLane (selidFrame 2 1 1 1 0 (zeros 40)) {})).takeSelid 0 0 (selidFrame 2 1 1 1 0 (zeros 40))).1, 0, 0,
      selidFrame 2 1 1 1 0 (zeros 40),
      (((at_ 9 (inLane (selidFrame 2 1 1 1 0 (zeros 40)) {})).takeSelid 0 0 (selidFrame 2 1 1 1 0 (zeros 40))).2.get (by decide +kernel)).1,
      (((at_ 9 (inLane (selidFrame 2 1 1 1 0 (zeros 40)) {})).takeSelid 0 0 (selidFrame 2 1 1 1 0 (zeros 40))).2.get (by decide +kernel)).2.1,
      (((at_ 9 (inLane (selidFrame 2 1 1 1 0 (zeros 40)) {})).takeSelid 0 0 (selidFrame 2 1 1 1 0 (zeros 40))).2.get (by decide +kernel)).2.2,
      by and_intros <;> (try exact takes (by decide +kernel)) <;> decide +kernel⟩⟩

/-- The premises of ProtectedFramesCarryCommands can be met. -/
theorem witness_ProtectedFramesCarryCommands :
    ∃ s : State, ∃ u : State, ∃ port : Nat, ∃ sub : Nat, ∃ f : Bytes, ∃ r : Route, ∃ h : SelidHead, ∃ ply : Nat, ∃ x : Session,
      u.dev.canonical = true ∧ s.takeSelid port sub f = (u, some (r, h, ply)) ∧ h.kind = 3 ∧ h.fragIndex = 0 ∧ h.fragLast = 0 ∧
      u.session? h.session = some x :=
  ⟨at_ 9 (inLane (selidFrame 3 1 0 0 1 ([1, 0, 7, 0, 2, 0, 0, 0, 0, 0, 0, 0, 0xAA, 0xBB] ++
      zeros 16)) { selid := { sessions := [{ num := 1, source := { hostMac := hostMac } }] } }), ((at_ 9 (inLane (selidFrame 3 1 0 0 1 ([1, 0, 7, 0,
      2, 0, 0, 0, 0, 0, 0, 0, 0xAA, 0xBB] ++
      zeros 16)) { selid := { sessions := [{ num := 1, source := { hostMac := hostMac } }] } })).takeSelid 0 0 (selidFrame 3 1 0 0 1 ([1, 0, 7, 0, 2,
      0, 0, 0, 0, 0, 0, 0, 0xAA, 0xBB] ++ zeros 16))).1, 0, 0, selidFrame 3 1 0 0 1 ([1, 0, 7, 0, 2, 0, 0, 0, 0, 0, 0, 0, 0xAA, 0xBB] ++ zeros 16),
      (((at_ 9 (inLane (selidFrame 3 1 0 0 1 ([1, 0, 7, 0, 2, 0, 0, 0, 0, 0, 0, 0, 0xAA, 0xBB] ++
      zeros 16)) { selid := { sessions := [{ num := 1, source := { hostMac := hostMac } }] } })).takeSelid 0 0 (selidFrame 3 1 0 0 1 ([1, 0, 7, 0, 2,
      0, 0, 0, 0, 0, 0, 0, 0xAA, 0xBB] ++ zeros 16))).2.get (by decide +kernel)).1, (((at_ 9 (inLane (selidFrame 3 1 0 0 1 ([1, 0, 7, 0, 2, 0, 0, 0,
      0, 0, 0, 0, 0xAA, 0xBB] ++
      zeros 16)) { selid := { sessions := [{ num := 1, source := { hostMac := hostMac } }] } })).takeSelid 0 0 (selidFrame 3 1 0 0 1 ([1, 0, 7, 0, 2,
      0, 0, 0, 0, 0, 0, 0, 0xAA, 0xBB] ++ zeros 16))).2.get (by decide +kernel)).2.1, (((at_ 9 (inLane (selidFrame 3 1 0 0 1 ([1, 0, 7, 0, 2, 0, 0,
      0, 0, 0, 0, 0, 0xAA, 0xBB] ++
      zeros 16)) { selid := { sessions := [{ num := 1, source := { hostMac := hostMac } }] } })).takeSelid 0 0 (selidFrame 3 1 0 0 1 ([1, 0, 7, 0, 2,
      0, 0, 0, 0, 0, 0, 0, 0xAA, 0xBB] ++ zeros 16))).2.get (by decide +kernel)).2.2, { num := 1, source := { hostMac := hostMac } },
      by and_intros <;> (try exact canonCtrl (by decide +kernel) (by decide +kernel)) <;> (try exact takes (by decide +kernel)) <;> decide +kernel⟩

/-- The premises of SessionsEchoAndEnd can be met. -/
theorem witness_SessionsEchoAndEnd :
    (∃ s : State, ∃ n : Nat, ∃ x : Session, ∃ c : Cmd, s.ready n 0x01 = some (x, c) ∧ c.body.length ≤ 256 ∧ c.body.length ≤ bodyRoom x c.route) ∧
    (∃ s : State, ∃ n : Nat, ∃ x : Session, ∃ c : Cmd, s.ready n 0x02 = some (x, c) ∧ c.body = []) ∧
    (∃ s : State, ∃ n : Nat, ∃ x : Session, s.session? n = some x ∧ x.lastAccept + x.idle * plies1s ≤ s.now) :=
  ⟨⟨at_ 9 (withCmd 0x01 (zeros 256) { ports := upPort 0 }), 1, Tests.sess 0x01 (zeros 256), cmd 0x01 (zeros 256),
      by and_intros <;> (try decide +kernel) <;> exact rfl⟩,
   ⟨at_ 9 (withCmd 0x02 [] { ports := upPort 0 }), 1, Tests.sess 0x02 [], cmd 0x02 [], by decide +kernel⟩,
   ⟨at_ 1562500000 { selid := { sessions := [{ num := 255 }] } }, 255, { num := 255 }, by decide +kernel⟩⟩

/-- The premises of QuenchesAndSinksServe can be met. -/
theorem witness_QuenchesAndSinksServe :
    (∃ s : State, ∃ n : Nat, ∃ q : Nat, ∃ x : Session, ∃ c : Cmd, ∃ pool : Pool, s.ready n 0x60 = some (x, c) ∧ c.body.length = 24 ∧
      Bytes.le c.body 0 4 ≠ 0 ∧ Bytes.le c.body 4 4 = 0 ∧ Bytes.at c.body 8 = 0 ∧ badReserved c.body [(9, 3), (12, 4)] = none ∧
      16 ≤ bodyRoom x c.route ∧ s.ceaseQuenches.dev.selid.qids.take 64 = some (q, pool)) ∧
    (∃ s : State, ∃ n : Nat, ∃ q : Nat, ∃ x : Session, ∃ c : Cmd, ∃ z : Quench, s.ready n 0x61 = some (x, c) ∧ c.body.length = 4 ∧
      Bytes.le c.body 0 4 = q ∧ q < 64 ∧ 8 ≤ bodyRoom x c.route ∧ Table.get? s.ceaseQuenches.dev.selid.quench q = some z) ∧
    (∃ s : State, ∃ q : Nat, ∃ z : Quench, ∃ u : Nat, Table.get? s.dev.selid.quench q = some z ∧ z.until_ = some u ∧ u ≤ s.now) ∧
    (∃ s : State, ∃ n : Nat, ∃ k : Nat, ∃ x : Session, ∃ c : Cmd, s.ready n 0x80 = some (x, c) ∧ c.body = [byte k, 0, 0, 0] ∧ k < 16 ∧
      4 ≤ bodyRoom x c.route ∧ ((∀ y ∈ s.dev.sinkSet k, y.sess ≠ n)) ∧ (s.dev.sinkSet k).length < 4) ∧
    (∃ s : State, ∃ n : Nat, ∃ k : Nat, ∃ x : Session, ∃ c : Cmd, s.ready n 0x81 = some (x, c) ∧ c.body = [byte k, 0, 0, 0] ∧ k < 16 ∧
      4 ≤ bodyRoom x c.route) ∧
    (∃ s : State, ∃ n : Nat, ∃ k : Nat, ∃ x : Session, ∃ z : Sink, ∃ first : Nat, ∃ more : List Nat,
      (s.dev.sinkSet k).find? (fun y => decide (y.sess = n)) = some z ∧ s.session? n = some x ∧ z.nums = first :: more ∧
      0 < (bodyRoom x x.latest - 8) / 32 ∧ x.seqTx < 2 ^ 64) :=
  ⟨⟨at_ 9 (withCmd 0x60 ([1] ++ zeros 15 ++ [5] ++ zeros 7) {}), 1, 0, Tests.sess 0x60 ([1] ++ zeros 15 ++ [5] ++ zeros 7), cmd 0x60 ([1] ++
      zeros 15 ++ [5] ++ zeros 7), { fresh := 1 }, by decide +kernel⟩,
   ⟨at_ 9 (withCmd 0x61 [63, 0, 0, 0] { selid := { quench := [(63, {})], qids := { fresh := 64 } } }), 1, 63, Tests.sess 0x61 [63, 0, 0, 0],
      cmd 0x61 [63, 0, 0, 0], ({} : Quench), by decide +kernel⟩,
   ⟨at_ 9 { selid := { quench := [(63, { until_ := some 9 })], qids := { fresh := 64 } } }, 63, { until_ := some 9 }, 9, by decide +kernel⟩,
   ⟨at_ 9 (withCmd 0x80 [15, 0, 0, 0] { selid := { sinks := [(15, [{ sess := 2 }, { sess := 3 }, { sess := 4 }])] } }), 1, 15, Tests.sess 0x80 [15, 0,
      0, 0], cmd 0x80 [15, 0, 0, 0], by decide +kernel⟩,
   ⟨at_ 9 (withCmd 0x81 [15, 0, 0, 0] { selid := { sinks := [(15, [{ sess := 2 }, { sess := 1 }])] } }), 1, 15, Tests.sess 0x81 [15, 0, 0, 0],
      cmd 0x81 [15, 0, 0, 0], by decide +kernel⟩,
   ⟨at_ 9 { ports := upPort 0, selid := { sessions := [{ num := 1 }], sinks := [(15, [{ sess := 1, queue := [{}, { page := 3 }], nums := [4, 6], next := 7 }])] } },
      1, 15, { num := 1 }, { sess := 1, queue := [{}, { page := 3 }], nums := [4, 6], next := 7 }, 4, [6], by decide +kernel⟩⟩

/-- The premises of PageWritesLand can be met. -/
theorem witness_PageWritesLand :
    (∃ s : State, ∃ n : Nat, ∃ w : BatchWrite, s.writeNext n w ∧ s.dev.writeRow w = .register) ∧
    (∃ s : State, ∃ n : Nat, ∃ w : BatchWrite, s.writeNext n w ∧ s.dev.writeRow w = .deepEn) ∧
    (∃ s : State, ∃ n : Nat, ∃ w : BatchWrite, s.writeNext n w ∧ s.dev.writeRow w = .learnAgent) ∧
    (∃ s : State, ∃ n : Nat, ∃ w : BatchWrite, s.writeNext n w ∧ s.dev.writeRow w = .eventClear) ∧
    (∃ s : State, ∃ n : Nat, ∃ w : BatchWrite, s.writeNext n w ∧ s.dev.writeRow w = .eventMask) ∧
    (∃ s : State, ∃ n : Nat, ∃ w : BatchWrite, s.writeNext n w ∧ s.dev.writeRow w = .eventForce) ∧
    (∃ s : State, ∃ n : Nat, ∃ w : BatchWrite, s.writeNext n w ∧ s.dev.writeRow w = .lock) ∧
    (∃ s : State, ∃ n : Nat, ∃ w : BatchWrite, ∃ x : Session, ∃ rest : List BatchWrite, s.writeNext n w ∧ s.session? n = some x ∧
      x.writes = w :: rest ∧ rest ≠ []) ∧
    (∃ s : State, ∃ n : Nat, ∃ w : BatchWrite, s.dev.canonical = true ∧ s.writeLands n w ∧ s.dev.writeRow w = .register) ∧
    (∃ s : State, ∃ n : Nat, ∃ w : BatchWrite, s.dev.canonical = true ∧ s.writeLands n w ∧ w.addr = addrOf pgDeep 0x40) ∧
    (∃ s : State, ∃ n : Nat, ∃ w : BatchWrite, s.dev.canonical = true ∧ s.writeLands n w ∧ w.addr = addrOf pgFlowCtl 0x54) ∧
    (∃ s : State, ∃ n : Nat, ∃ w : BatchWrite, s.dev.canonical = true ∧ s.writeLands n w ∧ w.seals = false ∧ w.addr % 65536 = 0x0C) ∧
    (∃ s : State, ∃ n : Nat, ∃ w : BatchWrite, s.dev.canonical = true ∧ s.writeLands n w ∧ w.seals = false ∧ w.addr % 65536 = 0x10) ∧
    (∃ s : State, ∃ n : Nat, ∃ w : BatchWrite, s.dev.canonical = true ∧ s.writeLands n w ∧ w.seals = false ∧ w.addr % 65536 = 0x14) ∧
    (∃ s : State, ∃ n : Nat, ∃ w : BatchWrite, s.dev.canonical = true ∧ s.headWrite n = some w ∧ w.addr % 65536 = 0x1C ∧ w.addr % 4 = 0 ∧
      (pageKind (w.addr / 65536)).isSome = true ∧ (s.hdr (w.addr / 65536)).writePly ≠ some s.now ∧ s.siteResetNow (w.addr / 65536) = false ∧
      s.clearedNow (w.addr / 65536) = false ∧ s.dev.reliab.stopped ≠ 255 ∧ s.batchWaits n = false) ∧
    (∃ s : State, ∃ n : Nat, ∃ w : BatchWrite, s.dev.canonical = true ∧ s.headWrite n = some w ∧ w.addr % 65536 = 0x1C ∧ w.addr % 4 = 0 ∧
      (pageKind (w.addr / 65536)).isSome = true ∧ (s.hdr (w.addr / 65536)).writePly ≠ some s.now ∧ s.siteResetNow (w.addr / 65536) = false ∧
      s.clearedNow (w.addr / 65536) = false ∧ s.dev.reliab.stopped ≠ 255 ∧ s.batchWaits n = false) ∧
    (∃ s : State, ∃ page : Nat, s.dev.canonical = true ∧ (s.start.hdr page).forced ≠ 0 ∧ (s.start.hdr page).forcePly + 1 = s.now ∧
      (s.dev.hdr page).forceDone ≠ some s.now ∧ s.clearedNow page = false) :=
  ⟨⟨at_ 9 (withWrite (addrOf pgGlobal 0x48) 5 {}), 1, { addr := addrOf pgGlobal 0x48, value := 5 }, by decide +kernel⟩,
   ⟨at_ 9 (withWrite (addrOf pgDeep 0x40) 1 {}), 1, { addr := addrOf pgDeep 0x40, value := 1 }, by decide +kernel⟩,
   ⟨at_ 9 (withWrite (addrOf pgFlowCtl 0x54) 1 {}), 1, { addr := addrOf pgFlowCtl 0x54, value := 1 }, by decide +kernel⟩,
   ⟨at_ 9 (withWrite (addrOf pgGlobal 0x0C) 1 {}), 1, { addr := addrOf pgGlobal 0x0C, value := 1 }, by decide +kernel⟩,
   ⟨at_ 9 (withWrite (addrOf pgGlobal 0x10) 1 {}), 1, { addr := addrOf pgGlobal 0x10, value := 1 }, by decide +kernel⟩,
   ⟨at_ 9 (withWrite (addrOf pgGlobal 0x14) 1 {}), 1, { addr := addrOf pgGlobal 0x14, value := 1 }, by decide +kernel⟩,
   ⟨at_ 9 (withWrite (addrOf pgGlobal 0x1C) 1 {}), 1, { addr := addrOf pgGlobal 0x1C, value := 1 }, by decide +kernel⟩,
   ⟨at_ 9 { ports := upPort 0, selid := { sessions := [{ num := 1, writes := [{ addr := addrOf pgGlobal 0x0C, value := 1 }, { addr := 4 }] }] } }, 1,
      { addr := addrOf pgGlobal 0x0C, value := 1 },
      ({ num := 1, writes := [{ addr := addrOf pgGlobal 0x0C, value := 1 }, { addr := 4 }] } : Session), ([{ addr := 4 }] : List BatchWrite),
      by decide +kernel⟩,
   ⟨at_ 9 (withWrite (addrOf pgGlobal 0x58) 0xFFFFFFFF {}), 1, { addr := addrOf pgGlobal 0x58, value := 0xFFFFFFFF }, by decide +kernel⟩,
   ⟨at_ 9 (withWrite (addrOf pgDeep 0x40) 1 {}), 1, { addr := addrOf pgDeep 0x40, value := 1 }, by decide +kernel⟩,
   ⟨at_ 9 (withWrite (addrOf pgFlowCtl 0x54) 3 {}), 1, { addr := addrOf pgFlowCtl 0x54, value := 3 }, by decide +kernel⟩,
   ⟨at_ 9 (withWrite (addrOf pgGlobal 0x0C) 3 { regs := { hdr := [(pgGlobal, { event := 7, setPly := 9, setBits := 2 })] } }), 1,
      { addr := addrOf pgGlobal 0x0C, value := 3 }, by decide +kernel⟩,
   ⟨at_ 9 (withWrite (addrOf pgGlobal 0x10) 3 {}), 1, { addr := addrOf pgGlobal 0x10, value := 3 }, by decide +kernel⟩,
   ⟨at_ 9 (withWrite (addrOf pgGlobal 0x14) 0xFFFFFFFF {}), 1, { addr := addrOf pgGlobal 0x14, value := 0xFFFFFFFF }, by decide +kernel⟩,
   ⟨at_ 9 (withWrite (addrOf pgGlobal 0x1C) 1 {}), 1, { addr := addrOf pgGlobal 0x1C, value := 1 }, by decide +kernel⟩,
   ⟨at_ 9 { selid := { orphans := [(1, [({ addr := addrOf pgGlobal 0x1C, value := 1 })])] } }, 1, { addr := addrOf pgGlobal 0x1C, value := 1 },
      by decide +kernel⟩,
   ⟨at_ 9 { regs := { hdr := [(pgGlobal, { forced := 5, forcePly := 8, event := 2 })] } }, pgGlobal, by decide +kernel⟩⟩

/-- The premises of ControlWritesLand can be met. -/
theorem witness_ControlWritesLand :
    (∃ s : State, ∃ n : Nat, ∃ w : BatchWrite, s.writeNext n w ∧ s.dev.writeRow w = .portEnable) ∧
    (∃ s : State, ∃ n : Nat, ∃ w : BatchWrite, s.writeNext n w ∧ s.dev.writeRow w = .portDisable) ∧
    (∃ s : State, ∃ n : Nat, ∃ w : BatchWrite, s.writeNext n w ∧ s.dev.writeRow w = .counterClear) ∧
    (∃ s : State, ∃ n : Nat, ∃ w : BatchWrite, s.writeNext n w ∧ s.dev.writeRow w = .readmit) ∧
    (∃ s : State, ∃ n : Nat, ∃ w : BatchWrite, s.writeNext n w ∧ s.dev.writeRow w = .resync) ∧
    (∃ s : State, ∃ n : Nat, ∃ w : BatchWrite, s.writeNext n w ∧ s.dev.writeRow w = .castle) ∧
    (∃ s : State, ∃ n : Nat, ∃ w : BatchWrite, s.writeNext n w ∧ s.dev.writeRow w = .deviceReset) ∧
    (∃ s : State, ∃ n : Nat, ∃ w : BatchWrite, s.writeNext n w ∧ s.dev.writeRow w = .controlReset) ∧
    (∃ s : State, ∃ n : Nat, ∃ p : Nat, ∃ i : Nat, ∃ k : Nat, ∃ w : BatchWrite, s.dev.canonical = true ∧ s.writeLands n w ∧ p < 66 ∧ i < 4 ∧ k < 16 ∧
      w.addr = addrOf (pageOf tPort p) 0x18 ∧ (s.dev.hdr (pageOf tPort p)).control.getLsbD 1 = false ∧ w.value.getLsbD 1 = true) ∧
    (∃ s : State, ∃ n : Nat, ∃ p : Nat, ∃ i : Nat, ∃ k : Nat, ∃ w : BatchWrite, s.dev.canonical = true ∧ s.writeLands n w ∧ p < 66 ∧ i < 4 ∧ k < 16 ∧
      w.addr = addrOf (pageOf tPort p) 0x18 ∧ (s.dev.hdr (pageOf tPort p)).control.getLsbD 1 = true ∧ w.value.getLsbD 1 = false) ∧
    (∃ s : State, ∃ n : Nat, ∃ p : Nat, ∃ i : Nat, ∃ k : Nat, ∃ w : BatchWrite, s.dev.canonical = true ∧ s.writeLands n w ∧ p < 66 ∧ i < 4 ∧ k < 16 ∧
      w.addr = addrOf (pageOf tPort p) 0x58 ∧ bit w.value.toNat i = true) ∧
    (∃ s : State, ∃ n : Nat, ∃ p : Nat, ∃ i : Nat, ∃ k : Nat, ∃ w : BatchWrite, s.dev.canonical = true ∧ s.writeLands n w ∧ p < 66 ∧ i < 4 ∧ k < 16 ∧
      w.addr = addrOf (pageOf tPort p) 0x50 ∧ bit w.value.toNat (16 + i) = true) ∧
    (∃ s : State, ∃ n : Nat, ∃ w : BatchWrite, s.dev.canonical = true ∧ s.writeLands n w ∧ w.addr = addrOf pgPair 0x44 ∧ w.value = 2 ∧
      s.start.pair.mirrors = true) ∧
    (∃ s : State, ∃ n : Nat, ∃ w : BatchWrite, s.dev.canonical = true ∧ s.writeLands n w ∧ w.addr = addrOf pgPair 0x44 ∧ w.value = 1) ∧
    (∃ s : State, ∃ n : Nat, ∃ w : BatchWrite, s.dev.canonical = true ∧ s.writeLands n w ∧ w.addr = addrOf pgReset 0x44 ∧ w.value = 0x4B520001) ∧
    (∃ s : State, ∃ n : Nat, ∃ w : BatchWrite, s.dev.canonical = true ∧ s.writeLands n w ∧ w.addr = addrOf pgReset 0x44 ∧ w.value = 0x4B520002) :=
  ⟨⟨at_ 9 (withWrite (addrOf (pageOf tPort 31) 0x18) 2 {}), 1, { addr := addrOf (pageOf tPort 31) 0x18, value := 2 }, by decide +kernel⟩,
   ⟨at_ 9 (withWrite (addrOf (pageOf tPort 0) 0x18) 0 { ports := upPort 0, regs := { hdr := [(pageOf tPort 0, { control := 2 })] } }), 1,
      { addr := addrOf (pageOf tPort 0) 0x18, value := 0 }, by decide +kernel⟩,
   ⟨at_ 9 (withWrite (addrOf (pageOf tPort 65) 0x58) 8 {}), 1, { addr := addrOf (pageOf tPort 65) 0x58, value := 8 }, by decide +kernel⟩,
   ⟨at_ 9 (withWrite (addrOf (pageOf tPort 65) 0x50) 0x80000 {}), 1, { addr := addrOf (pageOf tPort 65) 0x50, value := 0x80000 }, by decide +kernel⟩,
   ⟨at_ 9 (withWrite (addrOf pgPair 0x44) 2 {}), 1, { addr := addrOf pgPair 0x44, value := 2 }, by decide +kernel⟩,
   ⟨at_ 9 (withWrite (addrOf pgPair 0x44) 1 {}), 1, { addr := addrOf pgPair 0x44, value := 1 }, by decide +kernel⟩,
   ⟨at_ 9 (withWrite (addrOf pgReset 0x44) 0x4B520001 {}), 1, { addr := addrOf pgReset 0x44, value := 0x4B520001 }, by decide +kernel⟩,
   ⟨at_ 9 (withWrite (addrOf pgReset 0x44) 0x4B520002 {}), 1, { addr := addrOf pgReset 0x44, value := 0x4B520002 }, by decide +kernel⟩,
   ⟨at_ 9 (withWrite (addrOf (pageOf tPort 31) 0x18) 2 {}), 1, 31, 3, 9, { addr := addrOf (pageOf tPort 31) 0x18, value := 2 }, by decide +kernel⟩,
   ⟨at_ 9 (withWrite (addrOf (pageOf tPort 0) 0x18) 0 { ports := upPort 0, regs := { hdr := [(pageOf tPort 0, { control := 2 })] } }), 1, 0, 0, 0,
      { addr := addrOf (pageOf tPort 0) 0x18, value := 0 }, by decide +kernel⟩,
   ⟨at_ 9 (withWrite (addrOf (pageOf tPort 65) 0x58) 8 { regs := { ctr := [(addrOf (pageOf tPort 65) (0x100 + 0x80 * 3 + 8 * 15), 6)] } }), 1, 65, 3,
      15, { addr := addrOf (pageOf tPort 65) 0x58, value := 8 }, by decide +kernel⟩,
   ⟨at_ 9 (withWrite (addrOf (pageOf tPort 65) 0x50) 0x80000 { ports := [(65, { lanes := [(3, { failed := true })] })] }), 1, 65, 3, 0,
      { addr := addrOf (pageOf tPort 65) 0x50, value := 0x80000 }, by decide +kernel⟩,
   ⟨at_ 9 (withWrite (addrOf pgPair 0x44) 2 { pair := { role := .primary, id := 5, key := [1], synced := true } }), 1,
      { addr := addrOf pgPair 0x44, value := 2 }, by decide +kernel⟩,
   ⟨at_ 9 (withWrite (addrOf pgPair 0x44) 1 { pair := { role := .primary, id := 5, key := [1], synced := true } }), 1,
      { addr := addrOf pgPair 0x44, value := 1 }, by decide +kernel⟩,
   ⟨at_ 9 (withWrite (addrOf pgReset 0x44) 0x4B520001 {}), 1, { addr := addrOf pgReset 0x44, value := 0x4B520001 }, by decide +kernel⟩,
   ⟨at_ 9 (withWrite (addrOf pgReset 0x44) 0x4B520002 {}), 1, { addr := addrOf pgReset 0x44, value := 0x4B520002 }, by decide +kernel⟩⟩

/-- The premises of BatchesAnswer can be met. -/
theorem witness_BatchesAnswer :
    (∃ s : State, ∃ n : Nat, ∃ x : Session, ∃ c : Cmd, ∃ a, s.ready n 0x10 = some (x, c) ∧ c.body = toLE 2 1 ++ [0, 0] ++ toLE 4 a ∧ a < 2 ^ 32 ∧
      12 ≤ bodyRoom x c.route) ∧
    (∃ s : State, ∃ n : Nat, ∃ x : Session, ∃ c : Cmd, ∃ a, s.ready n 0x11 = some (x, c) ∧ c.body = toLE 4 a ++ toLE 2 1 ++ [0, 0] ∧ a < 2 ^ 32 ∧
      a % 4 = 0 ∧ 4 ≤ bodyRoom x c.route ∧ (pageKind (a / 65536)).isSome = true) ∧
    (∃ s : State, ∃ n : Nat, ∃ x : Session, ∃ c : Cmd, s.ready n 0x12 = some (x, c) ∧ 0 < Bytes.le c.body 0 2 ∧ Bytes.le c.body 0 2 ≤ 512 ∧
      Bytes.le c.body 2 2 = 0 ∧ c.body.length = 4 + 8 * Bytes.le c.body 0 2 ∧ writeBody (Bytes.le c.body 0 2) ≤ bodyRoom x c.route) :=
  ⟨⟨at_ 9 (withCmd 0x10 (toLE 2 1 ++ [0, 0] ++ toLE 4 (addrOf pgDeep 0x40)) { ports := upPort 0 }), 1, Tests.sess 0x10 (toLE 2 1 ++ [0, 0] ++
      toLE 4 (addrOf pgDeep 0x40)), cmd 0x10 (toLE 2 1 ++ [0, 0] ++ toLE 4 (addrOf pgDeep 0x40)), addrOf pgDeep 0x40, by decide +kernel⟩,
   ⟨at_ 9 (withCmd 0x11 (toLE 4 (addrOf pgDeep 0x40) ++ toLE 2 1 ++ [0, 0]) { ports := upPort 0 }), 1, Tests.sess 0x11 (toLE 4 (addrOf pgDeep 0x40) ++
      toLE 2 1 ++ [0, 0]), cmd 0x11 (toLE 4 (addrOf pgDeep 0x40) ++ toLE 2 1 ++ [0, 0]), addrOf pgDeep 0x40, by decide +kernel⟩,
   ⟨at_ 9 (withCmd 0x12 (toLE 2 1 ++ [0, 0] ++ toLE 4 (addrOf pgDeep 0x40) ++ toLE 4 77) { ports := upPort 0 }), 1, Tests.sess 0x12 (toLE 2 1 ++ [0,
      0] ++ toLE 4 (addrOf pgDeep 0x40) ++ toLE 4 77), cmd 0x12 (toLE 2 1 ++ [0, 0] ++ toLE 4 (addrOf pgDeep 0x40) ++ toLE 4 77), by decide +kernel⟩⟩

/-- The premises of EventFramesForm can be met. -/
theorem witness_EventFramesForm :
    (∃ s : State, ∃ page : Nat, ∃ k : Sink, s.dev.canonical = true ∧ (s.start.hdr page).control.getLsbD 0 = true ∧
      Table.get? s.dev.selid.sinks ((s.start.hdr page).control.toNat / 2 ^ 28) = some [k] ∧
      s.start.sinkSet ((s.start.hdr page).control.toNat / 2 ^ 28) = [k] ∧ k.queue.length < 1024 ∧ (s.start.hdr page).trigger = some (s.now - 1) ∧
      0 < s.now ∧ (s.dev.hdr page).judged ≠ some s.now ∧ (s.dev.hdr page).lastFrame ≠ some s.now ∧
      (s.start.hdr page).spaced (s.start.hdr page).control s.now = true) ∧
    (∃ s : State, ∃ page : Nat, ∃ k : Sink, s.dev.canonical = true ∧ (s.start.hdr page).control.getLsbD 0 = true ∧
      Table.get? s.dev.selid.sinks ((s.start.hdr page).control.toNat / 2 ^ 28) = some [k] ∧
      s.start.sinkSet ((s.start.hdr page).control.toNat / 2 ^ 28) = [k] ∧ k.queue.length < 1024 ∧ (s.start.hdr page).trigger = some (s.now - 1) ∧
      0 < s.now ∧ (s.dev.hdr page).judged ≠ some s.now ∧ (s.dev.hdr page).lastFrame ≠ some s.now ∧
      (s.start.hdr page).spaced (s.start.hdr page).control s.now = false) ∧
    (∃ s : State, ∃ page : Nat, ∃ k : Sink, s.dev.canonical = true ∧ (s.start.hdr page).control.getLsbD 0 = true ∧
      Table.get? s.dev.selid.sinks ((s.start.hdr page).control.toNat / 2 ^ 28) = some [k] ∧
      s.start.sinkSet ((s.start.hdr page).control.toNat / 2 ^ 28) = [k] ∧ k.queue.length < 1024 ∧ (s.start.hdr page).suppressed = true ∧
      (s.dev.hdr page).suppressed = true ∧ (s.dev.hdr page).judged ≠ some s.now ∧
      (s.start.hdr page).spaced (s.start.hdr page).control s.now = true) :=
  ⟨⟨at_ 9 { regs := { hdr := [(pgGlobal, { control := 0x30000001, trigger := some 8, event := 5, mask := 0 })] }, selid := { sinks := [(3, [{ sess := 1 }])] } },
      pgGlobal, { sess := 1 }, by decide +kernel⟩,
   ⟨at_ 20 { regs := { hdr := [(pgGlobal, { control := 0x31000001, trigger := some 19, lastFrame := some 19, event := 5, mask := 0 })] }, selid := { sinks := [(3, [{ sess := 1 }])] } },
      pgGlobal, { sess := 1 }, by decide +kernel⟩,
   ⟨at_ 90000000 { regs := { hdr := [(pgGlobal, { control := 0x30000001, suppressed := true, lastFrame := some 19, event := 5, mask := 0 })] }, selid := { sinks := [(3, [{ sess := 1 }])] } },
      pgGlobal, { sess := 1 }, by decide +kernel⟩⟩

/-- The premises of RingsMove can be met. -/
theorem witness_RingsMove :
    (∃ s : State, ∃ sess : Nat, ∃ n : Nat, ∃ x : Session, ∃ c : Cmd, ∃ i, ∃ rest, (s.ring n).use ≠ .free ∧ s.ringReady sess 0x40 n x c ∧
      c.body.length = 8 ∧ Bytes.le c.body 6 2 = 0 ∧ 1 ≤ Bytes.le c.body 4 2 ∧ Bytes.le c.body 4 2 ≤ 512 ∧
      8 + 16 * Bytes.le c.body 4 2 ≤ bodyRoom x c.route ∧ (s.ring n).hostProduced = false ∧ s.start.ring n = s.ring n ∧
      (s.ring n).rewindLost = none ∧ (s.ring n).held.map (s.start.itemRead n (s.ring n)) = i :: rest ∧ i.state ≠ .empty ∧
      i.len ≤ Bytes.le c.body 4 2) ∧
    (∃ s : State, ∃ sess : Nat, ∃ n : Nat, ∃ x : Session, ∃ c : Cmd, (s.ring n).use ≠ .free ∧ s.ringReady sess 0x41 n x c ∧ c.body.length = 8 ∧
      Bytes.le c.body 6 2 = 0 ∧ 4 ≤ bodyRoom x c.route ∧ (s.ring n).hostProduced = false) ∧
    (∃ s : State, ∃ sess : Nat, ∃ n : Nat, ∃ x : Session, ∃ c : Cmd, ∃ r, ∃ took, (s.ring n).use ≠ .free ∧ s.ringReady sess 0x42 n x c ∧
      Bytes.le c.body 6 2 = 0 ∧ 1 ≤ Bytes.le c.body 4 2 ∧ Bytes.le c.body 4 2 ≤ 512 ∧ c.body.length = 8 + 16 * Bytes.le c.body 4 2 ∧
      4 ≤ bodyRoom x c.route ∧ (s.ring n).hostProduced = true ∧
      pushWords s.now ((List.range (Bytes.le c.body 4 2)).map fun i => Bytes.slice c.body (8 + 16 * i) 16) 0 (s.ringNow n) = (r, took, none) ∧
      r.use = (s.ring n).use) ∧
    (∃ s : State, ∃ sess : Nat, ∃ n : Nat, ∃ x : Session, ∃ c : Cmd, (s.ring n).use ≠ .free ∧ c.body.length = 4 ∧ s.ringReady sess 0x43 n x c) ∧
    (∃ s : State, ∃ sess : Nat, ∃ n : Nat, ∃ x : Session, ∃ c : Cmd, (s.ring n).use ≠ .free ∧ c.body.length = 4 ∧ s.ringReady sess 0x44 n x c) ∧
    (∃ s : State, ∃ sess : Nat, ∃ n : Nat, ∃ x : Session, ∃ c : Cmd, (s.ring n).use ≠ .free ∧ c.body.length = 4 ∧ (s.ring n).hostProduced = false ∧
      s.ringReady sess 0x45 n x c) ∧
    (∃ s : State, ∃ sess : Nat, ∃ n : Nat, ∃ x : Session, ∃ c : Cmd, (s.ring n).use ≠ .free ∧ c.body.length = 4 ∧ (s.ring n).hostProduced = false ∧
      s.ringReady sess 0x46 n x c) ∧
    (∃ s : State, ∃ t : State, ∃ sess : Nat, ∃ n : Nat, ∃ x : Session, ∃ c : Cmd, (s.ring n).use ≠ .free ∧ (s.ring n).rewindBy = some sess ∧
      t = s.rewindRing n ∧ s.session? sess = some x ∧ x.cmds.find? (fun c => decide (c.opcode = 0x46)) = some c) ∧
    (∃ s : State, ∃ t : State, ∃ sess : Nat, ∃ n : Nat, ∃ x : Session, ∃ c : Cmd, ∃ m : Nat, (s.ring n).use ≠ .free ∧
      (s.ring n).rewindBy = some sess ∧ t = s.rewindRing n ∧ s.session? sess = some x ∧ x.cmds.find? (fun c => decide (c.opcode = 0x46)) = some c ∧
      m ≠ n) ∧
    (∃ s : State, ∃ t : State, ∃ sess : Nat, ∃ n : Nat, ∃ x : Session, ∃ c : Cmd, ∃ h : Nat, (s.ring n).use ≠ .free ∧
      (s.ring n).rewindBy = some sess ∧ t = s.rewindRing n ∧ s.session? sess = some x ∧ x.cmds.find? (fun c => decide (c.opcode = 0x46)) = some c ∧
      (s.ring n).mark = some h ∧ (s.ring n).markLost = false) ∧
    (∃ s : State, ∃ t : State, ∃ sess : Nat, ∃ n : Nat, ∃ x : Session, ∃ c : Cmd, ∃ h : Nat, ∃ i : Item, (s.ring n).use ≠ .free ∧
      (s.ring n).rewindBy = some sess ∧ t = s.rewindRing n ∧ s.session? sess = some x ∧ x.cmds.find? (fun c => decide (c.opcode = 0x46)) = some c ∧
      (s.ring n).mark = some h ∧ (s.ring n).markLost = false ∧ i ∈ (t.ring n).items) ∧
    (∃ s : State, ∃ t : State, ∃ sess : Nat, ∃ n : Nat, ∃ x : Session, ∃ c : Cmd, (s.ring n).use ≠ .free ∧ (s.ring n).rewindBy = some sess ∧
      t = s.rewindRing n ∧ s.session? sess = some x ∧ x.cmds.find? (fun c => decide (c.opcode = 0x46)) = some c ∧ (s.ring n).mark = none) ∧
    (∃ s : State, ∃ t : State, ∃ sess : Nat, ∃ n : Nat, ∃ x : Session, ∃ c : Cmd, (s.ring n).use ≠ .free ∧ (s.ring n).rewindBy = some sess ∧
      t = s.rewindRing n ∧ s.session? sess = some x ∧ x.cmds.find? (fun c => decide (c.opcode = 0x46)) = some c ∧ (s.ring n).mark.isSome = true ∧
      (s.ring n).markLost = true) :=
  ⟨⟨at_ 9 (withCmd 0x40 (toLE 4 (handleOf 0x1F 3 4095) ++ [2, 0, 0,
      0]) { ports := upPort 0, objects := { rings := [(65535, { use := .log, hgen := 3, size := 4096, items := [({ len := 2, body := zeros 16 })] })] } }),
      1, 65535, Tests.sess 0x40 (toLE 4 (handleOf 0x1F 3 4095) ++ [2, 0, 0, 0]), cmd 0x40 (toLE 4 (handleOf 0x1F 3 4095) ++ [2, 0, 0, 0]),
      { len := 2, body := zeros 16 }, [], by decide +kernel⟩,
   ⟨at_ 9 (withCmd 0x41 (toLE 4 (handleOf 0x10 3 7) ++ [2, 0, 0,
      0]) { ports := upPort 0, objects := { rings := [(7, { use := .log, hgen := 3, size := 4096, items := [{ len := 2, body := zeros 16, state := .read }] })] } }),
      1, 7, Tests.sess 0x41 (toLE 4 (handleOf 0x10 3 7) ++ [2, 0, 0, 0]), cmd 0x41 (toLE 4 (handleOf 0x10 3 7) ++ [2, 0, 0, 0]), by decide +kernel⟩,
   ⟨at_ 9 (withCmd 0x42 (toLE 4 (handleOf 0x10 3 7) ++ [1, 0, 0, 0] ++ [1, 0x15] ++
      zeros 14) { ports := upPort 0, objects := { rings := [(7, { use := .feature, hgen := 3, size := 4096, hostProduced := true })] } }), 1, 7,
      Tests.sess 0x42 (toLE 4 (handleOf 0x10 3 7) ++ [1, 0, 0, 0] ++ [1, 0x15] ++ zeros 14), cmd 0x42 (toLE 4 (handleOf 0x10 3 7) ++ [1, 0, 0, 0] ++
      [1, 0x15] ++ zeros 14), (pushWords (at_ 9 (withCmd 0x42 (toLE 4 (handleOf 0x10 3 7) ++ [1, 0, 0, 0] ++ [1, 0x15] ++
      zeros 14) { ports := upPort 0, objects := { rings := [(7, { use := .feature, hgen := 3, size := 4096, hostProduced := true })] } })).now ((List.range 1).map fun i => Bytes.slice (cmd 0x42 (toLE 4 (handleOf 0x10 3 7) ++
      [1, 0, 0, 0] ++ [1, 0x15] ++ zeros 14)).body (8 + 16 * i) 16) 0 ((at_ 9 (withCmd 0x42 (toLE 4 (handleOf 0x10 3 7) ++ [1, 0, 0, 0] ++ [1,
      0x15] ++ zeros 14) { ports := upPort 0, objects := { rings := [(7, { use := .feature, hgen := 3, size := 4096, hostProduced := true })] } })).ringNow 7)).1,
      (pushWords (at_ 9 (withCmd 0x42 (toLE 4 (handleOf 0x10 3 7) ++ [1, 0, 0, 0] ++ [1, 0x15] ++
      zeros 14) { ports := upPort 0, objects := { rings := [(7, { use := .feature, hgen := 3, size := 4096, hostProduced := true })] } })).now ((List.range 1).map fun i => Bytes.slice (cmd 0x42 (toLE 4 (handleOf 0x10 3 7) ++
      [1, 0, 0, 0] ++ [1, 0x15] ++ zeros 14)).body (8 + 16 * i) 16) 0 ((at_ 9 (withCmd 0x42 (toLE 4 (handleOf 0x10 3 7) ++ [1, 0, 0, 0] ++ [1,
      0x15] ++ zeros 14) { ports := upPort 0, objects := { rings := [(7, { use := .feature, hgen := 3, size := 4096, hostProduced := true })] } })).ringNow 7)).2.1,
      by decide +kernel⟩,
   ⟨at_ 9 (withCmd 0x43 (toLE 4 (handleOf 0x10 3 7)) { ports := upPort 0, objects := { rings := [(7, { use := .log, hgen := 3, size := 4096, items := [{}] })] } }),
      1, 7, Tests.sess 0x43 (toLE 4 (handleOf 0x10 3 7)), cmd 0x43 (toLE 4 (handleOf 0x10 3 7)), by decide +kernel⟩,
   ⟨at_ 9 (withCmd 0x44 (toLE 4 (handleOf 0x10 3 7)) { ports := upPort 0, objects := { rings := [(7, { use := .log, hgen := 3, size := 4096, items := [{}] })] } }),
      1, 7, Tests.sess 0x44 (toLE 4 (handleOf 0x10 3 7)), cmd 0x44 (toLE 4 (handleOf 0x10 3 7)), by decide +kernel⟩,
   ⟨at_ 9 (withCmd 0x45 (toLE 4 (handleOf 0x10 3 7)) { ports := upPort 0, objects := { rings := [(7, { use := .log, hgen := 3, size := 4096, items := [{}] })] } }),
      1, 7, Tests.sess 0x45 (toLE 4 (handleOf 0x10 3 7)), cmd 0x45 (toLE 4 (handleOf 0x10 3 7)), by decide +kernel⟩,
   ⟨at_ 9 (withCmd 0x46 (toLE 4 (handleOf 0x10 3 7)) { ports := upPort 0, objects := { rings := [(7, { use := .log, hgen := 3, size := 4096, mark := some 0, head := 1, items := [{ state := .acked }] })] } }),
      1, 7, Tests.sess 0x46 (toLE 4 (handleOf 0x10 3 7)), cmd 0x46 (toLE 4 (handleOf 0x10 3 7)), by decide +kernel⟩,
   ⟨at_ 9 (withCmd 0x46 (toLE 4 (handleOf 0x10 3 7)) { ports := upPort 0, objects := { rings := [(7, { use := .log, hgen := 3, size := 4096, rewindBy := some 1, head := 1, mark := some 0, items := [{ state := .acked }] })] } }),
      (at_ 9 (withCmd 0x46 (toLE 4 (handleOf 0x10 3 7)) { ports := upPort 0, objects := { rings := [(7, { use := .log, hgen := 3, size := 4096, rewindBy := some 1, head := 1, mark := some 0, items := [{ state := .acked }] })] } })).rewindRing 7,
      1, 7, Tests.sess 0x46 (toLE 4 (handleOf 0x10 3 7)), cmd 0x46 (toLE 4 (handleOf 0x10 3 7)),
      by and_intros <;> (try with_reducible rfl) <;> decide +kernel⟩,
   ⟨at_ 9 (withCmd 0x46 (toLE 4 (handleOf 0x10 3 7)) { ports := upPort 0, objects := { rings := [(7, { use := .log, hgen := 3, size := 4096, rewindBy := some 1, head := 1, mark := some 0, items := [{ state := .acked }] })] } }),
      (at_ 9 (withCmd 0x46 (toLE 4 (handleOf 0x10 3 7)) { ports := upPort 0, objects := { rings := [(7, { use := .log, hgen := 3, size := 4096, rewindBy := some 1, head := 1, mark := some 0, items := [{ state := .acked }] })] } })).rewindRing 7,
      1, 7, Tests.sess 0x46 (toLE 4 (handleOf 0x10 3 7)), cmd 0x46 (toLE 4 (handleOf 0x10 3 7)), 8,
      by and_intros <;> (try with_reducible rfl) <;> decide +kernel⟩,
   ⟨at_ 9 (withCmd 0x46 (toLE 4 (handleOf 0x10 3 7)) { ports := upPort 0, objects := { rings := [(7, { use := .log, hgen := 3, size := 4096, rewindBy := some 1, head := 1, mark := some 0, items := [{ state := .acked }] })] } }),
      (at_ 9 (withCmd 0x46 (toLE 4 (handleOf 0x10 3 7)) { ports := upPort 0, objects := { rings := [(7, { use := .log, hgen := 3, size := 4096, rewindBy := some 1, head := 1, mark := some 0, items := [{ state := .acked }] })] } })).rewindRing 7,
      1, 7, Tests.sess 0x46 (toLE 4 (handleOf 0x10 3 7)), cmd 0x46 (toLE 4 (handleOf 0x10 3 7)), 0,
      by and_intros <;> (try with_reducible rfl) <;> decide +kernel⟩,
   ⟨at_ 9 (withCmd 0x46 (toLE 4 (handleOf 0x10 3 7)) { ports := upPort 0, objects := { rings := [(7, { use := .log, hgen := 3, size := 4096, rewindBy := some 1, head := 1, mark := some 0, items := [{ state := .acked }, { state := .ready }] })] } }),
      (at_ 9 (withCmd 0x46 (toLE 4 (handleOf 0x10 3 7)) { ports := upPort 0, objects := { rings := [(7, { use := .log, hgen := 3, size := 4096, rewindBy := some 1, head := 1, mark := some 0, items := [{ state := .acked }, { state := .ready }] })] } })).rewindRing 7,
      1, 7, Tests.sess 0x46 (toLE 4 (handleOf 0x10 3 7)), cmd 0x46 (toLE 4 (handleOf 0x10 3 7)), 0, ({ state := .ready } : Item),
      by and_intros <;> (try with_reducible rfl) <;> decide +kernel⟩,
   ⟨at_ 9 (withCmd 0x46 (toLE 4 (handleOf 0x10 3 7)) { ports := upPort 0, objects := { rings := [(7, { use := .log, hgen := 3, size := 4096, rewindBy := some 1, head := 1, items := [{ state := .acked }] })] } }),
      (at_ 9 (withCmd 0x46 (toLE 4 (handleOf 0x10 3 7)) { ports := upPort 0, objects := { rings := [(7, { use := .log, hgen := 3, size := 4096, rewindBy := some 1, head := 1, items := [{ state := .acked }] })] } })).rewindRing 7,
      1, 7, Tests.sess 0x46 (toLE 4 (handleOf 0x10 3 7)), cmd 0x46 (toLE 4 (handleOf 0x10 3 7)),
      by and_intros <;> (try with_reducible rfl) <;> decide +kernel⟩,
   ⟨at_ 9 (withCmd 0x46 (toLE 4 (handleOf 0x10 3 7)) { ports := upPort 0, objects := { rings := [(7, { use := .log, hgen := 3, size := 4096, rewindBy := some 1, head := 1, mark := some 0, markLost := true, items := [{ state := .acked }] })] } }),
      (at_ 9 (withCmd 0x46 (toLE 4 (handleOf 0x10 3 7)) { ports := upPort 0, objects := { rings := [(7, { use := .log, hgen := 3, size := 4096, rewindBy := some 1, head := 1, mark := some 0, markLost := true, items := [{ state := .acked }] })] } })).rewindRing 7,
      1, 7, Tests.sess 0x46 (toLE 4 (handleOf 0x10 3 7)), cmd 0x46 (toLE 4 (handleOf 0x10 3 7)),
      by and_intros <;> (try with_reducible rfl) <;> decide +kernel⟩⟩

/-- The premises of RingsReport can be met. -/
theorem witness_RingsReport :
    (∃ s : State, ∃ n : Nat, ∃ r, s.start.ring n = r ∧ r.use ≠ .free ∧ (s.ring n).use ≠ .free ∧ r.flagged = false ∧ (s.ring n).flagged = false ∧
      r.lapsed = false ∧ (s.ring n).lapsed = false ∧ 0 < s.rg (ringPage n) (0x44 + 0x20 * (n % 8)) % 65536 ∧
      r.timer + s.rg (ringPage n) (0x44 + 0x20 * (n % 8)) % 65536 * 1024 ≤ s.now) ∧
    (∃ s : State, ∃ n : Nat, (s.ring n).use ≠ .free ∧ 0 < (s.ring n).pendingGap ∧ 1 ≤ (s.ring n).freeAt s.now) :=
  ⟨⟨at_ 2000000 { regs := { rw := [(addrOf (ringPage 7) (0x44 + 0x20 * 7), 5)] }, objects := { rings := [(7, { use := .log, size := 4096, timer := 20, items := [{}] })] } },
      7, ((at_ 2000000 { regs := { rw := [(addrOf (ringPage 7) (0x44 + 0x20 * 7), 5)] }, objects := { rings := [(7, { use := .log, size := 4096, timer := 20, items := [{}] })] } }).start.ring 7),
      by decide +kernel⟩,
   ⟨at_ 2000000 { objects := { rings := [(7, { use := .log, size := 4096, pendingGap := 5 })] } }, 7, by decide +kernel⟩⟩

/-- The premises of ChannelsLive can be met. -/
theorem witness_ChannelsLive :
    (∃ s : State, ∃ sess : Nat, ∃ n : Nat, ∃ x : Session, ∃ c : Cmd, ∃ pool : Pool, s.ready sess 0x20 = some (x, c) ∧ s.dev.pair.role ≠ .standby ∧
      Bytes.le c.body 0 4 = 144 ∧ c.body.length = 148 ∧ s.dev.descBad (c.body.drop 4) = none ∧ 4 ≤ bodyRoom x c.route ∧
      s.dev.objects.chanPool.take 4096 = some (n, pool) ∧ s.dev.noRoom (c.body.drop 4) = false) ∧
    (∃ s : State, ∃ sess : Nat, ∃ n : Nat, ∃ x : Session, ∃ c : Cmd, s.ready sess 0x21 = some (x, c) ∧ s.dev.pair.role ≠ .standby ∧
      c.body.length = 4 ∧ s.chanOf (Bytes.le c.body 0 4) = some n) ∧
    (∃ s : State, ∃ n : Nat, ∃ p : Nat, (s.chan n).destroyed = some p ∧ (s.chan n).state = .draining ∧ p < s.now ∧
      s.dev.chanBusy n (s.chan n).hgen = false ∧ s.clearedNow (channelPage n) = false) :=
  ⟨⟨at_ 9 (withCmd 0x20 (toLE 4 144 ++ descOf 0 0 3) (dev799 {} [] {})), 1, 0, Tests.sess 0x20 (toLE 4 144 ++ descOf 0 0 3), cmd 0x20 (toLE 4 144 ++
      descOf 0 0 3), { fresh := 1 }, by decide +kernel⟩,
   ⟨at_ 9 (withCmd 0x21 (toLE 4 (handleOf 1 2 5)) (dev799 (chanOf5 0 0) [] {})), 1, 5, Tests.sess 0x21 (toLE 4 (handleOf 1 2 5)),
      cmd 0x21 (toLE 4 (handleOf 1 2 5)), by decide +kernel⟩,
   ⟨at_ 9 { objects := { channels := [(4095, { state := .draining, hgen := 4095, destroyed := some 8 })] } }, 4095, 8, by decide +kernel⟩⟩

/-- The premises of FramesBecomePackets can be met. -/
theorem witness_FramesBecomePackets :
    (∃ s : State, ∃ port : Nat, ∃ sub : Nat, ∃ f : Bytes, ∃ n : Nat, ∃ c, s.framePasses port sub f ∧
      s.start.select s.now port ((s.inlineParse port (f.take (f.length - 4))).selectorKey 0) = some (n, c) ∧ c.keyKind ≠ 2 ∧
      s.start.quenched s.now port (some n) = none) ∧
    (∃ s : State, ∃ port : Nat, ∃ sub : Nat, ∃ f : Bytes, s.framePasses port sub f ∧
      s.start.select s.now port ((s.inlineParse port (f.take (f.length - 4))).selectorKey 0) = none ∧ bit (s.start.pairCfg port) 10 = false ∧
      s.start.quenched s.now port none = none) :=
  ⟨⟨at_ 9 { dev799 (chanOf5 0 0) [] {} with ports := pairUp, regs := { rw := ctrlRegs } }, 0, 0, withFcs (zeros 12 ++ [0, 0] ++ zeros 46), 5,
      chanOf5 0 0, by decide +kernel⟩,
   ⟨at_ 9 { ports := pairUp, regs := { rw := ctrlRegs } }, 0, 0, withFcs (zeros 12 ++ [0, 0] ++ zeros 46), by decide +kernel⟩⟩

/-- The premises of PacketsSettleAndLeave can be met. -/
theorem witness_PacketsSettleAndLeave :
    (∃ s : State, ∃ k : Nat, ∃ p : Packet, ∃ port : Nat, ∃ sub : Nat, ∃ r, s.dev.canonical = true ∧ s.dev.packet? k = some p ∧
      Table.get? s.dev.traffic.rx (port * 4 + sub) = some r ∧ r.kind = .packet k ∧ fcsGood r.frame = true ∧ 64 ≤ r.frame.length ∧
      r.frame.length ≤ r.maxFrame) ∧
    (∃ s : State, ∃ k : Nat, ∃ p : Packet, ∃ port : Nat, ∃ sub : Nat, ∃ r, s.dev.canonical = true ∧ s.dev.packet? k = some p ∧
      Table.get? s.dev.traffic.rx (port * 4 + sub) = some r ∧ r.kind = .packet k ∧ fcsGood r.frame = false ∧ (p.stage ≠ .none ∨ p.applied = none ∧
      p.dueAt s.now = true)) ∧
    (∃ s : State, ∃ k : Nat, ∃ p : Packet, ∃ v : Verdict, s.dev.canonical = true ∧ s.dev.packet? k = some p ∧ s.dev.verdictThere s.now k p = some v ∧
      p.inline = true ∧ p.replay = false ∧ p.gone = false ∧ p.failed = false ∧ p.over s.now = false ∧ p.applied = none) ∧
    (∃ s : State, ∃ k : Nat, ∃ p : Packet, ∃ v : Verdict, ∃ n : Nat, ∃ c, s.dev.canonical = true ∧ s.dev.packet? k = some p ∧
      s.dev.verdictThere s.now k p = some v ∧ p.inline = true ∧ p.replay = false ∧ p.gone = false ∧ p.failed = false ∧
      (p.over s.now = true ∨ p.applied.isSome = true) ∧ s.dev.packetChan p = some (n, c) ∧ s.clearedNow (channelPage n) = false) ∧
    (∃ s : State, ∃ k : Nat, ∃ p : Packet, ∃ v : Verdict, s.dev.canonical = true ∧ s.dev.packet? k = some p ∧ s.dev.verdictThere s.now k p = some v ∧
      p.inline = true ∧ p.replay = false ∧ p.gone = false ∧ p.failed = false ∧ p.over s.now = false ∧ p.dueAt s.now = true ∧ p.applied = none ∧
      p.chan.isSome = true) ∧
    (∃ s : State, ∃ k : Nat, ∃ p : Packet, ∃ n : Nat, ∃ c, s.dev.canonical = true ∧ s.dev.packet? k = some p ∧ p.inline = true ∧ p.replay = false ∧
      p.gone = false ∧ p.failed = false ∧ p.applied = none ∧ p.dueAt s.now = true ∧ (p.over s.now = true ∨ s.dev.verdictThere s.now k p = none) ∧
      s.dev.packetChan p = some (n, c) ∧ s.clearedNow (channelPage n) = false) ∧
    (∃ s : State, ∃ k : Nat, ∃ p, ∃ x : Nat, ∃ v : Verdict, ∃ y : Nat, s.dev.canonical = true ∧ s.dev.packet? k = some p ∧ p.applied = some (x, v) ∧
      p.tail = some y ∧ p.inline = true ∧ p.gone = false ∧ p.failed = false ∧ p.queuedTo = none ∧ x < s.now ∧ y < s.now ∧ ((∀ n g, p.chan = some (n,
      g) → (s.start.chan n).redDrop = false ∨ v.colour ≠ 2)) ∧ s.start.wayOut p.port p.sub = true ∧
      ((s.start.port (partner p.port)).subp p.sub).upPly < p.start) ∧
    (∃ s : State, ∃ port : Nat, ∃ sub : Nat, ∃ k : Nat, ∃ p, ∃ q : Nat, s.dev.canonical = true ∧ s.subUp port sub = true ∧
      s.dev.nextOut s.now port sub = some (q, k) ∧ s.dev.packet? k = some p) ∧
    (∃ s : State, ∃ port : Nat, ∃ sub : Nat, ∃ r : VRecord, ∃ rest, ∃ f, s.dev.canonical = true ∧
      Table.get [] s.dev.traffic.records (port * 4 + sub) = r :: rest ∧
      (32 ≤ (r :: rest).length ∨ r.ready + s.rg (parserPage (portDie port)) 0x4C % 256 ≤ s.now) ∧ s.selidAhead port sub = false ∧
      f = padded (r.srcMac ++ s.dev.ctrlMac (portDie port) ++ r.tags ++ toBE 2 r.shim ++ [0x13, byte (shareFrame (r :: rest)).length] ++
      toBE 4 ((s.dev.port port).subp sub).vfSeq ++ ((shareFrame (r :: rest)).map (·.body)).flatten)) :=
  ⟨⟨at_ 9 { ports := upPort 0, traffic := { packets := [(6, ({ stage := .vector }))], rx := [(0, ({ kind := .packet 6, frame := withFcs (zeros 60) }))] } },
      6, { stage := .vector }, 0, 0, { kind := .packet 6, frame := withFcs (zeros 60) }, by decide +kernel⟩,
   ⟨at_ 9 { ports := upPort 0, traffic := { packets := [(6, ({ stage := .vector }))], rx := [(0, ({ kind := .packet 6, frame := zeros 64 }))] } }, 6,
      { stage := .vector }, 0, 0, { kind := .packet 6, frame := zeros 64 }, by decide +kernel⟩,
   ⟨at_ 9 { traffic := { packets := [(6, ({ stage := .verdict, flight := some { cls := 3 }, deadline := 9 }))] } }, 6,
      { stage := .verdict, flight := some { cls := 3 }, deadline := 9 }, ({ cls := 3 } : Verdict), by decide +kernel⟩,
   ⟨at_ 10 { traffic := { packets := [(6, ({ stage := .verdict, flight := some { cls := 3 }, deadline := 9, chan := some (5, 2) }))] }, objects := { channels := [(5, chanOf5 0 0)] } },
      6, { stage := .verdict, flight := some { cls := 3 }, deadline := 9, chan := some (5, 2) }, ({ cls := 3 } : Verdict), 5, chanOf5 0 0,
      by and_intros <;> (try exact clear _ _ rfl rfl _) <;> decide +kernel⟩,
   ⟨at_ 10 { traffic := { packets := [(6, ({ stage := .verdict, flight := some { cls := 3 }, deadline := 10, chan := some (5, 2) }))] } }, 6,
      { stage := .verdict, flight := some { cls := 3 }, deadline := 10, chan := some (5, 2) }, ({ cls := 3 } : Verdict), by decide +kernel⟩,
   ⟨at_ 10 { traffic := { packets := [(6, ({ stage := .running, deadline := 10, chan := some (5, 2) }))] }, objects := { channels := [(5, chanOf5 0 0)] } },
      6, { stage := .running, deadline := 10, chan := some (5, 2) }, 5, chanOf5 0 0,
      by and_intros <;> (try exact clear _ _ rfl rfl _) <;> decide +kernel⟩,
   ⟨at_ 10 { ports := pairUp, traffic := { packets := [(6, ({ applied := some (8, { queue := 7 }), tail := some 9, frame := zeros 60, chan := some (5, 2), start := 5 }))] }, objects := { channels := [(5, chanOf5 0 0)] } },
      6, { applied := some (8, { queue := 7 }), tail := some 9, frame := zeros 60, chan := some (5, 2), start := 5 }, 8, ({ queue := 7 } : Verdict),
      9, by and_intros <;> (try simp) <;> decide +kernel⟩,
   ⟨at_ 10 { ports := pairUp, traffic := { packets := [(6, ({ applied := some (8, { queue := 7 }), tail := some 9, frame := zeros 60, queuedTo := some 7 }))], egress := [(39, [6])] } },
      1, 0, 6, { applied := some (8, { queue := 7 }), tail := some 9, frame := zeros 60, queuedTo := some 7 }, 7, by decide +kernel⟩,
   ⟨at_ 100 { ports := pairUp, regs := { rw := ctrlRegs }, traffic := { records := [(0, [(({ body := zeros 8, srcMac := hostMac, ready := 1 } : VRecord))])] } },
      0, 0, ({ body := zeros 8, srcMac := hostMac, ready := 1 } : VRecord), [],
      padded ((({ body := zeros 8, srcMac := hostMac, ready := 1 } : VRecord)).srcMac ++
      (at_ 100 { ports := pairUp, regs := { rw := ctrlRegs }, traffic := { records := [(0, [(({ body := zeros 8, srcMac := hostMac, ready := 1 } : VRecord))])] } }).dev.ctrlMac (portDie 0) ++
      (({ body := zeros 8, srcMac := hostMac, ready := 1 } : VRecord)).tags ++
      toBE 2 (({ body := zeros 8, srcMac := hostMac, ready := 1 } : VRecord)).shim ++ [0x13,
      byte (shareFrame ((({ body := zeros 8, srcMac := hostMac, ready := 1 } : VRecord)) :: [])).length] ++
      toBE 4 (((at_ 100 { ports := pairUp, regs := { rw := ctrlRegs }, traffic := { records := [(0, [(({ body := zeros 8, srcMac := hostMac, ready := 1 } : VRecord))])] } }).dev.port 0).subp 0).vfSeq ++
      ((shareFrame ((({ body := zeros 8, srcMac := hostMac, ready := 1 } : VRecord)) :: [])).map (·.body)).flatten),
      by and_intros <;> (try exact canonCtrl (by decide +kernel) (by decide +kernel)) <;> (try decide +kernel) <;> exact rfl⟩⟩

/-- The premises of VectorsReachCores can be met. -/
theorem witness_VectorsReachCores :
    (∃ s : State, ∃ k : Nat, ∃ p, ∃ n : Nat, ∃ hg : Nat, ∃ m : Nat, ∃ g, ∃ r : Nat, ∃ d : Nat, s.dev.canonical = true ∧ s.dev.packet? k = some p ∧
      p.chan = some (n, hg) ∧ s.dev.packetGen p = some (m, g) ∧ p.stage = .vector ∧ s.dev.underWay s.now (.vector k) = false ∧
      s.start.receiver p = some r ∧ s.dev.vectorDie k = some d ∧ d ≠ coreDie r) ∧
    (∃ s : State, ∃ k : Nat, ∃ p, ∃ n : Nat, ∃ hg : Nat, ∃ m : Nat, ∃ g, ∃ r : Nat, s.dev.canonical = true ∧ s.dev.packet? k = some p ∧
      p.chan = some (n, hg) ∧ s.dev.packetGen p = some (m, g) ∧ p.stage = .vector ∧ s.dev.underWay s.now (.vector k) = false ∧
      s.start.receiver p = some r ∧ (s.dev.vectorDie k).getD (coreDie r) = coreDie r ∧ (s.dev.chan n).pinned = true ∧
      (s.start.tempo (coreDie r)).stage < 3 ∧ (s.dev.core r).pawn.length < 64) ∧
    (∃ s : State, ∃ k : Nat, ∃ p : Packet, ∃ n : Nat, ∃ hg : Nat, ∃ m : Nat, ∃ g, ∃ r : Nat, ∃ v, ∃ o, ∃ l, ∃ limit : Nat, s.dev.canonical = true ∧
      s.dev.packet? k = some p ∧ p.chan = some (n, hg) ∧ s.dev.packetGen p = some (m, g) ∧ p.stage = .vector ∧
      s.dev.underWay s.now (.vector k) = false ∧ s.start.receiver p = some r ∧ (s.dev.vectorDie k).getD (coreDie r) = coreDie r ∧
      (s.dev.chan n).pinned = false ∧ s.dev.gen? false n g.gen = some g ∧ (s.dev.pawnTable n g).2 = some (v, o) ∧
      l = Table.get [] (s.dev.core r).open_ (n * 256 + g.gen) ∧ limit = max 1 (min 512 (tblLoopMax v o 0)) ∧ (l = [] ∨ l.length < limit ∧
      s.now + tblWorst v o + returnPath < s.earliest l)) ∧
    (∃ s : State, ∃ k : Nat, ∃ p : Packet, ∃ n : Nat, ∃ hg : Nat, ∃ m : Nat, ∃ g, ∃ r : Nat, ∃ v, ∃ o, ∃ l, ∃ limit : Nat, s.dev.canonical = true ∧
      s.dev.packet? k = some p ∧ p.chan = some (n, hg) ∧ s.dev.packetGen p = some (m, g) ∧ p.stage = .vector ∧
      s.dev.underWay s.now (.vector k) = false ∧ s.start.receiver p = some r ∧ (s.dev.vectorDie k).getD (coreDie r) = coreDie r ∧
      (s.dev.chan n).pinned = false ∧ s.dev.gen? false n g.gen = some g ∧ (s.dev.pawnTable n g).2 = some (v, o) ∧
      l = Table.get [] (s.dev.core r).open_ (n * 256 + g.gen) ∧ limit = max 1 (min 512 (tblLoopMax v o 0)) ∧ l ≠ [] ∧
      (limit ≤ l.length ∨ s.earliest l ≤ s.now + tblWorst v o + returnPath) ∧ l.length ≤ limit ∧ (s.start.tempo (coreDie r)).stage < 2) ∧
    (∃ s : State, ∃ core : Nat, ∃ n : Nat, ∃ gen : Nat, ∃ g, ∃ v, ∃ o, s.dev.canonical = true ∧ s.dev.gen? false n gen = some g ∧
      (s.dev.pawnTable n g).2 = some (v, o) ∧ Table.get [] (s.dev.core core).open_ (n * 256 + gen) ≠ [] ∧ (s.start.tempo (coreDie core)).stage < 2 ∧
      (max 1 (min 512 (tblLoopMax v o 0)) ≤ (Table.get [] (s.dev.core core).open_ (n * 256 + gen)).length ∨ s.earliest ((Table.get [] (s.dev.core core).open_ (n * 256 + gen)).take (max 1 (min 512 (tblLoopMax v o 0)))) ≤ s.now + tblWorst v o + returnPath)) ∧
    (∃ s : State, ∃ a : Nat, ∃ b : Nat, ∃ f : Flit, ∃ g : Flit, ∃ l1, ∃ l2, ∃ l3, s.dev.canonical = true ∧ s.dev.net.waitingAt s.now a b = l1 ++
      f :: l2 ++ g :: l3) ∧
    (∃ s : State, ∃ room : Nat, ∃ used : Nat, ∃ l, ∃ l1, ∃ f : Flit, ∃ l2, s.dev.canonical = true ∧ (serveFlits room used l).1 = l1 ++ f :: l2) ∧
    (∃ s : State, s.dev.canonical = true) ∧
    (∃ s : State, ∃ a : Nat, ∃ b : Nat, ∃ f : Flit, s.dev.canonical = true ∧ f ∈ s.dev.net.flits ∧ f.die = a ∧ f.route.head? = some b ∧
      f.cls ≠ clsControl ∧ linkBytes a b - linkBytes a b / 64 ≤ Table.get 0 s.dev.net.owed (a * 8 + b)) ∧
    (∃ s : State, ∃ a : Nat, ∃ b : Nat, ∃ f : Flit, ∃ rest, s.dev.canonical = true ∧ s.dev.net.flits = [f] ∧ s.dev.net.owed = [] ∧ f.die = a ∧
      f.route = b :: rest ∧ f.ready ≤ s.now ∧ (a, b) ∈ dieLinks) :=
  ⟨⟨at_ 10 { dev799 (chanOf5 1 0) [] { lastIssue := some 1 } with traffic := { packets := [(6, ({ chan := some (5, 2), gen := 3, core := 799, stage := .vector }))] }, net := { flits := [{ die := 0, cargo := .vector 6 }] } },
      6, { chan := some (5, 2), gen := 3, core := 799, stage := .vector }, 5, 2, 5, gen5 [], 799, 0, by decide +kernel⟩,
   ⟨at_ 10 { dev799 (chanOf5 1 0) [] { lastIssue := some 1 } with traffic := { packets := [(6, ({ chan := some (5, 2), gen := 3, core := 799, stage := .vector }))] } },
      6, { chan := some (5, 2), gen := 3, core := 799, stage := .vector }, 5, 2, 5, gen5 [], 799, by decide +kernel⟩,
   ⟨at_ 10 { dev799 (chanOf5 0 0) streamed { open_ := [(5 * 256 + 3, [7])] } with traffic := { packets := [(6, (({ chan := some (5, 2), gen := 3, core := 799, stage := .vector, deadline := 5000 } : Packet))), (7, { (({ chan := some (5, 2), gen := 3, core := 799, stage := .vector, deadline := 5000 } : Packet)) with deadline := 5000 })] } },
      6, ({ chan := some (5, 2), gen := 3, core := 799, stage := .vector, deadline := 5000 } : Packet), 5, 2, 5, gen5 streamed, 799,
      (((at_ 10 { dev799 (chanOf5 0 0) streamed { open_ := [(5 * 256 + 3, [7])] } with traffic := { packets := [(6, (({ chan := some (5, 2), gen := 3, core := 799, stage := .vector, deadline := 5000 } : Packet))), (7, { (({ chan := some (5, 2), gen := 3, core := 799, stage := .vector, deadline := 5000 } : Packet)) with deadline := 5000 })] } }).dev.pawnTable 5 (gen5 streamed)).2.get (by decide +kernel)).1,
      (((at_ 10 { dev799 (chanOf5 0 0) streamed { open_ := [(5 * 256 + 3, [7])] } with traffic := { packets := [(6, (({ chan := some (5, 2), gen := 3, core := 799, stage := .vector, deadline := 5000 } : Packet))), (7, { (({ chan := some (5, 2), gen := 3, core := 799, stage := .vector, deadline := 5000 } : Packet)) with deadline := 5000 })] } }).dev.pawnTable 5 (gen5 streamed)).2.get (by decide +kernel)).2,
      [7], 2, by decide +kernel⟩,
   ⟨at_ 10 { dev799 (chanOf5 0 0) streamed { open_ := [(5 * 256 + 3, [7, 8])] } with traffic := { packets := [(6, (({ chan := some (5, 2), gen := 3, core := 799, stage := .vector, deadline := 5000 } : Packet))), (7, { (({ chan := some (5, 2), gen := 3, core := 799, stage := .vector, deadline := 5000 } : Packet)) with deadline := 5000 })] } },
      6, ({ chan := some (5, 2), gen := 3, core := 799, stage := .vector, deadline := 5000 } : Packet), 5, 2, 5, gen5 streamed, 799,
      (((at_ 10 { dev799 (chanOf5 0 0) streamed { open_ := [(5 * 256 + 3, [7, 8])] } with traffic := { packets := [(6, (({ chan := some (5, 2), gen := 3, core := 799, stage := .vector, deadline := 5000 } : Packet))), (7, { (({ chan := some (5, 2), gen := 3, core := 799, stage := .vector, deadline := 5000 } : Packet)) with deadline := 5000 })] } }).dev.pawnTable 5 (gen5 streamed)).2.get (by decide +kernel)).1,
      (((at_ 10 { dev799 (chanOf5 0 0) streamed { open_ := [(5 * 256 + 3, [7, 8])] } with traffic := { packets := [(6, (({ chan := some (5, 2), gen := 3, core := 799, stage := .vector, deadline := 5000 } : Packet))), (7, { (({ chan := some (5, 2), gen := 3, core := 799, stage := .vector, deadline := 5000 } : Packet)) with deadline := 5000 })] } }).dev.pawnTable 5 (gen5 streamed)).2.get (by decide +kernel)).2,
      [7, 8], 2, by decide +kernel⟩,
   ⟨at_ 10 { dev799 (chanOf5 0 0) streamed { open_ := [(5 * 256 + 3, [6, 7, 8])] } with traffic := { packets := [(6, {})] } }, 799, 5, 3,
      gen5 streamed, (((at_ 10 { dev799 (chanOf5 0 0) streamed { open_ := [(5 * 256 + 3, [6, 7, 8])] } with traffic := { packets := [(6, {})] } }).dev.pawnTable 5 (gen5 streamed)).2.get (by decide +kernel)).1,
      (((at_ 10 { dev799 (chanOf5 0 0) streamed { open_ := [(5 * 256 + 3, [6, 7, 8])] } with traffic := { packets := [(6, {})] } }).dev.pawnTable 5 (gen5 streamed)).2.get (by decide +kernel)).2,
      by decide +kernel⟩,
   ⟨at_ 10 { net := { flits := [{ (({ cls := 2, die := 4, route := [0] } : Flit)) with cls := 3 }, (({ cls := 2, die := 4, route := [0] } : Flit))] } },
      4, 0, ({ cls := 2, die := 4, route := [0] } : Flit), ({ (({ cls := 2, die := 4, route := [0] } : Flit)) with cls := 3 } : Flit), [], [], [],
      by decide +kernel⟩,
   ⟨at_ 10 {}, 2048, 1000, [{ cls := 2, bytes := 64 }, (({ cls := 1, bytes := 64 } : Flit))], [{ cls := 2, bytes := 64 }],
      ({ cls := 1, bytes := 64 } : Flit), [], by decide +kernel⟩,
   ⟨at_ 10 {}, by decide +kernel⟩,
   ⟨at_ 10 { net := { flits := [(({ cls := 2, die := 0, route := [1], bytes := 64 } : Flit))], owed := [(1, 999999)] } }, 0, 1,
      ({ cls := 2, die := 0, route := [1], bytes := 64 } : Flit), by decide +kernel⟩,
   ⟨at_ 10 { net := { flits := [(({ die := 4, route := [0, 1], bytes := 100 } : Flit))] } }, 4, 0,
      ({ die := 4, route := [0, 1], bytes := 100 } : Flit), [1], by decide +kernel⟩⟩

/-- The premises of TasksTakeContexts can be met. -/
theorem witness_TasksTakeContexts :
    (∃ s : State, ∃ core : Nat, ∃ ctx : Nat, ∃ k : Nat, ∃ p : Packet, ∃ n : Nat, ∃ hg : Nat, ∃ rest, ∃ g, ∃ v, ∃ o, ∃ l, s.dev.canonical = true ∧
      ctx ≤ 1 ∧ s.ctxFree core ctx = true ∧ s.dev.coreActive core = true ∧ s.dev.halted = false ∧ (s.dev.core core).pawn = k :: rest ∧
      (s.start.tempo (coreDie core)).stage < 3 ∧ s.dev.packet? k = some p ∧ p.chan = some (n, hg) ∧ s.dev.gen? false n p.gen = some g ∧
      (s.dev.pawnTable n g).2 = some (v, o) ∧ l = s.dev.pawnBatch (k :: rest) (max 1 (tblLoopMax v o 0)) ∧ tableAccepts v o [0] [l.length] = true) ∧
    (∃ s : State, ∃ core : Nat, ∃ ctx : Nat, ∃ d, ∃ v, ∃ o : Nat, s.dev.canonical = true ∧ 4 ≤ ctx ∧ ctx < 16 ∧ s.dev.coreActive core = true ∧
      s.dev.halted = false ∧ s.ctxFree core ctx = true ∧
      (((s.dev.core core).queue.filter fun t => s.eligible core t && s.dev.tryAdmit (coreDie core) t).foldl earlierTask none) = some d ∧
      s.dev.table d.sched d.gen = some (v, o) ∧ tableAccepts v o [if d.owner = 4 then 3 else 2] d.lc = true) ∧
    (∃ s : State, ∃ core : Nat, ∃ ctx : Nat, s.dev.canonical = true ∧ 4 ≤ ctx ∧ ctx < 16 ∧ s.dev.coreActive core = true ∧ s.dev.halted = false ∧
      (s.ctx core ctx).state = .adjourned ∧ (s.ctx core ctx).fault = none ∧ (s.ctx core ctx).cancel = false ∧
      s.dev.tryAdmit (coreDie core) (s.ctx core ctx).task = true) ∧
    (∃ s : State, ∃ core : Nat, ∃ ctx : Nat, ∃ stale, ∃ fail, s.dev.canonical = true ∧ (s.ctx core ctx).state = .fetching ∧
      (s.ctx core ctx).since ≤ s.now ∧ ((stale = false ∧ (s.dev.core core).area.contains ((s.ctx core ctx).task.sched,
      (s.ctx core ctx).task.gen) = true) ∨ fail = false)) ∧
    (∃ s : State, ∃ core : Nat, ∃ ctx : Nat, ∃ stale, ∃ fail, s.dev.canonical = true ∧ (s.ctx core ctx).state = .fetching ∧
      (s.ctx core ctx).since ≤ s.now ∧ stale = true ∧ fail = true ∧ s.clearedNow pgBook = false) :=
  ⟨⟨at_ 10 { dev799 (chanOf5 1 0) (tbl5 0 [entry_ 0 0 0 2 0 0]) { pawn := [6] } with traffic := { packets := [(6, (({ chan := some (5, 2), gen := 3, stage := .queued } : Packet)))] } },
      799, 1, 6, ({ chan := some (5, 2), gen := 3, stage := .queued } : Packet), 5, 2, [], gen5 (tbl5 0 [entry_ 0 0 0 2 0 0]),
      (((at_ 10 { dev799 (chanOf5 1 0) (tbl5 0 [entry_ 0 0 0 2 0 0]) { pawn := [6] } with traffic := { packets := [(6, (({ chan := some (5, 2), gen := 3, stage := .queued } : Packet)))] } }).dev.pawnTable 5 (gen5 (tbl5 0 [entry_ 0 0 0 2 0 0]))).2.get (by decide +kernel)).1,
      (((at_ 10 { dev799 (chanOf5 1 0) (tbl5 0 [entry_ 0 0 0 2 0 0]) { pawn := [6] } with traffic := { packets := [(6, (({ chan := some (5, 2), gen := 3, stage := .queued } : Packet)))] } }).dev.pawnTable 5 (gen5 (tbl5 0 [entry_ 0 0 0 2 0 0]))).2.get (by decide +kernel)).2,
      [6], by decide +kernel⟩,
   ⟨at_ 10 (dev799 (chanOf5 1 0) (tbl5 2 [entry_ 0 0 0 2 0 0]) { tasks := [({ task5 with cls := 2 })] }), 799, 15, { task5 with cls := 2 },
      Volume.image (tbl5 2 [entry_ 0 0 0 2 0 0]) 16384, 24, by decide +kernel⟩,
   ⟨at_ 10 (run799 4 { ctx5 with state := .adjourned } {} (tbl5 2 [entry_ 0 0 0 2 0 0])), 799, 4, by decide +kernel⟩,
   ⟨at_ 10 (run799 4 { ctx5 with state := .fetching } {} (tbl5 2 [entry_ 0 0 0 2 0 0])), 799, 4, true, false, by decide +kernel⟩,
   ⟨at_ 10 (run799 4 { ctx5 with state := .fetching } {} (tbl5 2 [entry_ 0 0 0 2 0 0])), 799, 4, true, true, by decide +kernel⟩⟩

/-- The premises of TasksEnd can be met. -/
theorem witness_TasksEnd :
    (∃ s : State, ∃ core : Nat, ∃ ctx : Nat, ∃ x, ∃ e, ∃ g, s.dev.canonical = true ∧ s.issues core ctx 0 x e g ∧ e.sub = 0 ∧ s.writesDone core ctx ∧
      (s.dev.core core).writeFaults ctx = none) ∧
    (∃ s : State, ∃ core : Nat, ∃ ctx : Nat, s.dev.canonical = true ∧ (s.ctx core ctx).ended = true) ∧
    (∃ s : State, ∃ core : Nat, ∃ ctx : Nat, s.dev.canonical = true ∧ (s.ctx core ctx).state ≠ .free ∧ (s.ctx core ctx).state ≠ .stopping ∧
      (s.ctx core ctx).fault = none ∧ (s.ctx core ctx).task.owner = 4) ∧
    (∃ s : State, ∃ core : Nat, ∃ ctx : Nat, s.dev.canonical = true ∧ (s.ctx core ctx).state ≠ .free ∧ (s.ctx core ctx).state ≠ .stopping ∧
      ((∃ p ∈ (s.dev.core core).pieces, p.stream / 4 = ctx)) ∧ (s.ctx core ctx).cancel = true) ∧
    (∃ s : State, ∃ core : Nat, ∃ ctx : Nat, ∃ k : Nat, ∃ p, s.dev.canonical = true ∧ (s.ctx core ctx).state ≠ .free ∧
      (s.ctx core ctx).state ≠ .stopping ∧ ((∃ p ∈ (s.dev.core core).pieces, p.stream / 4 = ctx)) ∧ (s.ctx core ctx).fault = some k ∧
      s.dev.corePage tSeq core = some p ∧ s.clearedNow p = false) ∧
    (∃ s : State, ∃ core : Nat, ∃ ctx : Nat, ∃ e, ∃ p, ∃ w, s.dev.canonical = true ∧ s.dev.entryOf (s.ctx core ctx) = some e ∧
      s.dev.corePage tSeq core = some p ∧ s.clearedNow p = false ∧ (s.ctx core ctx).state = .running ∧ (s.ctx core ctx).fault = none ∧
      s.dev.floorBroken core = false ∧ ((e.op = 5 → (s.dev.core core).overDemand = none)) ∧ s.onUnit core ctx (s.ctx core ctx) e = true ∧
      w = s.watchOf core ctx (s.ctx core ctx) ∧ (s.ctx core ctx).since + w % 16 * e.dur + 256 * bits w 19 8 < s.now) ∧
    (∃ s : State, ∃ core : Nat, ∃ ctx : Nat, ∃ e, ∃ p, ∃ w, s.dev.canonical = true ∧ s.dev.entryOf (s.ctx core ctx) = some e ∧
      s.dev.corePage tSeq core = some p ∧ s.clearedNow p = false ∧ (s.ctx core ctx).state = .running ∧ (s.ctx core ctx).fault = none ∧
      s.dev.floorBroken core = false ∧ ((e.op = 5 → (s.dev.core core).overDemand = none)) ∧ s.onUnit core ctx (s.ctx core ctx) e = true ∧
      w = s.watchOf core ctx (s.ctx core ctx) ∧ (s.ctx core ctx).since + w % 16 * e.dur + 256 * bits w 19 8 < s.now) ∧
    (∃ s : State, ∃ core : Nat, s.dev.canonical = true ∧ (s.dev.core core).lastIssue ≠ some s.now ∧ s.dev.floorBroken core = false ∧
      (s.dev.core core).failed = none ∧ 4096 ≤ (s.dev.core core).stall + 1 ∧ ((∃ e ∈ (s.dev.core core).ctxs, s.issuable core e.1 = true))) :=
  ⟨⟨at_ 10 (run799 1 ctx5 {} (tbl5 0 [entry_ 0 0 0 2 3 0])), 799, 1, ctx5,
      ((at_ 10 (run799 1 ctx5 {} (tbl5 0 [entry_ 0 0 0 2 3 0]))).dev.entryOf ctx5).get (by decide +kernel),
      ((at_ 10 (run799 1 ctx5 {} (tbl5 0 [entry_ 0 0 0 2 3 0]))).grant 799 ctx5.task.cls (((at_ 10 (run799 1 ctx5 {} (tbl5 0 [entry_ 0 0 0 2 3 0]))).dev.entryOf ctx5).get (by decide +kernel)).energy).get (by decide +kernel),
      by decide +kernel⟩,
   ⟨at_ 10 (run799 1 { ctx5 with ended := true } {} (tbl5 0 [entry_ 0 0 0 2 3 0])), 799, 1, by decide +kernel⟩,
   ⟨at_ 10 (run799 1 { ctx5 with state := .fetching, task := { task5 with owner := 4 } } {} []), 799, 1, by decide +kernel⟩,
   ⟨at_ 10 (run799 1 { ctx5 with cancel := true } { pieces := [{ stream := 7 }] } []), 799, 1,
      by and_intros <;> (try exact ⟨{ stream := 7 }, by decide +kernel⟩) <;> decide +kernel⟩,
   ⟨at_ 10 (run799 1 { ctx5 with fault := some 5 } { pieces := [{ stream := 7 }] } []), 799, 1, 5, pageOf tSeq 831,
      by and_intros <;> (try exact ⟨{ stream := 7 }, by decide +kernel⟩) <;> decide +kernel⟩,
   ⟨at_ 1000000 (run799 1 ctx6 { running := [{ ctx := 1, mode := 0, began := 3, ready := 99999999 }] } (img1 0 2 0 0 [entry_ 1 0 0 20 3 0])), 799, 1,
      ((at_ 1000000 (run799 1 ctx6 { running := [{ ctx := 1, mode := 0, began := 3, ready := 99999999 }] } (img1 0 2 0 0 [entry_ 1 0 0 20 3 0]))).dev.entryOf ctx6).get (by decide +kernel),
      pageOf tSeq 831, (at_ 1000000 (run799 1 ctx6 { running := [{ ctx := 1, mode := 0, began := 3, ready := 99999999 }] } (img1 0 2 0 0 [entry_ 1 0 0 20 3 0]))).watchOf 799 1 ((at_ 1000000 (run799 1 ctx6 { running := [{ ctx := 1, mode := 0, began := 3, ready := 99999999 }] } (img1 0 2 0 0 [entry_ 1 0 0 20 3 0]))).ctx 799 1),
      by decide +kernel⟩,
   ⟨at_ 1000000 (run799 1 ctx6 { running := [{ ctx := 1, mode := 0, began := 3, ready := 99999999 }] } (img1 0 2 0 0 [entry_ 1 0 0 20 3 0])), 799, 1,
      ((at_ 1000000 (run799 1 ctx6 { running := [{ ctx := 1, mode := 0, began := 3, ready := 99999999 }] } (img1 0 2 0 0 [entry_ 1 0 0 20 3 0]))).dev.entryOf ctx6).get (by decide +kernel),
      pageOf tSeq 831, (at_ 1000000 (run799 1 ctx6 { running := [{ ctx := 1, mode := 0, began := 3, ready := 99999999 }] } (img1 0 2 0 0 [entry_ 1 0 0 20 3 0]))).watchOf 799 1 ((at_ 1000000 (run799 1 ctx6 { running := [{ ctx := 1, mode := 0, began := 3, ready := 99999999 }] } (img1 0 2 0 0 [entry_ 1 0 0 20 3 0]))).ctx 799 1),
      by decide +kernel⟩,
   ⟨at_ 1000000 (run799 1 ctx5 { lastIssue := some 3, stall := 4095 } (tbl5 0 [entry_ 0 0 0 2 3 0])), 799, by decide +kernel⟩⟩

/-- The premises of LoopsRun can be met. -/
theorem witness_LoopsRun :
    (∃ s : State, ∃ core : Nat, ∃ ctx : Nat, ∃ x : Ctx, ∃ e : Entry, ∃ g : State, s.dev.canonical = true ∧ s.mayIssue core ctx 10 x e g) ∧
    (∃ s : State, ∃ core : Nat, ∃ ctx : Nat, ∃ x : Ctx, ∃ e : Entry, ∃ g : State, s.dev.canonical = true ∧ s.mayIssue core ctx 10 x e g) ∧
    (∃ s : State, ∃ core : Nat, ∃ ctx : Nat, ∃ x : Ctx, ∃ e : Entry, ∃ g : State, s.dev.canonical = true ∧ s.mayIssue core ctx 11 x e g) ∧
    (∃ s : State, ∃ core : Nat, ∃ ctx : Nat, ∃ x : Ctx, ∃ e : Entry, ∃ g : State, s.dev.canonical = true ∧ s.mayIssue core ctx 11 x e g) :=
  ⟨⟨at_ 10 (run799 1 ctx5 {} (tbl5 0 [entry_ 10 0 0 2 3 1, entry_ 11 0 0 2 3 0])), 799, 1, ctx5,
      ((at_ 10 (run799 1 ctx5 {} (tbl5 0 [entry_ 10 0 0 2 3 1, entry_ 11 0 0 2 3 0]))).dev.entryOf ctx5).get (by decide +kernel),
      ((at_ 10 (run799 1 ctx5 {} (tbl5 0 [entry_ 10 0 0 2 3 1,
      entry_ 11 0 0 2 3 0]))).grant 799 ctx5.task.cls (((at_ 10 (run799 1 ctx5 {} (tbl5 0 [entry_ 10 0 0 2 3 1,
      entry_ 11 0 0 2 3 0]))).dev.entryOf ctx5).get (by decide +kernel)).energy).get (by decide +kernel), by decide +kernel⟩,
   ⟨at_ 10 (run799 1 ctx5 {} (tbl5 0 [entry_ 10 1 0 2 3 1, entry_ 11 1 0 2 3 0])), 799, 1, ctx5,
      ((at_ 10 (run799 1 ctx5 {} (tbl5 0 [entry_ 10 1 0 2 3 1, entry_ 11 1 0 2 3 0]))).dev.entryOf ctx5).get (by decide +kernel),
      ((at_ 10 (run799 1 ctx5 {} (tbl5 0 [entry_ 10 1 0 2 3 1,
      entry_ 11 1 0 2 3 0]))).grant 799 ctx5.task.cls (((at_ 10 (run799 1 ctx5 {} (tbl5 0 [entry_ 10 1 0 2 3 1,
      entry_ 11 1 0 2 3 0]))).dev.entryOf ctx5).get (by decide +kernel)).energy).get (by decide +kernel), by decide +kernel⟩,
   ⟨at_ 10 (run799 1 ({ ctx5 with idx := 1 }) {} (tbl5 0 [entry_ 10 0 0 2 3 1, entry_ 11 0 0 2 3 0])), 799, 1, { ctx5 with idx := 1 },
      ((at_ 10 (run799 1 ({ ctx5 with idx := 1 }) {} (tbl5 0 [entry_ 10 0 0 2 3 1,
      entry_ 11 0 0 2 3 0]))).dev.entryOf ({ ctx5 with idx := 1 })).get (by decide +kernel),
      ((at_ 10 (run799 1 ({ ctx5 with idx := 1 }) {} (tbl5 0 [entry_ 10 0 0 2 3 1,
      entry_ 11 0 0 2 3 0]))).grant 799 ({ ctx5 with idx := 1 }).task.cls (((at_ 10 (run799 1 ({ ctx5 with idx := 1 }) {} (tbl5 0 [entry_ 10 0 0 2 3 1,
      entry_ 11 0 0 2 3 0]))).dev.entryOf ({ ctx5 with idx := 1 })).get (by decide +kernel)).energy).get (by decide +kernel), by decide +kernel⟩,
   ⟨at_ 10 (run799 1 ({ ctx5 with idx := 1, iter := [1, 0, 0, 0] }) {} (tbl5 0 [entry_ 10 0 0 2 3 1, entry_ 11 0 0 2 3 0])), 799, 1,
      { ctx5 with idx := 1, iter := [1, 0, 0, 0] },
      ((at_ 10 (run799 1 ({ ctx5 with idx := 1, iter := [1, 0, 0, 0] }) {} (tbl5 0 [entry_ 10 0 0 2 3 1,
      entry_ 11 0 0 2 3 0]))).dev.entryOf ({ ctx5 with idx := 1, iter := [1, 0, 0, 0] })).get (by decide +kernel),
      ((at_ 10 (run799 1 ({ ctx5 with idx := 1, iter := [1, 0, 0, 0] }) {} (tbl5 0 [entry_ 10 0 0 2 3 1,
      entry_ 11 0 0 2 3 0]))).grant 799 ({ ctx5 with idx := 1, iter := [1, 0, 0, 0] }).task.cls (((at_ 10 (run799 1 ({ ctx5 with idx := 1, iter := [1, 0, 0, 0] }) {} (tbl5 0 [entry_ 10 0 0 2 3 1,
      entry_ 11 0 0 2 3 0]))).dev.entryOf ({ ctx5 with idx := 1, iter := [1, 0, 0, 0] })).get (by decide +kernel)).energy).get (by decide +kernel),
      by decide +kernel⟩⟩

/-- The premises of BarriersMeet can be met. -/
theorem witness_BarriersMeet :
    (∃ s : State, ∃ core : Nat, ∃ ctx : Nat, ∃ key : Nat, ∃ x : Ctx, ∃ e : Entry, ∃ g : State, s.dev.canonical = true ∧
      key = bits e.operand 11 10 * 1024 + e.operand % 1024 ∧ s.issues core ctx 9 x e g ∧ s.writesDone core ctx ∧ (s.dev.barrier key).broken = none ∧
      (s.dev.barrier key).released ≠ some s.now ∧ e.sub = 0) ∧
    (∃ s : State, ∃ core : Nat, ∃ ctx : Nat, ∃ key : Nat, ∃ x : Ctx, ∃ e : Entry, ∃ g : State, s.dev.canonical = true ∧
      key = bits e.operand 11 10 * 1024 + e.operand % 1024 ∧ s.issues core ctx 9 x e g ∧ s.writesDone core ctx ∧ (s.dev.barrier key).broken = none ∧
      (s.dev.barrier key).released ≠ some s.now ∧ e.sub = 1) ∧
    (∃ s : State, ∃ die : Nat, ∃ number : Nat, ∃ key : Nat, s.dev.canonical = true ∧ key = die % 4 * 1024 + number % 1024 ∧
      (s.dev.barrier key).count ≠ 0 ∧ (s.dev.barrier key).broken = none ∧ (s.dev.barrier key).first + (s.dev.barrier key).limit ≤ s.now) ∧
    (∃ s : State, ∃ die : Nat, ∃ number : Nat, ∃ key : Nat, ∃ p : Nat, s.dev.canonical = true ∧ key = die % 4 * 1024 + number % 1024 ∧
      (s.dev.barrier key).broken = some p ∧ p + (s.dev.barrier key).limit ≤ s.now) :=
  ⟨⟨at_ 10 (run799 1 ctx5 {} (tbl5 0 [entry_ 9 0 1 2 3 (2 * 65536 + 3 * 1024 + 1023)])), 799, 1, 4095, ctx5,
      ((at_ 10 (run799 1 ctx5 {} (tbl5 0 [entry_ 9 0 1 2 3 (2 * 65536 + 3 * 1024 + 1023)]))).dev.entryOf ctx5).get (by decide +kernel),
      ((at_ 10 (run799 1 ctx5 {} (tbl5 0 [entry_ 9 0 1 2 3 (2 * 65536 + 3 * 1024 + 1023)]))).grant 799 ctx5.task.cls (((at_ 10 (run799 1 ctx5 {} (tbl5 0 [entry_ 9 0 1 2 3 (2 * 65536 + 3 * 1024 + 1023)]))).dev.entryOf ctx5).get (by decide +kernel)).energy).get (by decide +kernel),
      by decide +kernel⟩,
   ⟨at_ 10 (run799 1 ctx5 {} (tbl5 0 [entry_ 9 1 1 2 3 (2 * 65536 + 3 * 1024 + 1023)])), 799, 1, 4095, ctx5,
      ((at_ 10 (run799 1 ctx5 {} (tbl5 0 [entry_ 9 1 1 2 3 (2 * 65536 + 3 * 1024 + 1023)]))).dev.entryOf ctx5).get (by decide +kernel),
      ((at_ 10 (run799 1 ctx5 {} (tbl5 0 [entry_ 9 1 1 2 3 (2 * 65536 + 3 * 1024 + 1023)]))).grant 799 ctx5.task.cls (((at_ 10 (run799 1 ctx5 {} (tbl5 0 [entry_ 9 1 1 2 3 (2 * 65536 + 3 * 1024 + 1023)]))).dev.entryOf ctx5).get (by decide +kernel)).energy).get (by decide +kernel),
      by decide +kernel⟩,
   ⟨at_ 100 { run799 1 { ctx5 with state := .barrier } {} [] with compute := { cores := [(799, { ctxs := [(1, { ctx5 with state := .barrier })] })], barriers := [(4095, { count := 1, first := 4, limit := 96, waiting := [(799, 1)] })] } },
      3, 1023, 4095, by decide +kernel⟩,
   ⟨at_ 100 { compute := { barriers := [(4095, { limit := 50, broken := some 50 })] } }, 3, 1023, 4095, 50, by decide +kernel⟩⟩

/-- The premises of ArraysCompute can be met. -/
theorem witness_ArraysCompute :
    (∃ s : State, ∃ core : Nat, ∃ ctx : Nat, ∃ x : Ctx, ∃ e : Entry, ∃ g : State, ∃ l, ∃ arr : Nat, ∃ region : Nat, ∃ lead, s.dev.canonical = true ∧
      e.sub = 0 ∧ s.issues core ctx 1 x e g ∧ x.move = none ∧ x.restarts = 0 ∧ s.arrayReady core x e = true ∧ l = s.dev.layerAt core x (x.addr e) ∧
      x.passSlots e l ≠ [] ∧ (s.dev.core core).place l = some (arr, region) ∧ lead = b2n (!(s.dev.core core).shaped l arr)) ∧
    (∃ s : State, ∃ core : Nat, ∃ ctx : Nat, ∃ x : Ctx, ∃ e : Entry, ∃ g : State, ∃ l, ∃ arr : Nat, ∃ region : Nat, ∃ lead, s.dev.canonical = true ∧
      e.sub = 0 ∧ s.issues core ctx 1 x e g ∧ x.move = none ∧ x.restarts = 0 ∧ s.arrayReady core x e = true ∧ l = s.dev.layerAt core x (x.addr e) ∧
      x.passSlots e l ≠ [] ∧ (s.dev.core core).place l = some (arr, region) ∧ lead = b2n (!(s.dev.core core).shaped l arr)) ∧
    (∃ s : State, ∃ core : Nat, ∃ ctx : Nat, ∃ x : Ctx, ∃ e : Entry, ∃ g : State, ∃ l, ∃ arr : Nat, ∃ region : Nat, ∃ lead, s.dev.canonical = true ∧
      e.sub = 0 ∧ s.issues core ctx 1 x e g ∧ x.move = none ∧ x.restarts = 0 ∧ s.arrayReady core x e = true ∧ l = s.dev.layerAt core x (x.addr e) ∧
      x.passSlots e l ≠ [] ∧ (s.dev.core core).place l = some (arr, region) ∧ lead = b2n (!(s.dev.core core).shaped l arr)) ∧
    (∃ s : State, ∃ core : Nat, ∃ ctx : Nat, ∃ x : Ctx, ∃ e : Entry, ∃ g : State, ∃ l, s.dev.canonical = true ∧ e.sub = 0 ∧
      s.issues core ctx 1 x e g ∧ x.move = none ∧ x.restarts = 0 ∧ s.arrayReady core x e = true ∧ l = s.dev.layerAt core x (x.addr e) ∧
      x.passSlots e l = []) ∧
    (∃ s : State, ∃ core : Nat, ∃ ctx : Nat, ∃ x : Ctx, ∃ e : Entry, ∃ g : State, s.dev.canonical = true ∧ e.sub = 0 ∧ s.issues core ctx 7 x e g ∧
      s.mvecReady core x = true ∧ x.slots e ≠ []) ∧
    (∃ s : State, ∃ core : Nat, ∃ ctx : Nat, ∃ x : Ctx, ∃ e : Entry, ∃ g : State, s.dev.canonical = true ∧ e.sub = 0 ∧ s.issues core ctx 7 x e g ∧
      s.mvecReady core x = true ∧ x.slots e = []) ∧
    (∃ s : State, ∃ core : Nat, ∃ i : Nat, ∃ x : Ctx, ∃ e : Entry, ∃ r : ArrayRun, ∃ l, ∃ t, s.dev.canonical = true ∧ e.sub = 0 ∧
      s.ctx core r.ctx = x ∧ s.dev.entryOf x = some e ∧ r.sealing = none ∧ x.ahead = 0 ∧ x.task.owner ≤ 1 ∧ l = s.dev.layerAt core x (x.addr e) ∧
      t = s.runEnds core r ∧ r.mvec = false ∧ x.move = none ∧ r.arr ≤ 1 ∧ x.passSlots e l = [i]) ∧
    (∃ s : State, ∃ core : Nat, ∃ i : Nat, ∃ x : Ctx, ∃ e : Entry, ∃ r : ArrayRun, ∃ l, ∃ t, s.dev.canonical = true ∧ e.sub = 0 ∧
      s.ctx core r.ctx = x ∧ s.dev.entryOf x = some e ∧ r.sealing = none ∧ x.ahead = 0 ∧ x.task.owner ≤ 1 ∧ l = s.dev.layerAt core x (x.addr e) ∧
      t = s.runEnds core r ∧ r.mvec = false ∧ x.move = none ∧ r.arr ≤ 1 ∧ x.passSlots e l = [i]) ∧
    (∃ s : State, ∃ core : Nat, ∃ i : Nat, ∃ x : Ctx, ∃ e : Entry, ∃ r : ArrayRun, ∃ l, ∃ t, s.dev.canonical = true ∧ e.sub = 0 ∧
      s.ctx core r.ctx = x ∧ s.dev.entryOf x = some e ∧ r.sealing = none ∧ x.ahead = 0 ∧ x.task.owner ≤ 1 ∧ l = s.dev.layerAt core x (x.addr e) ∧
      t = s.runEnds core r ∧ r.mvec = false ∧ x.move = none ∧ r.arr ≤ 1 ∧ x.passSlots e l = [i]) ∧
    (∃ s : State, ∃ core : Nat, ∃ i : Nat, ∃ x : Ctx, ∃ e : Entry, ∃ r : ArrayRun, ∃ l, ∃ t, s.dev.canonical = true ∧ e.sub = 0 ∧
      s.ctx core r.ctx = x ∧ s.dev.entryOf x = some e ∧ r.sealing = none ∧ x.ahead = 0 ∧ x.task.owner ≤ 1 ∧ l = s.dev.layerAt core x (x.addr e) ∧
      t = s.runEnds core r ∧ r.mvec = false ∧ x.move = none ∧ r.arr ≤ 1 ∧ x.passSlots e l = [i]) ∧
    (∃ s : State, ∃ core : Nat, ∃ i : Nat, ∃ x : Ctx, ∃ e : Entry, ∃ r : ArrayRun, ∃ l, ∃ t, s.dev.canonical = true ∧ e.sub = 0 ∧
      s.ctx core r.ctx = x ∧ s.dev.entryOf x = some e ∧ r.sealing = none ∧ x.ahead = 0 ∧ x.task.owner ≤ 1 ∧ l = s.dev.layerAt core x (x.addr e) ∧
      t = s.runEnds core r ∧ r.mvec = true ∧ x.slots e = [i] ∧ 1 ≤ l.n ∧ l.n ≤ l.w) ∧
    (∃ s : State, ∃ core : Nat, ∃ x : Ctx, ∃ e : Entry, ∃ r : ArrayRun, ∃ k, s.dev.canonical = true ∧ e.sub = 0 ∧
      (s.dev.core core).runOf r.ctx = some r ∧ s.ctx core r.ctx = x ∧ s.dev.entryOf x = some e ∧
      k = max r.ready (s.dev.core core).rescaleFree + (if r.mvec then (x.slots e).length * (((s.dev.layerAt core x (x.addr e)).n + 63) / 64) else (s.dev.layerAt core x (x.addr e)).rescaleSteps (x.tile e) (x.passSlots e (s.dev.layerAt core x (x.addr e))).length) * s.dev.stepOf core) ∧
    (∃ s : State, ∃ core : Nat, ∃ x : Ctx, ∃ e : Entry, ∃ r : ArrayRun, ∃ k, s.dev.canonical = true ∧ e.sub = 0 ∧
      (s.dev.core core).runOf r.ctx = some r ∧ s.ctx core r.ctx = x ∧ s.dev.entryOf x = some e ∧
      k = max r.ready (s.dev.core core).rescaleFree + (if r.mvec then (x.slots e).length * (((s.dev.layerAt core x (x.addr e)).n + 63) / 64) else (s.dev.layerAt core x (x.addr e)).rescaleSteps (x.tile e) (x.passSlots e (s.dev.layerAt core x (x.addr e))).length) * s.dev.stepOf core) ∧
    (∃ s : State, ∃ core : Nat, ∃ e : Entry, ∃ r : ArrayRun, ∃ k : Nat, s.dev.canonical = true ∧ e.sub = 0 ∧
      ((s.dev.compute.cores.filter fun e => !e.2.running.isEmpty).map (·.1)) = [core] ∧ (s.dev.core core).running = [r] ∧
      ((r.mvec = true ∨ r.arr ≤ 1 ∧ r.region < 4)) ∧ r.ends = some k ∧ k ≤ s.clock) ∧
    (∃ s : State, ∃ core : Nat, ∃ ctx : Nat, ∃ i : Nat, ∃ x : Ctx, ∃ e : Entry, ∃ g : State, ∃ v, ∃ l, s.dev.canonical = true ∧ e.sub = 0 ∧
      s.issues core ctx 6 x e g ∧ x.task.owner ≤ 1 ∧ s.unitFree core = true ∧ x.rescaleSlots e = [i] ∧ v = Table.get {} x.vecs i ∧
      l = s.dev.rescaleForm core x e v.raw.length) :=
  ⟨⟨at_ 10 (run799 1 ctx6 {} (img1 0 2 0 0 [entry_ 1 0 0 20 3 0])), 799, 1, ctx6,
      ((at_ 10 (run799 1 ctx6 {} (img1 0 2 0 0 [entry_ 1 0 0 20 3 0]))).dev.entryOf ctx6).get (by decide +kernel),
      ((at_ 10 (run799 1 ctx6 {} (img1 0 2 0 0 [entry_ 1 0 0 20 3 0]))).grant 799 ctx6.task.cls (((at_ 10 (run799 1 ctx6 {} (img1 0 2 0 0 [entry_ 1 0 0 20 3 0]))).dev.entryOf ctx6).get (by decide +kernel)).energy).get (by decide +kernel),
      (at_ 10 (run799 1 ctx6 {} (img1 0 2 0 0 [entry_ 1 0 0 20 3 0]))).dev.layerAt 799 ctx6 (ctx6.addr (((at_ 10 (run799 1 ctx6 {} (img1 0 2 0 0 [entry_ 1 0 0 20 3 0]))).dev.entryOf ctx6).get (by decide +kernel))),
      0, 0, b2n (!((at_ 10 (run799 1 ctx6 {} (img1 0 2 0 0 [entry_ 1 0 0 20 3 0]))).dev.core 799).shaped ((at_ 10 (run799 1 ctx6 {} (img1 0 2 0 0 [entry_ 1 0 0 20 3 0]))).dev.layerAt 799 ctx6 (ctx6.addr (((at_ 10 (run799 1 ctx6 {} (img1 0 2 0 0 [entry_ 1 0 0 20 3 0]))).dev.entryOf ctx6).get (by decide +kernel)))) 0),
      by decide +kernel⟩,
   ⟨at_ 10 (run799 1 ctx6 {} (img1 0 0 0 0 [entry_ 1 0 0 20 3 0])), 799, 1, ctx6,
      ((at_ 10 (run799 1 ctx6 {} (img1 0 0 0 0 [entry_ 1 0 0 20 3 0]))).dev.entryOf ctx6).get (by decide +kernel),
      ((at_ 10 (run799 1 ctx6 {} (img1 0 0 0 0 [entry_ 1 0 0 20 3 0]))).grant 799 ctx6.task.cls (((at_ 10 (run799 1 ctx6 {} (img1 0 0 0 0 [entry_ 1 0 0 20 3 0]))).dev.entryOf ctx6).get (by decide +kernel)).energy).get (by decide +kernel),
      (at_ 10 (run799 1 ctx6 {} (img1 0 0 0 0 [entry_ 1 0 0 20 3 0]))).dev.layerAt 799 ctx6 (ctx6.addr (((at_ 10 (run799 1 ctx6 {} (img1 0 0 0 0 [entry_ 1 0 0 20 3 0]))).dev.entryOf ctx6).get (by decide +kernel))),
      0, 0, b2n (!((at_ 10 (run799 1 ctx6 {} (img1 0 0 0 0 [entry_ 1 0 0 20 3 0]))).dev.core 799).shaped ((at_ 10 (run799 1 ctx6 {} (img1 0 0 0 0 [entry_ 1 0 0 20 3 0]))).dev.layerAt 799 ctx6 (ctx6.addr (((at_ 10 (run799 1 ctx6 {} (img1 0 0 0 0 [entry_ 1 0 0 20 3 0]))).dev.entryOf ctx6).get (by decide +kernel)))) 0),
      by decide +kernel⟩,
   ⟨at_ 10 (run799 1 ctx6 {} (img1 2 1 3 0 [entry_ 1 0 0 20 3 0])), 799, 1, ctx6,
      ((at_ 10 (run799 1 ctx6 {} (img1 2 1 3 0 [entry_ 1 0 0 20 3 0]))).dev.entryOf ctx6).get (by decide +kernel),
      ((at_ 10 (run799 1 ctx6 {} (img1 2 1 3 0 [entry_ 1 0 0 20 3 0]))).grant 799 ctx6.task.cls (((at_ 10 (run799 1 ctx6 {} (img1 2 1 3 0 [entry_ 1 0 0 20 3 0]))).dev.entryOf ctx6).get (by decide +kernel)).energy).get (by decide +kernel),
      (at_ 10 (run799 1 ctx6 {} (img1 2 1 3 0 [entry_ 1 0 0 20 3 0]))).dev.layerAt 799 ctx6 (ctx6.addr (((at_ 10 (run799 1 ctx6 {} (img1 2 1 3 0 [entry_ 1 0 0 20 3 0]))).dev.entryOf ctx6).get (by decide +kernel))),
      0, 0, b2n (!((at_ 10 (run799 1 ctx6 {} (img1 2 1 3 0 [entry_ 1 0 0 20 3 0]))).dev.core 799).shaped ((at_ 10 (run799 1 ctx6 {} (img1 2 1 3 0 [entry_ 1 0 0 20 3 0]))).dev.layerAt 799 ctx6 (ctx6.addr (((at_ 10 (run799 1 ctx6 {} (img1 2 1 3 0 [entry_ 1 0 0 20 3 0]))).dev.entryOf ctx6).get (by decide +kernel)))) 0),
      by decide +kernel⟩,
   ⟨at_ 10 (run799 1 ctx6 {} (img1 0 2 0 0 [entry_ 1 0 64 20 3 0])), 799, 1, ctx6,
      ((at_ 10 (run799 1 ctx6 {} (img1 0 2 0 0 [entry_ 1 0 64 20 3 0]))).dev.entryOf ctx6).get (by decide +kernel),
      ((at_ 10 (run799 1 ctx6 {} (img1 0 2 0 0 [entry_ 1 0 64 20 3 0]))).grant 799 ctx6.task.cls (((at_ 10 (run799 1 ctx6 {} (img1 0 2 0 0 [entry_ 1 0 64 20 3 0]))).dev.entryOf ctx6).get (by decide +kernel)).energy).get (by decide +kernel),
      (at_ 10 (run799 1 ctx6 {} (img1 0 2 0 0 [entry_ 1 0 64 20 3 0]))).dev.layerAt 799 ctx6 (ctx6.addr (((at_ 10 (run799 1 ctx6 {} (img1 0 2 0 0 [entry_ 1 0 64 20 3 0]))).dev.entryOf ctx6).get (by decide +kernel))),
      by decide +kernel⟩,
   ⟨at_ 10 (run799 1 ctx6 {} (img1 3 2 0 0 [entry_ 7 0 0 20 3 0])), 799, 1, ctx6,
      ((at_ 10 (run799 1 ctx6 {} (img1 3 2 0 0 [entry_ 7 0 0 20 3 0]))).dev.entryOf ctx6).get (by decide +kernel),
      ((at_ 10 (run799 1 ctx6 {} (img1 3 2 0 0 [entry_ 7 0 0 20 3 0]))).grant 799 ctx6.task.cls (((at_ 10 (run799 1 ctx6 {} (img1 3 2 0 0 [entry_ 7 0 0 20 3 0]))).dev.entryOf ctx6).get (by decide +kernel)).energy).get (by decide +kernel),
      by decide +kernel⟩,
   ⟨at_ 10 (run799 1 ctx6 {} (img1 3 2 0 0 [entry_ 7 0 64 20 3 0])), 799, 1, ctx6,
      ((at_ 10 (run799 1 ctx6 {} (img1 3 2 0 0 [entry_ 7 0 64 20 3 0]))).dev.entryOf ctx6).get (by decide +kernel),
      ((at_ 10 (run799 1 ctx6 {} (img1 3 2 0 0 [entry_ 7 0 64 20 3 0]))).grant 799 ctx6.task.cls (((at_ 10 (run799 1 ctx6 {} (img1 3 2 0 0 [entry_ 7 0 64 20 3 0]))).dev.entryOf ctx6).get (by decide +kernel)).energy).get (by decide +kernel),
      by decide +kernel⟩,
   ⟨at_ 10 (run799 1 ctx6 { running := [(({ ctx := 1, mode := 0, ready := 160, ends := some 160 } : ArrayRun))] } (img1 0 2 0 0 [entry_ 1 0 0 20 3 0])),
      799, 0, ctx6, ((at_ 10 (run799 1 ctx6 { running := [(({ ctx := 1, mode := 0, ready := 160, ends := some 160 } : ArrayRun))] } (img1 0 2 0 0 [entry_ 1 0 0 20 3 0]))).dev.entryOf ctx6).get (by decide +kernel),
      ({ ctx := 1, mode := 0, ready := 160, ends := some 160 } : ArrayRun),
      (at_ 10 (run799 1 ctx6 { running := [(({ ctx := 1, mode := 0, ready := 160, ends := some 160 } : ArrayRun))] } (img1 0 2 0 0 [entry_ 1 0 0 20 3 0]))).dev.layerAt 799 ctx6 (ctx6.addr (((at_ 10 (run799 1 ctx6 { running := [(({ ctx := 1, mode := 0, ready := 160, ends := some 160 } : ArrayRun))] } (img1 0 2 0 0 [entry_ 1 0 0 20 3 0]))).dev.entryOf ctx6).get (by decide +kernel))),
      (at_ 10 (run799 1 ctx6 { running := [(({ ctx := 1, mode := 0, ready := 160, ends := some 160 } : ArrayRun))] } (img1 0 2 0 0 [entry_ 1 0 0 20 3 0]))).runEnds 799 (({ ctx := 1, mode := 0, ready := 160, ends := some 160 } : ArrayRun)),
      by and_intros <;> (try with_reducible rfl) <;> decide +kernel⟩,
   ⟨at_ 10 (run799 1 ctx6 { running := [(({ ctx := 1, mode := 0, ready := 160, ends := some 160 } : ArrayRun))] } (img1 0 0 0 0 [entry_ 1 0 0 20 3 0])),
      799, 0, ctx6, ((at_ 10 (run799 1 ctx6 { running := [(({ ctx := 1, mode := 0, ready := 160, ends := some 160 } : ArrayRun))] } (img1 0 0 0 0 [entry_ 1 0 0 20 3 0]))).dev.entryOf ctx6).get (by decide +kernel),
      ({ ctx := 1, mode := 0, ready := 160, ends := some 160 } : ArrayRun),
      (at_ 10 (run799 1 ctx6 { running := [(({ ctx := 1, mode := 0, ready := 160, ends := some 160 } : ArrayRun))] } (img1 0 0 0 0 [entry_ 1 0 0 20 3 0]))).dev.layerAt 799 ctx6 (ctx6.addr (((at_ 10 (run799 1 ctx6 { running := [(({ ctx := 1, mode := 0, ready := 160, ends := some 160 } : ArrayRun))] } (img1 0 0 0 0 [entry_ 1 0 0 20 3 0]))).dev.entryOf ctx6).get (by decide +kernel))),
      (at_ 10 (run799 1 ctx6 { running := [(({ ctx := 1, mode := 0, ready := 160, ends := some 160 } : ArrayRun))] } (img1 0 0 0 0 [entry_ 1 0 0 20 3 0]))).runEnds 799 (({ ctx := 1, mode := 0, ready := 160, ends := some 160 } : ArrayRun)),
      by and_intros <;> (try with_reducible rfl) <;> decide +kernel⟩,
   ⟨at_ 10 (run799 1 ctx6 { running := [(({ ctx := 1, mode := 2, ready := 160, ends := some 160 } : ArrayRun))] } (img1 2 1 3 0 [entry_ 1 0 0 20 3 0])),
      799, 0, ctx6, ((at_ 10 (run799 1 ctx6 { running := [(({ ctx := 1, mode := 2, ready := 160, ends := some 160 } : ArrayRun))] } (img1 2 1 3 0 [entry_ 1 0 0 20 3 0]))).dev.entryOf ctx6).get (by decide +kernel),
      ({ ctx := 1, mode := 2, ready := 160, ends := some 160 } : ArrayRun),
      (at_ 10 (run799 1 ctx6 { running := [(({ ctx := 1, mode := 2, ready := 160, ends := some 160 } : ArrayRun))] } (img1 2 1 3 0 [entry_ 1 0 0 20 3 0]))).dev.layerAt 799 ctx6 (ctx6.addr (((at_ 10 (run799 1 ctx6 { running := [(({ ctx := 1, mode := 2, ready := 160, ends := some 160 } : ArrayRun))] } (img1 2 1 3 0 [entry_ 1 0 0 20 3 0]))).dev.entryOf ctx6).get (by decide +kernel))),
      (at_ 10 (run799 1 ctx6 { running := [(({ ctx := 1, mode := 2, ready := 160, ends := some 160 } : ArrayRun))] } (img1 2 1 3 0 [entry_ 1 0 0 20 3 0]))).runEnds 799 (({ ctx := 1, mode := 2, ready := 160, ends := some 160 } : ArrayRun)),
      by and_intros <;> (try with_reducible rfl) <;> decide +kernel⟩,
   ⟨at_ 10 (run799 1 ctx6 { running := [(({ ctx := 1, mode := 1, ready := 160, ends := some 160 } : ArrayRun))] } (img1 1 2 0 0 [entry_ 1 0 0 20 3 0])),
      799, 0, ctx6, ((at_ 10 (run799 1 ctx6 { running := [(({ ctx := 1, mode := 1, ready := 160, ends := some 160 } : ArrayRun))] } (img1 1 2 0 0 [entry_ 1 0 0 20 3 0]))).dev.entryOf ctx6).get (by decide +kernel),
      ({ ctx := 1, mode := 1, ready := 160, ends := some 160 } : ArrayRun),
      (at_ 10 (run799 1 ctx6 { running := [(({ ctx := 1, mode := 1, ready := 160, ends := some 160 } : ArrayRun))] } (img1 1 2 0 0 [entry_ 1 0 0 20 3 0]))).dev.layerAt 799 ctx6 (ctx6.addr (((at_ 10 (run799 1 ctx6 { running := [(({ ctx := 1, mode := 1, ready := 160, ends := some 160 } : ArrayRun))] } (img1 1 2 0 0 [entry_ 1 0 0 20 3 0]))).dev.entryOf ctx6).get (by decide +kernel))),
      (at_ 10 (run799 1 ctx6 { running := [(({ ctx := 1, mode := 1, ready := 160, ends := some 160 } : ArrayRun))] } (img1 1 2 0 0 [entry_ 1 0 0 20 3 0]))).runEnds 799 (({ ctx := 1, mode := 1, ready := 160, ends := some 160 } : ArrayRun)),
      by and_intros <;> (try with_reducible rfl) <;> decide +kernel⟩,
   ⟨at_ 10 (run799 1 ctx6 { running := [(({ ctx := 1, mvec := true, mode := 3, ready := 160, ends := some 160 } : ArrayRun))] } (img1 3 2 0 0 [entry_ 7 0 0 20 3 0])),
      799, 0, ctx6, ((at_ 10 (run799 1 ctx6 { running := [(({ ctx := 1, mvec := true, mode := 3, ready := 160, ends := some 160 } : ArrayRun))] } (img1 3 2 0 0 [entry_ 7 0 0 20 3 0]))).dev.entryOf ctx6).get (by decide +kernel),
      ({ ctx := 1, mvec := true, mode := 3, ready := 160, ends := some 160 } : ArrayRun),
      (at_ 10 (run799 1 ctx6 { running := [(({ ctx := 1, mvec := true, mode := 3, ready := 160, ends := some 160 } : ArrayRun))] } (img1 3 2 0 0 [entry_ 7 0 0 20 3 0]))).dev.layerAt 799 ctx6 (ctx6.addr (((at_ 10 (run799 1 ctx6 { running := [(({ ctx := 1, mvec := true, mode := 3, ready := 160, ends := some 160 } : ArrayRun))] } (img1 3 2 0 0 [entry_ 7 0 0 20 3 0]))).dev.entryOf ctx6).get (by decide +kernel))),
      (at_ 10 (run799 1 ctx6 { running := [(({ ctx := 1, mvec := true, mode := 3, ready := 160, ends := some 160 } : ArrayRun))] } (img1 3 2 0 0 [entry_ 7 0 0 20 3 0]))).runEnds 799 (({ ctx := 1, mvec := true, mode := 3, ready := 160, ends := some 160 } : ArrayRun)),
      by and_intros <;> (try with_reducible rfl) <;> decide +kernel⟩,
   ⟨at_ 10 (run799 1 ctx6 { running := [(({ ctx := 1, mvec := true, mode := 3, ready := 160 } : ArrayRun))] } (img1 3 2 0 0 [entry_ 7 0 0 20 3 0])),
      799, ctx6, ((at_ 10 (run799 1 ctx6 { running := [(({ ctx := 1, mvec := true, mode := 3, ready := 160 } : ArrayRun))] } (img1 3 2 0 0 [entry_ 7 0 0 20 3 0]))).dev.entryOf ctx6).get (by decide +kernel),
      ({ ctx := 1, mvec := true, mode := 3, ready := 160 } : ArrayRun),
      max (({ ctx := 1, mvec := true, mode := 3, ready := 160 } : ArrayRun)).ready ((at_ 10 (run799 1 ctx6 { running := [(({ ctx := 1, mvec := true, mode := 3, ready := 160 } : ArrayRun))] } (img1 3 2 0 0 [entry_ 7 0 0 20 3 0]))).dev.core 799).rescaleFree + (if (({ ctx := 1, mvec := true, mode := 3, ready := 160 } : ArrayRun)).mvec then (ctx6.slots (((at_ 10 (run799 1 ctx6 { running := [(({ ctx := 1, mvec := true, mode := 3, ready := 160 } : ArrayRun))] } (img1 3 2 0 0 [entry_ 7 0 0 20 3 0]))).dev.entryOf ctx6).get (by decide +kernel))).length * ((((at_ 10 (run799 1 ctx6 { running := [(({ ctx := 1, mvec := true, mode := 3, ready := 160 } : ArrayRun))] } (img1 3 2 0 0 [entry_ 7 0 0 20 3 0]))).dev.layerAt 799 ctx6 (ctx6.addr (((at_ 10 (run799 1 ctx6 { running := [(({ ctx := 1, mvec := true, mode := 3, ready := 160 } : ArrayRun))] } (img1 3 2 0 0 [entry_ 7 0 0 20 3 0]))).dev.entryOf ctx6).get (by decide +kernel)))).n + 63) / 64) else ((at_ 10 (run799 1 ctx6 { running := [(({ ctx := 1, mvec := true, mode := 3, ready := 160 } : ArrayRun))] } (img1 3 2 0 0 [entry_ 7 0 0 20 3 0]))).dev.layerAt 799 ctx6 (ctx6.addr (((at_ 10 (run799 1 ctx6 { running := [(({ ctx := 1, mvec := true, mode := 3, ready := 160 } : ArrayRun))] } (img1 3 2 0 0 [entry_ 7 0 0 20 3 0]))).dev.entryOf ctx6).get (by decide +kernel)))).rescaleSteps (ctx6.tile (((at_ 10 (run799 1 ctx6 { running := [(({ ctx := 1, mvec := true, mode := 3, ready := 160 } : ArrayRun))] } (img1 3 2 0 0 [entry_ 7 0 0 20 3 0]))).dev.entryOf ctx6).get (by decide +kernel))) (ctx6.passSlots (((at_ 10 (run799 1 ctx6 { running := [(({ ctx := 1, mvec := true, mode := 3, ready := 160 } : ArrayRun))] } (img1 3 2 0 0 [entry_ 7 0 0 20 3 0]))).dev.entryOf ctx6).get (by decide +kernel)) ((at_ 10 (run799 1 ctx6 { running := [(({ ctx := 1, mvec := true, mode := 3, ready := 160 } : ArrayRun))] } (img1 3 2 0 0 [entry_ 7 0 0 20 3 0]))).dev.layerAt 799 ctx6 (ctx6.addr (((at_ 10 (run799 1 ctx6 { running := [(({ ctx := 1, mvec := true, mode := 3, ready := 160 } : ArrayRun))] } (img1 3 2 0 0 [entry_ 7 0 0 20 3 0]))).dev.entryOf ctx6).get (by decide +kernel))))).length) * (at_ 10 (run799 1 ctx6 { running := [(({ ctx := 1, mvec := true, mode := 3, ready := 160 } : ArrayRun))] } (img1 3 2 0 0 [entry_ 7 0 0 20 3 0]))).dev.stepOf 799,
      by and_intros <;> (try with_reducible rfl) <;> decide +kernel⟩,
   ⟨at_ 10 (run799 1 ctx6 { running := [(({ ctx := 1, mode := 0, ready := 160 } : ArrayRun))] } (img1 0 2 0 0 [entry_ 1 0 0 20 3 0])), 799, ctx6,
      ((at_ 10 (run799 1 ctx6 { running := [(({ ctx := 1, mode := 0, ready := 160 } : ArrayRun))] } (img1 0 2 0 0 [entry_ 1 0 0 20 3 0]))).dev.entryOf ctx6).get (by decide +kernel),
      ({ ctx := 1, mode := 0, ready := 160 } : ArrayRun),
      max (({ ctx := 1, mode := 0, ready := 160 } : ArrayRun)).ready ((at_ 10 (run799 1 ctx6 { running := [(({ ctx := 1, mode := 0, ready := 160 } : ArrayRun))] } (img1 0 2 0 0 [entry_ 1 0 0 20 3 0]))).dev.core 799).rescaleFree + (if (({ ctx := 1, mode := 0, ready := 160 } : ArrayRun)).mvec then (ctx6.slots (((at_ 10 (run799 1 ctx6 { running := [(({ ctx := 1, mode := 0, ready := 160 } : ArrayRun))] } (img1 0 2 0 0 [entry_ 1 0 0 20 3 0]))).dev.entryOf ctx6).get (by decide +kernel))).length * ((((at_ 10 (run799 1 ctx6 { running := [(({ ctx := 1, mode := 0, ready := 160 } : ArrayRun))] } (img1 0 2 0 0 [entry_ 1 0 0 20 3 0]))).dev.layerAt 799 ctx6 (ctx6.addr (((at_ 10 (run799 1 ctx6 { running := [(({ ctx := 1, mode := 0, ready := 160 } : ArrayRun))] } (img1 0 2 0 0 [entry_ 1 0 0 20 3 0]))).dev.entryOf ctx6).get (by decide +kernel)))).n + 63) / 64) else ((at_ 10 (run799 1 ctx6 { running := [(({ ctx := 1, mode := 0, ready := 160 } : ArrayRun))] } (img1 0 2 0 0 [entry_ 1 0 0 20 3 0]))).dev.layerAt 799 ctx6 (ctx6.addr (((at_ 10 (run799 1 ctx6 { running := [(({ ctx := 1, mode := 0, ready := 160 } : ArrayRun))] } (img1 0 2 0 0 [entry_ 1 0 0 20 3 0]))).dev.entryOf ctx6).get (by decide +kernel)))).rescaleSteps (ctx6.tile (((at_ 10 (run799 1 ctx6 { running := [(({ ctx := 1, mode := 0, ready := 160 } : ArrayRun))] } (img1 0 2 0 0 [entry_ 1 0 0 20 3 0]))).dev.entryOf ctx6).get (by decide +kernel))) (ctx6.passSlots (((at_ 10 (run799 1 ctx6 { running := [(({ ctx := 1, mode := 0, ready := 160 } : ArrayRun))] } (img1 0 2 0 0 [entry_ 1 0 0 20 3 0]))).dev.entryOf ctx6).get (by decide +kernel)) ((at_ 10 (run799 1 ctx6 { running := [(({ ctx := 1, mode := 0, ready := 160 } : ArrayRun))] } (img1 0 2 0 0 [entry_ 1 0 0 20 3 0]))).dev.layerAt 799 ctx6 (ctx6.addr (((at_ 10 (run799 1 ctx6 { running := [(({ ctx := 1, mode := 0, ready := 160 } : ArrayRun))] } (img1 0 2 0 0 [entry_ 1 0 0 20 3 0]))).dev.entryOf ctx6).get (by decide +kernel))))).length) * (at_ 10 (run799 1 ctx6 { running := [(({ ctx := 1, mode := 0, ready := 160 } : ArrayRun))] } (img1 0 2 0 0 [entry_ 1 0 0 20 3 0]))).dev.stepOf 799,
      by and_intros <;> (try with_reducible rfl) <;> decide +kernel⟩,
   ⟨at_ 10 (run799 1 ctx6 { running := [(({ ctx := 1, mode := 0, ready := 100, ends := some 130 } : ArrayRun))] } (img1 0 2 0 0 [entry_ 1 0 0 20 3 0])),
      799, ((at_ 10 (run799 1 ctx6 { running := [(({ ctx := 1, mode := 0, ready := 100, ends := some 130 } : ArrayRun))] } (img1 0 2 0 0 [entry_ 1 0 0 20 3 0]))).dev.entryOf ctx6).get (by decide +kernel),
      ({ ctx := 1, mode := 0, ready := 100, ends := some 130 } : ArrayRun), 130, by decide +kernel⟩,
   ⟨at_ 10 (run799 1 ctx6 {} (img1 3 2 0 0 [entry_ 6 0 0 20 3 256])), 799, 1, 0, ctx6,
      ((at_ 10 (run799 1 ctx6 {} (img1 3 2 0 0 [entry_ 6 0 0 20 3 256]))).dev.entryOf ctx6).get (by decide +kernel),
      ((at_ 10 (run799 1 ctx6 {} (img1 3 2 0 0 [entry_ 6 0 0 20 3 256]))).grant 799 ctx6.task.cls (((at_ 10 (run799 1 ctx6 {} (img1 3 2 0 0 [entry_ 6 0 0 20 3 256]))).dev.entryOf ctx6).get (by decide +kernel)).energy).get (by decide +kernel),
      Table.get {} ctx6.vecs 0,
      (at_ 10 (run799 1 ctx6 {} (img1 3 2 0 0 [entry_ 6 0 0 20 3 256]))).dev.rescaleForm 799 ctx6 (((at_ 10 (run799 1 ctx6 {} (img1 3 2 0 0 [entry_ 6 0 0 20 3 256]))).dev.entryOf ctx6).get (by decide +kernel)) (Table.get {} ctx6.vecs 0).raw.length,
      by and_intros <;> (try decide +kernel) <;> exact rfl⟩⟩

/-- The premises of TreesDecide can be met. -/
theorem witness_TreesDecide :
    (∃ s : State, ∃ core : Nat, ∃ ctx : Nat, ∃ i : Nat, ∃ k : Nat, ∃ n : Nat, ∃ hg : Nat, ∃ m : Nat, ∃ x : Ctx, ∃ e : Entry, ∃ h : State,
      ∃ p : Packet, ∃ g : Generation, s.dev.canonical = true ∧ x.slots e = [i] ∧ s.dev.slotPacket x i = some (k, p) ∧ s.dev.packetGen p = some (m,
      g) ∧ s.issues core ctx 4 x e h ∧ e.sub ≤ 1 ∧ p.chan = some (n, hg)) ∧
    (∃ s : State, ∃ core : Nat, ∃ ctx : Nat, ∃ i : Nat, ∃ k : Nat, ∃ m : Nat, ∃ x : Ctx, ∃ e : Entry, ∃ h : State, ∃ p : Packet, ∃ g : Generation,
      s.dev.canonical = true ∧ x.slots e = [i] ∧ s.dev.slotPacket x i = some (k, p) ∧ s.dev.packetGen p = some (m, g) ∧ s.issues core ctx 3 x e h ∧
      g.featCount ≠ 0) ∧
    (∃ s : State, ∃ core : Nat, ∃ ctx : Nat, ∃ i : Nat, ∃ k : Nat, ∃ m : Nat, ∃ x : Ctx, ∃ e : Entry, ∃ h : State, ∃ p : Packet, ∃ g : Generation,
      ∃ rows, ∃ comps, ∃ segs, ∃ quarters, ∃ acc, ∃ next : Nat, s.dev.canonical = true ∧ x.slots e = [i] ∧ s.dev.slotPacket x i = some (k, p) ∧
      s.dev.packetGen p = some (m, g) ∧ s.issues core ctx 2 x e h ∧ (x.work i).index = none ∧
      s.treeSegments core ctx e.sub (s.dev.chan m).pinned (genKey false m p.gen) (x.work i).next g = some (segs, quarters) ∧
      acc = (passSum (segs.flatMap fun q => g.segLeaves (x.work i).codes (rows ++ s.amKnown core 0 segs quarters) (comps ++
      s.amKnown core 1 segs quarters) q) (if (x.work i).next = 0 then g.biases else (x.work i).acc)).1 ∧
      next = (if (s.dev.chan m).pinned then g.segments else (x.work i).next + segs.length)) ∧
    (∃ s : State, ∃ core : Nat, ∃ ctx : Nat, ∃ i : Nat, ∃ k : Nat, ∃ m : Nat, ∃ x : Ctx, ∃ e : Entry, ∃ p : Packet, ∃ g : Generation, ∃ key, ∃ q,
      ∃ next : Nat, s.dev.canonical = true ∧ x.slots e = [i] ∧ s.dev.slotPacket x i = some (k, p) ∧ s.dev.packetGen p = some (m, g) ∧
      s.ctx core ctx = x ∧ s.dev.entryOf x = some e ∧ s.turn core ctx = true ∧ s.canIssue core x = true ∧ e.op = 2 ∧ s.streamedPass x e = some (key,
      q, next) ∧ s.treeSegments core ctx e.sub false key next q = none) ∧
    (∃ s : State, ∃ core : Nat, ∃ ctx : Nat, ∃ i : Nat, ∃ k : Nat, ∃ m : Nat, ∃ x : Ctx, ∃ e : Entry, ∃ h : State, ∃ p : Packet, ∃ g : Generation,
      s.dev.canonical = true ∧ x.slots e = [i] ∧ s.dev.slotPacket x i = some (k, p) ∧ s.dev.packetGen p = some (m, g) ∧ s.issues core ctx 8 x e h ∧
      e.sub = 0 ∧ e.commit = false) ∧
    (∃ s : State, ∃ core : Nat, ∃ ctx : Nat, ∃ i : Nat, ∃ k : Nat, ∃ m : Nat, ∃ x : Ctx, ∃ e : Entry, ∃ h : State, ∃ p : Packet, ∃ g : Generation,
      ∃ a : Nat, s.dev.canonical = true ∧ x.slots e = [i] ∧ s.dev.slotPacket x i = some (k, p) ∧ s.dev.packetGen p = some (m, g) ∧
      s.issues core ctx 8 x e h ∧ e.sub = 0 ∧ e.commit = true ∧ (x.work i).index = some a ∧ (x.work i).emitted = false ∧ p.stage = .running) :=
  ⟨⟨at_ 10 (withPkt pkt6 (run799 1 ctx6 {} (img2 [entry_ 4 0 0 470 3 0]))), 799, 1, 0, 6, 5, 2, 5, ctx6,
      ((at_ 10 (withPkt pkt6 (run799 1 ctx6 {} (img2 [entry_ 4 0 0 470 3 0])))).dev.entryOf ctx6).get (by decide +kernel),
      ((at_ 10 (withPkt pkt6 (run799 1 ctx6 {} (img2 [entry_ 4 0 0 470 3 0])))).grant 799 ctx6.task.cls (((at_ 10 (withPkt pkt6 (run799 1 ctx6 {} (img2 [entry_ 4 0 0 470 3 0])))).dev.entryOf ctx6).get (by decide +kernel)).energy).get (by decide +kernel),
      pkt6, gen5 (img2 [entry_ 4 0 0 470 3 0]), by decide +kernel⟩,
   ⟨at_ 10 (withPkt pkt6 (run799 1 ctx6 {} (img2 [entry_ 3 0 0 470 3 0]))), 799, 1, 0, 6, 5, ctx6,
      ((at_ 10 (withPkt pkt6 (run799 1 ctx6 {} (img2 [entry_ 3 0 0 470 3 0])))).dev.entryOf ctx6).get (by decide +kernel),
      ((at_ 10 (withPkt pkt6 (run799 1 ctx6 {} (img2 [entry_ 3 0 0 470 3 0])))).grant 799 ctx6.task.cls (((at_ 10 (withPkt pkt6 (run799 1 ctx6 {} (img2 [entry_ 3 0 0 470 3 0])))).dev.entryOf ctx6).get (by decide +kernel)).energy).get (by decide +kernel),
      pkt6, gen5 (img2 [entry_ 3 0 0 470 3 0]), by decide +kernel⟩,
   ⟨at_ 10 (withPkt pkt6 (run799 1 ctx6 { window := some { ctx := 1, key := genKey false 5 3, quarters := [0], ended := some 9 } } (img2 [entry_ 2 1 0 470 3 0]))),
      799, 1, 0, 6, 5, ctx6,
      ((at_ 10 (withPkt pkt6 (run799 1 ctx6 { window := some { ctx := 1, key := genKey false 5 3, quarters := [0], ended := some 9 } } (img2 [entry_ 2 1 0 470 3 0])))).dev.entryOf ctx6).get (by decide +kernel),
      ((at_ 10 (withPkt pkt6 (run799 1 ctx6 { window := some { ctx := 1, key := genKey false 5 3, quarters := [0], ended := some 9 } } (img2 [entry_ 2 1 0 470 3 0])))).grant 799 ctx6.task.cls (((at_ 10 (withPkt pkt6 (run799 1 ctx6 { window := some { ctx := 1, key := genKey false 5 3, quarters := [0], ended := some 9 } } (img2 [entry_ 2 1 0 470 3 0])))).dev.entryOf ctx6).get (by decide +kernel)).energy).get (by decide +kernel),
      pkt6, gen5 (img2 [entry_ 2 1 0 470 3 0]), [], [], [0], [0], [5, 9], 1, by decide +kernel⟩,
   ⟨at_ 10 (withPkt pkt6 (run799 1 ctx6 {} (img2 [entry_ 2 1 0 470 3 0]))), 799, 1, 0, 6, 5, ctx6,
      ((at_ 10 (withPkt pkt6 (run799 1 ctx6 {} (img2 [entry_ 2 1 0 470 3 0])))).dev.entryOf ctx6).get (by decide +kernel), pkt6,
      gen5 (img2 [entry_ 2 1 0 470 3 0]), genKey false 5 3, gen5 (img2 [entry_ 2 1 0 470 3 0]), 0, by decide +kernel⟩,
   ⟨at_ 10 (withPkt pkt6 (run799 1 ({ ctx6 with works := [(0, { index := some 1 })] }) {} (img2 [entry_ 8 0 0 470 3 0]))), 799, 1, 0, 6, 5,
      { ctx6 with works := [(0, { index := some 1 })] },
      ((at_ 10 (withPkt pkt6 (run799 1 ({ ctx6 with works := [(0, { index := some 1 })] }) {} (img2 [entry_ 8 0 0 470 3 0])))).dev.entryOf ({ ctx6 with works := [(0, { index := some 1 })] })).get (by decide +kernel),
      ((at_ 10 (withPkt pkt6 (run799 1 ({ ctx6 with works := [(0, { index := some 1 })] }) {} (img2 [entry_ 8 0 0 470 3 0])))).grant 799 ({ ctx6 with works := [(0, { index := some 1 })] }).task.cls (((at_ 10 (withPkt pkt6 (run799 1 ({ ctx6 with works := [(0, { index := some 1 })] }) {} (img2 [entry_ 8 0 0 470 3 0])))).dev.entryOf ({ ctx6 with works := [(0, { index := some 1 })] })).get (by decide +kernel)).energy).get (by decide +kernel),
      pkt6, gen5 (img2 [entry_ 8 0 0 470 3 0]), by decide +kernel⟩,
   ⟨at_ 10 (withPkt pkt6 (run799 1 ({ ctx6 with works := [(0, { index := some 1 })] }) {} (img2 [entry_ 8 0 4 470 3 0]))), 799, 1, 0, 6, 5,
      { ctx6 with works := [(0, { index := some 1 })] },
      ((at_ 10 (withPkt pkt6 (run799 1 ({ ctx6 with works := [(0, { index := some 1 })] }) {} (img2 [entry_ 8 0 4 470 3 0])))).dev.entryOf ({ ctx6 with works := [(0, { index := some 1 })] })).get (by decide +kernel),
      ((at_ 10 (withPkt pkt6 (run799 1 ({ ctx6 with works := [(0, { index := some 1 })] }) {} (img2 [entry_ 8 0 4 470 3 0])))).grant 799 ({ ctx6 with works := [(0, { index := some 1 })] }).task.cls (((at_ 10 (withPkt pkt6 (run799 1 ({ ctx6 with works := [(0, { index := some 1 })] }) {} (img2 [entry_ 8 0 4 470 3 0])))).dev.entryOf ({ ctx6 with works := [(0, { index := some 1 })] })).get (by decide +kernel)).energy).get (by decide +kernel),
      pkt6, gen5 (img2 [entry_ 8 0 4 470 3 0]), 1, by decide +kernel⟩⟩

/-- The premises of PassesStopAndAdapt can be met. -/
theorem witness_PassesStopAndAdapt :
    (∃ s : State, ∃ core : Nat, ∃ ctx : Nat, ∃ x : Ctx, ∃ e : Entry, ∃ tiles : Nat, ∃ a, ∃ l, ∃ r : ArrayRun, ∃ done, s.dev.canonical = true ∧
      s.ctx core ctx = x ∧ s.dev.entryOf x = some e ∧ (s.dev.core core).runOf ctx = some r ∧ a = x.addr e ∧ l = s.dev.layerAt core x a ∧
      r.mvec = false ∧ s.canSeal r = true ∧ x.cancel = false ∧ x.fault = none ∧
      done = x.firstTile + l.tilesIn (x.passSlots e l).length x.firstTile (s.stepsTaken core r - r.lead) ∧ tiles < l.tiles ∧ done ≤ tiles ∧
      tiles ≤ done + 1 ∧ ((s.dev.core core).adjourn = some ctx ∨ s.clockAsks core ctx = true)) ∧
    (∃ s : State, ∃ core : Nat, ∃ r : ArrayRun, ∃ m : SealedMove, ∃ t, s.dev.canonical = true ∧ r.sealing = some m ∧ t = s.runEnds core r) ∧
    (∃ s : State, ∃ core : Nat, ∃ ctx : Nat, ∃ x : Ctx, ∃ e : Entry, ∃ kind : Nat, ∃ arr : Nat, ∃ region : Nat, ∃ p, ∃ r : ArrayRun,
      s.dev.canonical = true ∧ s.ctx core ctx = x ∧ s.dev.entryOf x = some e ∧
      (s.dev.core core).running.filter (fun q => decide (q.ctx = ctx)) = [r] ∧
      r.strikes (decide ((s.dev.layerAt core x (x.addr e)).mode = 1) && (s.dev.layerAt core x (x.addr e)).twinCheck) x.move.isSome kind arr region = true ∧
      ((kind = 3 → (s.dev.core core).running = [r])) ∧ s.dev.corePage tArray core = some p ∧ s.clearedNow p = false) ∧
    (∃ s : State, ∃ core : Nat, ∃ ctx : Nat, ∃ x : Ctx, ∃ e : Entry, ∃ kind : Nat, ∃ arr : Nat, ∃ region : Nat, ∃ p, ∃ r : ArrayRun,
      s.dev.canonical = true ∧ s.ctx core ctx = x ∧ s.dev.entryOf x = some e ∧
      (s.dev.core core).running.filter (fun q => decide (q.ctx = ctx)) = [r] ∧
      r.strikes (decide ((s.dev.layerAt core x (x.addr e)).mode = 1) && (s.dev.layerAt core x (x.addr e)).twinCheck) x.move.isSome kind arr region = true ∧
      ((kind = 3 → (s.dev.core core).running = [r])) ∧ s.dev.corePage tArray core = some p ∧ s.clearedNow p = false) ∧
    (∃ s : State, ∃ core : Nat, ∃ deep, ∃ target : Nat, ∃ gen : Nat, ∃ a : Nat, ∃ g, ∃ rd, ∃ l, s.dev.canonical = true ∧
      s.dev.gen? deep target gen = some g ∧ rd = s.dev.taskByte core ((if deep then 2 else 1) * 2 ^ 28 + target * 65536) gen ∧
      l = layerD ((List.range 64).map fun i => rd (a + i)) ∧ l.adaptLog ≠ 0 ∧ (s.now + 1) % 2 ^ l.adaptLog = 0) ∧
    (∃ s : State, ∃ core : Nat, ∃ k, ∃ c, s.dev.canonical = true ∧ Table.get? (s.dev.core core).scale k = some c) :=
  ⟨⟨at_ 10 (run799 4 ctx7 { adjourn := some 4, running := [(({ ctx := 4, mode := 0, began := 9, ready := 9999 } : ArrayRun))] } (img1 0 2 0 2 [entry_ 1 0 0 20 3 0])),
      799, 4, ctx7, ((at_ 10 (run799 4 ctx7 { adjourn := some 4, running := [(({ ctx := 4, mode := 0, began := 9, ready := 9999 } : ArrayRun))] } (img1 0 2 0 2 [entry_ 1 0 0 20 3 0]))).dev.entryOf ctx7).get (by decide +kernel),
      0, ctx7.addr (((at_ 10 (run799 4 ctx7 { adjourn := some 4, running := [(({ ctx := 4, mode := 0, began := 9, ready := 9999 } : ArrayRun))] } (img1 0 2 0 2 [entry_ 1 0 0 20 3 0]))).dev.entryOf ctx7).get (by decide +kernel)),
      (at_ 10 (run799 4 ctx7 { adjourn := some 4, running := [(({ ctx := 4, mode := 0, began := 9, ready := 9999 } : ArrayRun))] } (img1 0 2 0 2 [entry_ 1 0 0 20 3 0]))).dev.layerAt 799 ctx7 (ctx7.addr (((at_ 10 (run799 4 ctx7 { adjourn := some 4, running := [(({ ctx := 4, mode := 0, began := 9, ready := 9999 } : ArrayRun))] } (img1 0 2 0 2 [entry_ 1 0 0 20 3 0]))).dev.entryOf ctx7).get (by decide +kernel))),
      ({ ctx := 4, mode := 0, began := 9, ready := 9999 } : ArrayRun),
      ctx7.firstTile + ((at_ 10 (run799 4 ctx7 { adjourn := some 4, running := [(({ ctx := 4, mode := 0, began := 9, ready := 9999 } : ArrayRun))] } (img1 0 2 0 2 [entry_ 1 0 0 20 3 0]))).dev.layerAt 799 ctx7 (ctx7.addr (((at_ 10 (run799 4 ctx7 { adjourn := some 4, running := [(({ ctx := 4, mode := 0, began := 9, ready := 9999 } : ArrayRun))] } (img1 0 2 0 2 [entry_ 1 0 0 20 3 0]))).dev.entryOf ctx7).get (by decide +kernel)))).tilesIn (ctx7.passSlots (((at_ 10 (run799 4 ctx7 { adjourn := some 4, running := [(({ ctx := 4, mode := 0, began := 9, ready := 9999 } : ArrayRun))] } (img1 0 2 0 2 [entry_ 1 0 0 20 3 0]))).dev.entryOf ctx7).get (by decide +kernel)) ((at_ 10 (run799 4 ctx7 { adjourn := some 4, running := [(({ ctx := 4, mode := 0, began := 9, ready := 9999 } : ArrayRun))] } (img1 0 2 0 2 [entry_ 1 0 0 20 3 0]))).dev.layerAt 799 ctx7 (ctx7.addr (((at_ 10 (run799 4 ctx7 { adjourn := some 4, running := [(({ ctx := 4, mode := 0, began := 9, ready := 9999 } : ArrayRun))] } (img1 0 2 0 2 [entry_ 1 0 0 20 3 0]))).dev.entryOf ctx7).get (by decide +kernel))))).length ctx7.firstTile ((at_ 10 (run799 4 ctx7 { adjourn := some 4, running := [(({ ctx := 4, mode := 0, began := 9, ready := 9999 } : ArrayRun))] } (img1 0 2 0 2 [entry_ 1 0 0 20 3 0]))).stepsTaken 799 (({ ctx := 4, mode := 0, began := 9, ready := 9999 } : ArrayRun)) - (({ ctx := 4, mode := 0, began := 9, ready := 9999 } : ArrayRun)).lead),
      by decide +kernel⟩,
   ⟨at_ 10 (run799 4 ctx7 { running := [(({ ctx := 4, mode := 0, began := 5, ready := 160, ends := some 150, sealing := some (({ slots := 1, nextTile := 0, cols := 1, thread := 4, acc := [[7]] } : SealedMove)) } : ArrayRun))] } (img1 0 2 0 2 [entry_ 1 0 0 20 3 0])),
      799, ({ ctx := 4, mode := 0, began := 5, ready := 160, ends := some 150, sealing := some (({ slots := 1, nextTile := 0, cols := 1, thread := 4, acc := [[7]] } : SealedMove)) } : ArrayRun),
      ({ slots := 1, nextTile := 0, cols := 1, thread := 4, acc := [[7]] } : SealedMove),
      (at_ 10 (run799 4 ctx7 { running := [(({ ctx := 4, mode := 0, began := 5, ready := 160, ends := some 150, sealing := some (({ slots := 1, nextTile := 0, cols := 1, thread := 4, acc := [[7]] } : SealedMove)) } : ArrayRun))] } (img1 0 2 0 2 [entry_ 1 0 0 20 3 0]))).runEnds 799 (({ ctx := 4, mode := 0, began := 5, ready := 160, ends := some 150, sealing := some (({ slots := 1, nextTile := 0, cols := 1, thread := 4, acc := [[7]] } : SealedMove)) } : ArrayRun)),
      by and_intros <;> (try with_reducible rfl) <;> decide +kernel⟩,
   ⟨at_ 10 (run799 4 ctx6 { running := [(({ ctx := 4, mode := 0, began := 9, ready := 9999 } : ArrayRun))] } (img1 0 2 0 0 [entry_ 1 0 0 20 3 0])),
      799, 4, ctx6, ((at_ 10 (run799 4 ctx6 { running := [(({ ctx := 4, mode := 0, began := 9, ready := 9999 } : ArrayRun))] } (img1 0 2 0 0 [entry_ 1 0 0 20 3 0]))).dev.entryOf ctx6).get (by decide +kernel),
      3, 1, 0, pageOf tArray 831, ({ ctx := 4, mode := 0, began := 9, ready := 9999 } : ArrayRun), by decide +kernel⟩,
   ⟨at_ 10 (run799 4 ({ ctx6 with restarts := 14 }) { running := [(({ ctx := 4, mode := 0, began := 9, ready := 9999 } : ArrayRun))] } (img1 0 2 0 0 [entry_ 1 0 0 20 3 0])),
      799, 4, { ctx6 with restarts := 14 },
      ((at_ 10 (run799 4 ({ ctx6 with restarts := 14 }) { running := [(({ ctx := 4, mode := 0, began := 9, ready := 9999 } : ArrayRun))] } (img1 0 2 0 0 [entry_ 1 0 0 20 3 0]))).dev.entryOf ({ ctx6 with restarts := 14 })).get (by decide +kernel),
      1, 0, 0, pageOf tArray 831, ({ ctx := 4, mode := 0, began := 9, ready := 9999 } : ArrayRun), by decide +kernel⟩,
   ⟨at_ 31 (run799 4 ctx6 { scale := [(scaleKey 1283 256 0, { bits := { shift := 3, seen := true } })] } (img1 0 2 3 0 [])), 799, false, 5, 3, 0,
      gen5 (img1 0 2 3 0 []),
      (at_ 31 (run799 4 ctx6 { scale := [(scaleKey 1283 256 0, { bits := { shift := 3, seen := true } })] } (img1 0 2 3 0 []))).dev.taskByte 799 ((if false then 2 else 1) * 2 ^ 28 + 5 * 65536) 3,
      layerD ((List.range 64).map fun i => ((at_ 31 (run799 4 ctx6 { scale := [(scaleKey 1283 256 0, { bits := { shift := 3, seen := true } })] } (img1 0 2 3 0 []))).dev.taskByte 799 ((if false then 2 else 1) * 2 ^ 28 + 5 * 65536) 3) (0 + i)),
      by and_intros <;> (try decide +kernel) <;> exact rfl⟩,
   ⟨at_ 31 (run799 4 ctx6 { scale := [(scaleKey 1283 256 0, { bits := { shift := 3, seen := true } })] } (img1 0 2 3 0 [])), 799, scaleKey 1283 256 0,
      (Table.get {} ((at_ 31 (run799 4 ctx6 { scale := [(scaleKey 1283 256 0, { bits := { shift := 3, seen := true } })] } (img1 0 2 3 0 []))).dev.core 799).scale (scaleKey 1283 256 0)),
      by decide +kernel⟩⟩

/-- The premises of FeaturesFollow can be met. -/
theorem witness_FeaturesFollow :
    (∃ s : State, ∃ chan : Nat, ∃ r : Nat, ∃ i : Item, s.dev.canonical = true ∧ (s.chan chan).input = some r ∧ (s.ringConsume r).2 = some i ∧
      (s.ring r).tookPly ≠ some s.now ∧ hostItemGood i = true) ∧
    (∃ s : State, ∃ chan : Nat, ∃ r : Nat, ∃ i : Item, s.dev.canonical = true ∧ (s.chan chan).input = some r ∧ (s.ringConsume r).2 = some i ∧
      (s.ring r).tookPly ≠ some s.now ∧ hostItemGood i = false ∧ s.clearedNow pgFeature = false) ∧
    (∃ s : State, ∃ i, ∃ rest, s.dev.canonical = true ∧ s.dev.compute.hostItems = i :: rest ∧ i.due ≤ s.now ∧ (s.chan i.chan).state ≠ .free ∧
      (s.chan i.chan).hgen = i.hgen) ∧
    (∃ s : State, ∃ chan : Nat, ∃ gen : Nat, ∃ g, s.dev.canonical = true ∧ s.dev.gen? false chan gen = some g ∧ g.windowLog ≠ 0 ∧
      (s.now + 1) % 2 ^ g.windowLog = 0) ∧
    (∃ s : State, ∃ chan : Nat, ∃ gen : Nat, ∃ g, ∃ i : Nat, s.dev.canonical = true ∧ s.dev.gen? false chan gen = some g ∧
      ((List.range g.featCount).filter fun i => g.ftAdapt i) = [i]) :=
  ⟨⟨at_ 31 { objects := { channels := [(5, { state := .bound, hgen := 2, input := some 7 })], rings := [(7, { use := .feature, size := 4096, hostProduced := true, items := [(({ kind := 0x15, len := 2, body := [63, 1] ++ zeros 14 } : Item))] })] } },
      5, 7, ({ kind := 0x15, len := 2, body := [63, 1] ++ zeros 14 } : Item), by decide +kernel⟩,
   ⟨at_ 31 { objects := { channels := [(5, { state := .bound, hgen := 2, input := some 7 })], rings := [(7, { use := .feature, size := 4096, hostProduced := true, items := [(({ kind := 0x15, len := 2, body := [64, 1] ++ zeros 14 } : Item))] })] } },
      5, 7, ({ kind := 0x15, len := 2, body := [64, 1] ++ zeros 14 } : Item), by and_intros <;> (try exact clear _ _ rfl rfl _) <;> decide +kernel⟩,
   ⟨at_ 31 { objects := { channels := [(5, { state := .bound, hgen := 2 })] }, compute := { hostItems := [({ chan := 5, hgen := 2, due := 31, first := 63, values := [9] })] } },
      { chan := 5, hgen := 2, due := 31, first := 63, values := [9] }, [], by decide +kernel⟩,
   ⟨at_ 31 (run799 4 ctx6 {} (img2 [])), 5, 3, gen5 (img2 []), by decide +kernel⟩,
   ⟨at_ 31 (run799 4 ctx6 {} (img2 [])), 5, 3, gen5 (img2 []), 0, by decide +kernel⟩⟩

/-- The premises of StreamsObey can be met. -/
theorem witness_StreamsObey :
    (∃ s : State, ∃ core : Nat, ∃ ctx : Nat, ∃ n : Nat, ∃ x : Ctx, ∃ e : Entry, ∃ g : State, ∃ q : StreamD, ∃ u : Stream, s.dev.canonical = true ∧
      s.issues core ctx 5 x e g ∧ e.sub = 0 ∧ s.dev.streamOf core ctx x e = (q, n) ∧ (s.dev.core core).stream n = u ∧ x.streams e = true ∧
      q.cmd = 0 ∧ u.armed = false) ∧
    (∃ s : State, ∃ core : Nat, ∃ ctx : Nat, ∃ n : Nat, ∃ x : Ctx, ∃ e : Entry, ∃ g : State, ∃ q : StreamD, ∃ u : Stream, s.dev.canonical = true ∧
      s.issues core ctx 5 x e g ∧ e.sub = 0 ∧ s.dev.streamOf core ctx x e = (q, n) ∧ (s.dev.core core).stream n = u ∧ x.streams e = true ∧
      u.armed = true ∧ q.cmd = 1 ∧ u.ty ≠ 2) ∧
    (∃ s : State, ∃ core : Nat, ∃ ctx : Nat, ∃ n : Nat, ∃ x : Ctx, ∃ e : Entry, ∃ g : State, ∃ q : StreamD, ∃ u : Stream, s.dev.canonical = true ∧
      s.issues core ctx 5 x e g ∧ e.sub = 0 ∧ s.dev.streamOf core ctx x e = (q, n) ∧ (s.dev.core core).stream n = u ∧ x.streams e = true ∧
      u.armed = true ∧ q.cmd = 2 ∧ (s.start.core core).stream n = u ∧ u.claimFault q.n = none ∧ u.claimable q.n = true) ∧
    (∃ s : State, ∃ core : Nat, ∃ ctx : Nat, ∃ n : Nat, ∃ x : Ctx, ∃ e : Entry, ∃ g : State, ∃ q : StreamD, ∃ u : Stream, s.dev.canonical = true ∧
      s.issues core ctx 5 x e g ∧ e.sub = 0 ∧ s.dev.streamOf core ctx x e = (q, n) ∧ (s.dev.core core).stream n = u ∧ x.streams e = true ∧
      u.armed = true ∧ q.cmd = 3 ∧ u.ty ≤ 1 ∧ u.oldest + q.n ≤ u.claimNext) ∧
    (∃ s : State, ∃ core : Nat, ∃ ctx : Nat, ∃ n : Nat, ∃ x : Ctx, ∃ e : Entry, ∃ g : State, ∃ q : StreamD, ∃ u : Stream, s.dev.canonical = true ∧
      s.issues core ctx 5 x e g ∧ e.sub = 0 ∧ s.dev.streamOf core ctx x e = (q, n) ∧ (s.dev.core core).stream n = u ∧ x.streams e = true ∧
      u.armed = true ∧ q.cmd = 3 ∧ u.ty ≤ 1 ∧ u.oldest + q.n ≤ u.claimNext) ∧
    (∃ s : State, ∃ core : Nat, ∃ ctx : Nat, ∃ n : Nat, ∃ x : Ctx, ∃ e : Entry, ∃ g : State, ∃ q : StreamD, ∃ u : Stream, s.dev.canonical = true ∧
      s.issues core ctx 5 x e g ∧ e.sub = 0 ∧ s.dev.streamOf core ctx x e = (q, n) ∧ (s.dev.core core).stream n = u ∧ x.streams e = true ∧
      u.armed = true ∧ q.cmd = 3 ∧ u.ty = 2 ∧ u.oldest + q.n ≤ u.claimNext) ∧
    (∃ s : State, ∃ core : Nat, ∃ ctx : Nat, ∃ n : Nat, ∃ x : Ctx, ∃ e : Entry, ∃ g : State, ∃ q : StreamD, ∃ u : Stream, s.dev.canonical = true ∧
      s.issues core ctx 5 x e g ∧ e.sub = 0 ∧ s.dev.streamOf core ctx x e = (q, n) ∧ (s.dev.core core).stream n = u ∧ x.streams e = true ∧
      u.armed = true ∧ q.cmd = 4 ∧ u.ty = 1 ∧ u.quiet = true ∧ u.writeFault = none) ∧
    (∃ s : State, ∃ core : Nat, ∃ ctx : Nat, ∃ n : Nat, ∃ x : Ctx, ∃ e : Entry, ∃ g : State, ∃ q : StreamD, ∃ u : Stream, s.dev.canonical = true ∧
      s.issues core ctx 5 x e g ∧ e.sub = 0 ∧ s.dev.streamOf core ctx x e = (q, n) ∧ (s.dev.core core).stream n = u ∧ x.streams e = true ∧
      u.armed = true ∧ q.cmd = 5 ∧ (u.ty = 0 ∨ u.quiet = true) ∧ u.writeFault = none) ∧
    (∃ s : State, ∃ core : Nat, ∃ ctx : Nat, ∃ n : Nat, ∃ x : Ctx, ∃ e : Entry, ∃ g : State, ∃ q : StreamD, ∃ u : Stream, ∃ c : Instr,
      s.dev.canonical = true ∧ s.issues core ctx 5 x e g ∧ e.sub = 0 ∧ s.dev.streamOf core ctx x e = (q, n) ∧ (s.dev.core core).stream n = u ∧
      x.streams e = false ∧ (q.cmd = 0 ∧ c = .arm core ctx ∨ q.cmd = 1 ∧ c = .rearm core ctx ∨ q.cmd = 2 ∧ c = .acquire core ctx ∨ q.cmd = 3 ∧
      c = .release core ctx ∨ q.cmd = 4 ∧ c = .flush core ctx ∨ q.cmd = 5 ∧ c = .streamClose core ctx)) ∧
    (∃ s : State, ∃ core : Nat, ∃ ctx : Nat, ∃ n : Nat, ∃ x : Ctx, ∃ y : Ctx, ∃ e : Entry, ∃ f : Entry, ∃ g : State, ∃ q : StreamD,
      s.dev.canonical = true ∧ s.ctx core ctx = x ∧ s.dev.entryOf x = some e ∧ e.op ≠ 5 ∧ s.dev.streamPlace x = some (y, f) ∧ f.op = 5 ∧ f.sub = 0 ∧
      s.turn core ctx = true ∧ s.canIssue core x = true ∧ s.grant core x.task.cls f.energy = some g ∧ s.dev.streamOf core ctx y f = (q, n) ∧
      q.cmd = 0 ∧ y.streams f = true ∧ ((s.dev.core core).stream n).armed = false) :=
  ⟨⟨at_ 10 (run799 1 ctx5 {} (imgS 0 0 1)), 799, 1, 7, ctx5, ((at_ 10 (run799 1 ctx5 {} (imgS 0 0 1))).dev.entryOf ctx5).get (by decide +kernel),
      ((at_ 10 (run799 1 ctx5 {} (imgS 0 0 1))).grant 799 ctx5.task.cls (((at_ 10 (run799 1 ctx5 {} (imgS 0 0 1))).dev.entryOf ctx5).get (by decide +kernel)).energy).get (by decide +kernel),
      ((at_ 10 (run799 1 ctx5 {} (imgS 0 0 1))).dev.streamOf 799 1 ctx5 (((at_ 10 (run799 1 ctx5 {} (imgS 0 0 1))).dev.entryOf ctx5).get (by decide +kernel))).1,
      {}, by decide +kernel⟩,
   ⟨at_ 10 (devS 1 0 1 (stream7 0 .empty)), 799, 1, 7, ctx5, ((at_ 10 (devS 1 0 1 (stream7 0 .empty))).dev.entryOf ctx5).get (by decide +kernel),
      ((at_ 10 (devS 1 0 1 (stream7 0 .empty))).grant 799 ctx5.task.cls (((at_ 10 (devS 1 0 1 (stream7 0 .empty))).dev.entryOf ctx5).get (by decide +kernel)).energy).get (by decide +kernel),
      ((at_ 10 (devS 1 0 1 (stream7 0 .empty))).dev.streamOf 799 1 ctx5 (((at_ 10 (devS 1 0 1 (stream7 0 .empty))).dev.entryOf ctx5).get (by decide +kernel))).1,
      stream7 0 .empty, by decide +kernel⟩,
   ⟨at_ 10 (devS 2 0 2 (stream7 0 .full)), 799, 1, 7, ctx5, ((at_ 10 (devS 2 0 2 (stream7 0 .full))).dev.entryOf ctx5).get (by decide +kernel),
      ((at_ 10 (devS 2 0 2 (stream7 0 .full))).grant 799 ctx5.task.cls (((at_ 10 (devS 2 0 2 (stream7 0 .full))).dev.entryOf ctx5).get (by decide +kernel)).energy).get (by decide +kernel),
      ((at_ 10 (devS 2 0 2 (stream7 0 .full))).dev.streamOf 799 1 ctx5 (((at_ 10 (devS 2 0 2 (stream7 0 .full))).dev.entryOf ctx5).get (by decide +kernel))).1,
      stream7 0 .full, by decide +kernel⟩,
   ⟨at_ 10 (devS 3 0 2 ({ stream7 0 .claimed with claimNext := 2 })), 799, 1, 7, ctx5,
      ((at_ 10 (devS 3 0 2 ({ stream7 0 .claimed with claimNext := 2 }))).dev.entryOf ctx5).get (by decide +kernel),
      ((at_ 10 (devS 3 0 2 ({ stream7 0 .claimed with claimNext := 2 }))).grant 799 ctx5.task.cls (((at_ 10 (devS 3 0 2 ({ stream7 0 .claimed with claimNext := 2 }))).dev.entryOf ctx5).get (by decide +kernel)).energy).get (by decide +kernel),
      ((at_ 10 (devS 3 0 2 ({ stream7 0 .claimed with claimNext := 2 }))).dev.streamOf 799 1 ctx5 (((at_ 10 (devS 3 0 2 ({ stream7 0 .claimed with claimNext := 2 }))).dev.entryOf ctx5).get (by decide +kernel))).1,
      { stream7 0 .claimed with claimNext := 2 }, by decide +kernel⟩,
   ⟨at_ 10 (devS 3 1 2 ({ stream7 1 .claimed with claimNext := 2 })), 799, 1, 7, ctx5,
      ((at_ 10 (devS 3 1 2 ({ stream7 1 .claimed with claimNext := 2 }))).dev.entryOf ctx5).get (by decide +kernel),
      ((at_ 10 (devS 3 1 2 ({ stream7 1 .claimed with claimNext := 2 }))).grant 799 ctx5.task.cls (((at_ 10 (devS 3 1 2 ({ stream7 1 .claimed with claimNext := 2 }))).dev.entryOf ctx5).get (by decide +kernel)).energy).get (by decide +kernel),
      ((at_ 10 (devS 3 1 2 ({ stream7 1 .claimed with claimNext := 2 }))).dev.streamOf 799 1 ctx5 (((at_ 10 (devS 3 1 2 ({ stream7 1 .claimed with claimNext := 2 }))).dev.entryOf ctx5).get (by decide +kernel))).1,
      { stream7 1 .claimed with claimNext := 2 }, by decide +kernel⟩,
   ⟨at_ 10 (devS 3 2 2 ({ stream7 2 .claimed with claimNext := 2 })), 799, 1, 7, ctx5,
      ((at_ 10 (devS 3 2 2 ({ stream7 2 .claimed with claimNext := 2 }))).dev.entryOf ctx5).get (by decide +kernel),
      ((at_ 10 (devS 3 2 2 ({ stream7 2 .claimed with claimNext := 2 }))).grant 799 ctx5.task.cls (((at_ 10 (devS 3 2 2 ({ stream7 2 .claimed with claimNext := 2 }))).dev.entryOf ctx5).get (by decide +kernel)).energy).get (by decide +kernel),
      ((at_ 10 (devS 3 2 2 ({ stream7 2 .claimed with claimNext := 2 }))).dev.streamOf 799 1 ctx5 (((at_ 10 (devS 3 2 2 ({ stream7 2 .claimed with claimNext := 2 }))).dev.entryOf ctx5).get (by decide +kernel))).1,
      { stream7 2 .claimed with claimNext := 2 }, by decide +kernel⟩,
   ⟨at_ 10 (devS 4 1 1 (stream7 1 .empty)), 799, 1, 7, ctx5, ((at_ 10 (devS 4 1 1 (stream7 1 .empty))).dev.entryOf ctx5).get (by decide +kernel),
      ((at_ 10 (devS 4 1 1 (stream7 1 .empty))).grant 799 ctx5.task.cls (((at_ 10 (devS 4 1 1 (stream7 1 .empty))).dev.entryOf ctx5).get (by decide +kernel)).energy).get (by decide +kernel),
      ((at_ 10 (devS 4 1 1 (stream7 1 .empty))).dev.streamOf 799 1 ctx5 (((at_ 10 (devS 4 1 1 (stream7 1 .empty))).dev.entryOf ctx5).get (by decide +kernel))).1,
      stream7 1 .empty, by decide +kernel⟩,
   ⟨at_ 10 (devS 5 0 1 (stream7 0 .busy)), 799, 1, 7, ctx5, ((at_ 10 (devS 5 0 1 (stream7 0 .busy))).dev.entryOf ctx5).get (by decide +kernel),
      ((at_ 10 (devS 5 0 1 (stream7 0 .busy))).grant 799 ctx5.task.cls (((at_ 10 (devS 5 0 1 (stream7 0 .busy))).dev.entryOf ctx5).get (by decide +kernel)).energy).get (by decide +kernel),
      ((at_ 10 (devS 5 0 1 (stream7 0 .busy))).dev.streamOf 799 1 ctx5 (((at_ 10 (devS 5 0 1 (stream7 0 .busy))).dev.entryOf ctx5).get (by decide +kernel))).1,
      stream7 0 .busy, by decide +kernel⟩,
   ⟨at_ 10 (run799 1 ctx5 {} (imageOf [] [] [] (tableOf 0 [entry_ 5 0 64 2 3 0]) (streamDesc 2 0 1))), 799, 1, 7, ctx5,
      ((at_ 10 (run799 1 ctx5 {} (imageOf [] [] [] (tableOf 0 [entry_ 5 0 64 2 3 0]) (streamDesc 2 0 1)))).dev.entryOf ctx5).get (by decide +kernel),
      ((at_ 10 (run799 1 ctx5 {} (imageOf [] [] [] (tableOf 0 [entry_ 5 0 64 2 3 0]) (streamDesc 2 0 1)))).grant 799 ctx5.task.cls (((at_ 10 (run799 1 ctx5 {} (imageOf [] [] [] (tableOf 0 [entry_ 5 0 64 2 3 0]) (streamDesc 2 0 1)))).dev.entryOf ctx5).get (by decide +kernel)).energy).get (by decide +kernel),
      ((at_ 10 (run799 1 ctx5 {} (imageOf [] [] [] (tableOf 0 [entry_ 5 0 64 2 3 0]) (streamDesc 2 0 1)))).dev.streamOf 799 1 ctx5 (((at_ 10 (run799 1 ctx5 {} (imageOf [] [] [] (tableOf 0 [entry_ 5 0 64 2 3 0]) (streamDesc 2 0 1)))).dev.entryOf ctx5).get (by decide +kernel))).1,
      {}, (.acquire 799 1 : Instr), by decide +kernel⟩,
   ⟨at_ 10 (run799 1 ctx5 {} imgA), 799, 1, 7, ctx5, (((at_ 10 (run799 1 ctx5 {} imgA)).dev.streamPlace ctx5).get (by decide +kernel)).1,
      ((at_ 10 (run799 1 ctx5 {} imgA)).dev.entryOf ctx5).get (by decide +kernel),
      (((at_ 10 (run799 1 ctx5 {} imgA)).dev.streamPlace ctx5).get (by decide +kernel)).2,
      ((at_ 10 (run799 1 ctx5 {} imgA)).grant 799 ctx5.task.cls ((((at_ 10 (run799 1 ctx5 {} imgA)).dev.streamPlace ctx5).get (by decide +kernel)).2).energy).get (by decide +kernel),
      ((at_ 10 (run799 1 ctx5 {} imgA)).dev.streamOf 799 1 ((((at_ 10 (run799 1 ctx5 {} imgA)).dev.streamPlace ctx5).get (by decide +kernel)).1) ((((at_ 10 (run799 1 ctx5 {} imgA)).dev.streamPlace ctx5).get (by decide +kernel)).2)).1,
      by decide +kernel⟩⟩

/-- The premises of PiecesComeAndGo can be met. -/
theorem witness_PiecesComeAndGo :
    (∃ s : State, ∃ core : Nat, ∃ n : Nat, ∃ u, ∃ a : Nat, ∃ len : Nat, ∃ task, ∃ owner, s.dev.canonical = true ∧
      (s.dev.core core).nextStream (s.readyStreams core) = some n ∧ (s.dev.core core).stream n = u ∧ u.armed = true ∧ a = u.addrAt u.issued ∧
      len = u.pieceLen u.issued ∧ task = ((s.dev.core core).ctx (n / 4)).task ∧ owner = s.dev.pageCore core task.sched task.gen a ∧
      s.dev.halted = false ∧ bit a 63 = false ∧ u.ty ≠ 2 ∧ s.dev.tags core < 64 ∧ (s.dev.core core).lastPiece ≠ some s.now ∧
      s.start.pageCheck task.sched task.gen a (decide (u.ty = 1)) = pgPresent) ∧
    (∃ s : State, ∃ core : Nat, ∃ tag : Nat, ∃ p : Piece, s.dev.canonical = true ∧ (s.dev.core core).pieces[tag]? = some p ∧
      s.dev.served s.now core p = true ∧ p.retry = none ∧ p.write = false ∧ p.discarded = false ∧ ((s.dev.core core).stream p.stream).armed = true) ∧
    (∃ s : State, ∃ core : Nat, ∃ tag : Nat, ∃ p : Piece, s.dev.canonical = true ∧ (s.dev.core core).pieces[tag]? = some p ∧
      s.dev.served s.now core p = true ∧ p.retry = none ∧ p.write = true ∧ ((s.dev.core core).stream p.stream).armed = true ∧
      ((∀ r ∈ (s.dev.core core).pieces.take tag, r.write = true →
      r.stream ≠ p.stream ∨ (r.addr + r.len - 1) / 64 < p.addr / 64 ∨ (p.addr + p.len - 1) / 64 < r.addr / 64))) ∧
    (∃ s : State, ∃ core : Nat, ∃ tag : Nat, ∃ p : Piece, ∃ r : Nat, s.dev.canonical = true ∧ (s.dev.core core).pieces[tag]? = some p ∧
      p.retry = some r ∧ r + 1024 ≤ s.now ∧ s.start.pageCheck p.sched p.gen p.addr p.write = pgPresent) ∧
    (∃ s : State, ∃ core : Nat, ∃ tag : Nat, ∃ p : Piece, ∃ r : Nat, s.dev.canonical = true ∧ (s.dev.core core).pieces[tag]? = some p ∧
      p.retry = some r ∧ r + 1024 ≤ s.now ∧ s.start.pageCheck p.sched p.gen p.addr p.write = pgLoading) ∧
    (∃ s : State, ∃ core : Nat, ∃ p : Piece, ∃ ctx : Nat, ∃ w : Nat, s.dev.canonical = true ∧ s.dev.heldFor core ctx (s.ctx core ctx) = some p ∧
      s.canIssue core (s.ctx core ctx) = true ∧ ((s.dev.core core).stream p.stream).claimPly = some w ∧ w + plies100us ≤ s.now ∧
      s.start.pageCheck p.sched p.gen p.addr p.write ≠ pgPresent) ∧
    (∃ s : State, ∃ core : Nat, ∃ p : Piece, ∃ ctx : Nat, s.dev.canonical = true ∧ s.dev.heldFor core ctx (s.ctx core ctx) = some p ∧
      s.canIssue core (s.ctx core ctx) = true ∧ ((s.dev.core core).stream p.stream).claimPly = none) :=
  ⟨⟨at_ 10 (devS 5 0 1 (stream7 0 .empty)), 799, 7, stream7 0 .empty, 0, 256, task5,
      (at_ 10 (devS 5 0 1 (stream7 0 .empty))).dev.pageCore 799 task5.sched 3 0, by and_intros <;> (try decide +kernel) <;> exact rfl⟩,
   ⟨at_ 10 { devS 5 0 1 (stream7 0 .busy) with compute := { cores := [(799, { ctxs := [(1, ctx5)], streams := [(7, (stream7 0 .busy))], pieces := [{}, (({ stream := 7, len := 256, sched := task5.sched, gen := 3, owner := 5 } : Piece))] })] } },
      799, 1, ({ stream := 7, len := 256, sched := task5.sched, gen := 3, owner := 5 } : Piece), by decide +kernel⟩,
   ⟨at_ 10 { devS 5 0 1 (stream7 1 .busy) with compute := { cores := [(799, { ctxs := [(1, ctx5)], streams := [(7, (stream7 1 .busy))], pieces := [{}, (({ stream := 7, len := 256, sched := task5.sched, gen := 3, owner := 5, write := true } : Piece))] })] } },
      799, 1, ({ stream := 7, len := 256, sched := task5.sched, gen := 3, owner := 5, write := true } : Piece), by decide +kernel⟩,
   ⟨at_ 2000 { devS 5 0 1 (stream7 0 .busy) with compute := { cores := [(799, { ctxs := [(1, ctx5)], streams := [(7, (stream7 0 .busy))], pieces := [{}, (({ stream := 7, len := 256, sched := task5.sched, gen := 3, owner := 5, retry := some 976 } : Piece))] })] } },
      799, 1, ({ stream := 7, len := 256, sched := task5.sched, gen := 3, owner := 5, retry := some 976 } : Piece), 976, by decide +kernel⟩,
   ⟨at_ 2000 { devS 5 0 1 (stream7 0 .busy) with compute := { loading := [(genKey false 5 3, 0)], cores := [(799, { ctxs := [(1, ctx5)], streams := [(7, (stream7 0 .busy))], pieces := [{}, (({ stream := 7, len := 256, sched := task5.sched, gen := 3, owner := 5, retry := some 976 } : Piece))] })] } },
      799, 1, ({ stream := 7, len := 256, sched := task5.sched, gen := 3, owner := 5, retry := some 976 } : Piece), 976, by decide +kernel⟩,
   ⟨at_ 2000000 { devS 2 0 1 ({ stream7 0 .busy with claimPly := some 5 }) with compute := { cores := [(799, { ctxs := [(1, ctx5)], streams := [(7, ({ stream7 0 .busy with claimPly := some 5 }))], pieces := [{}, (({ stream := 7, addr := 2 ^ 45, len := 256, sched := task5.sched, gen := 3, owner := 5, retry := some 976 } : Piece))] })] } },
      799, ({ stream := 7, addr := 2 ^ 45, len := 256, sched := task5.sched, gen := 3, owner := 5, retry := some 976 } : Piece), 1, 5,
      by decide +kernel⟩,
   ⟨at_ 2000000 { devS 2 0 1 ({ stream7 0 .busy with claimPly := none }) with compute := { cores := [(799, { ctxs := [(1, ctx5)], streams := [(7, ({ stream7 0 .busy with claimPly := none }))], pieces := [{}, (({ stream := 7, len := 256, sched := task5.sched, gen := 3, owner := 5, retry := some 976 } : Piece))] })] } },
      799, ({ stream := 7, len := 256, sched := task5.sched, gen := 3, owner := 5, retry := some 976 } : Piece), 1, by decide +kernel⟩⟩

/-- The premises of TokensEmit can be met. -/
theorem witness_TokensEmit :
    (∃ s : State, ∃ core : Nat, ∃ ctx : Nat, ∃ x : Ctx, ∃ e : Entry, ∃ h : State, ∃ c : Instr, ∃ bad : Bool, s.dev.canonical = true ∧
      s.issues core ctx 8 x e h ∧ e.commit = false ∧ ((e.sub = 1 ∧ c = .emitToken core ctx) ∨ (e.sub = 2 ∧ c = .emitResult core ctx) ∨ (e.sub = 3 ∧
      c = .emitState core ctx bad))) ∧
    (∃ s : State, ∃ core : Nat, ∃ ctx : Nat, ∃ i : Nat, ∃ x : Ctx, ∃ e : Entry, ∃ h : State, ∃ k : Nat, ∃ a, ∃ g, ∃ ex : Nat, ∃ ee,
      s.dev.canonical = true ∧ s.issues core ctx 8 x e h ∧ x.slots e = [i] ∧ e.sub = 1 ∧ e.commit = true ∧ s.dev.slotToken x i = some (k, a, g) ∧
      g.lType a.cur = 3 ∧ a.scores ≠ [] ∧ a.reqs = [] ∧ topExperts (g.lTopk a.cur) a.scores = [ex] ∧ ee = s.dev.expertE a.core g a.cur ex ∧
      s.dev.team.here ee.member = true ∧ s.dev.coreActive ee.core = true) ∧
    (∃ s : State, ∃ core : Nat, ∃ ctx : Nat, ∃ i : Nat, ∃ x : Ctx, ∃ e : Entry, ∃ h : State, ∃ q, s.dev.canonical = true ∧ s.issues core ctx 8 x e h ∧
      x.slots e = [i] ∧ e.sub = 2 ∧ e.commit = true ∧ e.idxEn = true ∧ x.task.owner = 3 ∧ x.task.reqs[i]? = some q ∧
      s.dev.team.here q.homeMember = true) ∧
    (∃ s : State, ∃ core : Nat, ∃ ctx : Nat, ∃ i : Nat, ∃ x : Ctx, ∃ e : Entry, ∃ h : State, ∃ k : Nat, ∃ a, ∃ g, ∃ d : Nat, s.dev.canonical = true ∧
      s.issues core ctx 8 x e h ∧ x.slots e = [i] ∧ e.sub = 3 ∧ e.commit = true ∧ s.dev.slotToken x i = some (k, a, g) ∧ a.decided = some d) ∧
    (∃ s : State, ∃ k : Nat, ∃ a, ∃ g, ∃ d : Nat, s.dev.canonical = true ∧ s.dev.token? k = some a ∧ s.dev.gen? true a.dm a.gen = some g ∧
      a.decided = some d ∧ slotHdrGood (s.dev.slotHdr a.core a.stateSlot) = true) :=
  ⟨⟨at_ 10 (withTok ({ tok6 with scores := [3] }) (devD (imgD [entry_ 8 1 0 2 0 0]) { ctxs := [(5, (ctxD 2))] })), 799, 5, ctxD 2,
      ((at_ 10 (withTok ({ tok6 with scores := [3] }) (devD (imgD [entry_ 8 1 0 2 0 0]) { ctxs := [(5, (ctxD 2))] }))).dev.entryOf (ctxD 2)).get (by decide +kernel),
      ((at_ 10 (withTok ({ tok6 with scores := [3] }) (devD (imgD [entry_ 8 1 0 2 0 0]) { ctxs := [(5, (ctxD 2))] }))).grant 799 2 (((at_ 10 (withTok ({ tok6 with scores := [3] }) (devD (imgD [entry_ 8 1 0 2 0 0]) { ctxs := [(5, (ctxD 2))] }))).dev.entryOf (ctxD 2)).get (by decide +kernel)).energy).get (by decide +kernel),
      (.emitToken 799 5 : Instr), false, by decide +kernel⟩,
   ⟨at_ 10 (withTok ({ tok6 with scores := [3] }) (devD (imgD [entry_ 8 1 4 2 0 0]) { ctxs := [(5, (ctxD 2))] })), 799, 5, 0, ctxD 2,
      ((at_ 10 (withTok ({ tok6 with scores := [3] }) (devD (imgD [entry_ 8 1 4 2 0 0]) { ctxs := [(5, (ctxD 2))] }))).dev.entryOf (ctxD 2)).get (by decide +kernel),
      ((at_ 10 (withTok ({ tok6 with scores := [3] }) (devD (imgD [entry_ 8 1 4 2 0 0]) { ctxs := [(5, (ctxD 2))] }))).grant 799 2 (((at_ 10 (withTok ({ tok6 with scores := [3] }) (devD (imgD [entry_ 8 1 4 2 0 0]) { ctxs := [(5, (ctxD 2))] }))).dev.entryOf (ctxD 2)).get (by decide +kernel)).energy).get (by decide +kernel),
      6, { tok6 with scores := [3] }, genD (imgD [entry_ 8 1 4 2 0 0]), 0,
      (at_ 10 (withTok ({ tok6 with scores := [3] }) (devD (imgD [entry_ 8 1 4 2 0 0]) { ctxs := [(5, (ctxD 2))] }))).dev.expertE ({ tok6 with scores := [3] }).core (genD (imgD [entry_ 8 1 4 2 0 0])) ({ tok6 with scores := [3] }).cur 0,
      by decide +kernel⟩,
   ⟨at_ 10 (devD (imgD [entry_ 8 2 12 2 0 0]) { ctxs := [(5, ({ ctxD 3 with task := { taskD 3 with reqs := [{ dm := 5, gen := 3 }] }, results := [(0, [7])] }))] }),
      799, 5, 0, { ctxD 3 with task := { taskD 3 with reqs := [{ dm := 5, gen := 3 }] }, results := [(0, [7])] },
      ((at_ 10 (devD (imgD [entry_ 8 2 12 2 0 0]) { ctxs := [(5, ({ ctxD 3 with task := { taskD 3 with reqs := [{ dm := 5, gen := 3 }] }, results := [(0, [7])] }))] })).dev.entryOf ({ ctxD 3 with task := { taskD 3 with reqs := [{ dm := 5, gen := 3 }] }, results := [(0, [7])] })).get (by decide +kernel),
      ((at_ 10 (devD (imgD [entry_ 8 2 12 2 0 0]) { ctxs := [(5, ({ ctxD 3 with task := { taskD 3 with reqs := [{ dm := 5, gen := 3 }] }, results := [(0, [7])] }))] })).grant 799 2 (((at_ 10 (devD (imgD [entry_ 8 2 12 2 0 0]) { ctxs := [(5, ({ ctxD 3 with task := { taskD 3 with reqs := [{ dm := 5, gen := 3 }] }, results := [(0, [7])] }))] })).dev.entryOf ({ ctxD 3 with task := { taskD 3 with reqs := [{ dm := 5, gen := 3 }] }, results := [(0, [7])] })).get (by decide +kernel)).energy).get (by decide +kernel),
      { dm := 5, gen := 3 }, by decide +kernel⟩,
   ⟨at_ 10 (withTok ({ tok6 with decided := some 1 }) (devD (imgD [entry_ 8 3 4 2 0 0]) { ctxs := [(5, (ctxD 2))] })), 799, 5, 0, ctxD 2,
      ((at_ 10 (withTok ({ tok6 with decided := some 1 }) (devD (imgD [entry_ 8 3 4 2 0 0]) { ctxs := [(5, (ctxD 2))] }))).dev.entryOf (ctxD 2)).get (by decide +kernel),
      ((at_ 10 (withTok ({ tok6 with decided := some 1 }) (devD (imgD [entry_ 8 3 4 2 0 0]) { ctxs := [(5, (ctxD 2))] }))).grant 799 2 (((at_ 10 (withTok ({ tok6 with decided := some 1 }) (devD (imgD [entry_ 8 3 4 2 0 0]) { ctxs := [(5, (ctxD 2))] }))).dev.entryOf (ctxD 2)).get (by decide +kernel)).energy).get (by decide +kernel),
      6, { tok6 with decided := some 1 }, genD (imgD [entry_ 8 3 4 2 0 0]), 1, by decide +kernel⟩,
   ⟨(at_ 10 (withTok ({ tok6 with decided := some 1 }) (devD (imgD [entry_ 8 3 4 2 0 0]) { ctxs := [(5, (ctxD 2))] }))).setSlotHdr 799 0 (zeros 60),
      6, { tok6 with decided := some 1 }, genD (imgD [entry_ 8 3 4 2 0 0]), 1, by decide +kernel⟩⟩

/-- The premises of ExpertsAnswer can be met. -/
theorem witness_ExpertsAnswer :
    (∃ s : State, ∃ k : Nat, ∃ q, ∃ g, s.dev.canonical = true ∧ s.dev.compute.reqFlight[k]? = some q ∧ s.dev.reached s.now (.parcel q.parcel) = true ∧
      s.dev.gen? true q.dm q.gen = some g ∧ (s.start.tempo (coreDie (s.dev.expertE q.homeCore g q.layer q.expert).core)).stage = 0) ∧
    (∃ s : State, ∃ dm : Nat, ∃ gen : Nat, ∃ layer : Nat, ∃ expert : Nat, ∃ g, ∃ q, ∃ rest, ∃ core : Nat, ∃ thin, s.dev.canonical = true ∧
      s.dev.gen? true dm gen = some g ∧ Table.get [] s.dev.compute.expertQ (expertKey dm gen layer expert) = q :: rest ∧
      (32 ≤ (q :: rest).length ∨ q.joined + g.expertHold ≤ s.now ∨ q.sent + g.remoteLimit ≤ s.now + 1) ∧
      core = (s.dev.expertE q.homeCore g layer expert).core ∧ thin = decide (((q :: rest).take 32).length ≤ g.lThin layer)) ∧
    (∃ s : State, ∃ k : Nat, ∃ q, ∃ j : Nat, ∃ a, s.dev.canonical = true ∧ s.dev.compute.resFlight[k]? = some q ∧
      s.dev.reached s.now (.parcel q.parcel) = true ∧ s.dev.team.here q.homeMember = true ∧
      (s.dev.compute.tokens.find? fun e => decide (e.2.core = q.homeCore ∧ e.2.dm = q.dm ∧ e.2.gen = q.gen ∧ e.2.stateSlot = q.stateSlot ∧
      e.2.tenancy = q.tenancy ∧ e.2.number % 65536 = q.token)) = some (j, a) ∧ s.dev.token? j = some a) ∧
    (∃ s : State, ∃ k : Nat, ∃ a, ∃ g, ∃ expert : Nat, ∃ r, s.dev.canonical = true ∧ s.dev.token? k = some a ∧ s.dev.gen? true a.dm a.gen = some g ∧
      s.clearedNow pgDeep = false ∧ (a.reqs.find? fun q => decide (q.expert = expert) && q.result.isNone && !q.missed) = some r ∧
      r.sent + g.remoteLimit ≤ s.now) ∧
    (∃ s : State, ∃ k : Nat, ∃ a, ∃ g, s.dev.canonical = true ∧ s.dev.token? k = some a ∧ s.dev.gen? true a.dm a.gen = some g ∧
      s.clearedNow pgDeep = false ∧ a.formed + g.tokenLimit ≤ s.now ∧ ((∀ bad, .head k bad ∉ s.dev.flow.due))) :=
  ⟨⟨at_ 10 { devD (imgD []) { lastIssue := some 1 } with compute := { reqFlight := [{}, ({ dm := 5, gen := 3, homeCore := 799 })] } }, 1,
      { dm := 5, gen := 3, homeCore := 799 }, genD (imgD []), by decide +kernel⟩,
   ⟨at_ 200 { devD (imgD []) { lastIssue := some 1 } with compute := { expertQ := [(expertKey 5 3 0 0, [({ dm := 5, gen := 3, homeCore := 799, sent := 90, joined := 100 })])] } },
      5, 3, 0, 0, genD (imgD []), { dm := 5, gen := 3, homeCore := 799, sent := 90, joined := 100 }, [], 799, true, by decide +kernel⟩,
   ⟨at_ 200 { devD (imgD []) { lastIssue := some 1 } with compute := { resFlight := [{}, ({ dm := 5, gen := 3, homeCore := 799, expert := 2, y := [8] })], tokens := [(6, ({ tok6 with reqs := [{ expert := 2 }] }))] } },
      1, { dm := 5, gen := 3, homeCore := 799, expert := 2, y := [8] }, 6, { tok6 with reqs := [{ expert := 2 }] }, by decide +kernel⟩,
   ⟨at_ 2000 (withTok ({ tok6 with reqs := [{ expert := 2, sent := 900 }] }) (devD (imgD []) { lastIssue := some 1 })), 6,
      { tok6 with reqs := [{ expert := 2, sent := 900 }] }, genD (imgD []), 2, { expert := 2, sent := 900 }, by decide +kernel⟩,
   ⟨at_ 5009 (withTok ({ tok6 with formed := 9 }) (devD (imgD []) { lastIssue := some 1 })), 6, { tok6 with formed := 9 }, genD (imgD []),
      by decide +kernel⟩⟩

/-- The premises of TeamsTrade can be met. -/
theorem witness_TeamsTrade :
    (∃ s : State, ∃ port : Nat, ∃ f : Bytes, ∃ h : SelidHead, ∃ s1 : State, s.dev.canonical = true ∧ s.start.team.members ≠ 0 ∧ 1 ≤ h.session ∧
      h.session ≤ s.start.team.members ∧ h.session - 1 ≠ s.start.team.self ∧ h.fragIndex = 0 ∧ h.fragLast = 0 ∧ 64 ≤ f.length ∧
      s.takePeer port 8 f = (s1, some h)) ∧
    (∃ s : State, ∃ port : Nat, ∃ f : Bytes, ∃ h : SelidHead, ∃ s1 : State, s.dev.canonical = true ∧ s.start.team.members ≠ 0 ∧ 1 ≤ h.session ∧
      h.session ≤ s.start.team.members ∧ h.session - 1 ≠ s.start.team.self ∧ h.fragIndex = 0 ∧ h.fragLast = 0 ∧ 64 ≤ f.length ∧
      s.takePeer port 9 f = (s1, some h)) ∧
    (∃ s : State, ∃ core : Nat, ∃ i : Nat, ∃ p : PeerSlot, ∃ q : Nat, ∃ r, s.dev.canonical = true ∧ core < 800 ∧ s.nextPeer core = some i ∧
      (s.dev.core core).peer[i]? = some p ∧ s.dev.peerPort p = some q ∧ mirrorLen p.plain.length ≤ s.maxFrame q ∧ s.dev.tags core < 64 ∧
      s.dev.peerGoes p = true ∧
      r = s.dev.peerFrame q 8 (s.start.team.self + 1) (Table.get 0 s.dev.team.tx q + 1) s.start.team.key s.start.team.salt p.plain) ∧
    (∃ s : State, ∃ core : Nat, ∃ i : Nat, ∃ p : PeerSlot, s.dev.canonical = true ∧ core < 800 ∧ s.nextPeer core = some i ∧
      (s.dev.core core).peer[i]? = some p ∧ s.dev.peerPort p = none) :=
  ⟨⟨at_ 10 teamDev, 32, peerFrame 8 1 0 1 (toLE 2 9 ++ zeros 14), ((at_ 10 teamDev).takePeer 32 8 (peerFrame 8 1 0 1 (toLE 2 9 ++
      zeros 14))).2.get (by decide +kernel), ((at_ 10 teamDev).takePeer 32 8 (peerFrame 8 1 0 1 (toLE 2 9 ++ zeros 14))).1,
      by and_intros <;> (try exact pairEq (Option.some_get _).symm) <;> decide +kernel⟩,
   ⟨at_ 10 teamDev, 32, peerFrame 9 1 0 1 (toLE 2 9 ++ [0, 0] ++ toLE 4 1500 ++ zeros 24),
      ((at_ 10 teamDev).takePeer 32 9 (peerFrame 9 1 0 1 (toLE 2 9 ++ [0, 0] ++ toLE 4 1500 ++ zeros 24))).2.get (by decide +kernel),
      ((at_ 10 teamDev).takePeer 32 9 (peerFrame 9 1 0 1 (toLE 2 9 ++ [0, 0] ++ toLE 4 1500 ++ zeros 24))).1,
      by and_intros <;> (try exact pairEq (Option.some_get _).symm) <;> decide +kernel⟩,
   ⟨at_ 10 { ports := teamDev.ports, team := { members := 2, self := 1, id := 9, ports := [1, 0], grant := [(teamKey 32 0, 9)] }, compute := { cores := [(799, { peer := [(({ member := 0, homeCore := 4, plain := zeros 16 } : PeerSlot))] })] } },
      799, 0, ({ member := 0, homeCore := 4, plain := zeros 16 } : PeerSlot), 32,
      (at_ 10 { ports := teamDev.ports, team := { members := 2, self := 1, id := 9, ports := [1, 0], grant := [(teamKey 32 0, 9)] }, compute := { cores := [(799, { peer := [(({ member := 0, homeCore := 4, plain := zeros 16 } : PeerSlot))] })] } }).dev.peerFrame 32 8 ((at_ 10 { ports := teamDev.ports, team := { members := 2, self := 1, id := 9, ports := [1, 0], grant := [(teamKey 32 0, 9)] }, compute := { cores := [(799, { peer := [(({ member := 0, homeCore := 4, plain := zeros 16 } : PeerSlot))] })] } }).start.team.self + 1) (Table.get 0 (at_ 10 { ports := teamDev.ports, team := { members := 2, self := 1, id := 9, ports := [1, 0], grant := [(teamKey 32 0, 9)] }, compute := { cores := [(799, { peer := [(({ member := 0, homeCore := 4, plain := zeros 16 } : PeerSlot))] })] } }).dev.team.tx 32 + 1) (at_ 10 { ports := teamDev.ports, team := { members := 2, self := 1, id := 9, ports := [1, 0], grant := [(teamKey 32 0, 9)] }, compute := { cores := [(799, { peer := [(({ member := 0, homeCore := 4, plain := zeros 16 } : PeerSlot))] })] } }).start.team.key (at_ 10 { ports := teamDev.ports, team := { members := 2, self := 1, id := 9, ports := [1, 0], grant := [(teamKey 32 0, 9)] }, compute := { cores := [(799, { peer := [(({ member := 0, homeCore := 4, plain := zeros 16 } : PeerSlot))] })] } }).start.team.salt (({ member := 0, homeCore := 4, plain := zeros 16 } : PeerSlot)).plain,
      by and_intros <;> (try decide +kernel) <;> exact rfl⟩,
   ⟨at_ 10 { ports := teamDev.ports, team := { members := 2, self := 1, id := 9, ports := [0, 0], grant := [(teamKey 32 0, 9)] }, compute := { cores := [(799, { peer := [(({ member := 0, homeCore := 4, plain := zeros 16 } : PeerSlot))] })] } },
      799, 0, ({ member := 0, homeCore := 4, plain := zeros 16 } : PeerSlot), by and_intros <;> (try decide +kernel) <;> exact rfl⟩⟩

/-- The premises of TablesAnswer can be met. -/
theorem witness_TablesAnswer :
    (∃ s : State, ∃ sess : Nat, ∃ n : Nat, ∃ core : Nat, ∃ x : Session, ∃ c : Cmd, ∃ key : Bytes, ∃ l, ∃ failed : Nat, ∃ dup, s.dev.canonical = true ∧
      key = Bytes.slice c.body 8 48 ∧ bodyKeyRsv c.body = none ∧ bodyKeyBad c.body = none ∧ s.tableReady sess 0x30 56 n x c ∧
      64 ≤ bodyRoom x c.route ∧ core = (s.start.chan n).steer key ∧
      s.start.find core n (s.start.chan n).hgen (decide (Bytes.at c.body 0 = 1)) key false false = (some l, failed, dup)) ∧
    (∃ s : State, ∃ sess : Nat, ∃ n : Nat, ∃ core : Nat, ∃ x : Session, ∃ c : Cmd, ∃ key : Bytes, ∃ dup, s.dev.canonical = true ∧
      key = Bytes.slice c.body 8 48 ∧ bodyKeyRsv c.body = none ∧ bodyKeyBad c.body = none ∧ s.tableReady sess 0x30 56 n x c ∧
      64 ≤ bodyRoom x c.route ∧ core = (s.start.chan n).steer key ∧
      s.start.find core n (s.start.chan n).hgen (decide (Bytes.at c.body 0 = 1)) key false false = (none, 0, dup)) ∧
    (∃ s : State, ∃ sess : Nat, ∃ n : Nat, ∃ core : Nat, ∃ x : Session, ∃ c : Cmd, ∃ key : Bytes, ∃ l, ∃ failed : Nat, ∃ dup, s.dev.canonical = true ∧
      key = Bytes.slice c.body 8 48 ∧ bodyKeyRsv c.body = none ∧ bodyKeyBad c.body = none ∧ s.tableReady sess 0x34 56 n x c ∧
      core = (s.dev.chan n).steer key ∧ s.tables.find core n (s.dev.chan n).hgen (decide (Bytes.at c.body 0 = 1)) key false false = (some l, failed,
      dup) ∧ (s.dev.slice core).latch = none) ∧
    (∃ s : State, ∃ sess : Nat, ∃ n : Nat, ∃ core : Nat, ∃ x : Session, ∃ c : Cmd, ∃ key : Bytes, ∃ l, ∃ failed : Nat, ∃ dup, ∃ a, ∃ b : Nat,
      ∃ p : Nat, s.dev.canonical = true ∧ key = Bytes.slice c.body 8 48 ∧ bodyKeyRsv c.body = none ∧ bodyKeyBad c.body = none ∧
      s.tableReady sess 0x34 56 n x c ∧ core = (s.dev.chan n).steer key ∧
      s.tables.find core n (s.dev.chan n).hgen (decide (Bytes.at c.body 0 = 1)) key false false = (some l, failed, dup) ∧
      (s.dev.slice core).latch = some (a, b, p) ∧ l = .exact core a ∧ a ≠ b ∧ a < 524288 ∧ b < 524288) ∧
    (∃ s : State, ∃ sess : Nat, ∃ n : Nat, ∃ core : Nat, ∃ x : Session, ∃ c : Cmd, ∃ key : Bytes, ∃ dup, s.dev.canonical = true ∧
      key = Bytes.slice c.body 8 48 ∧ bodyKeyRsv c.body = none ∧ bodyKeyBad c.body = none ∧ s.tableReady sess 0x34 56 n x c ∧
      core = (s.dev.chan n).steer key ∧ s.tables.find core n (s.dev.chan n).hgen (decide (Bytes.at c.body 0 = 1)) key false false = (none, 0, dup)) ∧
    (∃ s : State, ∃ sess : Nat, ∃ x : Session, ∃ c : Cmd, ∃ l, s.dev.canonical = true ∧ s.ready sess 0x31 = some (x, c) ∧ c.body.length = 16 ∧
      Bytes.le c.body 2 2 = 0 ∧ Bytes.at c.body 0 ≤ 1 ∧ 1 ≤ Bytes.at c.body 1 ∧ Bytes.at c.body 1 ≤ 64 ∧
      cursorLoc (decide (Bytes.at c.body 0 = 1)) (Bytes.le c.body 8 8) = some l ∧ Bytes.le c.body 4 4 = 0 ∧
      16 + 64 * Bytes.at c.body 1 ≤ bodyRoom x c.route) :=
  ⟨⟨at_ 9 (tblDev direct5 0x30 ([1, 0, 0, 0] ++ toLE 4 (handleOf 1 2 5) ++ zeros 48) { direct := [(3145728, entry5)] }), 1, 5, 799,
      Tests.sess 0x30 ([1, 0, 0, 0] ++ toLE 4 (handleOf 1 2 5) ++ zeros 48), cmd 0x30 ([1, 0, 0, 0] ++ toLE 4 (handleOf 1 2 5) ++ zeros 48),
      zeros 48, .direct 3 0, 0, false, by decide +kernel⟩,
   ⟨at_ 9 (tblDev (chanOf5 0 0) 0x30 ([0, 0, 0, 0] ++ toLE 4 (handleOf 1 2 5) ++ zeros 48) {}), 1, 5, 799, Tests.sess 0x30 ([0, 0, 0, 0] ++
      toLE 4 (handleOf 1 2 5) ++ zeros 48), cmd 0x30 ([0, 0, 0, 0] ++ toLE 4 (handleOf 1 2 5) ++ zeros 48), zeros 48, false, by decide +kernel⟩,
   ⟨at_ 9 (tblDev direct5 0x34 ([1, 0, 0, 0] ++ toLE 4 (handleOf 1 2 5) ++ zeros 48) { direct := [(3145728, entry5)] }), 1, 5, 799,
      Tests.sess 0x34 ([1, 0, 0, 0] ++ toLE 4 (handleOf 1 2 5) ++ zeros 48), cmd 0x34 ([1, 0, 0, 0] ++ toLE 4 (handleOf 1 2 5) ++ zeros 48),
      zeros 48, .direct 3 0, 0, false, by decide +kernel⟩,
   ⟨at_ 9 (tblDev (chanOf5 0 0) 0x34 ([0, 0, 0, 0] ++ toLE 4 (handleOf 1 2 5) ++
      zeros 48) { exact := [(799 * 524288 + (4 * ((at_ 9 {}).dev.candidates 799 5 (flowKeyOf entry5)).2.1), entry5)], slices := [(799, { latch := some ((4 * ((at_ 9 {}).dev.candidates 799 5 (flowKeyOf entry5)).2.1), 8, 7) })] }),
      1, 5, 799, Tests.sess 0x34 ([0, 0, 0, 0] ++ toLE 4 (handleOf 1 2 5) ++ zeros 48), cmd 0x34 ([0, 0, 0, 0] ++ toLE 4 (handleOf 1 2 5) ++
      zeros 48), zeros 48, .exact 799 (4 * ((at_ 9 {}).dev.candidates 799 5 (flowKeyOf entry5)).2.1), 0, false,
      (4 * ((at_ 9 {}).dev.candidates 799 5 (flowKeyOf entry5)).2.1), 8, 7, by decide +kernel⟩,
   ⟨at_ 9 (tblDev (chanOf5 0 0) 0x34 ([0, 0, 0, 0] ++ toLE 4 (handleOf 1 2 5) ++ zeros 48) {}), 1, 5, 799, Tests.sess 0x34 ([0, 0, 0, 0] ++
      toLE 4 (handleOf 1 2 5) ++ zeros 48), cmd 0x34 ([0, 0, 0, 0] ++ toLE 4 (handleOf 1 2 5) ++ zeros 48), zeros 48, false, by decide +kernel⟩,
   ⟨at_ 9 (tblDev direct5 0x31 ([1, 64, 0, 0] ++ zeros 4 ++ toLE 8 3145700) { direct := [(3145728, entry5)] }), 1, Tests.sess 0x31 ([1, 64, 0, 0] ++
      zeros 4 ++ toLE 8 3145700), cmd 0x31 ([1, 64, 0, 0] ++ zeros 4 ++ toLE 8 3145700), .direct 2 1048548, by decide +kernel⟩⟩

/-- The premises of TablesFill can be met. -/
theorem witness_TablesFill :
    (∃ s : State, ∃ sess : Nat, ∃ n : Nat, ∃ x, ∃ c, ∃ w : Nat, ∃ e, ∃ key, ∃ direct, s.dev.canonical = true ∧ s.tableReady sess 0x33 72 n x c ∧
      direct = decide (Bytes.at c.body 0 = 1) ∧ entryRsv c.body = none ∧ entryBad c.body = none ∧ ((direct = false →
      Bytes.at c.body 49 % 2 = (s.dev.chan n).keyKind)) ∧ w = Bytes.le (Bytes.slice c.body 8 64) 42 2 ∧
      e = Bytes.patch (Bytes.patch (Bytes.slice c.body 8 64) 42 (toLE 2 (n + 4096 + b2n (bit w 14) * 16384 + b2n (bit w 15) * 32768))) 58 (toLE 2 (s.dev.chan n).hgen ++
      [0, 0]) ∧ key = (if direct then Bytes.slice e 0 42 ++ zeros 6 else flowKeyOf e)) ∧
    (∃ s : State, ∃ sess : Nat, ∃ n : Nat, ∃ x, ∃ c, ∃ w : Nat, ∃ e, ∃ key, ∃ direct, s.dev.canonical = true ∧ s.tableReady sess 0x33 72 n x c ∧
      direct = decide (Bytes.at c.body 0 = 1) ∧ entryRsv c.body = none ∧ entryBad c.body = none ∧ ((direct = false →
      Bytes.at c.body 49 % 2 = (s.dev.chan n).keyKind)) ∧ w = Bytes.le (Bytes.slice c.body 8 64) 42 2 ∧
      e = Bytes.patch (Bytes.patch (Bytes.slice c.body 8 64) 42 (toLE 2 (n + 4096 + b2n (bit w 14) * 16384 + b2n (bit w 15) * 32768))) 58 (toLE 2 (s.dev.chan n).hgen ++
      [0, 0]) ∧ key = (if direct then Bytes.slice e 0 42 ++ zeros 6 else flowKeyOf e)) ∧
    (∃ s : State, ∃ die : Nat, s.dev.canonical = true ∧ die < 4) ∧
    (∃ s : State, ∃ core : Nat, ∃ i : Insertion, ∃ l : Loc, s.dev.canonical = true ∧ l = .direct (coreDie core) (Bytes.le i.key 0 3 % 1048576) ∧
      s.dev.flushedNow s.now true i.slot (ePort i.entry) = true) ∧
    (∃ s : State, ∃ core : Nat, ∃ i : Insertion, ∃ l : Loc, s.dev.canonical = true ∧ l = .direct (coreDie core) (Bytes.le i.key 0 3 % 1048576) ∧
      s.dev.flushedNow s.now true i.slot (ePort i.entry) = false ∧ eValid (s.dev.entry l) = true) ∧
    (∃ s : State, ∃ core : Nat, ∃ i : Insertion, ∃ l : Loc, s.dev.canonical = true ∧ l = .direct (coreDie core) (Bytes.le i.key 0 3 % 1048576) ∧
      s.dev.flushedNow s.now true i.slot (ePort i.entry) = false ∧ entryFailed (s.dev.entry l) = false ∧ eValid (s.dev.entry l) = false ∧
      s.dev.badLine (directLine (coreDie core) (Bytes.le i.key 0 3 % 1048576)).1 (directLine (coreDie core) (Bytes.le i.key 0 3 % 1048576)).2 = none ∧
      s.dev.pair.adoptFrom = none) ∧
    (∃ s : State, ∃ core : Nat, ∃ i : Insertion, ∃ l : Loc, ∃ n : Nat, ∃ x, ∃ c, s.dev.canonical = true ∧
      l = .direct (coreDie core) (Bytes.le i.key 0 3 % 1048576) ∧ i.who = .host n ∧ s.session? n = some x ∧
      x.cmds.find? (fun c => decide (c.opcode = 0x33)) = some c) ∧
    (∃ s : State, ∃ core : Nat, ∃ i : Insertion, ∃ h, ∃ b1, ∃ b2, ∃ p, s.dev.canonical = true ∧ (s.dev.slice core).latch = none ∧
      (s.dev.slice core).running = none ∧ (s.dev.slice core).waiting = [] ∧ s.dev.flushedNow s.now false i.slot (ePort i.entry) = false ∧
      s.faultedNow core i = false ∧ i.path = [] ∧ i.moves = 0 ∧ s.tables.candidates core i.slot i.key = (h, b1, b2) ∧
      (s.tables.search core i.slot i.hgen i.key (s.tables.bucketBad core b1).isSome (s.tables.bucketBad core b2).isSome).1 = [] ∧
      ((s.tables.freeIn core b1 = some p ∨ s.tables.freeIn core b1 = none ∧ s.tables.freeIn core b2 = some p)) ∧ s.dev.pair.adoptFrom = none) ∧
    (∃ s : State, ∃ die : Nat, ∃ r : Nat, ∃ it : Item, ∃ n : Nat, ∃ e, ∃ key, ∃ l : Loc, ∃ s1, s.dev.canonical = true ∧
      s.dev.flow.learnRings[die]? = some r ∧ s.dev.rg pgFlowCtl 0x54 % 2 = 0 ∧ s.dev.startUp.restart = none ∧ s.dev.reliab.stopped ≠ 255 ∧
      s.ringConsume r = (s1, some it) ∧ it.kind = 0x11 ∧ bit (Bytes.le it.body 4 2) 10 = true ∧ s1.chanOf (Bytes.le it.body 0 4) = some n ∧
      e = noticeEntry it.body n (s1.dev.chan n).hgen true ∧ key = Bytes.slice it.body 16 48 ∧
      l = .direct (coreDie (Bytes.le it.body 4 2 % 1024)) (Bytes.le key 0 3 % 1048576) ∧ s1.dev.flushedNow s1.now true n (ePort e) = false ∧
      entryFailed (s1.dev.entry l) = false ∧ eValid (s1.dev.entry l) = false ∧ s1.dev.pair.adoptFrom = none ∧
      s1.dev.badLine (directLine (coreDie (Bytes.le it.body 4 2 % 1024)) (Bytes.le key 0 3 % 1048576)).1 (directLine (coreDie (Bytes.le it.body 4 2 % 1024)) (Bytes.le key 0 3 % 1048576)).2 = none ∧
      s1.dev.canonical = true) ∧
    (∃ s : State, ∃ sess : Nat, ∃ x, ∃ c, s.dev.canonical = true ∧ s.ready sess 0x32 = some (x, c) ∧ c.body.length = 12 ∧ Bytes.le c.body 2 2 = 0 ∧
      Bytes.at c.body 0 ≤ 1 ∧ Bytes.at c.body 1 ≤ 1 ∧ ((Bytes.at c.body 1 = 1 → (s.chanOf (Bytes.le c.body 8 4)).isSome = true)) ∧
      16 ≤ bodyRoom x c.route ∧ s.dev.flow.flush = none) :=
  ⟨⟨at_ 9 (tblDev direct5 0x33 ([1, 0, 0, 0] ++ toLE 4 (handleOf 1 2 5) ++ entry5) {}), 1, 5, Tests.sess 0x33 ([1, 0, 0, 0] ++
      toLE 4 (handleOf 1 2 5) ++ entry5), cmd 0x33 ([1, 0, 0, 0] ++ toLE 4 (handleOf 1 2 5) ++ entry5), 4101,
      Bytes.patch (Bytes.patch (Bytes.slice (cmd 0x33 ([1, 0, 0, 0] ++ toLE 4 (handleOf 1 2 5) ++
      entry5)).body 8 64) 42 (toLE 2 (5 + 4096 + b2n (bit 4101 14) * 16384 + b2n (bit 4101 15) * 32768))) 58 (toLE 2 ((at_ 9 (tblDev direct5 0x33 ([1,
      0, 0, 0] ++ toLE 4 (handleOf 1 2 5) ++ entry5) {})).dev.chan 5).hgen ++ [0, 0]), zeros 48, true, by decide +kernel⟩,
   ⟨at_ 9 (tblDev (chanOf5 0 0) 0x33 ([0, 0, 0, 0] ++ toLE 4 (handleOf 1 2 5) ++ entry5) {}), 1, 5, Tests.sess 0x33 ([0, 0, 0, 0] ++
      toLE 4 (handleOf 1 2 5) ++ entry5), cmd 0x33 ([0, 0, 0, 0] ++ toLE 4 (handleOf 1 2 5) ++ entry5), 4101,
      Bytes.patch (Bytes.patch (Bytes.slice (cmd 0x33 ([0, 0, 0, 0] ++ toLE 4 (handleOf 1 2 5) ++
      entry5)).body 8 64) 42 (toLE 2 (5 + 4096 + b2n (bit 4101 14) * 16384 + b2n (bit 4101 15) * 32768))) 58 (toLE 2 ((at_ 9 (tblDev (chanOf5 0 0) 0x33 ([0,
      0, 0, 0] ++ toLE 4 (handleOf 1 2 5) ++ entry5) {})).dev.chan 5).hgen ++ [0, 0]),
      flowKeyOf (Bytes.patch (Bytes.patch (Bytes.slice (cmd 0x33 ([0, 0, 0, 0] ++ toLE 4 (handleOf 1 2 5) ++
      entry5)).body 8 64) 42 (toLE 2 (5 + 4096 + b2n (bit 4101 14) * 16384 + b2n (bit 4101 15) * 32768))) 58 (toLE 2 ((at_ 9 (tblDev (chanOf5 0 0) 0x33 ([0,
      0, 0, 0] ++ toLE 4 (handleOf 1 2 5) ++ entry5) {})).dev.chan 5).hgen ++ [0, 0])), false, by decide +kernel⟩,
   ⟨at_ 9 {}, 3, by decide +kernel⟩,
   ⟨at_ 9 { flow := { lastFlush := some { table := 1, ports := 1, start := 9 } } }, 799,
      ({ slot := 5, hgen := 2, key := zeros 48, entry := entry5 } : Insertion), (Loc.direct 3 0 : Loc), by decide +kernel⟩,
   ⟨at_ 9 { flow := { direct := [(3145728, entry5)] } }, 799, ({ slot := 5, hgen := 2, key := zeros 48, entry := entry5 } : Insertion),
      (Loc.direct 3 0 : Loc), by decide +kernel⟩,
   ⟨at_ 9 {}, 799, ({ slot := 5, hgen := 2, key := zeros 48, entry := entry5 } : Insertion), (Loc.direct 3 0 : Loc), by decide +kernel⟩,
   ⟨at_ 9 (tblDev direct5 0x33 ([1, 0, 0, 0] ++ toLE 4 (handleOf 1 2 5) ++ entry5) {}), 799,
      ({ who := Inserter.host 1, slot := 5, hgen := 2, key := zeros 48, entry := entry5 } : Insertion), (Loc.direct 3 0 : Loc), 1,
      Tests.sess 0x33 ([1, 0, 0, 0] ++ toLE 4 (handleOf 1 2 5) ++ entry5), cmd 0x33 ([1, 0, 0, 0] ++ toLE 4 (handleOf 1 2 5) ++ entry5),
      by decide +kernel⟩,
   ⟨at_ 9 {}, 799, ({ slot := 5, hgen := 2, key := flowKeyOf entry5, entry := entry5 } : Insertion),
      ((at_ 9 {}).tables.candidates 799 5 (flowKeyOf entry5)).1, ((at_ 9 {}).tables.candidates 799 5 (flowKeyOf entry5)).2.1,
      ((at_ 9 {}).tables.candidates 799 5 (flowKeyOf entry5)).2.2, 4 * (((at_ 9 {}).tables.candidates 799 5 (flowKeyOf entry5)).2.1),
      by decide +kernel⟩,
   ⟨at_ 9 { objects := { channels := [(5, direct5)], rings := [(7, { use := .learn, size := 4096, items := [(({ kind := 0x11, len := 5, body := toLE 4 (handleOf 1 2 5) ++ toLE 2 (799 + 1024) ++ zeros 58 } : Item))] })] }, flow := { learnRings := [1, 2, 3, 7] } },
      3, 7, ({ kind := 0x11, len := 5, body := toLE 4 (handleOf 1 2 5) ++ toLE 2 (799 + 1024) ++ zeros 58 } : Item), 5,
      noticeEntry (({ kind := 0x11, len := 5, body := toLE 4 (handleOf 1 2 5) ++ toLE 2 (799 + 1024) ++ zeros 58 } : Item)).body 5 ((((at_ 9 { objects := { channels := [(5, direct5)], rings := [(7, { use := .learn, size := 4096, items := [(({ kind := 0x11, len := 5, body := toLE 4 (handleOf 1 2 5) ++ toLE 2 (799 + 1024) ++ zeros 58 } : Item))] })] }, flow := { learnRings := [1, 2, 3, 7] } }).ringConsume 7).1).dev.chan 5).hgen true,
      zeros 48, (Loc.direct 3 0 : Loc),
      ((at_ 9 { objects := { channels := [(5, direct5)], rings := [(7, { use := .learn, size := 4096, items := [(({ kind := 0x11, len := 5, body := toLE 4 (handleOf 1 2 5) ++ toLE 2 (799 + 1024) ++ zeros 58 } : Item))] })] }, flow := { learnRings := [1, 2, 3, 7] } }).ringConsume 7).1,
      by and_intros <;> (try exact pairEq rfl) <;> decide +kernel⟩,
   ⟨at_ 9 (tblDev (chanOf5 0 0) 0x32 ([1, 0, 0, 0] ++ toLE 4 0xFFFFFFFF ++ zeros 4) {}), 1, Tests.sess 0x32 ([1, 0, 0, 0] ++ toLE 4 0xFFFFFFFF ++
      zeros 4), cmd 0x32 ([1, 0, 0, 0] ++ toLE 4 0xFFFFFFFF ++ zeros 4), by decide +kernel⟩⟩

/-- The premises of TablesAreTended can be met. -/
theorem witness_TablesAreTended :
    (∃ s : State, ∃ unit : Nat, ∃ pos : Nat, ∃ f, ∃ l, s.dev.canonical = true ∧ s.dev.flow.flush = some f ∧
      l = (if f.table = 0 then Loc.exact unit pos else .direct unit pos) ∧ Table.get 0 f.swept unit ≤ pos ∧ s.dev.unswept f unit pos = false ∧ ((∀ p,
      (s.dev.slice unit).latch ≠ some (pos, pos, p)))) ∧
    (∃ s : State, ∃ f, ∃ x, ∃ c, s.dev.canonical = true ∧ s.dev.flow.flush = some f ∧ ((∀ u, s.dev.unswept f u 1048576 = false)) ∧
      s.session? f.sess = some x ∧ x.cmds.find? (fun c => decide (c.opcode = 0x32)) = some c ∧ s.clearedNow pgFlowCtl = false) ∧
    (∃ s : State, ∃ unit : Nat, ∃ direct, s.dev.canonical = true ∧ ((direct = false → s.dev.coreActive unit = true))) ∧
    (∃ s : State, ∃ unit : Nat, ∃ pos : Nat, ∃ direct, ∃ l, s.dev.canonical = true ∧ ((direct = false → (s.dev.slice unit).latch = none)) ∧
      l = (if direct then Loc.direct unit pos else .exact unit pos) ∧ s.resetNow = false ∧ entryFailed (s.dev.entry l) = true ∧
      s.clearedNow (statPage l.die) = false) ∧
    (∃ s : State, ∃ unit : Nat, ∃ pos : Nat, ∃ direct, ∃ l, ∃ cfg, s.dev.canonical = true ∧ ((direct = false → (s.dev.slice unit).latch = none)) ∧
      l = (if direct then Loc.direct unit pos else .exact unit pos) ∧ s.resetNow = false ∧ entryFailed (s.dev.entry l) = false ∧
      eValid (s.dev.entry l) = true ∧ eStatic (s.dev.entry l) = false ∧ cfg = s.rg pgFlowCtl (if direct then 0x4C else 0x48) ∧ bit cfg 31 = true ∧
      cfg % 16777216 ≤ age24 s.stamp (eStamp (s.dev.entry l))) ∧
    (∃ s : State, ∃ unit : Nat, ∃ pos : Nat, ∃ direct, ∃ l, s.dev.canonical = true ∧ ((direct = false → (s.dev.slice unit).latch = none)) ∧
      l = (if direct then Loc.direct unit pos else .exact unit pos) ∧ s.resetNow = false ∧ entryFailed (s.dev.entry l) = false ∧
      eValid (s.dev.entry l) = true ∧ s.start.stale l (s.dev.entry l) = true) ∧
    (∃ s : State, ∃ unit : Nat, ∃ pos : Nat, ∃ a : Nat, ∃ b : Nat, ∃ p : Nat, s.dev.canonical = true ∧ (s.dev.slice unit).latch = some (a, b, p) ∧
      (pos = a ∨ pos = b)) ∧
    (∃ s : State, ∃ core : Nat, s.dev.canonical = true ∧ core < 800) ∧
    (∃ s : State, ∃ core : Nat, s.dev.canonical = true ∧ core < 800) ∧
    (∃ s : State, ∃ core : Nat, s.dev.canonical = true ∧ core < 800) ∧
    (∃ s : State, ∃ core : Nat, ∃ a : Nat, ∃ b : Nat, ∃ p : Nat, ∃ i, ∃ a' : Nat, ∃ b' : Nat, ∃ k, ∃ rest, s.dev.canonical = true ∧
      (s.dev.slice core).latch = some (a, b, p) ∧ p < s.now ∧ (s.dev.slice core).running = some i ∧ i.path = (a', b', k) :: rest ∧ a' ≠ a ∧ b' ≠ a ∧
      b' ≠ a' ∧ a < 524288 ∧ a' < 524288 ∧ b' < 524288 ∧ s.dev.flushedNow s.now false i.slot (ePort i.entry) = false ∧ s.faultedNow core i = false ∧
      moveMark (s.dev.entry (.exact core a')) = k ∧ s.dev.placeFree core b' = true) ∧
    (∃ s : State, ∃ core : Nat, ∃ pos, ∃ p : Nat, ∃ q : Nat, s.dev.canonical = true ∧ (s.dev.slice core).left = [(pos, p)] ∧ p < s.now ∧
      (s.dev.slice core).latch = none ∧ s.dev.placeFree core pos = true ∧ s.tables.stashFor core (pos / 4) = some q ∧ pos < 524288) ∧
    (∃ s : State, s.dev.canonical = true) :=
  ⟨⟨at_ 9 { flow := { direct := [(3145728, entry5)], flush := some ({ table := 1, ports := 1 }) } }, 3, 0, { table := 1, ports := 1 }, .direct 3 0,
      by and_intros <;> (try exact fun p => by simp [at_, Dev.slice, Table.get, Table.get?]) <;> decide +kernel⟩,
   ⟨at_ 9 { tblDev (chanOf5 0 0) 0x32 ([1, 0, 0, 0] ++ toLE 4 0xFFFFFFFF ++ zeros 4) { flush := some ({ table := 1, ports := 1, sess := 1 }) } with ports := upPort 0 },
      { table := 1, ports := 1, sess := 1 }, Tests.sess 0x32 ([1, 0, 0, 0] ++ toLE 4 0xFFFFFFFF ++ zeros 4), cmd 0x32 ([1, 0, 0, 0] ++
      toLE 4 0xFFFFFFFF ++ zeros 4), by and_intros <;> (try decide +kernel) <;> exact fun _ => rfl⟩,
   ⟨at_ 9 {}, 3, true, by decide +kernel⟩,
   ⟨at_ 9 { flow := { direct := [(4194303, badEntry)] } }, 3, 1048575, true, .direct 3 1048575,
      by and_intros <;> (try exact clear _ _ rfl rfl _) <;> decide +kernel⟩,
   ⟨at_ 9 { regs := { rw := [(addrOf pgFlowCtl 0x4C, 0x80000000)] }, flow := { direct := [(4194303, entry5)] } }, 3, 1048575, true, .direct 3 1048575,
      0x80000000, by decide +kernel⟩,
   ⟨at_ 9 { flow := { direct := [(4194303, entry5)] } }, 3, 1048575, true, .direct 3 1048575, by decide +kernel⟩,
   ⟨at_ 9 { flow := { slices := [(799, { latch := some (4, 8, 7) })] } }, 799, 8, 4, 8, 7, by decide +kernel⟩,
   ⟨at_ 9 {}, 799, by decide +kernel⟩,
   ⟨at_ 9 {}, 799, by decide +kernel⟩,
   ⟨at_ 9 {}, 799, by decide +kernel⟩,
   ⟨at_ 9 { flow := { exact := [(799 * 524288 + 4, entry5), (799 * 524288 + 8, entry5)], slices := [(799, { latch := some (4, 8, 7), running := some ({ path := [(12, 16, zeros 46)], target := 12 }) })] } },
      799, 4, 8, 7, { path := [(12, 16, zeros 46)], target := 12 }, 12, 16, zeros 46, [], by decide +kernel⟩,
   ⟨at_ 9 { flow := { exact := [(799 * 524288 + 335544, entry5)], slices := [(799, { left := [((4 * (((at_ 9 {}).dev.candidates 799 5 (flowKeyOf entry5)).2.1)), 7)] })] } },
      799, (4 * (((at_ 9 {}).dev.candidates 799 5 (flowKeyOf entry5)).2.1)), 7, 335544, by decide +kernel⟩,
   ⟨at_ 200000 { flow := { slices := [(799, { filter := [{ slot := 5, ply := 9 }] })] } }, by decide +kernel⟩⟩

/-- The premises of ImagesAreStaged can be met. -/
theorem witness_ImagesAreStaged :
    (∃ s : State, ∃ sess : Nat, ∃ k : Nat, ∃ x : Session, ∃ c : Cmd, ∃ h : Nat, ∃ len, ∃ pool, s.dev.canonical = true ∧ s.stageReady sess 0x50 x c ∧
      c.body.length = 16 ∧ h = Bytes.le c.body 0 4 ∧ Bytes.le c.body 4 4 = 0 ∧ ((h ≠ 0 → ∃ n, s.chanOf h = some n ∧
      (s.dev.chan n).state ≠ .draining ∧ (s.dev.objects.stages.any fun e => decide (e.2.state ≠ .free ∧ e.2.chan = some n)) = false)) ∧
      len = Bytes.le c.body 8 8 ∧ 128 ≤ len ∧ len ≤ 2 ^ 41 ∧ 4 ≤ bodyRoom x c.route ∧ s.dev.objects.stagePool.take 16 = some (k, pool)) ∧
    (∃ s : State, ∃ sess : Nat, ∃ k : Nat, ∃ x : Session, ∃ c : Cmd, ∃ g : StageOp, s.dev.canonical = true ∧ s.stageReady sess 0x51 x c ∧
      16 ≤ c.body.length ∧ Bytes.le c.body 4 4 = 0 ∧ s.dev.stageOf (Bytes.le c.body 0 4) = some (k, g) ∧ g.state = .open_ ∧
      Bytes.le c.body 8 8 + (c.body.drop 16).length ≤ g.len ∧
      (g.put (Bytes.le c.body 8 8) (c.body.drop 16)).early (Bytes.le c.body 8 8) (c.body.drop 16).length = false ∧
      s.dev.framesShort k (g.put (Bytes.le c.body 8 8) (c.body.drop 16)) = false ∧ 8 ≤ bodyRoom x c.route) ∧
    (∃ s : State, ∃ sess : Nat, ∃ k : Nat, ∃ x : Session, ∃ c : Cmd, ∃ g : StageOp, s.dev.canonical = true ∧ s.stageReady sess 0x52 x c ∧
      c.body.length = 8 ∧ Bytes.le c.body 5 3 = 0 ∧ s.dev.stageOf (Bytes.le c.body 0 4) = some (k, g) ∧ Bytes.at c.body 4 ≤ 1 ∧
      16 ≤ bodyRoom x c.route ∧ g.state = .open_ ∧ prefixLen g.got = g.len) ∧
    (∃ s : State, ∃ sess : Nat, ∃ k : Nat, ∃ x : Session, ∃ c : Cmd, ∃ g : StageOp, s.dev.canonical = true ∧ s.stageReady sess 0x52 x c ∧
      c.body.length = 8 ∧ Bytes.le c.body 5 3 = 0 ∧ s.dev.stageOf (Bytes.le c.body 0 4) = some (k, g) ∧ Bytes.at c.body 4 ≤ 1 ∧
      16 ≤ bodyRoom x c.route ∧ (g.state ≠ .open_ ∨ prefixLen g.got ≠ g.len)) ∧
    (∃ s : State, ∃ sess : Nat, ∃ k : Nat, ∃ x : Session, ∃ c : Cmd, ∃ g : StageOp, s.dev.canonical = true ∧ s.stageReady sess 0x54 x c ∧
      c.body.length = 4 ∧ s.dev.stageOf (Bytes.le c.body 0 4) = some (k, g) ∧ g.state ≠ .verifying) ∧
    (∃ s : State, ∃ sess : Nat, ∃ k : Nat, ∃ x : Session, ∃ c : Cmd, ∃ g : StageOp, s.dev.canonical = true ∧ s.stageReady sess 0x54 x c ∧
      c.body.length = 4 ∧ s.dev.stageOf (Bytes.le c.body 0 4) = some (k, g) ∧ g.state = .verifying) :=
  ⟨⟨at_ 9 (withCmd 0x50 (zeros 8 ++ toLE 8 (2 ^ 41)) { ports := upPort 0 }), 1, 0, Tests.sess 0x50 (zeros 8 ++ toLE 8 (2 ^ 41)), cmd 0x50 (zeros 8 ++
      toLE 8 (2 ^ 41)), 0, 2 ^ 41, { fresh := 1 }, by decide +kernel⟩,
   ⟨at_ 9 (stageDev 0x51 (toLE 4 (handleOf 2 4 1) ++ zeros 12 ++ List.replicate 12 7 ++ zeros 52) (stage1 .open_)), 1, 1,
      Tests.sess 0x51 (toLE 4 (handleOf 2 4 1) ++ zeros 12 ++ List.replicate 12 7 ++ zeros 52), cmd 0x51 (toLE 4 (handleOf 2 4 1) ++ zeros 12 ++
      List.replicate 12 7 ++ zeros 52), stage1 .open_, by decide +kernel⟩,
   ⟨at_ 9 (stageDev 0x52 (toLE 4 (handleOf 2 4 1) ++ [1, 0, 0, 0]) { stage1 .open_ with got := [(0, 128)] }), 1, 1,
      Tests.sess 0x52 (toLE 4 (handleOf 2 4 1) ++ [1, 0, 0, 0]), cmd 0x52 (toLE 4 (handleOf 2 4 1) ++ [1, 0, 0, 0]),
      { stage1 .open_ with got := [(0, 128)] }, by decide +kernel⟩,
   ⟨at_ 9 (stageDev 0x52 (toLE 4 (handleOf 2 4 1) ++ [1, 0, 0, 0]) { stage1 .open_ with got := [(0, 127)] }), 1, 1,
      Tests.sess 0x52 (toLE 4 (handleOf 2 4 1) ++ [1, 0, 0, 0]), cmd 0x52 (toLE 4 (handleOf 2 4 1) ++ [1, 0, 0, 0]),
      { stage1 .open_ with got := [(0, 127)] }, by decide +kernel⟩,
   ⟨at_ 9 (stageDev 0x54 (toLE 4 (handleOf 2 4 1)) (stage1 .accepted)), 1, 1, Tests.sess 0x54 (toLE 4 (handleOf 2 4 1)),
      cmd 0x54 (toLE 4 (handleOf 2 4 1)), stage1 .accepted, by decide +kernel⟩,
   ⟨at_ 9 (stageDev 0x54 (toLE 4 (handleOf 2 4 1)) (stage1 .verifying)), 1, 1, Tests.sess 0x54 (toLE 4 (handleOf 2 4 1)),
      cmd 0x54 (toLE 4 (handleOf 2 4 1)), stage1 .verifying, by decide +kernel⟩⟩

/-- The premises of GenerationsTurn can be met. -/
theorem witness_GenerationsTurn :
    (∃ s : State, ∃ k : Nat, ∃ x : Session, ∃ c : Cmd, ∃ g : StageOp, s.dev.canonical = true ∧ Table.get {} s.dev.objects.stages k = g ∧
      s.dev.reliab.stopped ≠ 255 ∧ g.state = .verifying ∧ g.discard = false ∧ g.sess ≠ 0 ∧ s.session? g.verifier = some x ∧
      x.cmds.find? (fun c => decide (c.opcode = 0x52)) = some c) ∧
    (∃ s : State, ∃ sess : Nat, ∃ k : Nat, ∃ x : Session, ∃ c : Cmd, ∃ g : StageOp, ∃ n : Nat, ∃ key, s.dev.canonical = true ∧
      s.stageReady sess 0x53 x c ∧ c.body.length = 4 ∧ s.dev.stageOf (Bytes.le c.body 0 4) = some (k, g) ∧ 16 ≤ bodyRoom x c.route ∧
      g.state = .accepted ∧ s.drains g.chan.isNone g.candidate.target = false ∧
      (s.start.compute.retired.any fun e => decide (e.1 = stageKey k)) = false ∧ n = nextGen (s.dev.lastGen g.chan.isNone g.candidate.target) ∧
      key = genKey (decide (g.candidate.kind = 2)) g.candidate.target n) ∧
    (∃ s : State, ∃ deep, ∃ target : Nat, ∃ gen : Nat, ∃ q : Generation, s.dev.canonical = true ∧ s.dev.gen? deep target gen = some q ∧
      s.canRetire deep q = true ∧ s.clearedNow pgStaging = false) :=
  ⟨⟨at_ 9 (stageDev 0x52 (toLE 4 (handleOf 2 4 1) ++ [1, 0, 0, 0]) { stage1 .verifying with verifier := 1 }), 1,
      Tests.sess 0x52 (toLE 4 (handleOf 2 4 1) ++ [1, 0, 0, 0]), cmd 0x52 (toLE 4 (handleOf 2 4 1) ++ [1, 0, 0, 0]),
      { stage1 .verifying with verifier := 1 }, by decide +kernel⟩,
   ⟨at_ 9 (stageDev 0x53 (toLE 4 (handleOf 2 4 1)) (stage1 .accepted)), 1, 1, Tests.sess 0x53 (toLE 4 (handleOf 2 4 1)),
      cmd 0x53 (toLE 4 (handleOf 2 4 1)), stage1 .accepted, 1, genKey true 0 1, by decide +kernel⟩,
   ⟨at_ 200000 { objects := { gens := [(genKey true 15 3, (({ kind := 2, target := 15, gen := 3, state := .draining } : Generation)))] } }, true, 15,
      3, ({ kind := 2, target := 15, gen := 3, state := .draining } : Generation), by decide +kernel⟩⟩

/-- The premises of ScoresheetsRun can be met. -/
theorem witness_ScoresheetsRun :
    (∃ s : State, ∃ sess : Nat, ∃ r : Nat, ∃ x : Session, ∃ c : Cmd, ∃ u : State, s.dev.canonical = true ∧ s.ready sess 0x70 = some (x, c) ∧
      c.body.length = 4 ∧ Bytes.le c.body 0 4 < 16 ∧ 8 ≤ bodyRoom x c.route ∧ Bytes.le c.body 0 4 ≠ 0 ∧ s.dev.score.mode = 0 ∧
      s.dev.scoreShort (s.rg pgScore 0x40 % 64) = false ∧ (s.freeOpt s.dev.score.ring).allocRing 0 .score (s.rg pgScore 0x40 % 64) false = (u,
      some r)) ∧
    (∃ s : State, ∃ sess : Nat, ∃ x : Session, ∃ c : Cmd, s.dev.canonical = true ∧ s.ready sess 0x70 = some (x, c) ∧ c.body.length = 4 ∧
      Bytes.le c.body 0 4 < 16 ∧ 8 ≤ bodyRoom x c.route ∧ Bytes.le c.body 0 4 = 0 ∧ s.dev.score.mode = 1) ∧
    (∃ s : State, ∃ sess : Nat, ∃ r : Nat, ∃ x : Session, ∃ c : Cmd, s.dev.canonical = true ∧ s.ready sess 0x71 = some (x, c) ∧ c.body.length = 0 ∧
      s.dev.score.mode = 1 ∧ s.dev.score.ring = some r ∧ 16 ≤ bodyRoom x c.route) ∧
    (∃ s : State, ∃ sess : Nat, ∃ r : Nat, ∃ x : Session, ∃ c : Cmd, ∃ u : State, ∃ a : Nat, ∃ b : Nat, s.dev.canonical = true ∧
      s.ready sess 0x72 = some (x, c) ∧ c.body.length = 16 ∧ s.dev.score.mode = 0 ∧ a = Bytes.le c.body 0 8 ∧ b = Bytes.le c.body 8 8 ∧
      s.dev.recorded a b ≠ [] ∧ 8 ≤ bodyRoom x c.route ∧ (s.freeOpt s.dev.score.replayRing).allocRing 0 .score 20 false = (u, some r)) ∧
    (∃ s : State, ∃ sess : Nat, ∃ x : Session, ∃ c : Cmd, s.dev.canonical = true ∧ s.ready sess 0x73 = some (x, c) ∧ c.body.length = 0 ∧
      s.dev.score.ran = true ∧ 16 ≤ bodyRoom x c.route ∧ s.clearedNow pgScore = false) ∧
    (∃ s : State, ∃ u : State, ∃ n : Nat, ∃ i, s.dev.canonical = true ∧ s.dev.score.items[n]? = some i ∧ s.dev.score.mode = 2 ∧ i.packet = none ∧
      i.due ≤ s.now ∧ s.start.recognise (Bytes.at i.body 1 % 64) (Bytes.at i.body 1 / 64) (Bytes.slice i.body 16 (Bytes.le i.body 2 2)) = none ∧
      (s.scoreCount 2).inject i.body = (u, none)) ∧
    (∃ s : State, ∃ u : State, ∃ n : Nat, ∃ i, ∃ k : Nat, s.dev.canonical = true ∧ s.dev.score.items[n]? = some i ∧ s.dev.score.mode = 2 ∧
      i.packet = none ∧ i.due ≤ s.now ∧
      s.start.recognise (Bytes.at i.body 1 % 64) (Bytes.at i.body 1 / 64) (Bytes.slice i.body 16 (Bytes.le i.body 2 2)) = none ∧
      (s.scoreCount 2).inject i.body = (u, some k)) ∧
    (∃ s : State, s.dev.canonical = true ∧ s.dev.score.mode = 2 ∧ ((∀ i ∈ s.dev.score.items, i.packet.isSome = true)) ∧
      s.dev.score.lastDeadline < s.now ∧ s.clearedNow pgScore = false) :=
  ⟨⟨at_ 9 (withCmd 0x70 (toLE 4 15) { ports := upPort 0 }), 1, 0, Tests.sess 0x70 (toLE 4 15), cmd 0x70 (toLE 4 15),
      (((at_ 9 (withCmd 0x70 (toLE 4 15) { ports := upPort 0 })).freeOpt (at_ 9 (withCmd 0x70 (toLE 4 15) { ports := upPort 0 })).dev.score.ring).allocRing 0 .score ((at_ 9 (withCmd 0x70 (toLE 4 15) { ports := upPort 0 })).rg pgScore 0x40 % 64) false).1,
      by and_intros <;> (try exact pairEq (by decide +kernel)) <;> decide +kernel⟩,
   ⟨at_ 9 (withCmd 0x70 (toLE 4 0) { ports := upPort 0, score := { mode := 1 } }), 1, Tests.sess 0x70 (toLE 4 0), cmd 0x70 (toLE 4 0),
      by decide +kernel⟩,
   ⟨at_ 9 (withCmd 0x71 [] { ports := upPort 0, score := { mode := 1, ring := some 0 } }), 1, 0, Tests.sess 0x71 [], cmd 0x71 [], by decide +kernel⟩,
   ⟨at_ 9 (withCmd 0x72 (toLE 8 4 ++
      toLE 8 6) { ports := upPort 0, score := { ring := some 0 }, objects := { ringPool0 := { fresh := 1 }, rings := [(0, { use := .score, size := 20, items := [{ kind := 0x14, info := 5, len := 2, body := [1] ++ zeros 15 }] })] } }),
      1, 1, Tests.sess 0x72 (toLE 8 4 ++ toLE 8 6), cmd 0x72 (toLE 8 4 ++ toLE 8 6), (((at_ 9 (withCmd 0x72 (toLE 8 4 ++
      toLE 8 6) { ports := upPort 0, score := { ring := some 0 }, objects := { ringPool0 := { fresh := 1 }, rings := [(0, { use := .score, size := 20, items := [{ kind := 0x14, info := 5, len := 2, body := [1] ++ zeros 15 }] })] } })).freeOpt (at_ 9 (withCmd 0x72 (toLE 8 4 ++
      toLE 8 6) { ports := upPort 0, score := { ring := some 0 }, objects := { ringPool0 := { fresh := 1 }, rings := [(0, { use := .score, size := 20, items := [{ kind := 0x14, info := 5, len := 2, body := [1] ++ zeros 15 }] })] } })).dev.score.replayRing).allocRing 0 .score 20 false).1,
      4, 6, by and_intros <;> (try exact pairEq (by decide +kernel)) <;> decide +kernel⟩,
   ⟨at_ 9 (withCmd 0x73 [] { ports := upPort 0, score := { mode := 2, ran := true } }), 1, Tests.sess 0x73 [], cmd 0x73 [], by decide +kernel⟩,
   ⟨at_ 9 { regs := { rw := ctrlRegs }, score := { mode := 2, items := [{ due := 9, body := [1, 0] ++ toLE 2 64 ++ toLE 2 64 ++ zeros 74 }] } },
      (((at_ 9 { regs := { rw := ctrlRegs }, score := { mode := 2, items := [{ due := 9, body := [1, 0] ++ toLE 2 64 ++ toLE 2 64 ++ zeros 74 }] } }).scoreCount 2).inject ([1,
      0] ++ toLE 2 64 ++ toLE 2 64 ++ zeros 74)).1, 0, { due := 9, body := [1, 0] ++ toLE 2 64 ++ toLE 2 64 ++ zeros 74 },
      by and_intros <;> (try exact canonCtrl (by decide +kernel) (by decide +kernel)) <;> (try exact pairEq (by decide +kernel)) <;> decide +kernel⟩,
   ⟨at_ 9 { dev799 (chanOf5 0 0) [] { lastIssue := some 1 } with ports := pairUp, regs := { rw := ctrlRegs }, score := { mode := 2, items := [{ due := 9, body := [1, 0] ++ toLE 2 64 ++ toLE 2 64 ++ zeros 74 }] } },
      (((at_ 9 { dev799 (chanOf5 0 0) [] { lastIssue := some 1 } with ports := pairUp, regs := { rw := ctrlRegs }, score := { mode := 2, items := [{ due := 9, body := [1, 0] ++ toLE 2 64 ++ toLE 2 64 ++ zeros 74 }] } }).scoreCount 2).inject ([1,
      0] ++ toLE 2 64 ++ toLE 2 64 ++ zeros 74)).1, 0, { due := 9, body := [1, 0] ++ toLE 2 64 ++ toLE 2 64 ++ zeros 74 }, 0,
      by and_intros <;> (try exact canonCtrl (by decide +kernel) (by decide +kernel)) <;> (try exact pairEq (by decide +kernel)) <;> decide +kernel⟩,
   ⟨at_ 9 { score := { mode := 2, lastDeadline := 8, items := [{ packet := some 4 }] } }, by decide +kernel⟩⟩

/-- The premises of OwnersEnrolAndAttest can be met. -/
theorem witness_OwnersEnrolAndAttest :
    (∃ s : State, ∃ sess : Nat, ∃ x : Session, ∃ c : Cmd, s.dev.canonical = true ∧ s.ready sess 0x91 = some (x, c) ∧ c.body.length = 64 ∧
      Bytes.le c.body 0 4 = 60 ∧ s.dev.sec.nvm.lifecycle = 0 ∧ isHost x.source.port = true ∧ (hssKeyBad (c.body.drop 4)).isSome = false ∧
      s.clearedNow pgSecurity = false) ∧
    (∃ s : State, ∃ sess : Nat, ∃ x : Session, ∃ c : Cmd, ∃ nor : Nat, ∃ u, ∃ i : Nat, s.dev.canonical = true ∧ s.ready sess 0x90 = some (x, c) ∧
      c.body.length = 32 ∧ 6012 ≤ bodyRoom x c.route ∧ s.dev.sec.quotes.countP (fun q => decide (s.now < q + plies1s)) < 64 ∧ s.sign nor = (u,
      some i)) :=
  ⟨⟨at_ 9 { ports := upPort 64, selid := { sessions := [({ num := 1, source := { port := 64 }, cmds := [{ opcode := 0x91, tag := 7, body := toLE 4 60 ++ hssKey }] })] } },
      1, { num := 1, source := { port := 64 }, cmds := [{ opcode := 0x91, tag := 7, body := toLE 4 60 ++ hssKey }] },
      { opcode := 0x91, tag := 7, body := toLE 4 60 ++ hssKey }, by decide +kernel⟩,
   ⟨at_ 9 (withCmd 0x90 (zeros 32) { ports := upPort 0, sec := { signNext := 3, signLimit := 9, prepared := 8 } }), 1, Tests.sess 0x90 (zeros 32),
      cmd 0x90 (zeros 32), 0,
      ((at_ 9 (withCmd 0x90 (zeros 32) { ports := upPort 0, sec := { signNext := 3, signLimit := 9, prepared := 8 } })).sign 0).1, 3,
      by and_intros <;> (try exact pairEq (by decide +kernel)) <;> decide +kernel⟩⟩

/-- The premises of BundlesApply can be met. -/
theorem witness_BundlesApply :
    (∃ s : State, ∃ sess : Nat, ∃ x : Session, ∃ c : Cmd, s.dev.canonical = true ∧ s.clearedNow pgSecurity = false ∧ s.bundleReady sess 1 x c) ∧
    (∃ s : State, ∃ sess : Nat, ∃ x : Session, ∃ c : Cmd, s.dev.canonical = true ∧ s.clearedNow pgSecurity = false ∧ s.bundleReady sess 2 x c) ∧
    (∃ s : State, ∃ sess : Nat, ∃ x : Session, ∃ c : Cmd, s.dev.canonical = true ∧ s.clearedNow pgSecurity = false ∧ s.bundleReady sess 3 x c) ∧
    (∃ s : State, ∃ sess : Nat, ∃ x : Session, ∃ c : Cmd, s.dev.canonical = true ∧ s.clearedNow pgSecurity = false ∧ s.bundleReady sess 4 x c) ∧
    (∃ s : State, ∃ sess : Nat, ∃ x : Session, ∃ c : Cmd, ∃ a, ∃ off : Nat, ∃ data, s.dev.canonical = true ∧ s.clearedNow pgSecurity = false ∧
      s.bundleReady sess 5 x c ∧ s.dev.sec.transfer = some a ∧ a.sess = sess ∧ off = Bytes.le (bPayload (c.body.drop 4)) 0 4 ∧
      data = (bPayload (c.body.drop 4)).drop 4 ∧ data ≠ [] ∧ off + data.length ≤ a.len ∧
      prefixLen (coverAdd off (off + data.length) a.got) < a.len) ∧
    (∃ s : State, ∃ sess : Nat, ∃ x : Session, ∃ c : Cmd, s.dev.canonical = true ∧ s.clearedNow pgSecurity = false ∧ s.bundleReady sess 6 x c) :=
  ⟨⟨at_ 9 (owned (bundleOf 1 1 (toLE 4 2 ++ toLE 4 (addrOf pgGlobal 0x58) ++ toLE 4 7 ++ toLE 4 1 ++ toLE 4 (addrOf pgDeep 0x40) ++ toLE 4 1 ++
      toLE 4 0) []) {}), 1, Tests.sess 0x92 (bundleOf 1 1 (toLE 4 2 ++ toLE 4 (addrOf pgGlobal 0x58) ++ toLE 4 7 ++ toLE 4 1 ++
      toLE 4 (addrOf pgDeep 0x40) ++ toLE 4 1 ++ toLE 4 0) []), cmd 0x92 (bundleOf 1 1 (toLE 4 2 ++ toLE 4 (addrOf pgGlobal 0x58) ++ toLE 4 7 ++
      toLE 4 1 ++ toLE 4 (addrOf pgDeep 0x40) ++ toLE 4 1 ++ toLE 4 0) []), by decide +kernel⟩,
   ⟨at_ 9 (owned (bundleOf 2 1 (toLE 2 9 ++ [2, 1] ++ zeros 100) []) {}), 1, Tests.sess 0x92 (bundleOf 2 1 (toLE 2 9 ++ [2, 1] ++ zeros 100) []),
      cmd 0x92 (bundleOf 2 1 (toLE 2 9 ++ [2, 1] ++ zeros 100) []), by decide +kernel⟩,
   ⟨at_ 9 (owned (bundleOf 3 1 (toLE 4 6 ++ toLE 4 7 ++ toLE 4 70000 ++ zeros 36) []) {}), 1, Tests.sess 0x92 (bundleOf 3 1 (toLE 4 6 ++ toLE 4 7 ++
      toLE 4 70000 ++ zeros 36) []), cmd 0x92 (bundleOf 3 1 (toLE 4 6 ++ toLE 4 7 ++ toLE 4 70000 ++ zeros 36) []), by decide +kernel⟩,
   ⟨at_ 9 (owned (bundleOf 4 1 [] []) {}), 1, Tests.sess 0x92 (bundleOf 4 1 [] []), cmd 0x92 (bundleOf 4 1 [] []), by decide +kernel⟩,
   ⟨at_ 9 (owned (bundleOf 5 0 (toLE 4 4 ++ [1, 2]) []) { sec := { transfer := some { sess := 1, len := 70000 } } }), 1,
      Tests.sess 0x92 (bundleOf 5 0 (toLE 4 4 ++ [1, 2]) []), cmd 0x92 (bundleOf 5 0 (toLE 4 4 ++ [1, 2]) []), { sess := 1, len := 70000 }, 4, [1,
      2], by decide +kernel⟩,
   ⟨at_ 9 (owned (bundleOf 6 1 (toLE 2 9 ++ [1, 3] ++ zeros 4 ++ [18] ++ zeros 71) []) {}), 1, Tests.sess 0x92 (bundleOf 6 1 (toLE 2 9 ++ [1, 3] ++
      zeros 4 ++ [18] ++ zeros 71) []), cmd 0x92 (bundleOf 6 1 (toLE 2 9 ++ [1, 3] ++ zeros 4 ++ [18] ++ zeros 71) []), by decide +kernel⟩⟩

/-- The premises of SecretsAreRenewed can be met. -/
theorem witness_SecretsAreRenewed :
    (∃ s : State, ∃ n : Nat, s.dev.canonical = true ∧ s.clearedNow pgSecurity = false ∧ s.dev.sec.preparing = some n) ∧
    (∃ s : State, s.dev.canonical = true ∧ s.clearedNow pgSecurity = false ∧ s.dev.sec.failing = none ∧ s.dev.sec.entropyOk = true ∧
      (s.dev.sec.requests + 1048576 ≤ s.dev.draws ∨ s.dev.sec.reseeded + plies1s ≤ s.now)) ∧
    (∃ s : State, ∃ k : Nat, s.dev.canonical = true ∧ s.clearedNow pgSecurity = false ∧ s.dev.sec.failing = some k) ∧
    (∃ s : State, s.dev.canonical = true ∧ s.clearedNow pgSecurity = false) :=
  ⟨⟨at_ 9 { sec := { preparing := some 3 } }, 3, by decide +kernel⟩,
   ⟨at_ 1562500000 { sec := { entropyOk := true } }, by decide +kernel⟩,
   ⟨at_ 9 { sec := { failing := some 1 } }, 1, by decide +kernel⟩,
   ⟨at_ 9 {}, by decide +kernel⟩⟩

/-- The premises of TestPortObeys can be met. -/
theorem witness_TestPortObeys :
    (∃ s : State, s.dev.startUp.powerGood = true) ∧
    (∃ s : State, s.dev.startUp.powerGood = true) ∧
    (∃ s : State, s.dev.startUp.powerGood = true) ∧
    (∃ s : State, s.dev.startUp.powerGood = true) ∧
    (∃ s : State, s.dev.startUp.powerGood = true ∧ s.dev.startUp.resetN = true ∧ s.dev.sec.scanning = false) ∧
    (∃ s : State, s.dev.startUp.powerGood = true ∧ s.dev.startUp.resetN = true ∧ s.dev.sec.scanning = false) ∧
    (∃ s : State, s.dev.startUp.powerGood = true ∧ s.dev.startUp.resetN = true ∧ s.dev.sec.scanning = false) ∧
    (∃ s : State, s.dev.startUp.powerGood = true ∧ s.dev.startUp.resetN = true ∧ s.dev.sec.scanning = false) ∧
    (∃ s : State, s.dev.startUp.powerGood = true ∧ s.dev.startUp.resetN = true ∧ s.dev.sec.scanning = false ∧ s.dev.sec.nvm.lifecycle = 0) ∧
    (∃ s : State, s.dev.startUp.powerGood = true ∧ s.dev.startUp.resetN = true ∧ s.dev.sec.scanning = false ∧ s.dev.sec.nvm.lifecycle ≠ 0 ∧
      s.dev.sec.nvm.ownerClears < 16) :=
  ⟨⟨at_ 9 {}, by decide +kernel⟩,
   ⟨at_ 9 {}, by decide +kernel⟩,
   ⟨at_ 9 {}, by decide +kernel⟩,
   ⟨at_ 9 { startUp := { powerGood := true } }, by decide +kernel⟩,
   ⟨at_ 9 { startUp := { resetN := true } }, by decide +kernel⟩,
   ⟨at_ 9 { startUp := { resetN := true } }, by decide +kernel⟩,
   ⟨at_ 9 { startUp := { resetN := true } }, by decide +kernel⟩,
   ⟨at_ 9 { startUp := { powerGood := true, resetN := true } }, by decide +kernel⟩,
   ⟨at_ 9 { startUp := { resetN := true } }, by decide +kernel⟩,
   ⟨at_ 9 { startUp := { resetN := true }, sec := { nvm := { lifecycle := 2, ownerClears := 15 } } }, by decide +kernel⟩⟩

/-- The premises of PowerIsGoverned can be met. -/
theorem witness_PowerIsGoverned :
    (∃ s : State, ∃ die : Nat, ∃ logic : List (Nat × Nat), ∃ dram : List (Nat × Nat), ∃ c, ∃ lt : Table Nat, ∃ dt : Table Nat, ∃ sl, ∃ a, ∃ b,
      s.dev.canonical = true ∧ die < 4 ∧ s.now % 1024 = 0 ∧ s.dev.halted = false ∧ (s.dev.tempo die).interval ≠ some s.now ∧ c = s.start.govCfg die ∧
      lt = logic.foldl (fun t e => Table.put t (e.1 % 208) (e.2 % 4096)) (s.dev.tempo die).logic ∧
      dt = dram.foldl (fun t e => Table.put t (e.1 % 208) (e.2 % 4096)) (s.dev.tempo die).dram ∧ sl = (slowest (s.dev.dieSteps die)).2 ∧
      a = temp (hottest lt).2 ∧ b = temp (hottest dt).2) ∧
    (∃ s : State, ∃ die : Nat, ∃ core : Nat, ∃ x, ∃ r : ArrayRun, s.dev.canonical = true ∧ (s.dev.tempo die).general < s.dev.committed die ∧
      (s.dev.compute.cores.filter fun e => decide (coreDie e.1 = die) && e.2.adjourn.isNone) = [(core, x)] ∧ s.latestRun core = some r ∧
      s.canSeal r = true ∧ (s.ctx core r.ctx).cancel = false) ∧
    (∃ s : State, ∃ site : Nat, ∃ step : Nat, s.dev.canonical = true ∧ site < 832 ∧ step < 256 ∧ s.dev.halted = false) ∧
    (∃ s : State, ∃ kind : Nat, ∃ reading, s.dev.canonical = true ∧ (if kind = 1 then 400 else 460) ≤ temp reading ∧ s.dev.power.tripped = false ∧
      s.dev.startUp.powerGood = true) ∧
    (∃ s : State, ∃ rail : Nat, s.dev.canonical = true ∧ rail < 7 ∧ s.dev.startUp.powerGood = true ∧ bit s.dev.power.rails rail = false) :=
  ⟨⟨at_ 2048 {}, 3, ([(207, 0x640)] : List (Nat × Nat)), ([(0, 0x700)] : List (Nat × Nat)), (at_ 2048 {}).start.govCfg 3, ([(207,
      0x640)] : Table Nat), ([(0, 0x700)] : Table Nat), (slowest ((at_ 2048 {}).dev.dieSteps 3)).2, temp 0x640, temp 0x700, by decide +kernel⟩,
   ⟨at_ 2048 { run799 4 { ctx7 with rate := 5 } ({ running := [(({ ctx := 4, mode := 0, began := 2040, ready := 99999 } : ArrayRun))] }) (img1 0 2 0 2 [entry_ 1 0 0 20 3 0]) with power := { dies := [(3, { general := 4 })] } },
      3, 799, { ctxs := [(4, { ctx7 with rate := 5 })], running := [(({ ctx := 4, mode := 0, began := 2040, ready := 99999 } : ArrayRun))] },
      ({ ctx := 4, mode := 0, began := 2040, ready := 99999 } : ArrayRun), by decide +kernel⟩,
   ⟨at_ 9 {}, 831, 255, by decide +kernel⟩,
   ⟨at_ 9 {}, 1, 0x640, by decide +kernel⟩,
   ⟨at_ 9 {}, 6, by decide +kernel⟩⟩

/-- The premises of CoresAndRowsAreReplaced can be met. -/
theorem witness_CoresAndRowsAreReplaced :
    (∃ s : State, ∃ core : Nat, ∃ cause : Nat, ∃ x : Nat, s.dev.canonical = true ∧ ((∀ p, s.clearedNow p = false)) ∧ s.dev.coreActive core = true ∧
      s.dev.siteOf core = some x ∧ ((s.dev.core core).failed = some cause ∨ cause = 3 ∨ cause = 5) ∧
      Table.get? s.dev.reliab.mapping (siteDie x) = none) ∧
    (∃ s : State, ∃ site : Nat, ∃ m : Mapping, s.dev.canonical = true ∧ ((∀ p, s.clearedNow p = false)) ∧ s.dev.coreAt site = none ∧
      Table.get? s.dev.reliab.mapping (siteDie site) = some m ∧ siteDie site * 208 + m.to_ = site ∧ m.step = 0) ∧
    (∃ s : State, ∃ site : Nat, ∃ core : Nat, s.dev.canonical = true ∧ ((∀ p, s.clearedNow p = false)) ∧ s.dev.coreAt site = some core ∧
      s.dev.coreActive core = true ∧ ((s.dev.core core).array0.suspect = true ∨ (s.dev.core core).array1.suspect = true)) ∧
    (∃ s : State, ∃ site : Nat, ∃ core : Nat, s.dev.canonical = true ∧ ((∀ p, s.clearedNow p = false)) ∧ s.dev.coreAt site = some core ∧
      s.dev.coreActive core = true ∧ ((s.dev.core core).array0.suspect = true ∨ (s.dev.core core).array1.suspect = true)) ∧
    (∃ s : State, ∃ site : Nat, ∃ core : Nat, s.dev.canonical = true ∧ ((∀ p, s.clearedNow p = false)) ∧ s.dev.coreAt site = some core ∧
      s.dev.coreActive core = true ∧ ((s.dev.core core).array0.suspect = true ∨ (s.dev.core core).array1.suspect = true)) ∧
    (∃ s : State, ∃ site : Nat, ∃ core : Nat, s.dev.canonical = true ∧ ((∀ p, s.clearedNow p = false)) ∧ s.dev.coreAt site = some core ∧
      s.dev.coreActive core = true ∧ ((s.dev.core core).array0.suspect = true ∨ (s.dev.core core).array1.suspect = true)) ∧
    (∃ s : State, ∃ die : Nat, ∃ m : Mapping, s.dev.canonical = true ∧ ((∀ p, s.clearedNow p = false)) ∧
      Table.get? s.dev.reliab.mapping die = some m ∧ m.step ≠ 0) ∧
    (∃ s : State, ∃ die : Nat, ∃ m : Mapping, ∃ t, s.dev.canonical = true ∧ ((∀ p, s.clearedNow p = false)) ∧ t = s.activate die m ∧ m.from_ ≠ m.to_ ∧
      s.dev.reliab.waiting = []) ∧
    (∃ s : State, ∃ die : Nat, ∃ m : Mapping, ∃ t, s.dev.canonical = true ∧ ((∀ p, s.clearedNow p = false)) ∧ t = s.activate die m ∧ m.from_ ≠ m.to_ ∧
      s.dev.reliab.waiting = [] ∧ m.wear = false) ∧
    (∃ s : State, ∃ die : Nat, ∃ m : Mapping, ∃ t, s.dev.canonical = true ∧ ((∀ p, s.clearedNow p = false)) ∧ t = s.activate die m ∧ m.from_ ≠ m.to_ ∧
      s.dev.reliab.waiting = [] ∧ m.wear = true) ∧
    (∃ s : State, ∃ cp : Nat, s.dev.canonical = true ∧ ((∀ p, s.clearedNow p = false)) ∧ cp < 8 ∧ bit s.dev.reliab.stopped cp = false) ∧
    (∃ s : State, ∃ core : Nat, ∃ quarter : Nat, ∃ kind : Nat, ∃ index : Nat, ∃ x : Nat, ∃ n : Nat, s.dev.canonical = true ∧
      s.dev.siteOf core = some x ∧ quarter < 4 ∧ (s.dev.reliab.amFailed.any fun f => decide (f.1 = x * 4 + quarter ∧ f.2.1 = kind ∧
      f.2.2.1 = index)) = true ∧ n = Table.get 0 (if kind = 0 then s.dev.reliab.rowsUsed else s.dev.reliab.compsUsed) (x * 4 + quarter) + 1) ∧
    (∃ s : State, ∃ site : Nat, ∃ row : Nat, s.dev.canonical = true ∧ (s.dev.reliab.moving.find? fun m => decide (m.1 = site ∧ m.2.1 = row)) = none ∧
      (s.dev.reliab.vaultFailed.any fun f => decide (f.1 = site ∧ f.2.1 = row)) = true) ∧
    (∃ s : State, ∃ site : Nat, ∃ row : Nat, ∃ m : Nat × Nat × List (Nat × Nat), s.dev.canonical = true ∧
      (s.dev.reliab.moving.find? fun m => decide (m.1 = site ∧ m.2.1 = row)) = some m) :=
  ⟨⟨at_ 9 (dev600 {} { failed := some 2 }), 600, 2, 831, by and_intros <;> (try exact clear _ _ rfl rfl) <;> decide +kernel⟩,
   ⟨at_ 9 { objects := { siteMap := allMapped }, reliab := { mapping := [(3, { from_ := 5, to_ := 207, logical := 605 })] } }, 831,
      ({ from_ := 5, to_ := 207, logical := 605 } : Mapping), by and_intros <;> (try exact clear _ _ rfl rfl) <;> decide +kernel⟩,
   ⟨at_ 9 (dev600 {} { array0 := { suspect := true } }), 831, 600, by and_intros <;> (try exact clear _ _ rfl rfl) <;> decide +kernel⟩,
   ⟨at_ 9 (dev600 {} { array0 := { suspect := true } }), 831, 600, by and_intros <;> (try exact clear _ _ rfl rfl) <;> decide +kernel⟩,
   ⟨at_ 9 (dev600 {} { array1 := { suspect := true } }), 831, 600, by and_intros <;> (try exact clear _ _ rfl rfl) <;> decide +kernel⟩,
   ⟨at_ 9 (dev600 {} { array0 := { suspect := true } }), 831, 600, by and_intros <;> (try exact clear _ _ rfl rfl) <;> decide +kernel⟩,
   ⟨at_ 9 { reliab := { mapping := [(3, { from_ := 5, to_ := 207, logical := 605, step := 1 })] } }, 3,
      ({ from_ := 5, to_ := 207, logical := 605, step := 1 } : Mapping), by and_intros <;> (try exact clear _ _ rfl rfl) <;> decide +kernel⟩,
   ⟨at_ 9 {}, 3, ({ from_ := 5, to_ := 207, logical := 605, step := 1 } : Mapping),
      State.activate 3 (({ from_ := 5, to_ := 207, logical := 605, step := 1 } : Mapping)) (at_ 9 {}),
      by and_intros <;> (try exact clear _ _ rfl rfl) <;> (try decide +kernel) <;> exact rfl⟩,
   ⟨at_ 9 {}, 3, ({ from_ := 5, to_ := 207, logical := 605, step := 1 } : Mapping),
      State.activate 3 (({ from_ := 5, to_ := 207, logical := 605, step := 1 } : Mapping)) (at_ 9 {}),
      by and_intros <;> (try exact clear _ _ rfl rfl) <;> (try decide +kernel) <;> exact rfl⟩,
   ⟨at_ 9 {}, 3, ({ from_ := 5, to_ := 207, logical := 605, wear := true, step := 1 } : Mapping),
      State.activate 3 (({ from_ := 5, to_ := 207, logical := 605, wear := true, step := 1 } : Mapping)) (at_ 9 {}),
      by and_intros <;> (try exact clear _ _ rfl rfl) <;> (try decide +kernel) <;> exact rfl⟩,
   ⟨at_ 9 { selid := { sessions := [{ num := 1 }] } }, 7, by and_intros <;> (try exact clear _ _ rfl rfl) <;> decide +kernel⟩,
   ⟨at_ 9 (dev600 { amFailed := [(3327, 0, 4095, 5)] } {}), 600, 3, 0, 4095, 831, 1, by decide +kernel⟩,
   ⟨at_ 9 { reliab := { vaultFailed := [(831, 7, 3)] } }, 831, 7, by decide +kernel⟩,
   ⟨at_ 9 { reliab := { vaultFailed := [(831, 7, 3)], moving := [(831, 7, [(5, 6)])] }, compute := { loading := [(5, 6)] } }, 831, 7, ((831, 7, [(5,
      6)]) : Nat × Nat × List (Nat × Nat)), by decide +kernel⟩⟩

/-- The premises of BackgroundWorks can be met. -/
theorem witness_BackgroundWorks :
    (∃ s : State, ∃ site : Nat, s.dev.canonical = true ∧ site < 832 ∧ s.dev.scrubFree site = true) ∧
    (∃ s : State, ∃ core : Nat, ∃ quarter : Nat, ∃ kind : Nat, s.dev.canonical = true ∧ core < 800 ∧ quarter < 4 ∧ kind < 2) ∧
    (∃ s : State, ∃ core : Nat, ∃ x : Nat, s.dev.canonical = true ∧ s.dev.siteOf core = some x ∧ s.dev.coreActive core = true) ∧
    (∃ s : State, ∃ port : Nat, ∃ lane : Nat, s.dev.canonical = true ∧ port < 66 ∧ lane < 4 ∧ (s.dev.port port).enabled = true ∧
      ((s.dev.port port).lane lane).failed = false) ∧
    (∃ s : State, ∃ port : Nat, ∃ lane : Nat, ∃ ber : Nat, s.dev.canonical = true ∧ port < 66 ∧ lane < 4 ∧ (s.dev.port port).enabled = true ∧
      ((s.dev.port port).lane lane).failed = false ∧ ((s.dev.port port).lane lane).tuning = false ∧ 24 < ber ∧ ((∀ i, i < 4 →
      ((s.dev.port port).lane i).tuning = false))) ∧
    (∃ s : State, ∃ port : Nat, ∃ lane : Nat, ∃ ber : Nat, s.dev.canonical = true ∧ port < 66 ∧ lane < 4 ∧ (s.dev.port port).enabled = true ∧
      ((s.dev.port port).lane lane).failed = false ∧ ((s.dev.port port).lane lane).tuning = true ∧ ber ≤ 24 ∧ ((∀ i, i < 4 →
      bit ((s.start.port port).subp i).lanes lane = true → ((s.start.port port).subp i).up = true → s.subUp port i = true))) ∧
    (∃ s : State, ∃ die : Nat, ∃ f : Nat, ∃ k : Nat, ∃ core : Nat, s.dev.canonical = true ∧ die < 4 ∧ s.rg pgBackground 0x48 % 256 ≠ 0 ∧
      (s.start.tempo die).stage = 0 ∧ Table.get? s.dev.reliab.mapping die = none ∧
      dueSince s.now (Table.get? s.dev.back.moved die) (s.rg pgBackground 0x48 % 256 * pliesDay) = true ∧
      leastBy (fun k => 2 ^ 64 - Table.get 0 s.dev.reliab.wear (die * 208 + k)) ((List.range 208).filter fun k => decide ((s.dev.site (die * 208 + k)).state = .active)) = some f ∧
      leastBy (fun k => Table.get 0 s.dev.reliab.wear (die * 208 + k)) (s.dev.sparesOf die) = some k ∧ s.dev.coreAt (die * 208 + f) = some core) ∧
    (∃ s : State, ∃ core : Nat, ∃ quarter : Nat, ∃ index : Nat, ∃ x : Nat, s.dev.canonical = true ∧ s.dev.siteOf core = some x ∧ quarter < 4 ∧
      index < 4096 ∧ bit (s.rg pgBackground 0x48) 8 = true ∧ Table.get 0 s.dev.reliab.rowsUsed (x * 4 + quarter) < 64 ∧
      dueSince s.now (Table.get? s.dev.back.rotated (x * 4 + quarter)) pliesDay = true) ∧
    (∃ s : State, ∃ r : Nat, s.dev.canonical = true ∧ s.dev.back.telem = some r ∧ bit (s.start.rg pgBackground 0x4C) 8 = true ∧
      s.now % 2 ^ (s.start.rg pgBackground 0x4C % 64) = 0 ∧ s.dev.back.told ≠ some s.now) :=
  ⟨⟨at_ 9 { dev600 {} {} with back := { line := [(831, 42949671)] } }, 831, by decide +kernel⟩,
   ⟨at_ 9 (dev600 {} {}), 600, 3, 1, by decide +kernel⟩,
   ⟨at_ 9 { dev600 {} {} with power := { dies := [(3, { steps := [(207, 9)] })] } }, 600, 831, by decide +kernel⟩,
   ⟨at_ 9 { ports := upPort 65 }, 65, 3, by decide +kernel⟩,
   ⟨at_ 9 { ports := upPort 65 }, 65, 3, 25, by decide +kernel⟩,
   ⟨at_ 9 { ports := [(65, { enabled := true, squelched := false, subs := [(0, { up := true, lanes := 15, speed := 4 })], lanes := [(3, { tuning := true, attempts := 2 })] })] },
      65, 3, 24, by decide +kernel⟩,
   ⟨at_ 9 wornDev, 3, 4, 207, 600, by decide +kernel⟩,
   ⟨at_ 9 { dev600 {} {} with regs := { rw := [(addrOf pgBackground 0x48, 0x107)] } }, 600, 3, 4095, 831, by decide +kernel⟩,
   ⟨at_ 1024 { regs := { rw := [(addrOf pgBackground 0x4C, 0x10A)] }, back := { telem := some 3 } }, 3, by decide +kernel⟩⟩

/-- The premises of PairsChooseAPrimary can be met. -/
theorem witness_PairsChooseAPrimary :
    (∃ s : State, s.dev.canonical = true ∧ s.start.pair.id ≠ 0 ∧ s.start.pair.key.isEmpty = false ∧ s.samePair = true ∧ s.now % hbPlies = 0 ∧
      s.dev.pair.hbSent ≠ some s.now) ∧
    (∃ s : State, ∃ port : Nat, ∃ f, ∃ s1, ∃ h, s.dev.canonical = true ∧ s.takePair port [0xA, 0xD, 0xE, 0xF] f = (s1, some h) ∧ h.kind = 0xA ∧
      h.session = 1 ∧ h.fragIndex = 0 ∧ h.fragLast = 0 ∧ h.dir = 0 ∧ s.samePair = true ∧ s.start.pair.id ≠ 0 ∧ s.start.pair.key.isEmpty = false ∧
      s.start.pair.portList.contains port = true ∧ (Table.get {} s.dev.pair.rx port).ok h.seq = true) ∧
    (∃ s : State, s.dev.canonical = true ∧ s.dev.pair.role = .starting ∧ s.dev.pair.missedSince s.now s.dev.pair.startPly = true ∧ ((∀ q,
      s.dev.pair.lastHb = some q → s.dev.pair.missedSince s.now q = true))) ∧
    (∃ s : State, ∃ t, s.dev.canonical = true ∧ s.dev.pair.role = .starting ∧ s.dev.pair.missedSince s.now s.dev.pair.startPly = true ∧ ((∀ q,
      s.dev.pair.lastHb = some q → s.dev.pair.missedSince s.now q = true)) ∧ t = s.castleDue ∧ s.dev.pair.missPly = some s.now) ∧
    (∃ s : State, ∃ q : Nat, s.dev.canonical = true ∧ s.dev.pair.role = .standby ∧ s.dev.pair.lastHb = some q ∧
      s.dev.pair.missedSince s.now q = true ∧ s.clearedNow pgPair = false) ∧
    (∃ s : State, ∃ q : Nat, ∃ t, s.dev.canonical = true ∧ s.dev.pair.role = .standby ∧ s.dev.pair.lastHb = some q ∧
      s.dev.pair.missedSince s.now q = true ∧ s.clearedNow pgPair = false ∧ t = s.castleDue ∧ s.dev.pair.missPly = some s.now) ∧
    (∃ s : State, ∃ q : Nat, ∃ t, ∃ p : Nat, s.dev.canonical = true ∧ s.dev.pair.role = .standby ∧ s.dev.pair.lastHb = some q ∧
      s.dev.pair.missedSince s.now q = true ∧ s.clearedNow pgPair = false ∧ t = s.castleDue ∧ s.dev.pair.missPly = some s.now ∧
      s.dev.pair.standbyLines = true ∧ p < 32 ∧ (s.dev.port p).enabled = true) ∧
    (∃ s : State, ∃ sess : Nat, ∃ x, ∃ c, ∃ pl, s.dev.canonical = true ∧ s.bundleReady sess 6 x c ∧ pl = bPayload (c.body.drop 4)) :=
  ⟨⟨at_ 15625 (paired .primary {}), by decide +kernel⟩,
   ⟨at_ 15625 (paired .starting {}), 32, pairFrame 10 1 ([9, 0, 3, 4] ++ toLE 2 800 ++ zeros 18 ++ zeros 32),
      ((at_ 15625 (paired .starting {})).takePair 32 [0xA, 0xD, 0xE, 0xF] (pairFrame 10 1 ([9, 0, 3, 4] ++ toLE 2 800 ++ zeros 18 ++ zeros 32))).1,
      ((at_ 15625 (paired .starting {})).takePair 32 [0xA, 0xD, 0xE, 0xF] (pairFrame 10 1 ([9, 0, 3, 4] ++ toLE 2 800 ++ zeros 18 ++
      zeros 32))).2.get (by decide +kernel), by and_intros <;> (try exact pairEq (Option.some_get _).symm) <;> decide +kernel⟩,
   ⟨at_ 15625 { paired .starting {} with pair := { (paired .starting {}).pair with missLimit := 1 } },
      by and_intros <;> (try intro _ h; cases h) <;> decide +kernel⟩,
   ⟨at_ 15625 { paired .starting {} with pair := { (paired .starting {}).pair with missLimit := 1, missPly := some 15625 } },
      (at_ 15625 { paired .starting {} with pair := { (paired .starting {}).pair with missLimit := 1, missPly := some 15625 } }).castleDue,
      by and_intros <;> (try intro _ h; cases h) <;> (try decide +kernel) <;> exact rfl⟩,
   ⟨at_ 15634 { paired .standby {} with pair := { (paired .standby {}).pair with missLimit := 1, lastHb := some 9 } }, 9, by decide +kernel⟩,
   ⟨at_ 15634 { paired .standby {} with pair := { (paired .standby {}).pair with missLimit := 1, lastHb := some 9, missPly := some 15634 } }, 9,
      (at_ 15634 { paired .standby {} with pair := { (paired .standby {}).pair with missLimit := 1, lastHb := some 9, missPly := some 15634 } }).castleDue,
      by and_intros <;> (try exact clear _ _ rfl rfl _) <;> (try decide +kernel) <;> exact rfl⟩,
   ⟨at_ 15634 { paired .standby {} with pair := { (paired .standby {}).pair with missLimit := 1, lastHb := some 9, missPly := some 15634, standbyLines := true }, ports := upPort 3 },
      9, (at_ 15634 { paired .standby {} with pair := { (paired .standby {}).pair with missLimit := 1, lastHb := some 9, missPly := some 15634, standbyLines := true }, ports := upPort 3 }).castleDue,
      3, by and_intros <;> (try exact clear _ _ rfl rfl _) <;> (try decide +kernel) <;> exact rfl⟩,
   ⟨at_ 9 (owned (bundleOf 6 1 (toLE 2 9 ++ [1, 0] ++ toLE 4 3 ++ [18] ++ zeros 71) []) {}), 1, Tests.sess 0x92 (bundleOf 6 1 (toLE 2 9 ++ [1, 0] ++
      toLE 4 3 ++ [18] ++ zeros 71) []), cmd 0x92 (bundleOf 6 1 (toLE 2 9 ++ [1, 0] ++ toLE 4 3 ++ [18] ++ zeros 71) []),
      bPayload ((cmd 0x92 (bundleOf 6 1 (toLE 2 9 ++ [1, 0] ++ toLE 4 3 ++ [18] ++ zeros 71) [])).body.drop 4), by decide +kernel⟩⟩

/-- The premises of StandbysFollow can be met. -/
theorem witness_StandbysFollow :
    (∃ s : State, ∃ port : Nat, ∃ f, ∃ s1, ∃ h, s.dev.canonical = true ∧ s.takePair port [0xB] f = (s1, some h) ∧ h.kind = 0xB ∧ h.session = 1 ∧
      h.fragIndex = 0 ∧ h.fragLast = 0 ∧ h.dir = 0 ∧ s.samePair = true ∧ s.start.pair.id ≠ 0 ∧ s.start.pair.key.isEmpty = false ∧
      s.start.pair.portList.contains port = true ∧ (Table.get {} s.dev.pair.rx port).ok h.seq = true ∧ s.dev.pair.role = .standby) ∧
    (∃ s : State, ∃ port : Nat, ∃ f, ∃ s1, ∃ h, s.dev.canonical = true ∧ s.takePair port [0xC] f = (s1, some h) ∧ h.kind = 0xC ∧ h.session = 1 ∧
      h.fragIndex = 0 ∧ h.fragLast = 0 ∧ h.dir = 0 ∧ s.samePair = true ∧ s.start.pair.id ≠ 0 ∧ s.start.pair.key.isEmpty = false ∧
      s.start.pair.portList.contains port = true ∧ (Table.get {} s.dev.pair.rx port).ok h.seq = true) ∧
    (∃ s : State, ∃ r : MirrorRec, ∃ p : Nat, ∃ n : Nat, ∃ q : Nat, s.dev.canonical = true ∧ s.dev.pair.mirrors = true ∧ s.dev.pair.records = [r] ∧
      r.sentOn = some (p, n) ∧ (s.dev.pair.ackPly + plies1ms ≤ s.now ∨ s.subUp p 0 = false) ∧
      s.dev.pairRoom (some p) (s.dev.pair.mirrorPlain r).length = some q) ∧
    (∃ s : State, ∃ l : List Nat, s.dev.canonical = true ∧ s.dev.pair.mirrors = true ∧ s.now % 15625000 = 0 ∧ s.dev.pair.ckptPly ≠ some s.now ∧
      l = s.dev.compute.promoted.filter (fun k => decide (Table.get? s.dev.pair.stateSent k ≠ some (s.dev.stateMark k))) ∧
      s.dev.pair.ckptOpen = false ∧ l = []) ∧
    (∃ s : State, ∃ l : List Nat, s.dev.canonical = true ∧ s.dev.pair.mirrors = true ∧ s.now % 15625000 = 0 ∧ s.dev.pair.ckptPly ≠ some s.now ∧
      l = s.dev.compute.promoted.filter (fun k => decide (Table.get? s.dev.pair.stateSent k ≠ some (s.dev.stateMark k))) ∧
      s.dev.pair.ckptOpen = false ∧ l ≠ [] ∧ s.dev.pairUp = []) ∧
    (∃ s : State, ∃ l : List Nat, s.dev.canonical = true ∧ s.dev.pair.mirrors = true ∧ s.now % 15625000 = 0 ∧ s.dev.pair.ckptPly ≠ some s.now ∧
      l = s.dev.compute.promoted.filter (fun k => decide (Table.get? s.dev.pair.stateSent k ≠ some (s.dev.stateMark k))) ∧
      s.dev.pair.ckptOpen = true) ∧
    (∃ s : State, ∃ k : Nat, ∃ m : MirrorEntry, ∃ p : Nat, ∃ l, s.dev.canonical = true ∧ s.dev.pair.adoptFrom = some p ∧ s.dev.pair.store = [m] ∧
      k = 0 ∧ (s.chan (eSlot m.entry)).live = true ∧ (s.chan (eSlot m.entry)).hgen = eChGen m.entry ∧
      (s.dev.find m.core (eSlot m.entry) (eChGen m.entry) m.direct (flowKeyOf m.entry) false false).1 = some l ∧
      eSlot m.entry = eSlot (s.dev.entry l) ∧ eChGen m.entry = eChGen (s.dev.entry l) ∧ eKey m.entry = eKey (s.dev.entry l)) ∧
    (∃ s : State, ∃ k : Nat, ∃ m : MirrorEntry, ∃ p : Nat, s.dev.canonical = true ∧ s.dev.pair.adoptFrom = some p ∧ s.dev.pair.store[k]? = some m ∧
      p + s.rg pgFlowCtl (if m.direct then 0x4C else 0x48) % 16777216 * 65536 ≤ s.now) :=
  ⟨⟨at_ 15625 (paired .standby {}), 32, pairFrame 11 1 ([9, 0, 0, 0] ++ zeros 4 ++ toLE 8 1 ++ [11, 0, 8, 0, 0, 0, 0, 0]),
      ((at_ 15625 (paired .standby {})).takePair 32 [0xB] (pairFrame 11 1 ([9, 0, 0, 0] ++ zeros 4 ++ toLE 8 1 ++ [11, 0, 8, 0, 0, 0, 0, 0]))).1,
      ((at_ 15625 (paired .standby {})).takePair 32 [0xB] (pairFrame 11 1 ([9, 0, 0, 0] ++ zeros 4 ++ toLE 8 1 ++ [11, 0, 8, 0, 0, 0, 0,
      0]))).2.get (by decide +kernel), by and_intros <;> (try exact pairEq (Option.some_get _).symm) <;> decide +kernel⟩,
   ⟨at_ 15625 (paired .primary {}), 32, pairFrame 12 1 ([9, 0, 0, 0] ++ toLE 4 900 ++ toLE 8 1 ++ zeros 8),
      ((at_ 15625 (paired .primary {})).takePair 32 [0xC] (pairFrame 12 1 ([9, 0, 0, 0] ++ toLE 4 900 ++ toLE 8 1 ++ zeros 8))).1,
      ((at_ 15625 (paired .primary {})).takePair 32 [0xC] (pairFrame 12 1 ([9, 0, 0, 0] ++ toLE 4 900 ++ toLE 8 1 ++
      zeros 8))).2.get (by decide +kernel), by and_intros <;> (try exact pairEq (Option.some_get _).symm) <;> decide +kernel⟩,
   ⟨at_ 1562500 { paired .primary {} with pair := { (paired .primary {}).pair with nextSeq := 2, grant := [(32, 5000)], records := [(({ seq := 1, ty := 11, sentOn := some (32, 4) } : MirrorRec))] } },
      ({ seq := 1, ty := 11, sentOn := some (32, 4) } : MirrorRec), 32, 4, 32, by decide +kernel⟩,
   ⟨at_ 15625000 (paired .primary {}), ([] : List Nat), by decide +kernel⟩,
   ⟨at_ 15625000 { paired .primary {} with ports := [], compute := { promoted := [26181637] } }, ([26181637] : List Nat), by decide +kernel⟩,
   ⟨at_ 15625000 { paired .primary {} with pair := { (paired .primary {}).pair with ckptOpen := true, ckptFlows := [26181637] } }, ([] : List Nat),
      by decide +kernel⟩,
   ⟨at_ 9 { dev799 direct5 [] { lastIssue := some 1 } with flow := { direct := [(3145728, entry5)] }, pair := { adoptFrom := some 3, store := [(({ direct := true, core := 799, entry := entry5 } : MirrorEntry))] } },
      0, ({ direct := true, core := 799, entry := entry5 } : MirrorEntry), 3, Loc.direct 3 0, by decide +kernel⟩,
   ⟨at_ 9 { regs := { rw := [(addrOf pgFlowCtl 0x48, 0)] }, pair := { adoptFrom := some 3, store := [(({ core := 799, entry := entry5 } : MirrorEntry))] } },
      0, ({ core := 799, entry := entry5 } : MirrorEntry), 3, by decide +kernel⟩⟩

/-- The premises of ResetsClearAndKeep can be met. -/
theorem witness_ResetsClearAndKeep :
    (∃ s : State, s.dev.startUp.powerGood = true) ∧
    (∃ s : State, s.dev.startUp.powerGood = false ∧ s.dev.startUp.resetN = false ∧ s.dev.startUp.fallPly + pliesStretch ≤ s.now) ∧
    (∃ s : State, s.dev.startUp.powerGood = false ∧ s.dev.startUp.resetN = true ∧ s.dev.startUp.fallPly + pliesStretch ≤ s.now) ∧
    (∃ s : State, s.dev.startUp.resetN = false ∧ s.dev.startUp.powerGood = true) ∧
    (∃ s : State, s.dev.startUp.resetN = false ∧ s.dev.startUp.powerGood = false) ∧
    (∃ s : State, s.dev.startUp.resetN = true ∧ s.dev.startUp.powerGood = true ∧ s.dev.sec.scanning = false) ∧
    (∃ s : State, s.dev.live = true ∧ s.dueReset true = true ∧ s.dev.sec.scanning = false) :=
  ⟨⟨at_ 9 { aDev with flow := { direct := [(3145728, entry5)] }, sec := { nvm := { lifecycle := 1 } } }, by decide +kernel⟩,
   ⟨at_ 15625009 { startUp := { powerGood := false, fallPly := 9, released := false }, sec := { nvm := { lifecycle := 1 }, tapUsed := true } },
      by decide +kernel⟩,
   ⟨at_ 15625009 { startUp := { powerGood := false, resetN := true, fallPly := 9, released := false } }, by decide +kernel⟩,
   ⟨at_ 9 { aDev with power := { tripped := true }, reliab := { wear := [(5, 6)] } }, by decide +kernel⟩,
   ⟨at_ 9 { startUp := { powerGood := false, released := false } }, by decide +kernel⟩,
   ⟨at_ 9 { startUp := { resetN := true, released := false, kind := 2, cleared := true }, sec := { nvm := { lifecycle := 1 } } }, by decide +kernel⟩,
   ⟨at_ 9 { aDev with startUp := { due := [(9, true)], ready := true, phase := 9 }, power := { tripped := true } }, by decide +kernel⟩⟩

/-- The premises of StartUpAndRestartEnd can be met. -/
theorem witness_StartUpAndRestartEnd :
    (∃ s : State, s.dev.canonical = true ∧ s.clearedNow pgReset = false ∧ s.dev.live = true ∧ s.resetNow = false ∧ s.dueReset true = false ∧
      s.dueReset false = true) ∧
    (∃ s : State, s.dev.canonical = true ∧ s.clearedNow pgReset = false ∧ s.dev.live = true ∧ s.resetNow = false ∧ s.dueReset true = false) ∧
    (∃ s : State, ∃ p : Nat, s.dev.canonical = true ∧ s.clearedNow pgReset = false ∧ s.dev.startUp.restart = some p ∧ p < s.now ∧
      s.dev.halted = false) ∧
    (∃ s : State, s.dev.canonical = true ∧ s.clearedNow pgReset = false ∧ s.dev.starting = true ∧ s.dev.startUp.phase = 7 ∧ s.dev.ref.lost = false) ∧
    (∃ s : State, ∃ kind : Nat, s.dev.canonical = true ∧ s.clearedNow pgReset = false ∧ s.dev.starting = true ∧ kind = 0 ∧ s.dev.startUp.phase ≤ 1) ∧
    (∃ s : State, ∃ kind : Nat, s.dev.canonical = true ∧ s.clearedNow pgReset = false ∧ s.dev.starting = true ∧ kind = 1 ∧ s.dev.startUp.phase = 6) :=
  ⟨⟨at_ 9 { aDev with startUp := { due := [(9, false)], ready := true, phase := 9 }, selid := { sessions := [{ num := 1 }] }, regs := { hdr := [(5, { lock := .sealed })] } },
      by decide +kernel⟩,
   ⟨at_ 9 { aDev with startUp := { ready := true, phase := 9 }, selid := { sessions := [{ num := 1 }] } }, by decide +kernel⟩,
   ⟨at_ 9 { startUp := { restart := some 8, phase := 9 } }, 8, by decide +kernel⟩,
   ⟨at_ 9 { startUp := { phase := 7 } }, by decide +kernel⟩,
   ⟨at_ 9 { startUp := { phase := 1 } }, 0, by decide +kernel⟩,
   ⟨at_ 9 { startUp := { phase := 6 } }, 1, by decide +kernel⟩⟩

/-- The premises of SmbusAnswers can be met. -/
theorem witness_SmbusAnswers :
    (∃ s : State, s.smbAnswers = true) ∧
    (∃ s : State, s.smbAnswers = true) ∧
    (∃ s : State, s.smbAnswers = true) ∧
    (∃ s : State, s.smbAnswers = true) ∧
    (∃ s : State, s.smbAnswers = true) ∧
    (∃ s : State, s.smbAnswers = true) ∧
    (∃ s : State, ∃ die : Nat, ∃ w, s.smbAnswers = true ∧ die < 4 ∧ w = (hottest (s.start.tempo die).logic).2 % 4096) ∧
    (∃ s : State, ∃ die : Nat, ∃ w, s.smbAnswers = true ∧ die < 4 ∧ w = (hottest (s.start.tempo die).dram).2 % 4096) ∧
    (∃ s : State, ∃ die : Nat, ∃ w : Nat, s.smbAnswers = true ∧ die < 2 ∧ w = (if die = 0 then s.start.power.port0 else s.start.power.port1) % 4096) ∧
    (∃ s : State, ∃ w : Nat, s.smbAnswers = true ∧ w = s.start.power.watts % 65536) ∧
    (∃ s : State, ∃ die : Nat, s.smbAnswers = true ∧ die < 4) ∧
    (∃ s : State, s.smbAnswers = true ∧ s.start.startUp.phase < 3 ∧ s.start.startUp.restart = none) ∧
    (∃ s : State, s.smbAnswers = true ∧ 3 ≤ s.start.startUp.phase) ∧
    (∃ s : State, s.smbAnswers = true ∧ s.start.smbAlert = true) :=
  ⟨⟨at_ 9 { startUp := { smbFrom := 9 } }, by decide +kernel⟩,
   ⟨at_ 9 { startUp := { smbFrom := 9 } }, by decide +kernel⟩,
   ⟨at_ 9 { startUp := { smbFrom := 9 } }, by decide +kernel⟩,
   ⟨at_ 9 { startUp := { smbFrom := 9 } }, by decide +kernel⟩,
   ⟨at_ 9 { startUp := { smbFrom := 9 } }, by decide +kernel⟩,
   ⟨at_ 9 { startUp := { smbFrom := 9 } }, by decide +kernel⟩,
   ⟨at_ 9 { startUp := { smbFrom := 9 } }, 3, (hottest ((at_ 9 { startUp := { smbFrom := 9 } }).start.tempo 3).logic).2 % 4096, by decide +kernel⟩,
   ⟨at_ 9 { startUp := { smbFrom := 9 } }, 3, (hottest ((at_ 9 { startUp := { smbFrom := 9 } }).start.tempo 3).dram).2 % 4096, by decide +kernel⟩,
   ⟨at_ 9 { startUp := { smbFrom := 9 }, power := { port1 := 1600 } }, 1, 1600, by decide +kernel⟩,
   ⟨at_ 9 { startUp := { smbFrom := 9 }, power := { watts := 300 } }, 300, by decide +kernel⟩,
   ⟨at_ 9 { startUp := { smbFrom := 9 } }, 3, by decide +kernel⟩,
   ⟨at_ 9 { startUp := { smbFrom := 9 } }, by decide +kernel⟩,
   ⟨at_ 9 { startUp := { smbFrom := 9, phase := 3 } }, by decide +kernel⟩,
   ⟨at_ 9 { startUp := { smbFrom := 9 }, power := { tripped := true } }, by decide +kernel⟩⟩

end Sys2Proof.Tests
end

section
/-! SUPPORT. Every command that resets no device keeps what lies outside its footprint, and the canonical form within it: one lemma per command, built
from the lemmas of KeptOps on the operations it performs, and one theorem over all of them. -/
namespace Sys2Proof.Machine

/-! ### What a command keeps -/

/-- The meaning of a command answers a next state and keeps what lies outside the command's footprint; within it, the canonical forms and the seals. -/
def KeepsFootprint (i : Instr) (run : State → Host.Outcome State Fault Refusal) : Prop :=
  ∀ s : State, ∃ t, run s = .next t ∧ Kept (footprint i) s t

/-- The parts of an operation are in the footprint of a command, as both lists are computed. -/
theorem inFootprint {a : List Part} {i : Instr} (h : (a.all fun p => (footprint i).contains p) = true) : a ⊆ footprint i :=
  among (List.Subset.refl _) h

/-- A choice between two outcomes that each keep everything. -/
theorem next_ite {P : List Part} {s : State} {c : Prop} [Decidable c] {a b : Host.Outcome State Fault Refusal}
    (ha : ∃ t, a = .next t ∧ Kept P s t) (hb : ∃ t, b = .next t ∧ Kept P s t) : ∃ t, (if c then a else b) = .next t ∧ Kept P s t := by
  split
  · exact ha
  · exact hb

/-! ### Session commands -/

/-- Answering a session keeps what the footprint of a session's command leaves. -/
theorem completed {i : Instr} {n op st det : Nat} {body : Bytes} {s t : State}
    (hP : ([Part.counters, .selid, .ports, .traffic, .net, .score, .out].all fun p => (footprint i).contains p) = true) (h : Kept (footprint i) s t) :
    Kept (footprint i) s (t.complete n op st det body) := complete_kept _ _ _ _ _ _ (inFootprint hP) h

theorem echo_keepsFootprint (sess : Nat) : KeepsFootprint (.echo sess) (execEcho sess) := fun s =>
  ⟨_, rfl, command_kept (inFootprint rfl) (fun _ _ _ h => ite_kept (completed rfl h) (sized_kept (inFootprint rfl) (fun _ h => completed rfl h) h)) (.rfl' _ s)⟩

theorem close_keepsFootprint (sess : Nat) : KeepsFootprint (.close sess) (execClose sess) := fun s =>
  ⟨_, rfl, command_kept (inFootprint rfl) (fun _ _ _ h => ite_kept (completed rfl h) (endSession_kept _ _ (inFootprint rfl) (completed rfl h))) (.rfl' _ s)⟩

theorem enrol_keepsFootprint (sess : Nat) (fail : Bool) : KeepsFootprint (.enrol sess fail) (execEnrol sess fail) := fun s =>
  ⟨_, rfl, command_kept (inFootprint rfl) (fun _ _ _ h => enrol_kept _ _ _ _ _ (inFootprint rfl) h) (.rfl' _ s)⟩

theorem quench_keepsFootprint (sess : Nat) : KeepsFootprint (.quench sess) (execQuench sess) := fun s => ⟨_, rfl, by
  refine command_kept (inFootprint rfl) (fun x c t h => ?_) (.rfl' _ s)
  dsimp only
  split
  · exact completed rfl h
  refine ite_kept (completed rfl h) (ite_kept (completed rfl h) (ite_kept (completed rfl h) (ite_kept (completed rfl h) (sized_kept (inFootprint rfl) (fun t h => ?_) h))))
  have h := ceaseQuenches_kept t (inFootprint rfl) h
  split
  · exact completed rfl h
  · exact completed rfl (onSelid_kept _ (inFootprint rfl) h)⟩

theorem unquench_keepsFootprint (sess : Nat) : KeepsFootprint (.unquench sess) (execUnquench sess) := fun s => ⟨_, rfl, by
  refine command_kept (inFootprint rfl) (fun x c t h => ?_) (.rfl' _ s)
  refine ite_kept (completed rfl h) (ite_kept (completed rfl h) (sized_kept (inFootprint rfl) (fun t h => ?_) h))
  have h := ceaseQuenches_kept t (inFootprint rfl) h
  exact ite_kept (completed rfl (each_kept (fun q t h => endQuench_kept q t (inFootprint rfl) h) h))
    (ite_kept (completed rfl h) (completed rfl (endQuench_kept _ _ (inFootprint rfl) h)))⟩

theorem sinkJoin_keepsFootprint (sess : Nat) : KeepsFootprint (.sinkJoin sess) (execSinkJoin sess) := fun s =>
  ⟨_, rfl, sinkCommand_kept (inFootprint rfl) (fun _ _ h => ite_kept (sinkAnswer_kept _ _ _ _ (inFootprint rfl) h)
    (ite_kept (completed rfl h) (sinkAnswer_kept _ _ _ _ (inFootprint rfl) (onSelid_kept _ (inFootprint rfl) h)))) (.rfl' _ s)⟩

theorem sinkLeave_keepsFootprint (sess : Nat) : KeepsFootprint (.sinkLeave sess) (execSinkLeave sess) := fun s =>
  ⟨_, rfl, sinkCommand_kept (inFootprint rfl) (fun _ _ h => sinkAnswer_kept _ _ _ _ (inFootprint rfl) (onSelid_kept _ (inFootprint rfl) h)) (.rfl' _ s)⟩

/-! ### Register batches -/

theorem readBatch_keepsFootprint (sess : Nat) : KeepsFootprint (.readBatch sess) (execReadBatch sess) := fun s => ⟨_, rfl, by
  refine command_kept (inFootprint rfl) (fun x c t h => ?_) (.rfl' _ s)
  refine ite_kept (completed rfl h) (ite_kept (completed rfl h) (ite_kept (completed rfl h) (ite_kept (completed rfl h) (sized_kept (inFootprint rfl) (fun t h => ?_) h))))
  exact completed rfl (readAll_kept _ _ (inFootprint rfl) h)⟩

theorem readBlock_keepsFootprint (sess : Nat) : KeepsFootprint (.readBlock sess) (execReadBlock sess) := fun s => ⟨_, rfl, by
  refine command_kept (inFootprint rfl) (fun x c t h => ?_) (.rfl' _ s)
  refine ite_kept (completed rfl h) (ite_kept (completed rfl h) (ite_kept (completed rfl h) (ite_kept (completed rfl h) (ite_kept (completed rfl h)
    (sized_kept (inFootprint rfl) (fun t h => ?_) h)))))
  exact completed rfl (readAll_kept _ _ (inFootprint rfl) h)⟩

theorem writeBatch_keepsFootprint (sess : Nat) : KeepsFootprint (.writeBatch sess) (execWriteBatch sess) := fun s => ⟨_, rfl, by
  refine command_kept (inFootprint rfl) (fun x c t h => ?_) (.rfl' _ s)
  refine ite_kept (completed rfl h) (ite_kept (completed rfl h) (ite_kept (completed rfl h) (ite_kept (completed rfl h) (sized_kept (inFootprint rfl) (fun t h => ?_) h))))
  exact onSession_kept _ _ _ (inFootprint rfl) (startCmd_kept _ _ _ (inFootprint rfl) h)⟩

/-- A row of the table that writes a register takes the next write of the session's batch, whatever the row. -/
theorem writeStep_keepsFootprint {i : Instr} (sess : Nat) (row : WriteRow)
    (hP : ([Part.headers, .registers, .counters, .arbiter, .selid, .ports, .traffic, .net, .pair, .score, .startUp, .out].all fun p => (footprint i).contains p) = true) :
    KeepsFootprint i fun s => .next (s.writeStep sess row) := fun s => ⟨_, rfl, writeStep_kept _ _ s (inFootprint hP) (.rfl' _ s)⟩

/-! ### Channel commands -/

theorem channelCreate_keepsFootprint (sess : Nat) : KeepsFootprint (.channelCreate sess) (execChannelCreate sess) := fun s => ⟨_, rfl, by
  refine command_kept (inFootprint rfl) (fun x c t h => ?_) (.rfl' _ s)
  refine ite_kept (completed rfl h) (ite_kept (completed rfl h) ?_)
  dsimp only
  split
  · exact completed rfl h
  refine sized_kept (inFootprint rfl) (fun t h => ?_) h
  split
  · exact completed rfl h
  · exact ite_kept (completed rfl h) (completed rfl (mirror_kept _ _ _ _ (inFootprint rfl) (setupChan_kept _ _ _ (inFootprint rfl) (onObjects_kept _ (inFootprint rfl) h))))⟩

theorem channelDestroy_keepsFootprint (sess : Nat) : KeepsFootprint (.channelDestroy sess) (execChannelDestroy sess) := fun s => ⟨_, rfl, by
  refine command_kept (inFootprint rfl) (fun x c t h => ?_) (.rfl' _ s)
  refine ite_kept (completed rfl h) (ite_kept (completed rfl h) ?_)
  split
  · exact completed rfl h
  · exact ite_kept (completed rfl h) (completed rfl (destroyChan_kept _ _ (inFootprint rfl) (mirror_kept _ _ _ _ (inFootprint rfl) h)))⟩

theorem channelDrained_keepsFootprint (chan : Nat) : KeepsFootprint (.channelDrained chan) (execChannelDrained chan) := fun s =>
  ⟨_, rfl, drainEnds_kept _ s (inFootprint rfl) (.rfl' _ s)⟩

/-! ### Table commands -/

theorem tableSearch_keepsFootprint (sess : Nat) (bad1 bad2 : Bool) :
    KeepsFootprint (.tableSearch sess bad1 bad2) (execTableSearch sess bad1 bad2) := fun s => ⟨_, rfl, by
  refine tableCommand_kept (inFootprint rfl) (fun x c n direct t h => sized_kept (inFootprint rfl) (fun t h => ?_) h) (.rfl' _ s)
  dsimp only
  split
  · exact completed rfl (touchEntry_kept _ _ _ (inFootprint rfl) (badReads_kept _ _ _ _ _ _ _ (inFootprint rfl) (searchEvents_kept _ _ _ _ _ (inFootprint rfl) h)))
  · exact completed rfl (badReads_kept _ _ _ _ _ _ _ (inFootprint rfl) (searchEvents_kept _ _ _ _ _ (inFootprint rfl) h))⟩

theorem tableDelete_keepsFootprint (sess : Nat) (bad1 bad2 : Bool) :
    KeepsFootprint (.tableDelete sess bad1 bad2) (execTableDelete sess bad1 bad2) := fun s => ⟨_, rfl, by
  refine tableCommand_kept (inFootprint rfl) (fun x c n direct t h => ?_) (.rfl' _ s)
  dsimp only
  split
  · exact completed rfl (removeEntry_kept _ _ (inFootprint rfl) (touchEntry_kept _ _ _ (inFootprint rfl)
      (badReads_kept _ _ _ _ _ _ _ (inFootprint rfl) (searchEvents_kept _ _ _ _ _ (inFootprint rfl) h))))
  · exact completed rfl (badReads_kept _ _ _ _ _ _ _ (inFootprint rfl) (searchEvents_kept _ _ _ _ _ (inFootprint rfl) h))⟩

theorem tableInsert_keepsFootprint (sess : Nat) : KeepsFootprint (.tableInsert sess) (execTableInsert sess) := fun s =>
  ⟨_, rfl, tableCommand_kept (inFootprint rfl) (fun _ _ _ _ _ h => ite_kept (completed rfl h)
    (flowDue_kept _ _ (inFootprint rfl) (startCmd_kept _ _ _ (inFootprint rfl) h))) (.rfl' _ s)⟩

theorem tableNext_keepsFootprint (sess : Nat) : KeepsFootprint (.tableNext sess) (execTableNext sess) := fun s => ⟨_, rfl, by
  refine command_kept (inFootprint rfl) (fun x c t h => ?_) (.rfl' _ s)
  refine ite_kept (completed rfl h) (ite_kept (completed rfl h) ?_)
  split
  · exact completed rfl h
  · exact ite_kept (completed rfl h) (sized_kept (inFootprint rfl) (fun t h => completed rfl h) h)⟩

theorem tableFlush_keepsFootprint (sess : Nat) : KeepsFootprint (.tableFlush sess) (execTableFlush sess) := fun s => ⟨_, rfl, by
  refine command_kept (inFootprint rfl) (fun x c t h => ?_) (.rfl' _ s)
  refine ite_kept (completed rfl h) (ite_kept (completed rfl h) ?_)
  split
  · exact completed rfl h
  · exact ite_kept (completed rfl h) (sized_kept (inFootprint rfl) (fun t h => ite_kept (completed rfl h)
      (onFlow_kept _ (inFootprint rfl) (startCmd_kept _ _ _ (inFootprint rfl) h) fun _ => rfl)) h)⟩

/-! ### Ring commands -/

theorem ringRead_keepsFootprint (sess : Nat) : KeepsFootprint (.ringRead sess) (execRingRead sess) := fun s => ⟨_, rfl, by
  refine ringCommand_kept (inFootprint rfl) (fun x c n t h => ?_) (.rfl' _ s)
  refine ite_kept (completed rfl h) (sized_kept (inFootprint rfl) (fun t h => ?_) h)
  dsimp only
  split
  · exact ite_kept (completed rfl h) (completed rfl (onRing_kept _ _ _ (inFootprint rfl) h))
  · exact ite_kept (completed rfl h) (ite_kept (completed rfl h) (completed rfl (onRing_kept _ _ _ (inFootprint rfl) h)))⟩

theorem ringAck_keepsFootprint (sess : Nat) : KeepsFootprint (.ringAck sess) (execRingAck sess) := fun s =>
  ⟨_, rfl, ringCommand_kept (inFootprint rfl) (fun _ _ _ _ h => sized_kept (inFootprint rfl) (fun _ h => completed rfl (onRing_kept _ _ _ (inFootprint rfl) h)) h) (.rfl' _ s)⟩

theorem ringWrite_keepsFootprint (sess : Nat) : KeepsFootprint (.ringWrite sess) (execRingWrite sess) := fun s => ⟨_, rfl, by
  refine ringCommand_kept (inFootprint rfl) (fun x c n t h => ?_) (.rfl' _ s)
  refine ite_kept (completed rfl h) (ite_kept (completed rfl h) (sized_kept (inFootprint rfl) (fun t h => ?_) h))
  dsimp only
  split <;> exact completed rfl (onRing_kept _ _ _ (inFootprint rfl) h)⟩

theorem ringFlush_keepsFootprint (sess : Nat) : KeepsFootprint (.ringFlush sess) (execRingFlush sess) := fun s =>
  ⟨_, rfl, ringCommand_kept (inFootprint rfl) (fun _ _ _ _ h => completed rfl (onRing_kept _ _ _ (inFootprint rfl) h)) (.rfl' _ s)⟩

theorem ringResign_keepsFootprint (sess : Nat) : KeepsFootprint (.ringResign sess) (execRingResign sess) := fun s =>
  ⟨_, rfl, ringCommand_kept (inFootprint rfl) (fun _ _ _ _ h => completed rfl (onRing_kept _ _ _ (inFootprint rfl) h)) (.rfl' _ s)⟩

theorem ringMark_keepsFootprint (sess : Nat) : KeepsFootprint (.ringMark sess) (execRingMark sess) := fun s =>
  ⟨_, rfl, ringCommand_kept (inFootprint rfl) (fun _ _ _ _ h => completed rfl (onRing_kept _ _ _ (inFootprint rfl) h)) (.rfl' _ s)⟩

theorem ringRewind_keepsFootprint (sess : Nat) : KeepsFootprint (.ringRewind sess) (execRingRewind sess) := fun s =>
  ⟨_, rfl, ringCommand_kept (inFootprint rfl) (fun _ _ _ _ h => onRing_kept _ _ _ (inFootprint rfl) (startCmd_kept _ _ _ (inFootprint rfl) h)) (.rfl' _ s)⟩

/-! ### Staging -/

theorem stageOpen_keepsFootprint (sess : Nat) : KeepsFootprint (.stageOpen sess) (execStageOpen sess) := fun s => ⟨_, rfl, by
  refine stageCmd_kept (inFootprint rfl) (fun x c u h => ?_) (.rfl' _ s)
  refine ite_kept (completed rfl h) (ite_kept (completed rfl h) (ite_kept (completed rfl h) (ite_kept (completed rfl h) (sized_kept (inFootprint rfl) (fun t h => ?_) h))))
  have opened := openStage_kept sess (if Bytes.le c.body 0 4 = 0 then none else u.chanOf (Bytes.le c.body 0 4)) (Bytes.le c.body 8 8) t (inFootprint rfl) h
  dsimp only
  split
  · exact completed rfl opened
  · exact completed rfl (ite_kept (discardStage_kept _ _ (inFootprint rfl) opened) opened)⟩

theorem stageData_keepsFootprint (sess : Nat) : KeepsFootprint (.stageData sess) (execStageData sess) := fun s => ⟨_, rfl, by
  refine stageCmd_kept (inFootprint rfl) (fun x c t h => ?_) (.rfl' _ s)
  split
  · exact completed rfl h
  · exact ite_kept (completed rfl h) (ite_kept (completed rfl h) (ite_kept (completed rfl h) (ite_kept (completed rfl h)
      (sized_kept (inFootprint rfl) (fun t h => completed rfl (onStage_kept _ _ _ (inFootprint rfl) h)) h))))⟩

theorem stageVerify_keepsFootprint (sess : Nat) : KeepsFootprint (.stageVerify sess) (execStageVerify sess) := fun s => ⟨_, rfl, by
  refine stageCmd_kept (inFootprint rfl) (fun x c t h => ?_) (.rfl' _ s)
  split
  · exact completed rfl h
  · exact ite_kept (completed rfl h) (sized_kept (inFootprint rfl) (fun t h => ite_kept (completed rfl h)
      (startCmd_kept _ _ _ (inFootprint rfl) (onStage_kept _ _ _ (inFootprint rfl) h))) h)⟩

theorem stageDiscard_keepsFootprint (sess : Nat) : KeepsFootprint (.stageDiscard sess) (execStageDiscard sess) := fun s => ⟨_, rfl, by
  refine stageCmd_kept (inFootprint rfl) (fun x c t h => ?_) (.rfl' _ s)
  split
  · exact completed rfl h
  · exact ite_kept (startCmd_kept _ _ _ (inFootprint rfl) (onStage_kept _ _ _ (inFootprint rfl) (discardStage_kept _ _ (inFootprint rfl) h)))
      (completed rfl (discardStage_kept _ _ (inFootprint rfl) h))⟩

theorem stageSwap_keepsFootprint (sess : Nat) : KeepsFootprint (.stageSwap sess) (execStageSwap sess) := fun s => ⟨_, rfl, by
  refine stageCmd_kept (inFootprint rfl) (fun x c t h => ?_) (.rfl' _ s)
  split
  · exact completed rfl h
  · exact sized_kept (inFootprint rfl) (fun t h => ite_kept (completed rfl h) (ite_kept (completed rfl h) (ite_kept (completed rfl h)
      (completed rfl (swap_kept _ _ _ (inFootprint rfl) h))))) h⟩

theorem genRetire_keepsFootprint (deep : Bool) (target gen : Nat) : KeepsFootprint (.genRetire deep target gen) (execGenRetire deep target gen) := fun s =>
  ⟨_, rfl, retireDue_kept _ _ _ s (inFootprint rfl) (.rfl' _ s)⟩

theorem verificationEnd_keepsFootprint (stage : Nat) : KeepsFootprint (.verificationEnd stage) (execVerificationEnd stage) := fun s => by
  have h : Kept (footprint (.verificationEnd stage)) s s := .rfl' _ s
  refine next_ite ⟨_, rfl, h⟩ ⟨_, rfl, ite_kept (each_kept (fun n t h => completed rfl h) ?_) (completed rfl (endVerify_kept _ _ _ _ (inFootprint rfl) h))⟩
  exact discardStage_kept _ _ (inFootprint rfl) (onStage_kept _ _ _ (inFootprint rfl) (completed rfl (endVerify_kept _ _ _ _ (inFootprint rfl) h)))

/-! ### The scoresheet and replay -/

theorem scoreStart_keepsFootprint (sess : Nat) : KeepsFootprint (.scoreStart sess) (execScoreStart sess) := fun s => ⟨_, rfl, by
  refine command_kept (inFootprint rfl) (fun x c t h => ?_) (.rfl' _ s)
  refine ite_kept (completed rfl h) (ite_kept (completed rfl h) (ite_kept (completed rfl h) (ite_kept (completed rfl h) (sized_kept (inFootprint rfl) (fun t h => ?_) h))))
  refine ite_kept (completed rfl (onScore_kept _ (inFootprint rfl) h)) (ite_kept (completed rfl h) ?_)
  dsimp only
  split
  · exact completed rfl h
  · exact completed rfl (onScore_kept _ (inFootprint rfl) (allocRing_kept _ _ _ _ _ (inFootprint rfl) (freeOpt_kept _ _ (inFootprint rfl) h)))⟩

theorem scoreStop_keepsFootprint (sess : Nat) : KeepsFootprint (.scoreStop sess) (execScoreStop sess) := fun s =>
  ⟨_, rfl, command_kept (inFootprint rfl) (fun _ _ _ h => ite_kept (completed rfl h) (ite_kept (completed rfl h)
    (sized_kept (inFootprint rfl) (fun _ h => completed rfl (onScore_kept _ (inFootprint rfl) h)) h))) (.rfl' _ s)⟩

theorem replayStart_keepsFootprint (sess : Nat) : KeepsFootprint (.replayStart sess) (execReplayStart sess) := fun s => ⟨_, rfl, by
  refine command_kept (inFootprint rfl) (fun x c t h => ?_) (.rfl' _ s)
  refine ite_kept (completed rfl h) (ite_kept (completed rfl h) (ite_kept (completed rfl h) (sized_kept (inFootprint rfl) (fun t h => ?_) h)))
  dsimp only
  split
  · exact completed rfl h
  · exact completed rfl (onScore_kept _ (inFootprint rfl) (allocRing_kept _ _ _ _ _ (inFootprint rfl) (freeOpt_kept _ _ (inFootprint rfl) h)))⟩

theorem replayStop_keepsFootprint (sess : Nat) : KeepsFootprint (.replayStop sess) (execReplayStop sess) := fun s =>
  ⟨_, rfl, command_kept (inFootprint rfl) (fun _ _ _ h => ite_kept (completed rfl h) (ite_kept (completed rfl h)
    (sized_kept (inFootprint rfl) (fun _ h => completed rfl (ite_kept (endReplay_kept _ (inFootprint rfl) h) h)) h))) (.rfl' _ s)⟩

/-! ### Signed bundles and attestation -/

theorem registersBundle_keepsFootprint (sess : Nat) : KeepsFootprint (.registersBundle sess) (execRegistersBundle sess) := fun s =>
  ⟨_, rfl, bundle_kept (inFootprint rfl) (fun _ b t h => by
    have h := noteBundle_kept b t (inFootprint rfl) h
    exact ite_kept (completed rfl h) (onSession_kept _ _ _ (inFootprint rfl) (startCmd_kept _ _ _ (inFootprint rfl) h))) (.rfl' _ s)⟩

theorem teamBundle_keepsFootprint (sess : Nat) : KeepsFootprint (.teamBundle sess) (execTeamBundle sess) := fun s =>
  ⟨_, rfl, bundle_kept (inFootprint rfl) (fun _ _ _ h => completed rfl (onSec_kept _ (inFootprint rfl) (onTeam_kept _ (inFootprint rfl)
    (noteBundle_kept _ _ (inFootprint rfl) h)))) (.rfl' _ s)⟩

theorem fwManifestBundle_keepsFootprint (sess : Nat) : KeepsFootprint (.fwManifestBundle sess) (execFwManifestBundle sess) := fun s =>
  ⟨_, rfl, bundle_kept (inFootprint rfl) (fun _ _ _ h => completed rfl (onSec_kept _ (inFootprint rfl) (noteBundle_kept _ _ (inFootprint rfl) h))) (.rfl' _ s)⟩

theorem fwDataBundle_keepsFootprint (sess : Nat) (fail : Bool) : KeepsFootprint (.fwDataBundle sess fail) (execFwDataBundle sess fail) := fun s => ⟨_, rfl, by
  refine bundle_kept (inFootprint rfl) (fun c b t h => ?_) (.rfl' _ s)
  split
  · exact refuseBundle_kept _ _ _ _ (inFootprint rfl) h
  refine ite_kept (refuseBundle_kept _ _ _ _ (inFootprint rfl) h) (ite_kept (refuseBundle_kept _ _ _ _ (inFootprint rfl) h)
    (ite_kept (completed rfl (onSec_kept _ (inFootprint rfl) h)) ?_))
  have h := onSec_kept (fun x => { x with transfer := none }) (inFootprint rfl) h
  dsimp only
  split
  · exact refuseBundle_kept _ _ _ _ (inFootprint rfl) h
  · exact ite_kept (refuseBundle_kept _ _ _ _ (inFootprint rfl) h) (completed rfl (onSec_kept _ (inFootprint rfl) h))⟩

theorem releaseBundle_keepsFootprint (sess : Nat) : KeepsFootprint (.releaseBundle sess) (execReleaseBundle sess) := fun s =>
  ⟨_, rfl, bundle_kept (inFootprint rfl) (fun _ _ _ h => ite_kept (refuseBundle_kept _ _ _ _ (inFootprint rfl) h)
    (completed rfl (onSec_kept _ (inFootprint rfl) (noteBundle_kept _ _ (inFootprint rfl) h)))) (.rfl' _ s)⟩

theorem pairBundle_keepsFootprint (sess : Nat) : KeepsFootprint (.pairBundle sess) (execPairBundle sess) := fun s =>
  ⟨_, rfl, bundle_kept (inFootprint rfl) (fun _ _ _ h => completed rfl (applyPair_kept _ _ (inFootprint rfl) (onSec_kept _ (inFootprint rfl)
    (noteBundle_kept _ _ (inFootprint rfl) h)))) (.rfl' _ s)⟩

theorem attest_keepsFootprint (sess nor : Nat) : KeepsFootprint (.attest sess nor) (execAttest sess nor) := fun s => ⟨_, rfl, by
  refine command_kept (inFootprint rfl) (fun x c t h => ?_) (.rfl' _ s)
  refine ite_kept (completed rfl h) (sized_kept (inFootprint rfl) (fun t h => ite_kept (completed rfl h) ?_) h)
  dsimp only
  split
  · exact completed rfl (sign_kept _ _ (inFootprint rfl) h)
  · exact completed rfl (onSec_kept _ (inFootprint rfl) (sign_kept _ _ (inFootprint rfl) h))⟩

/-! ### Frames in reception -/

theorem arpRequest_keepsFootprint (port sub : Nat) (f : Bytes) : KeepsFootprint (.arpRequest port sub f) (execArpRequest port sub f) := fun s => by
  dsimp only [execArpRequest]
  have h := takeProbe_kept .arp port sub f s (P := footprint (.arpRequest port sub f)) (inFootprint rfl) (.rfl' _ s)
  split
  · exact ⟨_, rfl, h⟩
  · exact ⟨_, rfl, sendFrom_kept _ _ _ _ _ _ _ _ (inFootprint rfl) h⟩

theorem neighbourSolicitation_keepsFootprint (port sub : Nat) (f : Bytes) : KeepsFootprint (.neighbourSolicitation port sub f) (execNeighbourSolicitation port sub f) := fun s => by
  dsimp only [execNeighbourSolicitation]
  have h := takeProbe_kept .solicit port sub f s (P := footprint (.neighbourSolicitation port sub f)) (inFootprint rfl) (.rfl' _ s)
  split
  · exact ⟨_, rfl, h⟩
  · exact ⟨_, rfl, sendFrom_kept _ _ _ _ _ _ _ _ (inFootprint rfl) h⟩

theorem pauseFrame_keepsFootprint (port sub : Nat) (f : Bytes) : KeepsFootprint (.pauseFrame port sub f) (execPauseFrame port sub f) := fun s => by
  dsimp only [execPauseFrame]
  have h := rxCheck_kept port sub f s (P := footprint (.pauseFrame port sub f)) (inFootprint rfl) (.rfl' _ s)
  split
  · exact ⟨_, rfl, .rfl' _ s⟩
  split
  · exact ⟨_, rfl, h⟩
  have h := portCount_kept port sub 6 1 _ (inFootprint rfl) h
  split
  · exact ⟨_, rfl, h⟩
  · exact ⟨_, rfl, onPort_kept _ _ (inFootprint rfl) h fun _ => Port.wf_onSub _ _⟩

theorem pfcFrame_keepsFootprint (port sub : Nat) (f : Bytes) : KeepsFootprint (.pfcFrame port sub f) (execPfcFrame port sub f) := fun s => by
  dsimp only [execPfcFrame]
  have h := rxCheck_kept port sub f s (P := footprint (.pfcFrame port sub f)) (inFootprint rfl) (.rfl' _ s)
  split
  · exact ⟨_, rfl, .rfl' _ s⟩
  split
  · exact ⟨_, rfl, h⟩
  · exact ⟨_, rfl, onPort_kept _ _ (inFootprint rfl) (portCount_kept _ _ _ _ _ (inFootprint rfl) h) fun _ => Port.wf_onSub _ _⟩

theorem rxDiscard_keepsFootprint (port sub : Nat) (f : Bytes) : KeepsFootprint (.rxDiscard port sub f) (execRxDiscard port sub f) := fun s => by
  dsimp only [execRxDiscard]
  have h0 : Kept (footprint (.rxDiscard port sub f)) s s := .rfl' _ s
  have h := rxCheck_kept port sub f s (inFootprint rfl) h0
  have counted := portCount_kept port sub 9 1 _ (inFootprint rfl) h
  have taken := takeFrame_kept port sub f s (inFootprint rfl) h0
  split
  · exact ⟨_, rfl, h0⟩
  split
  · exact ⟨_, rfl, h⟩
  split
  · split
    · split
      · exact ⟨_, rfl, counted⟩
      split
      · exact ⟨_, rfl, h0⟩
      split
      · exact ⟨_, rfl, h0⟩
      · exact ⟨_, rfl, ite_kept (bump_kept _ _ _ (inFootprint rfl) taken) taken⟩
    · split
      · exact ⟨_, rfl, h0⟩
      · exact ⟨_, rfl, counted⟩
  split
  · exact ⟨_, rfl, h0⟩
  · exact ⟨_, rfl, counted⟩

theorem frameStart_keepsFootprint (port sub : Nat) (f : Bytes) : KeepsFootprint (.frameStart port sub f) (execFrameStart port sub f) := fun s => by
  dsimp only [execFrameStart]
  have h : Kept (footprint (.frameStart port sub f)) s s := .rfl' _ s
  have discards (good : Bool) := dropAt_kept (port := port) (sub := sub) (f := f) (good := good) (inFootprint rfl)
    (fun t ht => portCount_kept port sub 9 1 t (inFootprint rfl) ht) h
  split
  · exact ⟨_, rfl, h⟩
  split
  · split
    · exact ⟨_, rfl, rxAs_kept _ _ _ _ s (inFootprint rfl) h⟩
    · exact ⟨_, rfl, admitSelid_kept _ _ (inFootprint rfl) (portCount_kept _ _ _ _ _ (inFootprint rfl) (rxAs_kept _ _ _ _ s (inFootprint rfl) h))⟩
  split
  · split
    · exact ⟨_, rfl, h⟩
    · exact ⟨_, rfl, discards _⟩
  split
  · split
    · exact ⟨_, rfl, dropAt_kept (inFootprint rfl) (fun t ht => setEvent_kept _ _ _ (inFootprint rfl) (portCount_kept _ _ _ _ t (inFootprint rfl) ht)) h⟩
    · exact ⟨_, rfl, ingress_kept _ s (inFootprint rfl) h⟩
  split
  · split
    · exact ⟨_, rfl, discards _⟩
    split
    · exact ⟨_, rfl, dropAt_kept (inFootprint rfl) (fun t ht => setEvent_kept _ _ _ (inFootprint rfl) (bump_kept _ _ _ (inFootprint rfl) ht)) h⟩
    · exact ⟨_, rfl, ingress_kept _ s (inFootprint rfl) h⟩
  · exact ⟨_, rfl, discards _⟩

theorem frameTail_keepsFootprint (port sub : Nat) : KeepsFootprint (.frameTail port sub) (execFrameTail port sub) := fun s => by
  dsimp only [execFrameTail]
  have h : Kept (footprint (.frameTail port sub)) s s := .rfl' _ s
  split
  · exact ⟨_, rfl, h⟩
  rename_i r _
  have h := rxJudge_kept r.maxFrame port sub r.frame _ (inFootprint rfl)
    (onTraffic_kept (fun t => { t with rx := Table.erase t.rx (port * 4 + sub) }) (inFootprint rfl) h)
  split
  · split
    · exact ⟨_, rfl, h⟩
    split
    · split
      · exact ⟨_, rfl, onPacket_kept _ _ _ (inFootprint rfl) h⟩
      · exact ⟨_, rfl, holdBytes_kept _ _ _ _ _ (inFootprint rfl) (onPacket_kept _ _ _ (inFootprint rfl) (onPacket_kept _ _ _ (inFootprint rfl) h))⟩
    · refine ⟨_, rfl, ite_kept ?_ (settle_kept _ _ (inFootprint rfl) ?_)⟩ <;>
        exact onPacket_kept _ _ _ (inFootprint rfl) (freeBuffer_kept _ _ (inFootprint rfl) h)
  · exact ⟨_, rfl, h⟩

theorem frameTransmit_keepsFootprint (port sub : Nat) : KeepsFootprint (.frameTransmit port sub) (execFrameTransmit port sub) := fun s => by
  dsimp only [execFrameTransmit]
  have h : Kept (footprint (.frameTransmit port sub)) s s := .rfl' _ s
  split
  · exact ⟨_, rfl, h⟩
  split
  · exact ⟨_, rfl, h⟩
  split
  · exact ⟨_, rfl, onTraffic_kept _ (inFootprint rfl) h⟩
  · exact ⟨_, rfl, settle_kept _ _ (inFootprint rfl) (onPacket_kept _ _ _ (inFootprint rfl) (freeBuffer_kept _ _ (inFootprint rfl)
      (sendNow_kept _ _ _ _ _ (inFootprint rfl) (onTraffic_kept _ (inFootprint rfl) h))))⟩

/-! ### Selid frames -/

theorem setupFragment_keepsFootprint (port sub : Nat) (f : Bytes) : KeepsFootprint (.setupFragment port sub f) (execSetupFragment port sub f) := fun s => by
  dsimp only [execSetupFragment]
  have h0 : Kept (footprint (.setupFragment port sub f)) s s := .rfl' _ s
  have h := takeSelid_kept port sub f s (inFootprint rfl) h0
  split
  · exact ⟨_, rfl, h⟩
  split
  · exact ⟨_, rfl, h0⟩
  · exact ⟨_, rfl, onSelid_kept _ (inFootprint rfl) h⟩

theorem protectedFrame_keepsFootprint (port sub : Nat) (f : Bytes) : KeepsFootprint (.protectedFrame port sub f) (execProtected port sub f) := fun s => by
  dsimp only [execProtected]
  have h0 : Kept (footprint (.protectedFrame port sub f)) s s := .rfl' _ s
  have h := takeSelid_kept port sub f s (inFootprint rfl) h0
  have refused := authDropped_kept _ (inFootprint rfl) h
  split
  · exact ⟨_, rfl, h⟩
  split
  · exact ⟨_, rfl, h0⟩
  split
  · exact ⟨_, rfl, formatDropped_kept _ (inFootprint rfl) h⟩
  split
  · exact ⟨_, rfl, refused⟩
  split
  · exact ⟨_, rfl, refused⟩
  split
  · exact ⟨_, rfl, refused⟩
  split
  · exact ⟨_, rfl, refused⟩
  split
  · exact ⟨_, rfl, lastUsed_kept _ _ _ (inFootprint rfl) (onSession_kept _ _ _ (inFootprint rfl) h)⟩
  split
  · exact ⟨_, rfl, sendProtected_kept _ _ _ _ (inFootprint rfl) (lastUsed_kept _ _ _ (inFootprint rfl) (onSession_kept _ _ _ (inFootprint rfl) h))⟩
  · exact ⟨_, rfl, acceptCmd_kept _ _ _ (inFootprint rfl) (onSession_kept _ _ _ (inFootprint rfl) h)⟩

theorem hello_keepsFootprint (port sub : Nat) (f : Bytes) (nor : Nat) : KeepsFootprint (.hello port sub f nor) (execHello port sub f nor) := fun s => by
  dsimp only [execHello]
  have h0 : Kept (footprint (.hello port sub f nor)) s s := .rfl' _ s
  have h := takeSelid_kept port sub f s (inFootprint rfl) h0
  split
  · exact ⟨_, rfl, h⟩
  split
  · exact ⟨_, rfl, h0⟩
  split
  · exact ⟨_, rfl, formatDropped_kept _ (inFootprint rfl) h⟩
  split
  · exact ⟨_, rfl, h0⟩
  · exact ⟨_, rfl, hello_kept _ _ _ _ (inFootprint rfl) (setupPayload_kept _ _ _ (inFootprint rfl) h)⟩

theorem accept_keepsFootprint (port sub : Nat) (f : Bytes) : KeepsFootprint (.accept port sub f) (execAccept port sub f) := fun s => by
  dsimp only [execAccept]
  have h0 : Kept (footprint (.accept port sub f)) s s := .rfl' _ s
  have h := takeSelid_kept port sub f s (inFootprint rfl) h0
  split
  · exact ⟨_, rfl, h⟩
  split
  · exact ⟨_, rfl, h0⟩
  split
  · exact ⟨_, rfl, formatDropped_kept _ (inFootprint rfl) h⟩
  split
  · exact ⟨_, rfl, h0⟩
  · exact ⟨_, rfl, accept_kept _ _ _ _ (inFootprint rfl) (setupPayload_kept _ _ _ (inFootprint rfl) h)⟩

/-! ### Ports and the reference clock -/

theorem linkDown_keepsFootprint (port sub : Nat) : KeepsFootprint (.linkDown port sub) (execLinkDown port sub) := fun s =>
  ⟨_, rfl, advertise_kept _ _ (inFootprint rfl) (subDown_kept _ _ _ (inFootprint rfl) (.rfl' _ s))⟩

theorem linkUp_keepsFootprint (port sub : Nat) : KeepsFootprint (.linkUp port sub) (execLinkUp port sub) := fun s => by
  dsimp only [execLinkUp]
  have h : Kept (footprint (.linkUp port sub)) s s := .rfl' _ s
  split
  · exact ⟨_, rfl, h⟩
  · have up := setEvents_kept (pageOf tPort port)
      (oneBit (4 + sub) ||| if (breakoutSubs (s.port port).breakout).any fun e => decide (e.1 = sub ∧ e.2 ≠ ((s.port port).subp sub).lanes) then oneBit 12 else 0) _
      (inFootprint rfl) (onPort_kept port (Port.comeUp s.now sub ((s.port port).subp sub).lanes) (inFootprint rfl)
      (advertise_kept port s (inFootprint rfl) h) fun _ => Port.wf_comeUp _ _ _)
    exact ⟨_, rfl, ite_kept (peerUp_kept _ _ (inFootprint rfl) up) up⟩

theorem laneFailure_keepsFootprint (port lane : Nat) : KeepsFootprint (.laneFailure port lane) (execLaneFailure port lane) := fun s =>
  ⟨_, rfl, laneFail_kept _ _ s (inFootprint rfl) (.rfl' _ s)⟩

theorem refLoss_keepsFootprint : KeepsFootprint .refLoss execRefLoss := fun s => by
  dsimp only [execRefLoss]
  have h : Kept (footprint .refLoss) s s := .rfl' _ s
  split
  · exact ⟨_, rfl, h⟩
  · exact ⟨_, rfl, each_kept (fun p t ht => setEvent_kept _ _ _ (inFootprint rfl) ht)
      (setFaulted_kept _ _ _ (inFootprint rfl) (setEvent_kept _ _ _ (inFootprint rfl) (onRef_kept _ (inFootprint rfl) h)))⟩

theorem refReturn_keepsFootprint : KeepsFootprint .refReturn execRefReturn := fun s => by
  dsimp only [execRefReturn]
  have h : Kept (footprint .refReturn) s s := .rfl' _ s
  split
  · exact ⟨_, rfl, h⟩
  · refine ⟨_, rfl, each_kept (fun p t ht => ite_kept ?_ ht) (setFaulted_kept _ _ _ (inFootprint rfl) (setEvent_kept _ _ _ (inFootprint rfl) (onRef_kept _ (inFootprint rfl) h)))⟩
    exact advertise_kept _ _ (inFootprint rfl) (onPort_kept _ _ (inFootprint rfl) ht fun _ hq => hq)

theorem adaptation_keepsFootprint (port lane ber : Nat) : KeepsFootprint (.adaptation port lane ber) (execAdaptation port lane ber) := fun s =>
  ⟨_, rfl, ite_kept (.rfl' _ s) (onPort_kept _ _ (inFootprint rfl) (.rfl' _ s) fun _ => Port.wf_onLane _ _)⟩

/-! ### Entries of schedule tables -/

/-- A command that issues an entry keeps what its issue keeps: out of turn it leaves the state. -/
theorem inTurn_keepsFootprint {i : Instr} {core ctx : Nat} {run : State → Host.Outcome State Fault Refusal}
    (h : ∀ s, ∃ t, run s = .next t ∧ Kept (footprint i) s t) : KeepsFootprint i (State.inTurn core ctx run) := fun s =>
  next_ite (h s) ⟨_, rfl, .rfl' _ s⟩

theorem endTask_keepsFootprint (core ctx : Nat) : KeepsFootprint (.endTask core ctx) (execEnd core ctx) :=
  inTurn_keepsFootprint fun s => ⟨_, rfl, issue_kept (inFootprint rfl) (fun x e t h => by
    split
    · exact pageFault_kept _ _ _ _ (inFootprint rfl) h
    · exact onCtx_kept _ _ _ _ (inFootprint rfl) h) (.rfl' _ s)⟩

theorem loopBegin_keepsFootprint (core ctx : Nat) : KeepsFootprint (.loopBegin core ctx) (execLoop core ctx) :=
  inTurn_keepsFootprint fun s =>
    ⟨_, rfl, issue_kept (inFootprint rfl) (fun _ _ t h => follow_kept _ _ _ t (inFootprint rfl) h) (.rfl' _ s)⟩

theorem loopNext_keepsFootprint (core ctx : Nat) : KeepsFootprint (.loopNext core ctx) (execNext core ctx) :=
  inTurn_keepsFootprint fun s =>
    ⟨_, rfl, issue_kept (inFootprint rfl) (fun _ _ t h => follow_kept _ _ _ t (inFootprint rfl) h) (.rfl' _ s)⟩

theorem barrierWait_keepsFootprint (core ctx : Nat) : KeepsFootprint (.barrierWait core ctx) (execBarrierWait core ctx) :=
  inTurn_keepsFootprint fun s => ⟨_, rfl, barrierEntry_kept _ _ _ s (inFootprint rfl) (.rfl' _ s)⟩

theorem barrierArrive_keepsFootprint (core ctx : Nat) : KeepsFootprint (.barrierArrive core ctx) (execBarrierArrive core ctx) :=
  inTurn_keepsFootprint fun s => ⟨_, rfl, barrierEntry_kept _ _ _ s (inFootprint rfl) (.rfl' _ s)⟩

theorem front_keepsFootprint (core ctx : Nat) : KeepsFootprint (.front core ctx) (execFront core ctx) :=
  inTurn_keepsFootprint fun s => ⟨_, rfl, issue_kept (inFootprint rfl) (fun x e t h => each_kept (fun i t h => by
    split
    · exact h
    split
    · exact h
    · exact onWork_kept _ _ _ _ _ (inFootprint rfl) (bump_kept _ _ _ (inFootprint rfl) (bump_kept _ _ _ (inFootprint rfl) (observe_kept _ _ _ _ _ (inFootprint rfl) h)))) h)
    (.rfl' _ s)⟩

theorem tree_keepsFootprint (core ctx : Nat) (rows comps : List Nat) (corrected : Nat) : KeepsFootprint (.tree core ctx rows comps corrected) (execTree core ctx rows comps corrected) :=
  inTurn_keepsFootprint fun s => by
    dsimp only [issueTree]
    split
    · exact ⟨_, rfl, loadStep_kept _ _ _ _ _ _ (inFootprint rfl) (.rfl' _ s)⟩
    · refine ⟨_, rfl, issue_kept (inFootprint rfl) (fun x e t h => each_kept (fun i t h => ?_) h) (.rfl' _ s)⟩
      split
      · exact h
      split
      · exact h
      refine ite_kept h ?_
      split
      · exact h
      · exact treePass_kept _ _ _ _ _ _ _ _ _ _ _ (inFootprint rfl) h

theorem lookup_keepsFootprint (core ctx : Nat) (bad1 bad2 badState overflow : Bool) :
    KeepsFootprint (.lookup core ctx bad1 bad2 badState overflow) (execLookup core ctx bad1 bad2 badState overflow) :=
  inTurn_keepsFootprint fun s => ⟨_, rfl, issue_kept (inFootprint rfl) (fun x e t h => by
    have h := useVault_kept core (if e.sub = 1 then 64 else 512) _ (inFootprint rfl)
      (onCore_kept core (CoreState.demand t.now overflow t.dev.streamNext) (inFootprint rfl) h)
    refine each_kept (fun i t h => ?_) (ite_kept (slowRequests_kept _ _ _ (inFootprint rfl) h) h)
    split
    · exact h
    split
    · exact h
    refine ite_kept (onWork_kept _ _ _ _ _ (inFootprint rfl) h) (ite_kept (onWork_kept _ _ _ _ _ (inFootprint rfl) (stat_kept _ _ _ (inFootprint rfl)
      (stat_kept _ _ _ (inFootprint rfl) h))) (ite_kept (onWork_kept _ _ _ _ _ (inFootprint rfl) h) ?_))
    rename_i p _ _ _ _ _
    have h := lookup_kept p bad1 bad2 t (inFootprint rfl) h
    dsimp only
    split
    · rename_i hit _ _ _
      have h := useVault_kept core 64 _ (inFootprint rfl) h
      have h := ite_kept (c := badState = true) (lineErr_kept core (poolLine (eState hit)) 2 _ (inFootprint rfl) h) h
      exact onWork_kept _ _ _ _ _ (inFootprint rfl) (ite_kept (promotedHit_kept _ _ _ _ _ _ _ (inFootprint rfl) h) h)
    · exact onWork_kept _ _ _ _ _ (inFootprint rfl) h) (.rfl' _ s)⟩

theorem emitVerdict_keepsFootprint (core ctx : Nat) : KeepsFootprint (.emitVerdict core ctx) (execEmitVerdict core ctx) :=
  inTurn_keepsFootprint fun s => ⟨_, rfl, issueCommit_kept (inFootprint rfl) (fun x e t h => each_kept (fun i t h => by
    dsimp only
    split
    · split
      · exact h
      · exact ite_kept h (launch_kept _ _ _ _ _ _ _ (inFootprint rfl) (onWork_kept _ _ _ _ _ (inFootprint rfl) (onPacket_kept _ _ _ (inFootprint rfl) h)))
    · exact h) h) (.rfl' _ s)⟩

theorem emitToken_keepsFootprint (core ctx : Nat) : KeepsFootprint (.emitToken core ctx) (execEmitToken core ctx) :=
  inTurn_keepsFootprint fun s => ⟨_, rfl, issueCommit_kept (inFootprint rfl) (fun x e t h => each_kept (fun i t h => by
    split
    · exact h
    · exact ite_kept h (each_kept (fun e t h => sendRequest_kept _ _ _ _ _ _ (inFootprint rfl) h) h)) h) (.rfl' _ s)⟩

theorem emitResult_keepsFootprint (core ctx : Nat) : KeepsFootprint (.emitResult core ctx) (execEmitResult core ctx) :=
  inTurn_keepsFootprint fun s => ⟨_, rfl, issueCommit_kept (inFootprint rfl) (fun x e t h => ite_kept h (each_kept (fun i t h => by
    split
    · exact h
    · exact ite_kept (sendParcel_kept _ _ _ _ _ _ (inFootprint rfl) (onCompute_kept _ (inFootprint rfl) h fun _ => rfl))
        (onCore_kept _ _ (inFootprint rfl) h)) h)) (.rfl' _ s)⟩

theorem emitState_keepsFootprint (core ctx : Nat) (bad : Bool) : KeepsFootprint (.emitState core ctx bad) (execEmitState core ctx bad) :=
  inTurn_keepsFootprint fun s => ⟨_, rfl, issueCommit_kept (inFootprint rfl) (fun x e t h => each_kept (fun i t h => by
    split
    · exact h
    · exact ite_kept (flowDue_kept _ _ (inFootprint rfl) h) h) h) (.rfl' _ s)⟩

theorem array_keepsFootprint (core ctx : Nat) : KeepsFootprint (.array core ctx) (execArray core ctx) :=
  inTurn_keepsFootprint fun s => ⟨_, rfl, issueRun_kept (inFootprint rfl) (fun _ _ _ h =>
    ite_kept (passAhead_kept _ _ _ (inFootprint rfl) (pass_kept _ _ _ _ (inFootprint rfl) h)) (startPass_kept _ _ _ _ _ (inFootprint rfl) h)) (.rfl' _ s)⟩

theorem mvec_keepsFootprint (core ctx : Nat) : KeepsFootprint (.mvec core ctx) (execMvec core ctx) :=
  inTurn_keepsFootprint fun s => ⟨_, rfl, issueRun_kept (inFootprint rfl) (fun _ _ _ h =>
    ite_kept (passAhead_kept _ _ _ (inFootprint rfl) (pass_kept _ _ _ _ (inFootprint rfl) h))
      (onCore_kept _ _ (inFootprint rfl) (joinTokens_kept _ _ (inFootprint rfl) (ite_kept h (useVault_kept _ _ _ (inFootprint rfl) h))))) (.rfl' _ s)⟩

theorem rescale_keepsFootprint (core ctx : Nat) : KeepsFootprint (.rescale core ctx) (execRescale core ctx) :=
  inTurn_keepsFootprint fun s => ⟨_, rfl, issue_kept (inFootprint rfl) (fun x e t h =>
    each_kept (fun i t h => by
      dsimp only
      have narrowed {g : Nat} {l : LayerD} {a4 relu : Bool} {rd : Nat → Byte} {chs : List Nat} {acc : List Int} {n : Nat} {f : Ctx → Ctx} :
          Kept (footprint (.rescale core ctx)) s (((t.takeUnit core n).narrow core g l a4 relu rd chs acc).1.onCtx core ctx f) :=
        onCtx_kept _ _ _ _ (inFootprint rfl) (narrow_kept _ _ _ _ _ _ _ _ _ (inFootprint rfl) (takeUnit_kept _ _ _ (inFootprint rfl) h))
      split
      · split
        · exact onToken_kept _ _ _ (inFootprint rfl) (takeUnit_kept _ _ _ (inFootprint rfl) h)
        · exact narrowed
      · exact narrowed) (joinTokens_kept _ _ (inFootprint rfl) h)) (.rfl' _ s)⟩

theorem arm_keepsFootprint (core ctx : Nat) : KeepsFootprint (.arm core ctx) (execArm core ctx) :=
  inTurn_keepsFootprint fun s =>
    ⟨_, rfl, streamEntry_kept (inFootprint rfl) (fun _ _ _ _ _ h => onStream_kept _ _ _ _ (inFootprint rfl) h) (.rfl' _ s)⟩

theorem rearm_keepsFootprint (core ctx : Nat) : KeepsFootprint (.rearm core ctx) (execRearm core ctx) :=
  inTurn_keepsFootprint fun s =>
    ⟨_, rfl, streamEntry_kept (inFootprint rfl) (fun _ _ _ _ _ h => onStream_kept _ _ _ _ (inFootprint rfl) h) (.rfl' _ s)⟩

theorem acquire_keepsFootprint (core ctx : Nat) : KeepsFootprint (.acquire core ctx) (execAcquire core ctx) :=
  inTurn_keepsFootprint fun s => by
    dsimp only [issueAcquire]
    split
    · exact ⟨_, rfl, onStream_kept _ _ _ s (inFootprint rfl) (.rfl' _ s)⟩
    · refine ⟨_, rfl, streamEntry_kept (inFootprint rfl) (fun x e q n t h => ?_) (.rfl' _ s)⟩
      split
      · exact pageFault_kept _ _ _ _ (inFootprint rfl) h
      · exact onStream_kept _ _ _ _ (inFootprint rfl) h

theorem release_keepsFootprint (core ctx : Nat) : KeepsFootprint (.release core ctx) (execRelease core ctx) :=
  inTurn_keepsFootprint fun s => ⟨_, rfl, streamEntry_kept (inFootprint rfl) (fun _ _ _ _ _ h =>
    onStream_kept _ _ _ _ (inFootprint rfl) (ite_kept (each_kept (fun _ _ h => onCore_kept _ _ (inFootprint rfl) h) h) h)) (.rfl' _ s)⟩

theorem flush_keepsFootprint (core ctx : Nat) : KeepsFootprint (.flush core ctx) (execFlush core ctx) :=
  inTurn_keepsFootprint fun s => ⟨_, rfl, streamEntry_kept (inFootprint rfl) (fun x e q n t h => by
    split
    · exact pageFault_kept _ _ _ _ (inFootprint rfl) h
    · exact h) (.rfl' _ s)⟩

theorem streamClose_keepsFootprint (core ctx : Nat) : KeepsFootprint (.streamClose core ctx) (execStreamClose core ctx) :=
  inTurn_keepsFootprint fun s => ⟨_, rfl, streamEntry_kept (inFootprint rfl) (fun x e q n t h => by
    split
    · exact pageFault_kept _ _ _ _ (inFootprint rfl) h
    · exact closeStream_kept _ _ _ (inFootprint rfl) h) (.rfl' _ s)⟩

/-! ### Flow tables -/

theorem flushDone_keepsFootprint : KeepsFootprint .flushDone execFlushDone := fun s => by
  dsimp only [execFlushDone]
  split
  · exact ⟨_, rfl, .rfl' _ s⟩
  · exact ⟨_, rfl, ite_kept (.rfl' _ s) (flushEnd_kept _ s (inFootprint rfl) (.rfl' _ s))⟩

theorem flushSweepVisit_keepsFootprint (unit pos : Nat) : KeepsFootprint (.flushSweepVisit unit pos) (execFlushSweepVisit unit pos) := fun s => by
  dsimp only [execFlushSweepVisit]
  split
  · exact ⟨_, rfl, .rfl' _ s⟩
  · exact ⟨_, rfl, ite_kept (.rfl' _ s) (sweepAt_kept _ _ _ s (inFootprint rfl) (.rfl' _ s))⟩

theorem learningInsertion_keepsFootprint (die : Nat) : KeepsFootprint (.learningInsertion die) (execLearningInsertion die) := fun s =>
  ⟨_, rfl, ite_kept (.rfl' _ s) (flowDue_kept _ s (inFootprint rfl) (.rfl' _ s))⟩

theorem relocationMove_keepsFootprint (core : Nat) : KeepsFootprint (.relocationMove core) (execRelocationMove core) := fun s =>
  ⟨_, rfl, ite_kept (.rfl' _ s) (flowDue_kept _ s (inFootprint rfl) (.rfl' _ s))⟩

theorem stashMove_keepsFootprint (core : Nat) : KeepsFootprint (.stashMove core) (execStashMove core) := fun s =>
  ⟨_, rfl, ite_kept (.rfl' _ s) (flowDue_kept _ s (inFootprint rfl) (.rfl' _ s))⟩

theorem scanVisit_keepsFootprint (direct : Bool) (unit pos : Nat) : KeepsFootprint (.scanVisit direct unit pos) (execScanVisit direct unit pos) := fun s =>
  ⟨_, rfl, ite_kept (.rfl' _ s) (flowDue_kept _ s (inFootprint rfl) (.rfl' _ s))⟩

/-! ### The sequencer -/

theorem batchClose_keepsFootprint (core chan gen : Nat) : KeepsFootprint (.batchClose core chan gen) (execBatchClose core chan gen) := fun s =>
  ⟨_, rfl, closeDue_kept _ _ _ s (inFootprint rfl) (.rfl' _ s)⟩

theorem headerVector_keepsFootprint (k : Nat) : KeepsFootprint (.headerVector k) (execHeaderVector k) := fun s => by
  dsimp only [execHeaderVector]
  have h : Kept (footprint (.headerVector k)) s s := .rfl' _ s
  split
  · exact ⟨_, rfl, h⟩
  split
  · split
    · exact ⟨_, rfl, h⟩
    split
    · exact ⟨_, rfl, landed_kept _ _ (inFootprint rfl) (dropPackets_kept _ _ (inFootprint rfl) h)⟩
    have h := landed_kept (.vector k) s (inFootprint rfl) h
    split
    · exact ⟨_, rfl, launch_kept _ _ _ _ _ _ _ (inFootprint rfl) h⟩
    split
    · exact ⟨_, rfl, tempoCount_kept _ _ _ _ (inFootprint rfl) (dropPackets_kept _ _ (inFootprint rfl) h)⟩
    have rerouted {c : Prop} [Decidable c] {page : Nat} := ite_kept (c := c) h (bump_kept page (0x480 + 8 * 3) 1 (inFootprint rfl) h)
    refine next_ite (next_ite ⟨_, rfl, ?_⟩ (next_ite ⟨_, rfl, rerouted⟩ ⟨_, rfl, ?_⟩)) ⟨_, rfl, ?_⟩
    · exact onPacket_kept _ _ _ (inFootprint rfl) (onCore_kept _ _ (inFootprint rfl) (noteRelease_kept _ _ (inFootprint rfl) rerouted))
    · exact onPacket_kept _ _ _ (inFootprint rfl) (coreEvent_kept _ _ _ _ (inFootprint rfl) (seqCount_kept _ _ _ _ (inFootprint rfl) rerouted))
    · exact joinBatch_kept _ _ _ _ _ (inFootprint rfl) (noteRelease_kept _ _ (inFootprint rfl) rerouted)
  · exact ⟨_, rfl, h⟩

theorem tableFetch_keepsFootprint (core ctx : Nat) (stale fail : Bool) : KeepsFootprint (.tableFetch core ctx stale fail) (execTableFetch core ctx stale fail) := fun s => by
  dsimp only [execTableFetch]
  have h : Kept (footprint (.tableFetch core ctx stale fail)) s s := .rfl' _ s
  split
  · exact ⟨_, rfl, h⟩
  split
  · exact ⟨_, rfl, onCtx_kept _ _ _ _ (inFootprint rfl) (setEvent_kept _ _ _ (inFootprint rfl) (coreEvent_kept _ _ _ _ (inFootprint rfl)
      (ite_kept (seqCount_kept _ _ _ _ (inFootprint rfl) h) h)))⟩
  · exact ⟨_, rfl, onCtx_kept _ _ _ _ (inFootprint rfl) (onCore_kept _ _ (inFootprint rfl) (ite_kept (seqCount_kept _ _ _ _ (inFootprint rfl) h) h))⟩

theorem cancel_keepsFootprint (core ctx : Nat) : KeepsFootprint (.cancel core ctx) (execCancel core ctx) := fun s =>
  ⟨_, rfl, ite_kept (onCtx_kept _ _ _ s (inFootprint rfl) (.rfl' _ s)) (.rfl' _ s)⟩

theorem abort_keepsFootprint (core ctx : Nat) : KeepsFootprint (.abort core ctx) (execAbort core ctx) := fun s =>
  ⟨_, rfl, abortTask_kept _ _ s (inFootprint rfl) (.rfl' _ s)⟩

theorem watchdog_keepsFootprint (core ctx : Nat) : KeepsFootprint (.watchdog core ctx) (execWatchdog core ctx) := fun s =>
  ⟨_, rfl, ite_kept (onCore_kept _ _ (inFootprint rfl) (.rfl' _ s)) (.rfl' _ s)⟩

theorem issueStall_keepsFootprint (core : Nat) : KeepsFootprint (.issueStall core) (execIssueStall core) := fun s => by
  dsimp only [execIssueStall]
  split
  · exact ⟨_, rfl, onCore_kept _ _ (inFootprint rfl) (.rfl' _ s)⟩
  · exact ⟨_, rfl, .rfl' _ s⟩

theorem taskAdmit_keepsFootprint (core ctx : Nat) : KeepsFootprint (.taskAdmit core ctx) (execTaskAdmit core ctx) := fun s => by
  dsimp only [execTaskAdmit]
  have h : Kept (footprint (.taskAdmit core ctx)) s s := .rfl' _ s
  have aborted {t u : TaskDesc} {x} (h : Kept (footprint (.taskAdmit core ctx)) s x) :
      Kept (footprint (.taskAdmit core ctx)) s (((x.seqCount core 9 1).recordAbort core ctx 6 t).ownerAbort core 6 u none) :=
    ownerAbort_kept _ _ _ _ _ (inFootprint rfl) (recordAbort_kept _ _ _ _ _ (inFootprint rfl) (seqCount_kept _ _ _ _ (inFootprint rfl) h))
  split
  · exact ⟨_, rfl, h⟩
  split
  · split
    · exact ⟨_, rfl, onCtx_kept _ _ _ _ (inFootprint rfl) h⟩
    · exact ⟨_, rfl, h⟩
  split
  · exact ⟨_, rfl, h⟩
  split
  · exact ⟨_, rfl, h⟩
  split
  · exact ⟨_, rfl, aborted (onCore_kept _ _ (inFootprint rfl) h)⟩
  · exact next_ite ⟨_, rfl, aborted (onCore_kept _ _ (inFootprint rfl) h)⟩
      ⟨_, rfl, place_kept _ _ _ _ _ (inFootprint rfl) (fillTask_kept _ _ _ _ (inFootprint rfl) (onCore_kept _ _ (inFootprint rfl) h))⟩

theorem pawnDispatch_keepsFootprint (core ctx : Nat) : KeepsFootprint (.pawnDispatch core ctx) (execPawnDispatch core ctx) := fun s => by
  unfold execPawnDispatch
  extract_lets x stage refuse run
  have h : Kept (footprint (.pawnDispatch core ctx)) s s := .rfl' _ s
  have refused (l : List Nat) (t : State) (h : Kept (footprint (.pawnDispatch core ctx)) s t) :
      Kept (footprint (.pawnDispatch core ctx)) s (refuse l t) :=
    seqCount_kept _ _ _ _ (inFootprint rfl) (dropPackets_kept _ _ (inFootprint rfl) h)
  have ran (n gen cls : Nat) (l : List Nat) (t : State) (h : Kept (footprint (.pawnDispatch core ctx)) s t) :
      Kept (footprint (.pawnDispatch core ctx)) s (run n gen cls l t) := by
    dsimp only [run]
    split
    · exact refused _ _ h
    split
    · exact refused _ _ h
    · exact ite_kept (refused _ _ h) (place_kept _ _ _ _ _ (inFootprint rfl) (putVectors_kept _ _ _ (inFootprint rfl)
        (each_kept (fun k t h => onPacket_kept _ _ _ (inFootprint rfl) h) (fillTask_kept _ _ _ _ (inFootprint rfl) h))))
  refine next_ite ⟨_, rfl, h⟩ (next_ite ?_ ?_)
  · split
    · exact ⟨_, rfl, h⟩
    refine next_ite ⟨_, rfl, h⟩ ?_
    split
    · exact ⟨_, rfl, onCore_kept _ _ (inFootprint rfl) h⟩
    split
    · exact ⟨_, rfl, onCore_kept _ _ (inFootprint rfl) h⟩
    · exact ⟨_, rfl, ran _ _ _ _ _ (onCore_kept _ _ (inFootprint rfl) h)⟩
  · split
    · exact ⟨_, rfl, h⟩
    · exact next_ite ⟨_, rfl, h⟩ ⟨_, rfl, ran _ _ _ _ _ (onCore_kept _ _ (inFootprint rfl) h)⟩

/-! ### The feature stage, experts and teams -/

theorem hostFeatureItem_keepsFootprint (chan : Nat) : KeepsFootprint (.hostFeatureItem chan) (execHostFeatureItem chan) := fun s =>
  ⟨_, rfl, hostItem_kept _ s (inFootprint rfl) (.rfl' _ s)⟩

theorem hostSlotApply_keepsFootprint : KeepsFootprint .hostSlotApply execHostSlotApply := fun s => ⟨_, rfl, applySlots_kept s (inFootprint rfl) (.rfl' _ s)⟩

theorem featureWindowEnd_keepsFootprint (core chan gen : Nat) : KeepsFootprint (.featureWindowEnd core chan gen) (execFeatureWindowEnd core chan gen) := fun s => by
  dsimp only [execFeatureWindowEnd]
  split
  · exact ⟨_, rfl, .rfl' _ s⟩
  · exact ⟨_, rfl, ite_kept (.rfl' _ s) (onCompute_kept _ (inFootprint rfl) (.rfl' _ s) fun _ => rfl)⟩

theorem rescaleStepEnd_keepsFootprint (core : Nat) (deep : Bool) (target gen a : Nat) : KeepsFootprint (.rescaleStepEnd core deep target gen a) (execRescaleStepEnd core deep target gen a) := fun s => by
  dsimp only [execRescaleStepEnd]
  split
  · exact ⟨_, rfl, .rfl' _ s⟩
  · exact ⟨_, rfl, ite_kept (.rfl' _ s) (onCompute_kept _ (inFootprint rfl) (.rfl' _ s) fun _ => rfl)⟩

theorem expertRequest_keepsFootprint (k : Nat) : KeepsFootprint (.expertRequest k) (execExpertRequest k) := fun s => by
  dsimp only [execExpertRequest]
  split
  · exact ⟨_, rfl, .rfl' _ s⟩
  · exact ⟨_, rfl, ite_kept (.rfl' _ s) (joinQueue_kept _ _ (inFootprint rfl) (onCompute_kept _ (inFootprint rfl) (.rfl' _ s) fun _ => rfl))⟩

theorem expertResult_keepsFootprint (k : Nat) : KeepsFootprint (.expertResult k) (execExpertResult k) := fun s => by
  dsimp only [execExpertResult]
  split
  · exact ⟨_, rfl, .rfl' _ s⟩
  · exact ⟨_, rfl, ite_kept (.rfl' _ s) (takeResult_kept _ _ (inFootprint rfl) (onCompute_kept _ (inFootprint rfl) (.rfl' _ s) fun _ => rfl))⟩

theorem teamData_keepsFootprint (port : Nat) (f : Bytes) : KeepsFootprint (.teamData port f) (execTeamData port f) := fun s => by
  dsimp only [execTeamData]
  have h := takePeer_kept port 8 f s (P := footprint (.teamData port f)) (inFootprint rfl) (.rfl' _ s)
  split
  · exact ⟨_, rfl, h⟩
  rename_i hd _
  have h := openTeam_kept port f hd _ (inFootprint rfl) h
  split
  · exact ⟨_, rfl, h⟩
  rename_i m _ _
  have h := grantTeam_kept port m (units f.length) _ (inFootprint rfl) h
  split
  · exact ⟨_, rfl, setEvent_kept _ _ _ (inFootprint rfl) (deepCount_kept _ _ _ (inFootprint rfl) h)⟩
  split
  · exact ⟨_, rfl, setEvent_kept _ _ _ (inFootprint rfl) (deepCount_kept _ _ _ (inFootprint rfl) h)⟩
  split
  · exact ⟨_, rfl, deepCount_kept _ _ _ (inFootprint rfl) h⟩
  · exact ⟨_, rfl, deepCount_kept _ _ _ (inFootprint rfl) (teamRecords_kept _ _ _ _ _ _ _ (inFootprint rfl) h)⟩

theorem teamCredit_keepsFootprint (port : Nat) (f : Bytes) : KeepsFootprint (.teamCredit port f) (execTeamCredit port f) := fun s => by
  dsimp only [execTeamCredit]
  have h := takePeer_kept port 9 f s (P := footprint (.teamCredit port f)) (inFootprint rfl) (.rfl' _ s)
  split
  · exact ⟨_, rfl, h⟩
  rename_i hd _
  have h := openTeam_kept port f hd _ (inFootprint rfl) h
  split
  · exact ⟨_, rfl, h⟩
  · exact ⟨_, rfl, onTeam_kept _ (inFootprint rfl) h⟩

/-! ### Arrays and streams -/

theorem arrayFault_keepsFootprint (core ctx kind arr region : Nat) : KeepsFootprint (.arrayFault core ctx kind arr region) (execArrayFault core ctx kind arr region) := fun s => by
  dsimp only [execArrayFault]
  split
  · exact ⟨_, rfl, ite_kept (passFails_kept _ _ _ _ _ s (inFootprint rfl) (.rfl' _ s)) (.rfl' _ s)⟩
  · exact ⟨_, rfl, .rfl' _ s⟩

theorem adjournment_keepsFootprint (core ctx tiles : Nat) : KeepsFootprint (.adjournment core ctx tiles) (execAdjournment core ctx tiles) := fun s => by
  dsimp only [execAdjournment]
  split
  · split
    · exact ⟨_, rfl, .rfl' _ s⟩
    · exact ⟨_, rfl, tempoCount_kept _ _ _ _ (inFootprint rfl) (onCore_kept _ _ (inFootprint rfl) (charge_kept _ _ _ _ (inFootprint rfl)
        (passRan_kept _ _ _ _ _ _ _ s (inFootprint rfl) (.rfl' _ s))))⟩
  · exact ⟨_, rfl, .rfl' _ s⟩

theorem pieceComplete_keepsFootprint (core tag err : Nat) : KeepsFootprint (.pieceComplete core tag err) (execPieceComplete core tag err) := fun s => by
  dsimp only [execPieceComplete]
  split
  · exact ⟨_, rfl, .rfl' _ s⟩
  · exact ⟨_, rfl, ite_kept (.rfl' _ s) (pieceEnds_kept _ _ _ _ _ (inFootprint rfl) (takeVault_kept _ _ s (inFootprint rfl) (.rfl' _ s)))⟩

theorem writeAck_keepsFootprint (core tag : Nat) : KeepsFootprint (.writeAck core tag) (execWriteAck core tag) := fun s => by
  dsimp only [execWriteAck]
  split
  · exact ⟨_, rfl, .rfl' _ s⟩
  split
  · exact ⟨_, rfl, .rfl' _ s⟩
  · exact ⟨_, rfl, freeStopped_kept _ _ (inFootprint rfl) (writeData_kept _ _ _ _ _ _ _ _ (inFootprint rfl) (onCore_kept _ _ (inFootprint rfl)
      (takeVault_kept _ _ s (inFootprint rfl) (.rfl' _ s))))⟩

theorem pieceIssue_keepsFootprint (core : Nat) : KeepsFootprint (.pieceIssue core) (execPieceIssue core) := fun s => by
  dsimp only [execPieceIssue]
  have h : Kept (footprint (.pieceIssue core)) s s := .rfl' _ s
  have step := pieceStep_kept core s (inFootprint rfl) h
  have count {x : State} {e a b : Nat} (h : Kept (footprint (.pieceIssue core)) s x) :
      Kept (footprint (.pieceIssue core)) s ((x.streamCount core e a).streamCount core 2 b) :=
    streamCount_kept _ _ _ _ (inFootprint rfl) (streamCount_kept _ _ _ _ (inFootprint rfl) h)
  split
  · exact ⟨_, rfl, h⟩
  split
  · exact ⟨_, rfl, h⟩
  split
  · exact ⟨_, rfl, h⟩
  split
  · split
    · exact ⟨_, rfl, onStream_kept _ _ _ _ (inFootprint rfl) step⟩
    split
    · exact ⟨_, rfl, writeData_kept _ _ _ _ _ _ _ _ (inFootprint rfl) (count (onStream_kept _ _ _ _ (inFootprint rfl) step))⟩
    · exact ⟨_, rfl, readData_kept _ _ _ _ _ _ (inFootprint rfl) (count (onStream_kept _ _ _ _ (inFootprint rfl) step))⟩
  split
  · exact ⟨_, rfl, streamCount_kept _ _ _ _ (inFootprint rfl) step⟩
  split
  · exact ⟨_, rfl, onStream_kept _ _ _ _ (inFootprint rfl) h⟩
  · refine ⟨_, rfl, onCore_kept _ _ (inFootprint rfl) (pieceStep_kept _ _ (inFootprint rfl) (ite_kept ?_ (launchPiece_kept _ _ _ (inFootprint rfl) ?_)))⟩ <;>
      exact streamCount_kept _ _ _ _ (inFootprint rfl) (streamCount_kept _ _ _ _ (inFootprint rfl) (count (onStream_kept _ _ _ _ (inFootprint rfl) h)))

theorem peerSend_keepsFootprint (core : Nat) : KeepsFootprint (.peerSend core) (execPeerSend core) := fun s => by
  dsimp only [execPeerSend]
  have h : Kept (footprint (.peerSend core)) s s := .rfl' _ s
  have missed {i : Nat} {p : PeerSlot} : Kept (footprint (.peerSend core)) s ((s.freePeer core i p).missSlot p) :=
    missSlot_kept _ _ (inFootprint rfl) (freePeer_kept _ _ _ _ (inFootprint rfl) h)
  split
  · exact ⟨_, rfl, h⟩
  split
  · exact ⟨_, rfl, h⟩
  split
  · exact ⟨_, rfl, missed⟩
  split
  · exact ⟨_, rfl, missed⟩
  split
  · exact ⟨_, rfl, deepCount_kept _ _ _ (inFootprint rfl) (streamCount_kept _ _ _ _ (inFootprint rfl) (freePeer_kept _ _ _ _ (inFootprint rfl)
      (sendTeamAs_kept _ _ _ _ _ _ _ (inFootprint rfl) (onTeam_kept _ (inFootprint rfl) h))))⟩
  · exact ⟨_, rfl, h⟩

/-! ### Power and heat -/

theorem speedReport_keepsFootprint (site step : Nat) : KeepsFootprint (.speedReport site step) (execSpeedReport site step) := fun s => by
  dsimp only [execSpeedReport]
  split
  · exact ⟨_, rfl, .rfl' _ s⟩
  · exact ⟨_, rfl, setStep_kept _ _ s (inFootprint rfl) (.rfl' _ s)⟩

theorem governorInterval_keepsFootprint (die : Nat) (logic dram : List (Nat × Nat)) (watts pkg port0 port1 : Nat) :
    KeepsFootprint (.governorInterval die logic dram watts pkg port0 port1) (execGovernorInterval die logic dram watts pkg port0 port1) := fun s => by
  dsimp only [execGovernorInterval]
  split
  · exact ⟨_, rfl, .rfl' _ s⟩
  · exact ⟨_, rfl, onPower_kept _ (inFootprint rfl) (setEvents_kept _ _ _ (inFootprint rfl) (endInterval_kept _ _ _ _ s (inFootprint rfl) (.rfl' _ s)))⟩

theorem thermalTrip_keepsFootprint (kind die site reading : Nat) : KeepsFootprint (.thermalTrip kind die site reading) (execThermalTrip kind die site reading) := fun s => by
  dsimp only [execThermalTrip]
  have h : Kept (footprint (.thermalTrip kind die site reading)) s s := .rfl' _ s
  exact next_ite ⟨_, rfl, h⟩ ⟨_, rfl, squelchAll_kept _ (inFootprint rfl) (onPower_kept _ (inFootprint rfl)
    (ite_kept (onTempo_kept _ _ _ (inFootprint rfl) h) (ite_kept (onTempo_kept _ _ _ (inFootprint rfl) h) (onPower_kept _ (inFootprint rfl) h))))⟩

theorem railFault_keepsFootprint (rail : Nat) : KeepsFootprint (.railFault rail) (execRailFault rail) := fun s => by
  dsimp only [execRailFault]
  split
  · exact ⟨_, rfl, .rfl' _ s⟩
  · exact ⟨_, rfl, squelchAll_kept _ (inFootprint rfl) (onPower_kept _ (inFootprint rfl) (.rfl' _ s))⟩

/-! ### Failures, repairs and background work -/

theorem coreFailure_keepsFootprint (core cause : Nat) : KeepsFootprint (.coreFailure core cause) (execCoreFailure core cause) := fun s => by
  dsimp only [execCoreFailure]
  split
  · exact ⟨_, rfl, .rfl' _ s⟩
  · exact ⟨_, rfl, failCore_kept _ _ s (inFootprint rfl) (.rfl' _ s)⟩

theorem selfTest_keepsFootprint (site : Nat) (pass : Bool) : KeepsFootprint (.selfTest site pass) (execSelfTest site pass) := fun s => by
  dsimp only [execSelfTest]
  have h : Kept (footprint (.selfTest site pass)) s s := .rfl' _ s
  have tested := relCount_kept (siteDie site) 4 _ (inFootprint rfl) (resetSite_kept site s (inFootprint rfl) h)
  have failed := relEvent_kept (siteDie site) 3 _ (inFootprint rfl) (relCount_kept (siteDie site) 5 _ (inFootprint rfl) tested)
  split
  · split
    · exact ⟨_, rfl, h⟩
    split
    · exact ⟨_, rfl, onReliab_kept _ (inFootprint rfl) tested⟩
    split
    · exact ⟨_, rfl, nextMapping_kept _ _ (inFootprint rfl) (onReliab_kept _ (inFootprint rfl) (markFaulted_kept _ _ (inFootprint rfl) (setSite_kept _ _ _ (inFootprint rfl) failed)))⟩
    · exact ⟨_, rfl, nextMapping_kept _ _ (inFootprint rfl) (mapSpare_kept _ _ _ _ _ (inFootprint rfl) (markFaulted_kept _ _ (inFootprint rfl) (setSite_kept _ _ _ (inFootprint rfl) failed)))⟩
  · split
    · exact ⟨_, rfl, h⟩
    · exact ⟨_, rfl, onCore_kept _ _ (inFootprint rfl) (ite_kept tested failed)⟩
  · exact ⟨_, rfl, h⟩

theorem spareActivation_keepsFootprint (die : Nat) : KeepsFootprint (.spareActivation die) (execSpareActivation die) := fun s => by
  dsimp only [execSpareActivation]
  split
  · exact ⟨_, rfl, .rfl' _ s⟩
  split
  · exact ⟨_, rfl, .rfl' _ s⟩
  · exact ⟨_, rfl, onReliab_kept _ (inFootprint rfl) (.rfl' _ s)⟩

theorem vaultRemap_keepsFootprint (site row : Nat) (pages : List (Nat × Nat)) : KeepsFootprint (.vaultRemap site row pages) (execVaultRemap site row pages) := fun s => by
  have h : Kept (footprint (.vaultRemap site row pages)) s s := .rfl' _ s
  unfold execVaultRemap
  extract_lets r die used started
  split
  · extract_lets unlisted unloaded counted marked
    have moved : Kept (footprint (.vaultRemap site row pages)) s marked :=
      setFaulted_kept _ _ _ (inFootprint rfl) (relEvent_kept _ _ _ (inFootprint rfl) (relCount_kept _ _ _ (inFootprint rfl)
        (onCompute_kept _ (inFootprint rfl) (onReliab_kept _ (inFootprint rfl) h) fun _ => rfl)))
    refine ⟨_, rfl, ite_kept ?_ moved⟩
    split
    · exact onCore_kept _ _ (inFootprint rfl) moved
    · exact moved
  · exact next_ite ⟨_, rfl, h⟩ ⟨_, rfl, onCompute_kept _ (inFootprint rfl) (onReliab_kept _ (inFootprint rfl) h) fun _ => rfl⟩

theorem cpStopped_keepsFootprint (stop : Nat × List Nat) : KeepsFootprint (.cpStopped stop) (execCpStopped stop) := fun s => by
  dsimp only [execCpStopped]
  split
  · exact ⟨_, rfl, .rfl' _ s⟩
  · exact ⟨_, rfl, each_kept (fun n t h => endSession_kept _ _ (inFootprint rfl) h)
      (setFaulted_kept _ _ _ (inFootprint rfl) (setEvent_kept _ _ _ (inFootprint rfl) (onReliab_kept _ (inFootprint rfl) (.rfl' _ s))))⟩

theorem dramScrub_keepsFootprint (site err : Nat) (pages : List (Nat × Nat)) : KeepsFootprint (.dramScrub site err pages) (execDramScrub site err pages) := fun s => by
  dsimp only [execDramScrub]
  have h : Kept (footprint (.dramScrub site err pages)) s s := .rfl' _ s
  split
  · exact ⟨_, rfl, h⟩
  · refine ⟨_, rfl, onBack_kept _ (inFootprint rfl) (scrubError_kept _ _ _ _ _ (inFootprint rfl) (backCount_kept _ _ (inFootprint rfl) ?_))⟩
    have h : Kept (footprint (.dramScrub site err pages)) s (if Table.get 0 s.dev.back.line site = 0 then
        s.onReliab fun r => { r with rowErrors := r.rowErrors.filter fun e => decide (e.1 / 2 ^ 32 ≠ site) } else s) :=
      ite_kept (onReliab_kept _ (inFootprint rfl) h) h
    split
    · exact useVault_kept _ _ _ (inFootprint rfl) h
    · exact h

theorem amScrub_keepsFootprint (core quarter kind index result : Nat) : KeepsFootprint (.amScrub core quarter kind index result) (execAmScrub core quarter kind index result) := fun s => by
  dsimp only [execAmScrub]
  split
  · exact ⟨_, rfl, .rfl' _ s⟩
  · have h := backCount_kept 2 s (P := footprint (.amScrub core quarter kind index result)) (inFootprint rfl) (.rfl' _ s)
    exact ⟨_, rfl, ite_kept h (ite_kept (amFail_kept _ _ _ _ _ (inFootprint rfl) h) (ite_kept (treeCount_kept _ _ _ _ (inFootprint rfl) h) h))⟩

theorem calibration_keepsFootprint (core step : Nat) : KeepsFootprint (.calibration core step) (execCalibration core step) := fun s => by
  dsimp only [execCalibration]
  split
  · exact ⟨_, rfl, .rfl' _ s⟩
  rename_i x _
  split
  · exact ⟨_, rfl, .rfl' _ s⟩
  · have h := backCount_kept 5 _ (inFootprint rfl) (setStep_kept x (step % 256) s (P := footprint (.calibration core step)) (inFootprint rfl) (.rfl' _ s))
    exact ⟨_, rfl, ite_kept (setEvent_kept _ _ _ (inFootprint rfl) h) h⟩

theorem wearMove_keepsFootprint (die : Nat) : KeepsFootprint (.wearMove die) (execWearMove die) := fun s => by
  dsimp only [execWearMove]
  have h : Kept (footprint (.wearMove die)) s s := .rfl' _ s
  split
  · exact ⟨_, rfl, h⟩
  split
  · split
    · exact ⟨_, rfl, h⟩
    · refine ⟨_, rfl, backCount_kept _ _ (inFootprint rfl) (ite_kept (relEvent_kept _ _ _ (inFootprint rfl) ?_) ?_)⟩ <;>
        exact onBack_kept _ (inFootprint rfl) (onReliab_kept _ (inFootprint rfl) (setSite_kept _ _ _ (inFootprint rfl) h))
  · exact ⟨_, rfl, h⟩

theorem amRotation_keepsFootprint (core quarter index : Nat) : KeepsFootprint (.amRotation core quarter index) (execAmRotation core quarter index) := fun s => by
  dsimp only [execAmRotation]
  split
  · exact ⟨_, rfl, .rfl' _ s⟩
  split
  · exact ⟨_, rfl, .rfl' _ s⟩
  · exact ⟨_, rfl, relCount_kept _ _ _ (inFootprint rfl) (backCount_kept _ _ (inFootprint rfl) (onBack_kept _ (inFootprint rfl) (.rfl' _ s)))⟩

/-! ### Pairs -/

theorem heartbeat_keepsFootprint (port : Nat) (f : Bytes) : KeepsFootprint (.heartbeat port f) (execHeartbeat port f) := fun s => by
  dsimp only [execHeartbeat]
  have h := takePair_kept port [0xA, 0xD, 0xE, 0xF] f s (P := footprint (.heartbeat port f)) (inFootprint rfl) (.rfl' _ s)
  split
  · exact ⟨_, rfl, h⟩
  rename_i hd _
  have h := openPair_kept port hd _ (inFootprint rfl) h
  split
  · exact ⟨_, rfl, h⟩
  · exact ⟨_, rfl, settleRoles_kept _ _ (inFootprint rfl) (pairCount_kept _ _ _ (inFootprint rfl)
      (watchSync_kept (inFootprint rfl) (fun t ht => onPair_kept _ (inFootprint rfl) ht) h))⟩

theorem mirrorCredit_keepsFootprint (port : Nat) (f : Bytes) : KeepsFootprint (.mirrorCredit port f) (execMirrorCredit port f) := fun s => by
  dsimp only [execMirrorCredit]
  have h := takePair_kept port [0xC] f s (P := footprint (.mirrorCredit port f)) (inFootprint rfl) (.rfl' _ s)
  split
  · exact ⟨_, rfl, h⟩
  rename_i hd _
  have h := openPair_kept port hd _ (inFootprint rfl) h
  split
  · exact ⟨_, rfl, h⟩
  split
  · exact ⟨_, rfl, onPair_kept _ (inFootprint rfl) h⟩
  · exact ⟨_, rfl, pumpCkpt_kept _ _ (inFootprint rfl) (sendRecords_kept _ _ (inFootprint rfl) (onPair_kept _ (inFootprint rfl) (onPair_kept _ (inFootprint rfl) h)))⟩

theorem mirror_keepsFootprint (port : Nat) (f : Bytes) : KeepsFootprint (.mirror port f) (execMirror port f) := fun s => by
  dsimp only [execMirror]
  have h := takePair_kept port [0xB] f s (P := footprint (.mirror port f)) (inFootprint rfl) (.rfl' _ s)
  split
  · exact ⟨_, rfl, h⟩
  rename_i hd _
  have h := openPair_kept port hd _ (inFootprint rfl) h
  split
  · exact ⟨_, rfl, h⟩
  split
  · exact ⟨_, rfl, h⟩
  · exact ⟨_, rfl, grantPair_kept _ _ _ (inFootprint rfl) (settleSync_kept _ (inFootprint rfl)
      (each_kept (fun e t ht => takeRecord_kept _ _ _ (inFootprint rfl) ht) (pairCount_kept _ _ _ (inFootprint rfl) h)))⟩

theorem mirrorStoreSweep_keepsFootprint (k : Nat) : KeepsFootprint (.mirrorStoreSweep k) (execMirrorStoreSweep k) := fun s => by
  dsimp only [execMirrorStoreSweep]
  split
  · exact ⟨_, rfl, sweepEntry_kept _ s (inFootprint rfl) (.rfl' _ s)⟩
  · exact ⟨_, rfl, .rfl' _ s⟩

theorem adoptExpire_keepsFootprint (k : Nat) : KeepsFootprint (.adoptExpire k) (execAdoptExpire k) := fun s => by
  dsimp only [execAdoptExpire]
  split
  · exact ⟨_, rfl, ite_kept (expireEntry_kept _ s (inFootprint rfl) (.rfl' _ s)) (.rfl' _ s)⟩
  · exact ⟨_, rfl, .rfl' _ s⟩

/-! ### The security unit and the test access port -/

theorem treeReady_keepsFootprint : KeepsFootprint .treeReady execTreeReady := fun s => by
  dsimp only [execTreeReady]
  split
  · exact ⟨_, rfl, .rfl' _ s⟩
  · exact ⟨_, rfl, setEvent_kept _ _ _ (inFootprint rfl) (onSec_kept _ (inFootprint rfl) (.rfl' _ s))⟩

theorem drbgReseed_keepsFootprint : KeepsFootprint .drbgReseed execDrbgReseed := fun s => by
  dsimp only [execDrbgReseed]
  split
  · exact ⟨_, rfl, .rfl' _ s⟩
  · refine ⟨_, rfl, ite_kept (drawSeeds_kept _ (inFootprint rfl) ?_) ?_⟩ <;> exact onSec_kept _ (inFootprint rfl) (.rfl' _ s)

theorem entropyFail_keepsFootprint : KeepsFootprint .entropyFail execEntropyFail := fun s =>
  ⟨_, rfl, setEvent_kept _ _ _ (inFootprint rfl) (onSec_kept _ (inFootprint rfl) (.rfl' _ s))⟩

theorem bypass_keepsFootprint (data : Bytes) : KeepsFootprint (.bypass data) (execBypass data) := fun s =>
  ⟨_, rfl, tap_kept (inFootprint rfl) (fun _ h => h) (.rfl' _ s)⟩

theorem idcode_keepsFootprint : KeepsFootprint .idcode execIdcode := fun s =>
  ⟨_, rfl, ite_kept (.rfl' _ s) (emit_kept _ (inFootprint rfl) (onSec_kept _ (inFootprint rfl) (.rfl' _ s)))⟩

theorem samplePreload_keepsFootprint (data : Bytes) : KeepsFootprint (.samplePreload data) (execSamplePreload data) := fun s =>
  ⟨_, rfl, tap_kept (inFootprint rfl) (fun _ h => onSec_kept _ (inFootprint rfl) (capture_kept _ _ (inFootprint rfl) h)) (.rfl' _ s)⟩

theorem extest_keepsFootprint (data : Bytes) : KeepsFootprint (.extest data) (execExtest data) := fun s =>
  ⟨_, rfl, tap_kept (inFootprint rfl) (fun _ h => onSec_kept _ (inFootprint rfl) (capture_kept _ _ (inFootprint rfl) h)) (.rfl' _ s)⟩

theorem scan_keepsFootprint (data : Bytes) : KeepsFootprint (.scan data) (execScan data) := fun s =>
  ⟨_, rfl, tap_kept (inFootprint rfl) (fun _ h => onSec_kept _ (inFootprint rfl) (capture_kept _ _ (inFootprint rfl) (onTraffic_kept _ (inFootprint rfl)
    (onComputeWf_kept _ (inFootprint rfl) h fun _ c => Table.wf_mapFilter _ (fun _ => rfl) c)))) (.rfl' _ s)⟩

theorem ownerClear_keepsFootprint (data : Bytes) : KeepsFootprint (.ownerClear data) (execOwnerClear data) := fun s =>
  ⟨_, rfl, tap_kept (inFootprint rfl) (fun _ h => onStart_kept _ (inFootprint rfl) (onSec_kept _ (inFootprint rfl) h)) (.rfl' _ s)⟩

/-! ### Start-up and the package boundary -/

theorem controlWatchdog_keepsFootprint : KeepsFootprint .controlWatchdog execControlWatchdog := fun s =>
  ⟨_, rfl, ite_kept (.rfl' _ s) (controlReset_kept _ s (inFootprint rfl) (.rfl' _ s))⟩

theorem ready_keepsFootprint (bad untrained : List Nat) : KeepsFootprint (.ready bad untrained) (execReady bad untrained) := fun s => by
  dsimp only [execReady]
  split
  · exact ⟨_, rfl, .rfl' _ s⟩
  · exact ⟨_, rfl, setEvent_kept _ _ _ (inFootprint rfl) (onStart_kept _ (inFootprint rfl) (startRings_kept _ (inFootprint rfl)
      (startBoard_kept _ _ (inFootprint rfl) (startSites_kept _ _ s (inFootprint rfl) (.rfl' _ s)))))⟩

theorem controlRestartReady_keepsFootprint : KeepsFootprint .controlRestartReady execControlRestartReady := fun s => by
  dsimp only [execControlRestartReady]
  split
  · exact ⟨_, rfl, .rfl' _ s⟩
  split
  · exact ⟨_, rfl, .rfl' _ s⟩
  · exact ⟨_, rfl, setEvent_kept _ _ _ (inFootprint rfl) (onStart_kept _ (inFootprint rfl) (onSec_kept _ (inFootprint rfl) (.rfl' _ s)))⟩

theorem bootFailure_keepsFootprint (kind : Nat) : KeepsFootprint (.bootFailure kind) (execBootFailure kind) := fun s => by
  dsimp only [execBootFailure]
  split
  · exact ⟨_, rfl, .rfl' _ s⟩
  split <;> exact ⟨_, rfl, ite_kept (onPower_kept _ (inFootprint rfl) (.rfl' _ s)) (.rfl' _ s)⟩

/-- An answer on the SMBus, whatever its bytes. -/
theorem smb_keepsFootprint {i : Instr} (data : State → Bytes) (hP : ([Part.out].all fun p => (footprint i).contains p) = true) :
    KeepsFootprint i fun s => .next (s.smb (data s)) := fun s => ⟨_, rfl, smb_kept _ _ (inFootprint hP) (.rfl' _ s)⟩

/-- An answer on the SMBus to a command in which a condition must hold. -/
theorem smbIf_keepsFootprint {i : Instr} (c : State → Prop) [DecidablePred c] (data : State → Bytes)
    (hP : ([Part.out].all fun p => (footprint i).contains p) = true) : KeepsFootprint i fun s => .next (if c s then s.smb (data s) else s) := fun s =>
  ⟨_, rfl, ite_kept (smb_kept _ _ (inFootprint hP) (.rfl' _ s)) (.rfl' _ s)⟩

/-! ### Every command -/

/-- Every command that resets no device answers a next state and keeps what lies outside its footprint. -/
theorem commands_keepFootprint : ∀ i : Instr, resetsDevice i = false → KeepsFootprint i (exec i)
  | .frameStart _ _ _, _ => frameStart_keepsFootprint _ _ _
  | .frameTail _ _, _ => frameTail_keepsFootprint _ _
  | .headerVector _, _ => headerVector_keepsFootprint _
  | .batchClose _ _ _, _ => batchClose_keepsFootprint _ _ _
  | .verdictArrival _, _ => fun s => execVerdictArrival_kept _ s (inFootprint rfl) (.rfl' _ s)
  | .deadline _, _ => fun s => execDeadline_kept _ s (inFootprint rfl) (.rfl' _ s)
  | .egressEligible _, _ => fun s => execEgressEligible_kept _ s (inFootprint rfl) (.rfl' _ s)
  | .verdictFrame _ _, _ => fun s => execVerdictFrame_kept _ _ s (inFootprint rfl) (.rfl' _ s)
  | .arpRequest _ _ _, _ => arpRequest_keepsFootprint _ _ _
  | .neighbourSolicitation _ _ _, _ => neighbourSolicitation_keepsFootprint _ _ _
  | .pauseFrame _ _ _, _ => pauseFrame_keepsFootprint _ _ _
  | .pfcFrame _ _ _, _ => pfcFrame_keepsFootprint _ _ _
  | .pauseResend _ _ _, _ => fun s => execPauseResend_kept _ _ _ s (inFootprint rfl) (.rfl' _ s)
  | .pfcStorm _ _ _, _ => fun s => execPfcStorm_kept _ _ _ s (inFootprint rfl) (.rfl' _ s)
  | .linkDown _ _, _ => linkDown_keepsFootprint _ _
  | .linkUp _ _, _ => linkUp_keepsFootprint _ _
  | .laneFailure _ _, _ => laneFailure_keepsFootprint _ _
  | .refLoss, _ => refLoss_keepsFootprint
  | .refHoldoverEnd, _ => fun s => execRefHoldoverEnd_kept s (inFootprint rfl) (.rfl' _ s)
  | .refReturn, _ => refReturn_keepsFootprint
  | .hello _ _ _ _, _ => hello_keepsFootprint _ _ _ _
  | .accept _ _ _, _ => accept_keepsFootprint _ _ _
  | .setupFragmentTimeout, _ => fun s => execSetupFragmentTimeout_kept s (inFootprint rfl) (.rfl' _ s)
  | .halfOpenExpire _, _ => fun s => execHalfOpenExpire_kept _ s (inFootprint rfl) (.rfl' _ s)
  | .protectedFrame _ _ _, _ => protectedFrame_keepsFootprint _ _ _
  | .sessionIdleTimeout _, _ => fun s => execSessionIdleTimeout_kept _ s (inFootprint rfl) (.rfl' _ s)
  | .echo _, _ => echo_keepsFootprint _
  | .close _, _ => close_keepsFootprint _
  | .readBatch _, _ => readBatch_keepsFootprint _
  | .readBlock _, _ => readBlock_keepsFootprint _
  | .writeBatch _, _ => writeBatch_keepsFootprint _
  | .registerWrite _, _ => writeStep_keepsFootprint _ _ rfl
  | .eventClear _, _ => writeStep_keepsFootprint _ _ rfl
  | .eventMaskWrite _, _ => writeStep_keepsFootprint _ _ rfl
  | .eventForce _, _ => writeStep_keepsFootprint _ _ rfl
  | .forcedSet _, _ => fun s => execForcedSet_kept _ s (inFootprint rfl) (.rfl' _ s)
  | .lockWrite _, _ => writeStep_keepsFootprint _ _ rfl
  | .eventFrame _, _ => fun s => execEventFrame_kept _ s (inFootprint rfl) (.rfl' _ s)
  | .holdoffExpire _, _ => fun s => execHoldoffExpire_kept _ s (inFootprint rfl) (.rfl' _ s)
  | .event _ _, _ => fun s => execEvent_kept _ _ s (inFootprint rfl) (.rfl' _ s)
  | .portEnable _, _ => writeStep_keepsFootprint _ _ rfl
  | .portDisable _, _ => writeStep_keepsFootprint _ _ rfl
  | .counterClear _, _ => writeStep_keepsFootprint _ _ rfl
  | .readmit _, _ => writeStep_keepsFootprint _ _ rfl
  | .learnAgentSwitch _, _ => writeStep_keepsFootprint _ _ rfl
  | .deepEnWrite _, _ => writeStep_keepsFootprint _ _ rfl
  | .resync _, _ => writeStep_keepsFootprint _ _ rfl
  | .castle _, _ => writeStep_keepsFootprint _ _ rfl
  | .deviceReset _, _ => writeStep_keepsFootprint _ _ rfl
  | .controlReset _, _ => writeStep_keepsFootprint _ _ rfl
  | .channelCreate _, _ => channelCreate_keepsFootprint _
  | .channelDestroy _, _ => channelDestroy_keepsFootprint _
  | .channelDrained _, _ => channelDrained_keepsFootprint _
  | .tableSearch _ _ _, _ => tableSearch_keepsFootprint _ _ _
  | .tableNext _, _ => tableNext_keepsFootprint _
  | .tableFlush _, _ => tableFlush_keepsFootprint _
  | .flushDone, _ => flushDone_keepsFootprint
  | .tableInsert _, _ => tableInsert_keepsFootprint _
  | .tableDelete _ _ _, _ => tableDelete_keepsFootprint _ _ _
  | .ringRead _, _ => ringRead_keepsFootprint _
  | .ringAck _, _ => ringAck_keepsFootprint _
  | .ringWrite _, _ => ringWrite_keepsFootprint _
  | .ringFlush _, _ => ringFlush_keepsFootprint _
  | .ringResign _, _ => ringResign_keepsFootprint _
  | .ringMark _, _ => ringMark_keepsFootprint _
  | .ringRewind _, _ => ringRewind_keepsFootprint _
  | .flagFall _, _ => fun s => execFlagFall_kept _ s (inFootprint rfl) (.rfl' _ s)
  | .pendingGap _, _ => fun s => execPendingGap_kept _ s (inFootprint rfl) (.rfl' _ s)
  | .stageOpen _, _ => stageOpen_keepsFootprint _
  | .stageData _, _ => stageData_keepsFootprint _
  | .stageVerify _, _ => stageVerify_keepsFootprint _
  | .stageSwap _, _ => stageSwap_keepsFootprint _
  | .stageDiscard _, _ => stageDiscard_keepsFootprint _
  | .genRetire _ _ _, _ => genRetire_keepsFootprint _ _ _
  | .quench _, _ => quench_keepsFootprint _
  | .unquench _, _ => unquench_keepsFootprint _
  | .quenchExpire _, _ => fun s => execQuenchExpire_kept _ s (inFootprint rfl) (.rfl' _ s)
  | .scoreStart _, _ => scoreStart_keepsFootprint _
  | .scoreStop _, _ => scoreStop_keepsFootprint _
  | .replayStart _, _ => replayStart_keepsFootprint _
  | .replayStop _, _ => replayStop_keepsFootprint _
  | .replayInject _, _ => fun s => execReplayInject_kept _ s (inFootprint rfl) (.rfl' _ s)
  | .replayEnd, _ => fun s => execReplayEnd_kept s (inFootprint rfl) (.rfl' _ s)
  | .sinkJoin _, _ => sinkJoin_keepsFootprint _
  | .sinkLeave _, _ => sinkLeave_keepsFootprint _
  | .attest _ _, _ => attest_keepsFootprint _ _
  | .enrol _ _, _ => enrol_keepsFootprint _ _
  | .registersBundle _, _ => registersBundle_keepsFootprint _
  | .teamBundle _, _ => teamBundle_keepsFootprint _
  | .fwManifestBundle _, _ => fwManifestBundle_keepsFootprint _
  | .fwDataBundle _ _, _ => fwDataBundle_keepsFootprint _ _
  | .releaseBundle _, _ => releaseBundle_keepsFootprint _
  | .pairBundle _, _ => pairBundle_keepsFootprint _
  | .pawnDispatch _ _, _ => pawnDispatch_keepsFootprint _ _
  | .taskAdmit _ _, _ => taskAdmit_keepsFootprint _ _
  | .tableFetch _ _ _ _, _ => tableFetch_keepsFootprint _ _ _ _
  | .endTask _ _, _ => endTask_keepsFootprint _ _
  | .array _ _, _ => array_keepsFootprint _ _
  | .tree _ _ _ _ _, _ => tree_keepsFootprint _ _ _ _ _
  | .front _ _, _ => front_keepsFootprint _ _
  | .lookup _ _ _ _ _ _, _ => lookup_keepsFootprint _ _ _ _ _ _
  | .rescale _ _, _ => rescale_keepsFootprint _ _
  | .mvec _ _, _ => mvec_keepsFootprint _ _
  | .emitVerdict _ _, _ => emitVerdict_keepsFootprint _ _
  | .emitToken _ _, _ => emitToken_keepsFootprint _ _
  | .emitResult _ _, _ => emitResult_keepsFootprint _ _
  | .emitState _ _ _, _ => emitState_keepsFootprint _ _ _
  | .barrierWait _ _, _ => barrierWait_keepsFootprint _ _
  | .barrierArrive _ _, _ => barrierArrive_keepsFootprint _ _
  | .loopBegin _ _, _ => loopBegin_keepsFootprint _ _
  | .loopNext _ _, _ => loopNext_keepsFootprint _ _
  | .arm _ _, _ => arm_keepsFootprint _ _
  | .rearm _ _, _ => rearm_keepsFootprint _ _
  | .acquire _ _, _ => acquire_keepsFootprint _ _
  | .release _ _, _ => release_keepsFootprint _ _
  | .flush _ _, _ => flush_keepsFootprint _ _
  | .streamClose _ _, _ => streamClose_keepsFootprint _ _
  | .pieceIssue _, _ => pieceIssue_keepsFootprint _
  | .pieceComplete _ _ _, _ => pieceComplete_keepsFootprint _ _ _
  | .writeAck _ _, _ => writeAck_keepsFootprint _ _
  | .pieceRetry _ _, _ => fun s => execPieceRetry_kept _ _ s (inFootprint rfl) (.rfl' _ s)
  | .loadingTimeout _ _, _ => fun s => execLoadingTimeout_kept _ _ s (inFootprint rfl) (.rfl' _ s)
  | .peerSend _, _ => peerSend_keepsFootprint _
  | .adjournment _ _ _, _ => adjournment_keepsFootprint _ _ _
  | .cancel _ _, _ => cancel_keepsFootprint _ _
  | .abort _ _, _ => abort_keepsFootprint _ _
  | .watchdog _ _, _ => watchdog_keepsFootprint _ _
  | .issueStall _, _ => issueStall_keepsFootprint _
  | .barrierBreak _ _, _ => fun s => execBarrierBreak_kept _ _ s (inFootprint rfl) (.rfl' _ s)
  | .barrierReopen _ _, _ => fun s => execBarrierReopen_kept _ _ s (inFootprint rfl) (.rfl' _ s)
  | .pendingFilterExpire _, _ => fun s => execPendingFilterExpire_kept _ s (inFootprint rfl) (.rfl' _ s)
  | .learningInsertion _, _ => learningInsertion_keepsFootprint _
  | .relocationMove _, _ => relocationMove_keepsFootprint _
  | .stashMove _, _ => stashMove_keepsFootprint _
  | .scanVisit _ _ _, _ => scanVisit_keepsFootprint _ _ _
  | .hostFeatureItem _, _ => hostFeatureItem_keepsFootprint _
  | .hostSlotApply, _ => hostSlotApply_keepsFootprint
  | .featureWindowEnd _ _ _, _ => featureWindowEnd_keepsFootprint _ _ _
  | .rescaleStepEnd _ _ _ _ _, _ => rescaleStepEnd_keepsFootprint _ _ _ _ _
  | .expertRequest _, _ => expertRequest_keepsFootprint _
  | .expertBatchClose _ _ _ _, _ => fun s => execExpertBatchClose_kept _ _ _ _ s (inFootprint rfl) (.rfl' _ s)
  | .expertResult _, _ => expertResult_keepsFootprint _
  | .expertMissed _ _, _ => fun s => execExpertMissed_kept _ _ s (inFootprint rfl) (.rfl' _ s)
  | .tokenAbandoned _, _ => fun s => execTokenAbandoned_kept _ s (inFootprint rfl) (.rfl' _ s)
  | .teamData _ _, _ => teamData_keepsFootprint _ _
  | .teamCredit _ _, _ => teamCredit_keepsFootprint _ _
  | .governorInterval _ _ _ _ _ _ _, _ => governorInterval_keepsFootprint _ _ _ _ _ _ _
  | .speedReport _ _, _ => speedReport_keepsFootprint _ _
  | .thermalTrip _ _ _ _, _ => thermalTrip_keepsFootprint _ _ _ _
  | .railFault _, _ => railFault_keepsFootprint _
  | .coreFailure _ _, _ => coreFailure_keepsFootprint _ _
  | .selfTest _ _, _ => selfTest_keepsFootprint _ _
  | .spareActivation _, _ => spareActivation_keepsFootprint _
  | .amRemap _ _ _ _, _ => fun s => execAmRemap_kept _ _ _ _ s (inFootprint rfl) (.rfl' _ s)
  | .vaultRemap _ _ _, _ => vaultRemap_keepsFootprint _ _ _
  | .cpStopped _, _ => cpStopped_keepsFootprint _
  | .heartbeatSend, _ => fun s => execHeartbeatSend_kept s (inFootprint rfl) (.rfl' _ s)
  | .heartbeat _ _, _ => heartbeat_keepsFootprint _ _
  | .startingTimeout, _ => fun s => execStartingTimeout_kept s (inFootprint rfl) (.rfl' _ s)
  | .heartbeatMiss, _ => fun s => execHeartbeatMiss_kept s (inFootprint rfl) (.rfl' _ s)
  | .mirror _ _, _ => mirror_keepsFootprint _ _
  | .mirrorCredit _ _, _ => mirrorCredit_keepsFootprint _ _
  | .mirrorResend, _ => fun s => execMirrorResend_kept s (inFootprint rfl) (.rfl' _ s)
  | .checkpoint, _ => fun s => execCheckpoint_kept s (inFootprint rfl) (.rfl' _ s)
  | .adoptExpire _, _ => adoptExpire_keepsFootprint _
  | .dramScrub _ _ _, _ => dramScrub_keepsFootprint _ _ _
  | .amScrub _ _ _ _ _, _ => amScrub_keepsFootprint _ _ _ _ _
  | .calibration _ _, _ => calibration_keepsFootprint _ _
  | .adaptation _ _ _, _ => adaptation_keepsFootprint _ _ _
  | .wearMove _, _ => wearMove_keepsFootprint _
  | .amRotation _ _ _, _ => amRotation_keepsFootprint _ _ _
  | .telemetry, _ => fun s => execTelemetry_kept s (inFootprint rfl) (.rfl' _ s)
  | .drbgReseed, _ => drbgReseed_keepsFootprint
  | .entropyFail, _ => entropyFail_keepsFootprint
  | .treeReady, _ => treeReady_keepsFootprint
  | .bypass _, _ => bypass_keepsFootprint _
  | .idcode, _ => idcode_keepsFootprint
  | .samplePreload _, _ => samplePreload_keepsFootprint _
  | .extest _, _ => extest_keepsFootprint _
  | .scan _, _ => scan_keepsFootprint _
  | .ownerClear _, _ => ownerClear_keepsFootprint _
  | .controlWatchdog, _ => controlWatchdog_keepsFootprint
  | .ready _ _, _ => ready_keepsFootprint _ _
  | .controlRestartReady, _ => controlRestartReady_keepsFootprint
  | .smbStatus, _ => smb_keepsFootprint _ rfl
  | .smbPhase, _ => smb_keepsFootprint _ rfl
  | .smbLifecycle, _ => smb_keepsFootprint _ rfl
  | .smbStages, _ => smb_keepsFootprint _ rfl
  | .smbRailFault, _ => smb_keepsFootprint _ rfl
  | .smbLogicTemp _, _ => smbIf_keepsFootprint _ _ rfl
  | .smbDramTemp _, _ => smbIf_keepsFootprint _ _ rfl
  | .smbPortTemp _, _ => smbIf_keepsFootprint _ _ rfl
  | .smbPower, _ => smb_keepsFootprint _ rfl
  | .smbVcore _, _ => smbIf_keepsFootprint _ _ rfl
  | .smbSerial, _ => smb_keepsFootprint _ rfl
  | .smbRefused, _ => fun s => ⟨_, rfl, ite_kept (emit_kept _ (inFootprint rfl) (.rfl' _ s)) (.rfl' _ s)⟩
  | .smbAlertResponse, _ => smbIf_keepsFootprint _ _ rfl
  | .bootFailure _, _ => bootFailure_keepsFootprint _
  | .frameTransmit _ _, _ => frameTransmit_keepsFootprint _ _
  | .pauseQuantaExpire _ _, _ => fun s => execPauseQuantaExpire_kept _ _ s (inFootprint rfl) (.rfl' _ s)
  | .setupFragment _ _ _, _ => setupFragment_keepsFootprint _ _ _
  | .rxDiscard _ _ _, _ => rxDiscard_keepsFootprint _ _ _
  | .verificationEnd _, _ => verificationEnd_keepsFootprint _
  | .flushSweepVisit _ _, _ => flushSweepVisit_keepsFootprint _ _
  | .mirrorStoreSweep _, _ => mirrorStoreSweep_keepsFootprint _
  | .arrayFault _ _ _ _ _, _ => arrayFault_keepsFootprint _ _ _ _ _
  | .powerOnReset, h => nomatch h
  | .pinReset, h => nomatch h
  | .deviceResetDue, h => nomatch h
  | .controlResetDue, h => nomatch h
  | .pwrGoodFall, h => nomatch h
  | .resetNRelease, h => nomatch h

end Sys2Proof.Machine
end

section
/-! SUPPORT. Right after reset: the header fields and registers that the page tables give a value (O4, O6). -/
namespace Sys2Proof.Machine

/-! ### Right after reset -/

theorem PageHdr.reset_mask (page : Nat) : (PageHdr.reset page).mask = 0xFFFFFFFF := by
  unfold PageHdr.reset
  split <;> rfl

theorem PageHdr.reset_owner (page : Nat) : (PageHdr.reset page).owner = 0 := by
  unfold PageHdr.reset
  split <;> rfl

theorem PageHdr.reset_faulted (page : Nat) : (PageHdr.reset page).faulted = false := by
  unfold PageHdr.reset
  split <;> rfl

theorem reset_hdr (page : Nat) : State.reset.hdr page = PageHdr.reset page := rfl

/-- Whatever a page's CONTROL, its header right after reset has no event, masks every event, is unlocked and has no fault. -/
theorem reset_hdr_fields (page : Nat) :
    (State.reset.hdr page).event = 0 ∧ (State.reset.hdr page).mask = 0xFFFFFFFF ∧ (State.reset.hdr page).lock = .unlocked ∧
      (State.reset.hdr page).owner = 0 ∧ (State.reset.hdr page).faulted = false := by
  rw [reset_hdr]
  exact ⟨PageHdr.reset_event page, PageHdr.reset_mask page, PageHdr.reset_lock page, PageHdr.reset_owner page, PageHdr.reset_faulted page⟩

theorem reset_reg (a : Nat) : State.reset.start.reg a = regReset a := Table.get_nil (regReset a) a

theorem reset_rg (page off : Nat) : State.reset.rg page off = (regReset (addrOf page off)).toNat := by
  rw [State.rg, Dev.rg, reset_reg]

/-- LINK_LIMIT and RESERVE of the 32 line ports, as the page table gives them. -/
theorem regReset_port : ∀ p, p < 32 →
    (regReset (addrOf (pageOf tPort p) 0x40)).toNat = 0x24000100 ∧ (regReset (addrOf (pageOf tPort p) 0x48)).toNat = 0x00C00100 := by
  decide

/-- The register at 4Ch of the four tempo pages, as the page table gives it. -/
theorem regReset_tempo : ∀ k, k < 4 → (regReset (addrOf (pageOf tTempo k) 0x4C)).toNat = 0x695F5F55 := by
  decide

theorem reset_portRegisters (p : Nat) (hp : p < 32) :
    State.reset.rg (pageOf tPort p) 0x40 = 0x24000100 ∧ State.reset.rg (pageOf tPort p) 0x48 = 0x00C00100 := by
  rw [reset_rg, reset_rg]
  exact regReset_port p hp

theorem reset_tempoRegister (k : Nat) (hk : k < 4) : State.reset.rg (pageOf tTempo k) 0x4C = 0x695F5F55 := by
  rw [reset_rg]
  exact regReset_tempo k hk

/-- Settles O4: no table of the reset state has an entry, so each register and counter reads its reset value. -/
theorem resetValues : Obligations.ResetValues :=
  ⟨rfl, rfl, rfl, rfl, rfl, rfl, rfl, rfl, rfl, rfl, rfl, rfl, rfl, rfl, rfl, rfl, reset_hdr_fields, fun _ _ => rfl, fun _ _ => rfl, rfl,
    reset_portRegisters, fun k hk => ⟨rfl, reset_tempoRegister k hk⟩⟩

/-- Settles O6: the tables of the reset state are empty. -/
theorem canonicalAtReset : Obligations.CanonicalAtReset := rfl

end Sys2Proof.Machine
end

section
/-! SUPPORT. Every step keeps the canonical form (O7): commands by their footprint, resets by the empty tables they leave, the end of a ply by its parts. -/
namespace Sys2Proof.Machine

/-! ### Canonical form -/

/-- From a canonical state, every next state of the run is canonical. -/
def KeepsCanonical (run : State → Host.Outcome State Fault Refusal) : Prop :=
  ∀ s t : State, s.canonical = true → run s = .next t → t.canonical = true

theorem State.canonical_iff (s : State) : s.canonical = true ↔ s.dev.canonical = true ∧ s.start.canonical = true := by
  simp only [State.canonical, Bool.and_eq_true]

/-- What keeps the forms of the device and leaves the last boundary's image keeps the forms of the state. -/
theorem Kept.canonical {P : List Part} {s t : State} (k : Kept P s t) (h : s.canonical = true) : t.canonical = true := by
  obtain ⟨hd, hs⟩ := (State.canonical_iff s).mp h
  exact (State.canonical_iff t).mpr ⟨k.canon hd, k.start ▸ hs⟩

theorem KeepsFootprint.keepsCanonical {i : Instr} {run : State → Host.Outcome State Fault Refusal} (h : KeepsFootprint i run) : KeepsCanonical run :=
  fun s t hs e => by
    obtain ⟨u, hu, k⟩ := h s
    cases hu.symm.trans e
    exact k.canonical hs

theorem next_keepsCanonical {f : State → State} (h : ∀ s : State, s.canonical = true → (f s).canonical = true) : KeepsCanonical fun s => .next (f s) :=
  fun s _ hs e => Host.Outcome.next.inj e ▸ h s hs

theorem ite_keepsCanonical {c : State → Prop} [DecidablePred c] {a b : State → Host.Outcome State Fault Refusal} (ha : KeepsCanonical a)
    (hb : KeepsCanonical b) : KeepsCanonical fun s => if c s then a s else b s := fun s t hs e => by
  dsimp only at e
  split at e
  · exact ha s t hs e
  · exact hb s t hs e

theorem ite_canonical {c : Prop} [Decidable c] {a b : State} (ha : a.canonical = true) (hb : b.canonical = true) :
    (if c then a else b).canonical = true := by
  split
  · exact ha
  · exact hb

theorem force_canonical {f : State → Host.Outcome State Fault Refusal} (hf : KeepsCanonical f) {s : State} (h : s.canonical = true) :
    (s.force f).canonical = true := by
  unfold State.force
  split
  · next e => exact hf _ _ h e
  · exact h

/-- With the device as the image of the last boundary, the state's forms are the device's. -/
theorem boundary_canonical {s : State} (h : s.dev.canonical = true) : ({ s with start := s.dev } : State).canonical = true :=
  (State.canonical_iff _).mpr ⟨h, h⟩

/-! ### Resets keep the canonical form -/

/-- The device after a reset is canonical: its tables are empty, but for the fault of a reference that stays lost. -/
theorem fullReset_dev_canonical (k : ResetKind) (s : State) : (s.fullReset k).dev.canonical = true := by
  have hdr : Table.canon PageHdr.reset (if s.dev.ref.lost then [(pgGlobal, { PageHdr.reset pgGlobal with faulted := true })] else []) = true := by
    split <;> decide
  simp only [Dev.canonical, Regs.canonical, Bool.and_eq_true]
  exact ⟨⟨⟨hdr, rfl⟩, rfl⟩, rfl, rfl, rfl⟩

theorem fullReset_canonical (k : ResetKind) {s : State} (h : s.canonical = true) : (s.fullReset k).canonical = true :=
  (State.canonical_iff _).mpr ⟨fullReset_dev_canonical k s, ((State.canonical_iff s).mp h).2⟩

/-- The start-up's record is in none of the canonical forms. -/
theorem onStart_canonical (f : StartUp → StartUp) {s : State} (h : s.canonical = true) : (s.onStart f).canonical = true := h

theorem onSec_canonical (f : Security → Security) {s : State} (h : s.canonical = true) : (s.onSec f).canonical = true := h

/-- A release starts over from the device, or leaves all tables as they are. -/
theorem release_canonical {s : State} (h : s.canonical = true) : s.release.canonical = true := by
  unfold State.release
  refine ite_canonical h ?_
  extract_lets on cleared started dated rewound
  have hs : started.canonical = true := onStart_canonical _ (ite_canonical (onSec_canonical _ h) h)
  have hr : rewound.canonical = true := ite_canonical hs hs
  exact ite_canonical (boundary_canonical ((State.canonical_iff rewound).mp hr).1) hr

theorem settleReset_canonical {s : State} (h : s.canonical = true) : s.settleReset.canonical = true := by
  unfold State.settleReset
  split
  · exact ite_canonical h (ite_canonical (release_canonical (fullReset_canonical _ h)) (fullReset_canonical _ h))
  · exact h

theorem pwrGoodFall_keepsCanonical : KeepsCanonical execPwrGoodFall :=
  ite_keepsCanonical (next_keepsCanonical fun _ h => h) (next_keepsCanonical fun _ h => onStart_canonical _ (fullReset_canonical _ h))

theorem powerOnReset_keepsCanonical : KeepsCanonical execPowerOnReset :=
  ite_keepsCanonical (next_keepsCanonical fun _ h => h) (next_keepsCanonical fun _ h =>
    have hr := onStart_canonical _ (fullReset_canonical _ h)
    ite_canonical hr (release_canonical hr))

theorem pinReset_keepsCanonical : KeepsCanonical execPinReset :=
  ite_keepsCanonical (next_keepsCanonical fun _ h => h)
    (next_keepsCanonical fun _ h => onStart_canonical _ (ite_canonical (fullReset_canonical _ h) h))

theorem resetNRelease_keepsCanonical : KeepsCanonical execResetNRelease :=
  ite_keepsCanonical (next_keepsCanonical fun _ h => h) (next_keepsCanonical fun _ h =>
    have hr := onStart_canonical _ h
    ite_canonical (release_canonical hr) hr)

theorem deviceResetDue_keepsCanonical : KeepsCanonical execDeviceResetDue :=
  next_keepsCanonical fun _ h => ite_canonical (release_canonical (fullReset_canonical _ h)) h

theorem controlResetDue_keepsCanonical : KeepsCanonical execControlResetDue :=
  next_keepsCanonical fun s h => ite_canonical h (ite_canonical (release_canonical (fullReset_canonical _ h))
    (ite_canonical h ((controlReset_kept 4 s (P := Part.all) (by decide) (.rfl' _ s)).canonical h)))

/-- Every command keeps the canonical form: a reset by the form of what it leaves, any other as it keeps its footprint. -/
theorem exec_keepsCanonical (i : Instr) : KeepsCanonical (exec i) := by
  cases hi : resetsDevice i with
  | false => exact (commands_keepFootprint i hi).keepsCanonical
  | true =>
    cases i
    case pwrGoodFall => exact pwrGoodFall_keepsCanonical
    case powerOnReset => exact powerOnReset_keepsCanonical
    case pinReset => exact pinReset_keepsCanonical
    case resetNRelease => exact resetNRelease_keepsCanonical
    case deviceResetDue => exact deviceResetDue_keepsCanonical
    case controlResetDue => exact controlResetDue_keepsCanonical
    all_goals cases hi

/-! ### The end of a ply keeps the canonical form -/

theorem plyEnd_canonical {s : State} (h : s.canonical = true) : s.plyEnd.canonical = true := by
  unfold State.plyEnd
  extract_lets u
  have hu : u.canonical = true :=
    settleReset_canonical (force_canonical controlResetDue_keepsCanonical (force_canonical deviceResetDue_keepsCanonical h))
  have hk : Kept Part.all u u := .rfl' _ u
  exact ite_canonical
    ((settleRewinds_kept _ (by decide) (scoreFlush_kept _ (by decide) (ite_kept hk (endPly_kept _ (by decide) hk)))).canonical hu)
    ((scoreFlush_kept _ (by decide) hk).canonical hu)

theorem tick_canonical {s : State} (h : s.canonical = true) : s.tick.canonical = true := by
  unfold State.tick
  extract_lets u v
  have hv : v.canonical = true := boundary_canonical (s := { u with ply := u.ply + 1 }) ((State.canonical_iff u).mp (plyEnd_canonical h)).1
  exact ite_canonical ((beginPly_kept v (P := Part.all) (by decide) (.rfl' _ v)).canonical hv) hv

/-- Settles O7: a step is a command, which keeps its footprint or resets the device, or the end of a ply. -/
theorem stepsKeepCanonical : Obligations.StepsKeepCanonical := by
  unfold Obligations.StepsKeepCanonical
  intro s t h e
  unfold step at e
  split at e
  · next c rest _ => exact exec_keepsCanonical c { s with pending := rest } t h e
  · exact Host.Outcome.next.inj e ▸ tick_canonical h

end Sys2Proof.Machine
end

section
/-! SUPPORT. Three statements that fail on tables whose keys do not rise (O29, O35, O40).

The canonical form of a device orders the keys of the registers, of the state memory, of the ports and of the cores. It says nothing of the tables
inside a core (its open batches, the works of its contexts) nor of the table of the tokens. `Table.erase` looks for a key in rising order only, so in
such a table it leaves a key that stands behind a larger one, and what was to be removed is still read. Each counterexample is one small state with one
table of that kind. -/
namespace Sys2Proof.Machine

/-! ### Tokens -/

/-- A token whose head has decided. -/
def decidedToken : Token := { decided := some 0 }

/-- A device whose token 0 stands behind its token 1, with a good header in state slot 0. -/
def tokensUnordered : State :=
  ({ dev := { objects := { gens := [(genKey true 0 0, {})] }, compute := { tokens := [(1, {}), (0, decidedToken)] } } } : State).setSlotHdr 0 0 []

/-- Refutes O40, in its last clause: the head decision of a token acts, and the token's record, behind that of a larger number, is not erased. -/
theorem not_tokensEmit : ¬ Obligations.TokensEmit := by
  unfold Obligations.TokensEmit
  intro claim
  obtain ⟨-, -, -, -, decisionEnds⟩ := claim tokensUnordered 0 0 0 {} {} {} (by decide +kernel)
  have gone : (tokensUnordered.headAct 0 false).dev.token? 0 = none :=
    decisionEnds 0 decidedToken {} 0 false (by decide +kernel) (by decide +kernel) rfl (by decide +kernel)
  have there : (tokensUnordered.headAct 0 false).dev.token? 0 = some decidedToken := by decide +kernel
  exact nomatch there.symm.trans gone

/-! ### A core with a packet -/

/-- An image without sections: its volume's one table has one TREE entry and loops at most once, and its ensemble one segment and no class. -/
def bareImage : Mem := [(2, 1), (32, 2)]

/-- A packet of channel 0 in this stage. -/
def packetIn (stage : PacketStage) : Packet := { chan := some (0, 0), stage := stage }

/-- A state whose core 0 is as given, with packet 0 and that image as generation 0 of channel 0. -/
def withCore0 (ply : Ply) (x : CoreState) (stage : PacketStage) : State :=
  let d : Dev :=
    { objects := { gens := [(genKey false 0 0, { image := bareImage })], siteMap := [(0, some 0)] }
      reliab := { sites := [(0, { state := .active })] }
      traffic := { packets := [(0, packetIn stage)] }
      compute := { cores := [(0, x)] } }
  { ply := ply, dev := d, start := d }

/-! ### Open batches -/

/-- The open batch of generation 0, one vector long, stands behind that of generation 1, and packet 0's vector is at the core. -/
def batchesUnordered : State := withCore0 0 { open_ := [(1, [8]), (0, [7])] } .vector

/-- What core 0 has open of generation 0 of channel 0 after a command. -/
def openAfter : Host.Outcome State Fault Refusal → List Nat
  | .next t => Table.get [] (t.dev.core 0).open_ 0
  | _ => []

/-- Refutes O29, in its clause on a streamed vector that finds its batch due: the batch closes, is not erased, and the vector joins it all the same. -/
theorem not_vectorsReachCores : ¬ Obligations.VectorsReachCores := by
  unfold Obligations.VectorsReachCores
  intro claim
  obtain ⟨vectors, -⟩ := claim batchesUnordered (by decide +kernel)
  obtain ⟨-, atCore⟩ := vectors 0 (packetIn .vector) 0 0 0 { image := bareImage } 0 (by decide +kernel) rfl (by decide +kernel) rfl
    (by decide +kernel) (by decide +kernel)
  obtain ⟨-, streamed⟩ := atCore (by decide +kernel)
  obtain ⟨-, closes⟩ := streamed (.image bareImage 0) 0 [7] 1 (by decide +kernel) (by decide +kernel) (by decide +kernel) (by decide +kernel)
    (by decide +kernel)
  obtain ⟨t, run, -, alone, -⟩ := closes (by decide) (.inl (by decide)) (by decide) (by decide +kernel)
  have both : openAfter (exec (.headerVector 0) batchesUnordered) = [7, 0] := by decide +kernel
  rw [run] at both
  exact nomatch (show [7, 0] = [0] from both.symm.trans alone)

/-! ### Works of a context -/

/-- A context at its TREE entry, whose work on slot 0, with a sum from before, stands behind that on slot 1. -/
def treeCtx : Ctx :=
  { state := .running, task := { sched := 2 ^ 28, cls := 0, items := [0] }, works := [(1, { looked := true }), (0, { acc := [1] })] }

/-- Core 0 runs that context, and its window has been loaded with no quarter. -/
def worksUnordered : State := withCore0 1 { ctxs := [(0, treeCtx)], window := some { ctx := 0, ended := some 0 } } .running

/-- The accumulators of slot 0 of context 0 of core 0 after a command. -/
def accAfter : Host.Outcome State Fault Refusal → List Int
  | .next t => ((t.ctx 0 0).work 0).acc
  | _ => []

/-- Refutes O35, in its clause on a pass of TREE: a pass over no segment of an ensemble without classes leaves nothing to note of the slot, so its work is
to be erased, and what it held before is still read. -/
theorem not_treesDecide : ¬ Obligations.TreesDecide := by
  unfold Obligations.TreesDecide
  intro claim
  have issues : worksUnordered.issues 0 0 2 treeCtx { op := 2 } ((worksUnordered.grant 0 0 0).get (by decide +kernel)) := by decide +kernel
  obtain ⟨-, -, passes, -⟩ := claim worksUnordered 0 0 0 0 0 0 0 treeCtx { op := 2 } _ (packetIn .running) { image := bareImage }
    (by decide +kernel) (by decide +kernel) (by decide +kernel) (by decide +kernel)
  obtain ⟨t, run, -, work⟩ := passes [] [] 0 [] [] [] 0 issues (by decide +kernel) (by decide +kernel) (by decide +kernel) (by decide +kernel)
  have cleared : ((t.ctx 0 0).work 0).acc = [] := congrArg Work.acc work
  have before : accAfter (exec (.tree 0 0 [] [] 0) worksUnordered) = [1] := by decide +kernel
  rw [run] at before
  exact nomatch (show ([1] : List Int) = [] from before.symm.trans cleared)

end Sys2Proof.Machine
end

section
/-! SUPPORT. Packets at the port dies (O28). -/
namespace Sys2Proof.Machine

/-! ### What operations leave of the packets, the pages and the ply -/

section
variable {P : List Part} {s t : State}

theorem Kept.now (h : Kept P s t) : t.now = s.now := by unfold State.now; rw [h.ply]

theorem Kept.traffic (h : Kept P s t) (hP : Part.traffic ∉ P) : t.dev.traffic = s.dev.traffic := (h.frame .traffic hP).symm

theorem Kept.packetChan (h : Kept P s t) (hP : Part.objects ∉ P) (p : Packet) : t.dev.packetChan p = s.dev.packetChan p := by
  have e : t.dev.objects = s.dev.objects := (h.frame .objects hP).symm
  unfold Dev.packetChan Dev.chan
  rw [e]

theorem Kept.clearedNow (h : Kept P s t) (hA : Part.arbiter ∉ P) (hR : Part.reliab ∉ P) (page : Nat) : t.clearedNow page = s.clearedNow page := by
  have a : t.dev.regs.lastReset = s.dev.regs.lastReset := (h.frame .arbiter hA).2.symm
  have r : t.dev.reliab = s.dev.reliab := (h.frame .reliab hR).symm
  simp only [State.clearedNow, State.siteResetNow, a, r, h.now]

theorem Kept.raised (h : Kept P s t) (hP : Part.headers ∉ P) {page b : Nat} (r : s.raised page b) : t.raised page b :=
  raised_of_hdr (h.frame .headers hP).symm r

end

section
variable (s : State)

@[simp] theorem holdBytes_traffic (port sub prio : Nat) (f : Nat → Nat) : (s.holdBytes port sub prio f).dev.traffic = s.dev.traffic :=
  (holdBytes_kept port sub prio f s (List.Subset.refl _) (.rfl' _ s)).traffic (by decide)

@[simp] theorem rxJudge_traffic (max port sub : Nat) (f : Bytes) : (s.rxJudge max port sub f).1.dev.traffic = s.dev.traffic :=
  (rxJudge_kept max port sub f s (List.Subset.refl _) (.rfl' _ s)).traffic (by decide)

@[simp] theorem rxJudge_now (max port sub : Nat) (f : Bytes) : (s.rxJudge max port sub f).1.now = s.now :=
  (rxJudge_kept max port sub f s (List.Subset.refl _) (.rfl' _ s)).now

@[simp] theorem onPacket_rx (k : Nat) (f : Packet → Packet) : (s.onPacket k f).dev.traffic.rx = s.dev.traffic.rx := rfl

@[simp] theorem onPacket_egress (k : Nat) (f : Packet → Packet) : (s.onPacket k f).dev.traffic.egress = s.dev.traffic.egress := rfl

end

/-! ### Packet records -/

theorem packet?_of_traffic {d e : Dev} (h : d.traffic = e.traffic) (k : Nat) : d.packet? k = e.packet? k := by
  unfold Dev.packet?; rw [h]

theorem packet?_onTraffic {f : Traffic → Traffic} (h : ∀ t, (f t).packets = t.packets) (s : State) (k : Nat) :
    (s.onTraffic f).dev.packet? k = s.dev.packet? k := congrArg (Table.get? · k) (h s.dev.traffic)

theorem packet?_onPacket {s : State} {k : Nat} {p : Packet} (h : s.dev.packet? k = some p) (f : Packet → Packet) :
    (s.onPacket k f).dev.packet? k = some (f p) := by
  unfold Dev.packet? at h
  simp only [State.onPacket, Dev.packet?, onTraffic_traffic, h, Table.get?_put, if_pos]

/-- The record of a packet that has not left the device, or whose verdict is outstanding, stays. -/
theorem settle_eq {s : State} {k : Nat} {p : Packet} (h : s.dev.packet? k = some p) (hp : p.gone = false ∨ p.stage ≠ .none) : s.settle k = s := by
  unfold State.settle
  rw [h]
  rcases hp with hp | hp <;> simp [hp]

theorem packet?_freeBuffer {s : State} {k : Nat} {p : Packet} (h : s.dev.packet? k = some p) :
    (s.freeBuffer k).dev.packet? k = some { p with buffered := 0 } := by
  unfold State.freeBuffer
  simp only [h]
  split
  · next hb => rw [h, ← hb]
  · exact (packet?_of_traffic (holdBytes_traffic ..) k).trans (packet?_onPacket h _)

theorem freeBuffer_now (k : Nat) (s : State) : (s.freeBuffer k).now = s.now :=
  (freeBuffer_kept k s (List.Subset.refl _) (.rfl' _ s)).now

@[simp] theorem freeBuffer_rx (k : Nat) (s : State) : (s.freeBuffer k).dev.traffic.rx = s.dev.traffic.rx := by
  unfold State.freeBuffer
  split
  · rfl
  · split <;> simp

@[simp] theorem freeBuffer_egress (k : Nat) (s : State) : (s.freeBuffer k).dev.traffic.egress = s.dev.traffic.egress := by
  unfold State.freeBuffer
  split
  · rfl
  · split <;> simp

@[simp] theorem settle_egress (k : Nat) (s : State) : (s.settle k).dev.traffic.egress = s.dev.traffic.egress := by
  unfold State.settle
  split
  · rfl
  · split <;> rfl

/-! ### The tail of a frame -/

theorem rxJudge_good {f : Bytes} {max : Nat} (hf : fcsGood f = true) (low : 64 ≤ f.length) (high : f.length ≤ max) (port sub : Nat) (s : State) :
    (s.rxJudge max port sub f).2 = true := by
  simp [State.rxJudge, hf, Nat.not_lt.mpr low, Nat.not_lt.mpr high]

theorem rxJudge_bad {f : Bytes} (hf : fcsGood f = false) (max port sub : Nat) (s : State) : (s.rxJudge max port sub f).2 = false := by
  simp [State.rxJudge, hf]

/-- The state in which the tail of a frame of length `n` on a sub-port has been judged. -/
def State.judged (port sub : Nat) (r : RxFrame) (s : State) : State :=
  ((s.onTraffic fun t => { t with rx := Table.erase t.rx (port * 4 + sub) }).rxJudge r.maxFrame port sub r.frame).1

theorem judged_packet? (port sub : Nat) (r : RxFrame) (s : State) (k : Nat) : (s.judged port sub r).dev.packet? k = s.dev.packet? k :=
  packet?_of_traffic (rxJudge_traffic _ _ _ _ _) k

theorem judged_rx (port sub : Nat) (r : RxFrame) (s : State) : (s.judged port sub r).dev.traffic.rx = Table.erase s.dev.traffic.rx (port * 4 + sub) :=
  congrArg Traffic.rx (rxJudge_traffic _ _ _ _ _)

theorem judged_now (port sub : Nat) (r : RxFrame) (s : State) : (s.judged port sub r).now = s.now := rxJudge_now _ _ _ _ _

/-- FRAME_TAIL of a good frame (R123): the packet's last byte is there, and of its buffer it keeps what the frame is long. -/
theorem frameTail_good {s : State} {port sub k : Nat} {p : Packet} {r : RxFrame} (hp : s.dev.packet? k = some p)
    (hr : Table.get? s.dev.traffic.rx (port * 4 + sub) = some r) (hk : r.kind = .packet k) (hf : fcsGood r.frame = true) (low : 64 ≤ r.frame.length)
    (high : r.frame.length ≤ r.maxFrame) :
    ∃ t, exec (.frameTail port sub) s = .next t ∧
      t.dev.packet? k = some { p with tail := some s.now, buffered := if p.buffered = 0 then 0 else r.frame.length } ∧
      t.dev.traffic.rx = Table.erase s.dev.traffic.rx (port * 4 + sub) := by
  have packet := (judged_packet? port sub r s k).trans hp
  have tail := packet?_onPacket packet fun p => { p with tail := some (s.judged port sub r).now }
  have run : exec (.frameTail port sub) s =
      let u := (s.judged port sub r).onPacket k fun p => { p with tail := some (s.judged port sub r).now }
      if p.buffered = 0 then .next u
      else .next ((u.onPacket k fun p => { p with buffered := r.frame.length }).holdBytes port sub p.prio
        (fun h => h - p.buffered + r.frame.length)) := by
    show execFrameTail port sub s = _
    unfold execFrameTail
    simp only [hr, hk, rxJudge_good hf low high, if_true]
    rw [← State.judged, packet]
  rw [run]
  rw [judged_now] at tail
  dsimp only
  rw [judged_now]
  split
  · next hb => exact ⟨_, rfl, hb ▸ tail, judged_rx port sub r s⟩
  · next hb =>
    exact ⟨_, rfl, (packet?_of_traffic (holdBytes_traffic ..) k).trans (packet?_onPacket tail _),
      (congrArg Traffic.rx (holdBytes_traffic ..)).trans (judged_rx port sub r s)⟩

/-- FRAME_TAIL of a frame with a bad FCS (R123, R164): the packet has failed, and its record stays for the verdict or default that is still to come. -/
theorem frameTail_bad {s : State} {port sub k : Nat} {p : Packet} {r : RxFrame} (hp : s.dev.packet? k = some p)
    (hr : Table.get? s.dev.traffic.rx (port * 4 + sub) = some r) (hk : r.kind = .packet k) (hf : fcsGood r.frame = false)
    (stays : p.stage ≠ .none ∨ p.applied = none ∧ p.dueAt s.now = true) :
    ∃ t, exec (.frameTail port sub) s = .next t ∧
      t.dev.packet? k = some { p with tail := some s.now, buffered := 0, failed := true, gone := true } ∧
      t.dev.traffic.rx = Table.erase s.dev.traffic.rx (port * 4 + sub) := by
  have packet := (judged_packet? port sub r s k).trans hp
  let u := ((s.judged port sub r).freeBuffer k).onPacket k fun p => { p with tail := some s.now, failed := true, gone := true }
  have failed : u.dev.packet? k = some { p with tail := some s.now, buffered := 0, failed := true, gone := true } :=
    packet?_onPacket (packet?_freeBuffer packet) _
  have rx : u.dev.traffic.rx = Table.erase s.dev.traffic.rx (port * 4 + sub) := (freeBuffer_rx ..).trans (judged_rx port sub r s)
  have run : exec (.frameTail port sub) s = .next (if p.applied.isNone ∧ p.dueAt s.now then u else u.settle k) := by
    show execFrameTail port sub s = _
    unfold execFrameTail
    simp only [hr, hk, rxJudge_bad hf, Bool.false_eq_true, if_false]
    rw [← State.judged, packet]
    have now : u.now = s.now := (freeBuffer_now k _).trans (judged_now port sub r s)
    simp only [judged_now]
    show Host.Outcome.next (if p.applied.isNone = true ∧ p.dueAt u.now = true then u else u.settle k) = _
    rw [now]
  rw [run]
  split
  · exact ⟨_, rfl, failed, rx⟩
  · next late =>
    have stage : p.stage ≠ .none := stays.resolve_right fun h => late (by simp [h])
    rw [settle_eq failed (.inr stage)]
    exact ⟨_, rfl, failed, rx⟩

/-! ### Flags of pages -/

theorem raised_ringMark (n : Nat) (before : Bool) {s : State} (c : s.dev.canonical = true) {page b : Nat} (r : s.raised page b) :
    (s.ringMark n before).raised page b := by
  unfold State.ringMark
  split
  · exact raised_setEvent _ _ c r
  · exact r

theorem raised_ringPut (n : Nat) (i : Item) {s : State} (c : s.dev.canonical = true) {page b : Nat} (r : s.raised page b) :
    (s.ringPut n i).1.raised page b := by
  unfold State.ringPut
  extract_lets u x whole
  have ku : Kept [.score, .objects] s u := onRing_kept _ _ _ (by decide) (touchRing_kept _ _ _ (by decide) (.rfl' _ s))
  have onRing (f : Ring → Ring) : Kept [.score, .objects] s (u.onRing n f) := onRing_kept _ _ _ (by decide) ku
  split
  · exact ku.raised (by decide) r
  split
  · dsimp only
    split
    · exact ku.raised (by decide) r
    · exact (onRing _).raised (by decide) r
  split
  · exact raised_ringMark _ _ ((onRing _).canon c) ((onRing _).raised (by decide) r)
  · exact raised_setEvent _ _ ((ringMark_kept _ _ _ (List.Subset.refl _) (.rfl' _ _)).canon ((onRing _).canon c))
      (raised_ringMark _ _ ((onRing _).canon c) ((onRing _).raised (by decide) r))

/-- A result item and a verdict record leave the flags of pages that are set. -/
theorem raised_formResult (p : Packet) (v : Verdict) {s : State} (c : s.dev.canonical = true) {page b : Nat} (r : s.raised page b) :
    (s.formResult p v).raised page b := by
  unfold State.formResult
  split
  · exact r
  split
  · exact r
  next n _ _ =>
  split
  · exact r
  · extract_lets i ans ok u
    have ku : Kept [.headers, .counters, .objects, .compute, .score] s u :=
      onRing_kept _ _ _ (by decide) (ringPut_kept _ _ _ (List.Subset.refl _) (.rfl' _ s))
    have ru : u.raised page b :=
      (onRing_kept _ _ _ (List.Subset.refl _) (.rfl' _ ans.1)).raised (by decide) (raised_ringPut _ _ c r)
    split
    · exact ru
    · have counted := chanCount_kept n 7 1 u (List.Subset.refl _) (.rfl' _ u)
      exact raised_setEvent _ _ (counted.canon (ku.canon c)) (counted.raised (by decide) ru)

/-! ### Verdicts -/

/-- Applying a verdict to an inline packet that is not replayed: its record notes it, and a result item and a verdict record form. -/
theorem apply_eq {s : State} {k : Nat} {p : Packet} (h : s.dev.packet? k = some p) (replay : p.replay = false) (inline : p.inline = true) (v : Verdict) :
    s.apply k v = ((s.onPacket k fun p => { p with applied := some (s.now, v), gone := p.gone || !p.inline }).formResult p v).recordVerdict p v := by
  unfold State.apply
  simp [h, replay, inline]

@[simp] theorem formResult_traffic (p : Packet) (v : Verdict) (s : State) : (s.formResult p v).dev.traffic = s.dev.traffic :=
  (formResult_kept p v s (List.Subset.refl _) (.rfl' _ s)).traffic (by decide)

@[simp] theorem recordVerdict_traffic (p : Packet) (v : Verdict) (s : State) : (s.recordVerdict p v).dev.traffic = s.dev.traffic :=
  (recordVerdict_kept p v s (List.Subset.refl _) (.rfl' _ s)).traffic (by decide)

/-- A packet that stays with the device has its verdict in its record. -/
theorem packet?_apply {s : State} {k : Nat} {p : Packet} (h : s.dev.packet? k = some p) (replay : p.replay = false) (inline : p.inline = true)
    (gone : p.gone = false) (v : Verdict) : (s.apply k v).dev.packet? k = some { p with applied := some (s.now, v) } := by
  rw [apply_eq h replay inline, packet?_of_traffic (recordVerdict_traffic ..), packet?_of_traffic (formResult_traffic ..), packet?_onPacket h]
  cases p
  simp_all

theorem raised_apply {s : State} {k : Nat} {p : Packet} (h : s.dev.packet? k = some p) (replay : p.replay = false) (inline : p.inline = true)
    (v : Verdict) (c : s.dev.canonical = true) {page b : Nat} (r : s.raised page b) : (s.apply k v).raised page b := by
  rw [apply_eq h replay inline]
  have marked : Kept [.traffic] s (s.onPacket k fun p => { p with applied := some (s.now, v), gone := p.gone || !p.inline }) :=
    onPacket_kept _ _ _ (List.Subset.refl _) (.rfl' _ s)
  exact (recordVerdict_kept p v _ (List.Subset.refl _) (.rfl' _ _)).raised (by decide)
    (raised_formResult p v (marked.canon c) (marked.raised (by decide) r))

/-- An event of a packet whose channel is still there is a flag of the channel's page. -/
theorem packetEvent_raised {s : State} {p : Packet} {n : Nat} {c : Channel} (b : Nat) (hb : b < 32) (replay : p.replay = false)
    (chan : s.dev.packetChan p = some (n, c)) (clear : s.clearedNow (channelPage n) = false) : (s.packetEvent p b).raised (channelPage n) b := by
  unfold State.packetEvent
  simp only [replay, Bool.false_eq_true, if_false, chan]
  exact setEvent_raised' _ _ _ hb clear

/-- Counting a packet and flagging it: its record stays, and the flag of its channel's page is set. -/
theorem counted_flagged {s : State} {p : Packet} {n : Nat} {c : Channel} (e b : Nat) (hb : b < 32) (replay : p.replay = false)
    (chan : s.dev.packetChan p = some (n, c)) (clear : s.clearedNow (channelPage n) = false) :
    ((s.packetCount p e).packetEvent p b).dev.traffic = s.dev.traffic ∧ ((s.packetCount p e).packetEvent p b).raised (channelPage n) b := by
  have counted := packetCount_kept p e s (List.Subset.refl _) (.rfl' _ s)
  have flagged := packetEvent_kept p b (s.packetCount p e) (List.Subset.refl _) (.rfl' _ _)
  refine ⟨(flagged.traffic (by decide)).trans (counted.traffic (by decide)), packetEvent_raised (c := c) b hb replay ?_ ?_⟩
  · exact (counted.packetChan (by decide) p).trans chan
  · exact (counted.clearedNow (by decide) (by decide) _).trans clear

/-- What the port die does first with a verdict: it is off the links, and nothing of it is on its way. -/
def State.verdictTaken (k : Nat) (s : State) : State := (s.onPacket k fun p => { p with stage := .none, flight := none }).landed (.verdict k)

theorem verdictTaken_kept (k : Nat) (s : State) : Kept [.traffic, .net] s (s.verdictTaken k) :=
  landed_kept _ _ (by decide) (onPacket_kept _ _ _ (by decide) (.rfl' _ s))

theorem packet?_verdictTaken {s : State} {k : Nat} {p : Packet} (h : s.dev.packet? k = some p) :
    (s.verdictTaken k).dev.packet? k = some { p with stage := .none, flight := none } := packet?_onPacket h _

/-- A packet that failed no tail is lost to no verdict. -/
theorem lost_eq {p : Packet} (failed : p.failed = false) (now : Nat) : p.lost now = false := by simp [Packet.lost, failed]

/-- The verdict of a packet that failed no tail is discarded as late, or applied. -/
theorem takeVerdict_eq {s : State} {k : Nat} {p : Packet} {v : Verdict} (failed : p.failed = false) :
    s.takeVerdict k p v = if p.applied.isSome = true ∨ p.over s.now = true then (s.verdictTaken k).lateVerdict k p
      else (((s.verdictTaken k).packetCount p 1).apply k v).settle k := by
  unfold State.takeVerdict
  rw [← State.verdictTaken]
  dsimp only
  rw [(verdictTaken_kept k s).now, lost_eq failed]
  by_cases applied : p.applied.isSome = true
  · simp [applied]
  · simp [applied]

section
variable {s : State} {k : Nat} {p : Packet} {v : Verdict} (hp : s.dev.packet? k = some p) (replay : p.replay = false) (gone : p.gone = false)
include hp replay gone

/-- A verdict that is there in time is applied (R26). -/
theorem takeVerdict_applied (inline : p.inline = true) (failed : p.failed = false) (inTime : p.over s.now = false) (first : p.applied = none) :
    (s.takeVerdict k p v).dev.packet? k = some { p with stage := .none, flight := none, applied := some (s.now, v) } := by
  have taken := verdictTaken_kept k s
  have counted := packetCount_kept p 1 (s.verdictTaken k) (List.Subset.refl _) (.rfl' _ _)
  have now : ((s.verdictTaken k).packetCount p 1).now = s.now := counted.now.trans taken.now
  have record := (packet?_of_traffic (counted.traffic (by decide)) k).trans (packet?_verdictTaken hp)
  have applied := packet?_apply record replay inline gone v
  rw [now] at applied
  rw [takeVerdict_eq failed, if_neg (by simp [first, inTime]), settle_eq applied (.inl gone)]
  exact applied

/-- A verdict that comes after the deadline, or after the default, is discarded and flagged (R26). -/
theorem takeVerdict_late (failed : p.failed = false) (late : p.over s.now = true ∨ p.applied.isSome = true) {n : Nat} {c : Channel}
    (chan : s.dev.packetChan p = some (n, c)) (clear : s.clearedNow (channelPage n) = false) :
    (s.takeVerdict k p v).dev.packet? k = some { p with stage := .none, flight := none } ∧ (s.takeVerdict k p v).raised (channelPage n) 1 := by
  have taken := verdictTaken_kept k s
  obtain ⟨traffic, raised⟩ := counted_flagged 3 1 (by decide) replay ((taken.packetChan (by decide) p).trans chan)
    ((taken.clearedNow (by decide) (by decide) _).trans clear)
  have record := (packet?_of_traffic traffic k).trans (packet?_verdictTaken hp)
  rw [takeVerdict_eq failed, if_pos late.symm]
  unfold State.lateVerdict
  rw [settle_eq record (.inl gone)]
  exact ⟨record, raised⟩

/-- The default is applied and counted (R26). -/
theorem default_applied (inline : p.inline = true) (canon : s.dev.canonical = true) {n : Nat} {c : Channel} (chan : s.dev.packetChan p = some (n, c))
    (clear : s.clearedNow (channelPage n) = false) :
    let t := (((s.packetCount p 2).packetEvent p 0).apply k v).settle k
    t.dev.packet? k = some { p with applied := some (s.now, v) } ∧ t.raised (channelPage n) 0 := by
  obtain ⟨traffic, raised⟩ := counted_flagged 2 0 (by decide) replay chan clear
  have kept : Kept [.counters, .headers, .score] s ((s.packetCount p 2).packetEvent p 0) :=
    packetEvent_kept _ _ _ (by decide) (packetCount_kept _ _ _ (by decide) (.rfl' _ s))
  have record := (packet?_of_traffic traffic k).trans hp
  have applied := packet?_apply record replay inline gone v
  rw [kept.now] at applied
  dsimp only
  rw [settle_eq applied (.inl gone)]
  exact ⟨applied, raised_apply record replay inline v (kept.canon canon) raised⟩

end

theorem verdictArrival_run {s : State} {k : Nat} {p : Packet} {v : Verdict} (hp : s.dev.packet? k = some p)
    (there : s.dev.verdictThere s.now k p = some v) : exec (.verdictArrival k) s = .next (s.takeVerdict k p v) := by
  show execVerdictArrival k s = _
  simp only [execVerdictArrival, hp, there]

section
variable {s : State} {k : Nat} {p : Packet} (hp : s.dev.packet? k = some p) (failed : p.failed = false) (due : p.dueAt s.now = true)
  (first : p.applied = none) (chan : p.chan.isSome = true)
include hp failed due first chan

/-- DEADLINE takes the verdict that is there in time (R26). -/
theorem deadline_run_verdict {v : Verdict} (inTime : p.over s.now = false) (there : s.dev.verdictThere s.now k p = some v) :
    exec (.deadline k) s = .next (s.takeVerdict k p v) := by
  show execDeadline k s = _
  unfold execDeadline
  simp only [hp, first, due, lost_eq failed, inTime, there]
  simp [Option.isSome_iff_ne_none.mp chan]

/-- DEADLINE applies the default where no verdict is there in time (R26). -/
theorem deadline_run_default (missing : p.over s.now = true ∨ s.dev.verdictThere s.now k p = none) :
    exec (.deadline k) s = .next ((((s.packetCount p 2).packetEvent p 0).apply k (s.dev.defaultOf p)).settle k) := by
  have none_there : (if p.over s.now = true then none else s.dev.verdictThere s.now k p) = none := by
    rcases missing with late | none_there
    · rw [if_pos late]
    · rw [none_there, ite_self]
  show execDeadline k s = _
  unfold execDeadline
  simp only [hp, first, due, lost_eq failed, none_there]
  simp [Option.isSome_iff_ne_none.mp chan]

end

theorem packetChan_isSome {d : Dev} {p : Packet} {e : Nat × Channel} (h : d.packetChan p = some e) : p.chan.isSome = true := by
  unfold Dev.packetChan at h
  split at h
  · cases h
  · next hc => rw [hc]; rfl

/-! ### Frames that leave -/

section
variable (port sub : Nat) (o : Out) (len : Nat) (s : State)

/-- What stands in the output when a frame leaves: the frame, or where LOOPBACK returns it, its bytes (R143). -/
def State.leaving : Out := if s.loops port then .looped port sub o.wire else o

theorem leave_out : (s.leave port sub o).dev.out = s.dev.out ++ [s.leaving port sub o] := by
  unfold State.leave State.leaving
  split <;> rfl

theorem sendNow_out : (s.sendNow port sub o len).dev.out = if s.subUp port sub then s.dev.out ++ [s.leaving port sub o] else s.dev.out := by
  unfold State.sendNow
  split <;> simp [leave_out]

theorem sendNow_appends : s.dev.out <+: (s.sendNow port sub o len).dev.out := by
  rw [sendNow_out]
  split
  · exact List.prefix_append _ _
  · exact List.prefix_rfl

@[simp] theorem sendNow_traffic : (s.sendNow port sub o len).dev.traffic = s.dev.traffic :=
  (sendNow_kept port sub o len s (List.Subset.refl _) (.rfl' _ s)).traffic (by decide)

theorem sendPause_appends (key quanta : Nat) : s.dev.out <+: (s.sendPause port sub key quanta).dev.out := by
  unfold State.sendPause
  dsimp only
  split
  · rw [portCount_out]
    exact sendNow_appends ..
  · exact List.prefix_rfl

theorem checkKey_appends (key : Nat) : s.dev.out <+: (s.checkKey port sub key).dev.out := by
  unfold State.checkKey
  extract_lets pg th xoff xon x n mark
  have marked (t : Table Nat → Table Nat) {u : State} (h : s.dev.out <+: u.dev.out) : s.dev.out <+: (mark t u).dev.out := h
  split
  · split
    · exact marked (Table.erase · key) (sendPause_appends ..)
    · exact List.prefix_rfl
  split
  · exact marked (Table.put · key s.now) (sendPause_appends ..)
  · exact List.prefix_rfl

theorem checkPause_appends (prio : Nat) : s.dev.out <+: (s.checkPause port sub prio).dev.out :=
  (checkKey_appends port sub s prio).trans (checkKey_appends port sub _ 8)

theorem holdBytes_appends (prio : Nat) (f : Nat → Nat) : s.dev.out <+: (s.holdBytes port sub prio f).dev.out :=
  checkPause_appends port sub (s.onPort port _) prio

theorem freeBuffer_appends (k : Nat) : s.dev.out <+: (s.freeBuffer k).dev.out := by
  unfold State.freeBuffer
  split
  · exact List.prefix_rfl
  · split
    · exact List.prefix_rfl
    · exact holdBytes_appends _ _ (s.onPacket k _) _ _

@[simp] theorem settle_out (k : Nat) : (s.settle k).dev.out = s.dev.out := by
  unfold State.settle
  split
  · rfl
  · split <;> rfl

end

/-- EGRESS_ELIGIBLE (R136, R137): a packet that has its tail and its verdict joins, edited, the egress queue its verdict names. -/
theorem egressEligible_queues {s : State} {k : Nat} {p : Packet} {x y : Nat} {v : Verdict} (hp : s.dev.packet? k = some p)
    (applied : p.applied = some (x, v)) (tail : p.tail = some y) (inline : p.inline = true) (gone : p.gone = false) (failed : p.failed = false)
    (unqueued : p.queuedTo = none) (hx : x < s.now) (hy : y < s.now)
    (kept : ∀ n g, p.chan = some (n, g) → (s.start.chan n).redDrop = false ∨ v.colour ≠ 2) (way : s.start.wayOut p.port p.sub = true)
    (up : ((s.start.port (partner p.port)).subp p.sub).upPly < p.start) :
    ∃ t, exec (.egressEligible k) s = .next t ∧
      t.dev.traffic.egress = Table.modify [] s.dev.traffic.egress ((partner p.port * 4 + p.sub) * 8 + v.queue % 8) (fun l => l ++ [k]) ∧
      t.dev.packet? k = some { p with
        queuedTo := some (v.queue % 8)
        outPrio := match p.chan with
          | some (n, _) => editedPrio p (s.start.chan n) v
          | none => framePrio p.frame
        frame := match p.chan with
          | some (n, _) => editedFrame p (s.start.chan n) n v
          | none => p.frame } := by
  have ready : ¬(p.gone = true ∨ p.failed = true ∨ p.queuedTo.isSome = true ∨ (!p.inline) = true ∨ s.now ≤ x ∨ s.now ≤ y) := by
    simp [gone, failed, unqueued, inline, hx, hy]
  have open_ : ¬((!s.start.wayOut p.port p.sub) = true ∨ p.start ≤ ((s.start.port (partner p.port)).subp p.sub).upPly) := by
    simp [way, up]
  show ∃ t, execEgressEligible k s = _ ∧ _
  unfold execEgressEligible
  simp only [hp, applied, tail, if_neg ready, if_neg open_]
  cases chan : p.chan with
  | none =>
    refine ⟨_, rfl, rfl, (packet?_onTraffic (fun _ => rfl) _ k).trans ((packet?_onPacket hp _).trans ?_)⟩
    simp [chan, applied, tail]
  | some e =>
    obtain ⟨n, g⟩ := e
    have undropped : ¬((s.start.chan n).redDrop = true ∧ v.colour = 2) := by
      rcases kept n g chan with h | h <;> simp [h]
    simp only [Option.isSome_some, Option.map_some, Option.getD_some, true_and, if_neg undropped]
    refine ⟨_, rfl, rfl, (packet?_onTraffic (fun _ => rfl) _ k).trans ((packet?_onPacket hp _).trans ?_)⟩
    simp [chan, applied, tail]

/-- FRAME_TRANSMIT (R136): the packet at the front of its queue leaves with a new FCS. -/
theorem frameTransmit_leaves {s : State} {port sub k q : Nat} {p : Packet} (up : s.subUp port sub = true)
    (next : s.dev.nextOut s.now port sub = some (q, k)) (hp : s.dev.packet? k = some p) :
    ∃ t, exec (.frameTransmit port sub) s = .next t ∧
      s.dev.out ++ [s.leaving port sub (.frame port sub (withFcs p.frame))] <+: t.dev.out ∧
      t.dev.traffic.egress = Table.modify [] s.dev.traffic.egress ((port * 4 + sub) * 8 + q) (fun l => l.drop 1) := by
  let u := s.onTraffic fun t => { t with egress := Table.modify [] t.egress ((port * 4 + sub) * 8 + q) fun l => l.drop 1 }
  let f := withFcs p.frame
  have record : u.dev.packet? k = some p := hp
  have sent : (u.sendNow port sub (.frame port sub f) f.length).dev.out = s.dev.out ++ [s.leaving port sub (.frame port sub f)] := by
    rw [sendNow_out, if_pos (show u.subUp port sub = true from up)]
    rfl
  have run : exec (.frameTransmit port sub) s =
      .next ((((u.sendNow port sub (.frame port sub f) f.length).freeBuffer k).onPacket k fun p => { p with gone := true }).settle k) := by
    show execFrameTransmit port sub s = _
    unfold execFrameTransmit
    simp only [up, next, Bool.not_true, Bool.false_eq_true, if_false]
    rw [show (s.onTraffic fun t => { t with egress := Table.modify [] t.egress ((port * 4 + sub) * 8 + q) fun l => l.drop 1 }) = u from rfl, record]
  refine ⟨_, run, ?_, ?_⟩
  · rw [settle_out, ← sent]
    exact freeBuffer_appends ..
  · rw [settle_egress, onPacket_egress, freeBuffer_egress, sendNow_traffic]
    rfl

/-! ### Verdict frames -/

theorem subp_onSub {s : State} (canon : s.dev.canonical = true) (port sub : Nat) (f : SubPort → SubPort) :
    ((s.onPort port fun q => q.onSub sub f).dev.port port).subp sub = f ((s.dev.port port).subp sub) := by
  rw [port_onPort _ _ _ canon, if_pos rfl]
  have wf : portsWf s.dev.ports = true := by
    simp only [Dev.canonical, Bool.and_eq_true] at canon
    exact canon.2.2.1
  show Table.get {} (Table.modify {} (s.dev.port port).subs sub f) sub = _
  rw [Table.get_modify _ _ _ (show Table.wf {} (s.dev.port port).subs = true from Port.wf_subs (Port.wf_get wf port)), if_pos rfl]
  rfl

@[simp] theorem sendOut_traffic (w : Waiting) (s : State) : (s.sendOut w).dev.traffic = s.dev.traffic :=
  (sendOut_kept w s (List.Subset.refl _) (.rfl' _ s)).traffic (by decide)

theorem sendOut_out (w : Waiting) (s : State) :
    (s.sendOut w).dev.out = if s.subUp w.port w.sub then s.dev.out ++ [s.leaving w.port w.sub w.out] else s.dev.out := by
  rw [← sendNow_out w.port w.sub w.out w.len]
  unfold State.sendOut
  dsimp only
  split <;> rfl

theorem leave_vfSeq {s : State} (canon : s.dev.canonical = true) (port sub : Nat) (o : Out) :
    (((s.leave port sub o).dev.port port).subp sub).vfSeq = ((s.dev.port port).subp sub).vfSeq := by
  unfold State.leave
  split
  · rw [subp_onSub (s := s.emit _) canon]
    rfl
  · rfl

theorem port_of_ports {d e : Dev} (h : d.ports = e.ports) (port : Nat) : d.port port = e.port port := by unfold Dev.port; rw [h]

theorem sendNow_vfSeq {s : State} (canon : s.dev.canonical = true) (port sub : Nat) (o : Out) (len : Nat) :
    (((s.sendNow port sub o len).dev.port port).subp sub).vfSeq = ((s.dev.port port).subp sub).vfSeq := by
  unfold State.sendNow
  split
  · rw [port_of_ports ((portCount_ports ..).trans (portCount_ports ..)), leave_vfSeq canon]
  · rw [port_of_ports (portCount_ports ..)]

/-- Sending a frame, or having it wait, leaves the SEQ that the next verdict frame takes. -/
theorem sendWaiting_vfSeq {s : State} (canon : s.dev.canonical = true) (w : Waiting) :
    (((s.sendWaiting w).dev.port w.port).subp w.sub).vfSeq = ((s.dev.port w.port).subp w.sub).vfSeq := by
  unfold State.sendWaiting
  split
  · rfl
  · unfold State.sendOut
    dsimp only
    split
    · exact sendNow_vfSeq canon ..
    · exact sendNow_vfSeq canon ..

@[simp] theorem sendWaiting_records (w : Waiting) (s : State) : (s.sendWaiting w).dev.traffic.records = s.dev.traffic.records := by
  unfold State.sendWaiting
  split
  · rfl
  · rw [sendOut_traffic]

/-- A sub-port one of whose verdict frames has taken its SEQ (R165). -/
def SubPort.seqTaken (x : SubPort) : SubPort := { x with vfSeq := (x.vfSeq + 1) % 2 ^ 32 }

/-- The state in which a verdict frame of `n` records has been formed: they have left the records that wait, and its SEQ is used. -/
def State.framed (port sub n : Nat) (s : State) : State :=
  (s.onTraffic fun t => { t with records := Table.modify [] t.records (port * 4 + sub) fun l => l.drop n }).onPort port fun q =>
    q.onSub sub SubPort.seqTaken

section
variable {s : State} (canon : s.dev.canonical = true) (port sub n : Nat)
include canon

theorem framed_subp : ((s.framed port sub n).dev.port port).subp sub = ((s.dev.port port).subp sub).seqTaken := subp_onSub canon ..

theorem framed_canonical : (s.framed port sub n).dev.canonical = true :=
  (onPort_kept (P := [.ports]) port _ (List.Subset.refl _) (.rfl' _ _) fun _ h => Port.wf_onSub _ _ h).canon canon

theorem framed_subUp : (s.framed port sub n).subUp port sub = s.subUp port sub := by
  unfold State.subUp State.port
  rw [framed_subp canon]
  rfl

theorem framed_mustWait (o : Out) : (s.framed port sub n).mustWait port sub o = s.mustWait port sub o := by
  unfold State.mustWait
  rw [framed_subUp canon]
  unfold State.port
  rw [framed_subp canon]
  rfl

end

theorem mustWait_of_down {s : State} {port sub : Nat} (down : s.subUp port sub = false) (o : Out) : s.mustWait port sub o = false := by
  simp [State.mustWait, down]

/-- VERDICT_FRAME (R163, R165, R166): what the frame is, of the records whose time has come. -/
theorem verdictFrame_run {s : State} {port sub : Nat} {r : VRecord} {rest : List VRecord} {f : Bytes}
    (records : Table.get [] s.dev.traffic.records (port * 4 + sub) = r :: rest)
    (due : 32 ≤ (r :: rest).length ∨ r.ready + s.rg (parserPage (portDie port)) 0x4C % 256 ≤ s.now) (turn : s.selidAhead port sub = false)
    (hf : f = padded (r.srcMac ++ s.dev.ctrlMac (portDie port) ++ r.tags ++ toBE 2 r.shim ++ [0x13, byte (shareFrame (r :: rest)).length] ++
      toBE 4 ((s.dev.port port).subp sub).vfSeq ++ ((shareFrame (r :: rest)).map (·.body)).flatten)) :
    exec (.verdictFrame port sub) s = .next ((s.framed port sub (shareFrame (r :: rest)).length).sendWaiting
      { port, sub, verdict := true, len := f.length, out := .frame port sub f }) := by
  have go : ¬(((r :: rest).length < 32 ∧ s.now < r.ready + s.rg (parserPage (portDie port)) 0x4C % 256) ∨ s.selidAhead port sub = true) := by
    rintro (⟨short, early⟩ | ahead)
    · exact due.elim (Nat.not_le.mpr short) (Nat.not_le.mpr early)
    · simp [turn] at ahead
  show execVerdictFrame port sub s = _
  unfold execVerdictFrame
  simp only [records, if_neg go]
  rw [hf]
  rfl

/-- VERDICT_FRAME (R163, R165, R166): the frame leaves, or waits behind received PAUSE or PFC, with the next SEQ. -/
theorem verdictFrame_leaves {s : State} (canon : s.dev.canonical = true) {port sub : Nat} {r : VRecord} {rest : List VRecord} {f : Bytes}
    (records : Table.get [] s.dev.traffic.records (port * 4 + sub) = r :: rest)
    (due : 32 ≤ (r :: rest).length ∨ r.ready + s.rg (parserPage (portDie port)) 0x4C % 256 ≤ s.now) (turn : s.selidAhead port sub = false)
    (hf : f = padded (r.srcMac ++ s.dev.ctrlMac (portDie port) ++ r.tags ++ toBE 2 r.shim ++ [0x13, byte (shareFrame (r :: rest)).length] ++
      toBE 4 ((s.dev.port port).subp sub).vfSeq ++ ((shareFrame (r :: rest)).map (·.body)).flatten)) :
    ∃ t, exec (.verdictFrame port sub) s = .next t ∧
      (s.subUp port sub = true → s.mustWait port sub (.frame port sub f) = false →
        t.dev.out = s.dev.out ++ [s.leaving port sub (.frame port sub f)]) ∧
      (s.mustWait port sub (.frame port sub f) = true →
        t.dev.traffic.waiting = s.dev.traffic.waiting ++ [{ port, sub, verdict := true, len := f.length, out := .frame port sub f }]) ∧
      (s.subUp port sub = false → t.dev.out = s.dev.out) ∧
      ((t.dev.port port).subp sub).vfSeq = (((s.dev.port port).subp sub).vfSeq + 1) % 2 ^ 32 ∧
      t.dev.traffic.records = Table.modify [] s.dev.traffic.records (port * 4 + sub) (fun l => l.drop (shareFrame (r :: rest)).length) := by
  let n := (shareFrame (r :: rest)).length
  let w : Waiting := { port, sub, verdict := true, len := f.length, out := .frame port sub f }
  have sends (go : s.mustWait port sub (.frame port sub f) = false) : (s.framed port sub n).sendWaiting w = (s.framed port sub n).sendOut w := by
    unfold State.sendWaiting
    rw [framed_mustWait canon, go]
    rfl
  have out (go : s.mustWait port sub (.frame port sub f) = false) : ((s.framed port sub n).sendWaiting w).dev.out =
      if s.subUp port sub then s.dev.out ++ [s.leaving port sub (.frame port sub f)] else s.dev.out := by
    rw [sends go, sendOut_out, framed_subUp canon]
    rfl
  refine ⟨_, verdictFrame_run records due turn hf, fun up go => ?_, fun wait => ?_, fun down => ?_, ?_, ?_⟩
  · rw [out go, if_pos up]
  · unfold State.sendWaiting
    rw [framed_mustWait canon, if_pos wait]
    rfl
  · rw [out (mustWait_of_down down _), down]
    rfl
  · rw [sendWaiting_vfSeq (framed_canonical canon ..) w, framed_subp canon]
    rfl
  · rw [sendWaiting_records]
    rfl

/-- Settles O28, each command by the lemmas above. -/
theorem packetsSettleAndLeave : Obligations.PacketsSettleAndLeave := by
  unfold Obligations.PacketsSettleAndLeave
  refine ⟨fun s k p canon hp => ⟨fun port sub r hr hk => ⟨frameTail_good hp hr hk, frameTail_bad hp hr hk⟩, ?_, ?_⟩,
    fun s port sub canon => ⟨?_, ?_, ?_⟩⟩
  · intro v there inline replay gone failed
    have run := verdictArrival_run hp there
    refine ⟨fun inTime first => ?_, fun n c late chan clear => ?_, fun inTime due first chan => ?_⟩
    · exact ⟨_, run, takeVerdict_applied hp replay gone inline failed inTime first⟩
    · exact ⟨_, run, takeVerdict_late hp replay gone failed late chan clear⟩
    · exact (deadline_run_verdict hp failed due first chan inTime there).trans run.symm
  · intro n c inline replay gone failed first due missing chan clear
    exact ⟨_, deadline_run_default hp failed due first (packetChan_isSome chan) missing,
      default_applied hp replay gone inline canon chan clear⟩
  · exact fun k p x v y hp applied tail inline gone failed unqueued hx hy kept way up =>
      egressEligible_queues hp applied tail inline gone failed unqueued hx hy kept way up
  · exact fun k p q up next hp => frameTransmit_leaves up next hp
  · exact fun r rest f records due turn hf => verdictFrame_leaves canon records due turn hf

end Sys2Proof.Machine
end

section
/-! SUPPORT. What O15 to O19 share: frames that set out from the control complex (R15, R113), the sessions of Selid and how a command of one is
answered (R95 to R100). -/
namespace Sys2Proof.Machine

/-! ### What operations leave of Selid -/

section
variable {P : List Part} {s t : State}

theorem Kept.selid (h : Kept P s t) (hP : Part.selid ∉ P) : t.dev.selid = s.dev.selid := (h.frame .selid hP).symm

theorem Kept.session? (h : Kept P s t) (hP : Part.selid ∉ P) (n : Nat) : t.session? n = s.session? n := by
  unfold State.session? Dev.session?
  rw [h.selid hP]

theorem Kept.sec (h : Kept P s t) (hP : Part.sec ∉ P) : t.dev.sec = s.dev.sec := (h.frame .sec hP).symm

theorem Kept.draws (h : Kept P s t) (hP : Part.draws ∉ P) : t.dev.draws = s.dev.draws := (h.frame .draws hP).1.symm

theorem Kept.reg (h : Kept P s t) (hP : Part.registers ∉ P) (a : Nat) : t.dev.reg a = s.dev.reg a := reg_congr (h.frame .registers hP).symm a

end

/-! ### Frames that set out from the control complex -/

/-- What the way of a frame out of a sub-port turns on reads the same in two states: the ply and its reads, what has left and what waits, the links
between the dies, and whether the sub-port is up and held (R15, R131, R132, R143). -/
structure State.SendsAs (s v : State) (port sub : Nat) : Prop where
  ply : v.ply = s.ply
  start : v.start = s.start
  out : v.dev.out = s.dev.out
  traffic : v.dev.traffic = s.dev.traffic
  net : v.dev.net = s.dev.net
  up : v.subUp port sub = s.subUp port sub
  hold : ((v.port port).subp sub).hold = ((s.port port).subp sub).hold

section
variable {s t v : State} {port sub len : Nat} {o : Out}

/-- An operation that keeps the ports, the packets, the links and the output leaves every frame its way out. -/
theorem Kept.sendsAs {P : List Part} (h : Kept P s v)
    (hP : Part.ports ∉ P ∧ Part.traffic ∉ P ∧ Part.net ∉ P ∧ Part.out ∉ P) (port sub : Nat) : s.SendsAs v port sub := by
  obtain ⟨ports, traffic, net, out⟩ := hP
  have same : v.port port = s.port port := port_of_ports (h.frame .ports ports).1.symm port
  exact ⟨h.ply, h.start, (h.frame .out out).symm, h.traffic traffic, (h.frame .net net).symm,
    by unfold State.subUp; rw [same], by rw [same]⟩

theorem State.SendsAs.trans {u : State} (a : s.SendsAs u port sub) (b : u.SendsAs v port sub) : s.SendsAs v port sub :=
  ⟨b.ply.trans a.ply, b.start.trans a.start, b.out.trans a.out, b.traffic.trans a.traffic, b.net.trans a.net, b.up.trans a.up,
    b.hold.trans a.hold⟩

theorem State.SendsAs.mustWait (h : s.SendsAs v port sub) (o : Out) : v.mustWait port sub o = s.mustWait port sub o := by
  unfold State.mustWait SubPort.holds State.now
  rw [h.up, h.hold, h.traffic, h.ply]

/-- A frame that sets out in a state sets out from every state that sends as it does. -/
theorem State.sent.before (h : v.sent t port sub len o) (a : s.SendsAs v port sub) : s.sent t port sub len o := by
  unfold State.sent State.loops State.ctl State.now at *
  rwa [a.mustWait, a.up, a.start, a.out, a.traffic, a.net, a.ply] at h

/-- A frame that has set out has still done so after operations that leave the output, the packets and the links alone. -/
theorem State.sent.after (h : s.sent t port sub len o) (out : v.dev.out = t.dev.out) (traffic : v.dev.traffic = t.dev.traffic)
    (net : v.dev.net = t.dev.net) : s.sent v port sub len o := by
  unfold State.sent at *
  rwa [out, traffic, net]

/-- A frame that the control complex forms sets out for its sub-port (R15, R113). -/
theorem sendFrom_sent (s : State) (port sub len : Nat) (o : Out) : s.sent (s.sendFrom 4 clsControl 0 port sub o len) port sub len o := by
  unfold State.sendFrom State.sendCross
  refine ⟨fun die => ?_, fun die => ?_⟩
  · rw [if_pos (show 4 = portDieNo port by unfold portDieNo; omega)]
    unfold State.transmit State.sendWaiting
    refine ⟨fun go up => ?_, fun wait => ?_⟩
    · rw [if_neg (by simp [go]), sendOut_out, if_pos up]
      rfl
    · rw [if_pos wait]
      rfl
  · rw [if_neg (show ¬4 = portDieNo port by unfold portDieNo; omega)]
    rfl

end

/-! ### Sessions -/

theorem session?_num {s : State} {n : Nat} {x : Session} (h : s.session? n = some x) : x.num = n := by
  simpa using List.find?_some h

/-- A change of session `n` that leaves it its number. -/
theorem session?_onSession (n : Nat) {f : Session → Session} (hf : ∀ y, (f y).num = y.num) (s : State) :
    (s.onSession n f).session? n = (s.session? n).map f := by
  have same : ((fun x : Session => decide (x.num = n)) ∘ fun y => if y.num = n then f y else y) = fun x => decide (x.num = n) := by
    funext y
    by_cases h : y.num = n <;> simp [h, hf]
  show List.find? _ (s.dev.selid.sessions.map _) = _
  rw [List.find?_map, same]
  show Option.map _ (s.session? n) = _
  cases h : s.session? n with
  | none => rfl
  | some x => simp [session?_num h]

/-- A session that ends is no session any more (R95). -/
theorem endSession_session? (n : Nat) (s : State) : (s.endSession n).session? n = none := by
  unfold State.endSession
  split
  · assumption
  · refine List.find?_eq_none.mpr fun z hz => ?_
    simp only [bump_selid, onSelid_selid, List.mem_filter, decide_eq_true_eq] at hz
    simpa using hz.2

/-! ### Protected messages -/

/-- A session whose next SEQ has been used (R95, R97). -/
def Session.seqUsed (now : Nat) (y : Session) : Session :=
  { y with seqTx := y.seqTx + 1, ending := if y.seqTx = 2 ^ 64 - 1 then some (now + 1) else y.ending }

/-- What a protected message changes of Selid: the SEQ and the end of its session (R95). -/
theorem sendProtected_selid (n : Nat) (r : Route) (plain : Bytes) (s : State) :
    ∃ f : Session → Session, (∀ y, ∃ a e, f y = { y with seqTx := a, ending := e }) ∧
      (s.sendProtected n r plain).dev.selid = (s.onSession n f).dev.selid := by
  have unsent : s.dev.selid = (s.onSession n id).dev.selid := by simp [State.onSession]
  unfold State.sendProtected
  split
  · exact ⟨id, fun y => ⟨y.seqTx, y.ending, rfl⟩, unsent⟩
  split
  · exact ⟨id, fun y => ⟨y.seqTx, y.ending, rfl⟩, unsent⟩
  · exact ⟨Session.seqUsed s.now, fun y => ⟨_, _, rfl⟩,
      (sendSelid_kept _ _ _ _ _ _ _ _ _ (List.Subset.refl _) (.rfl' _ _)).selid (by decide)⟩

/-- A protected message is sent while its session has a SEQ left (R95 to R97). -/
theorem sendProtected_sent {s : State} {n : Nat} {x : Session} (h : s.session? n = some x) (left : x.seqTx < 2 ^ 64) (r : Route) (plain : Bytes) :
    ∃ w : Bytes, s.sent (s.sendProtected n r plain) r.port r.sub w.length (.selid r 3 n x.seqTx plain w) := by
  unfold State.sendProtected
  rw [h]
  simp only [if_neg (Nat.not_le.mpr left)]
  exact ⟨_, (sendFrom_sent ..).before ((onSession_kept n _ s (List.Subset.refl _) (.rfl' _ s)).sendsAs (by decide) ..)⟩

theorem sendProtected_session? {s : State} {n : Nat} {x : Session} (h : s.session? n = some x) (r : Route) (plain : Bytes) :
    ∃ a e, (s.sendProtected n r plain).session? n = some { x with seqTx := a, ending := e } := by
  obtain ⟨f, hf, selid⟩ := sendProtected_selid n r plain s
  have num (y : Session) : (f y).num = y.num := by
    obtain ⟨a, e, hy⟩ := hf y
    rw [hy]
  obtain ⟨a, e, hx⟩ := hf x
  refine ⟨a, e, ?_⟩
  have same : (s.sendProtected n r plain).session? n = (s.onSession n f).session? n := by
    unfold State.session? Dev.session?
    rw [selid]
  rw [same, session?_onSession n num, h, Option.map_some, hx]

/-! ### Commands that complete -/

/-- The response that is kept for a command (R100). -/
def Cmd.response (c : Cmd) (opcode status detail : Nat) (body : Bytes) : Done :=
  { opcode, tag := c.tag, hash := Config.sha256 c.body, status, detail, body }

/-- A session whose command has completed with a response (R95, R100). -/
def Session.completed (now : Nat) (c : Cmd) (d : Done) (y : Session) : Session :=
  { y with cmds := dropCmd d.opcode y.cmds, done := (d :: y.done).take 64, ending := if c.last then some (now + 1) else y.ending }

/-- The state in which a command of session `n` has completed and its response is still to be sent (R99, R100). -/
def State.completing (n : Nat) (c : Cmd) (d : Done) (s : State) : State := (s.onSession n (Session.completed s.now c d)).recordCmd n c d.status

theorem completing_kept (n : Nat) (c : Cmd) (d : Done) (s : State) : Kept [.selid, .score] s (s.completing n c d) :=
  recordCmd_kept _ _ _ _ (by decide) (onSession_kept _ _ _ (by decide) (.rfl' _ s))

theorem completing_session? {s : State} {n : Nat} {x : Session} (h : s.session? n = some x) (c : Cmd) (d : Done) :
    (s.completing n c d).session? n = some (x.completed s.now c d) := by
  have same : (s.completing n c d).session? n = (s.onSession n (Session.completed s.now c d)).session? n :=
    (recordCmd_kept _ _ _ _ (List.Subset.refl _) (.rfl' _ _)).session? (by decide) n
  rw [same, session?_onSession n (f := Session.completed s.now c d) fun _ => rfl, h]
  rfl

section
variable {s : State} {n op status detail : Nat} {x : Session} {c : Cmd} {body : Bytes}

theorem complete_eq (hx : s.session? n = some x) (hc : x.cmds.find? (fun q => decide (q.opcode = op)) = some c) :
    s.complete n op status detail body =
      (s.completing n c (c.response op status detail body)).sendProtected n c.route (envelope (respOp op) c.tag status detail body) := by
  unfold State.complete
  rw [hx]
  simp only [hc]
  rfl

/-- A command that completes is answered (R98 to R100). -/
theorem complete_answered (hx : s.session? n = some x) (hc : x.cmds.find? (fun q => decide (q.opcode = op)) = some c) :
    (s.complete n op status detail body).answered n c status detail body := by
  have code : c.opcode = op := by simpa using List.find?_some hc
  rw [complete_eq hx hc]
  obtain ⟨a, e, hy⟩ := sendProtected_session? (completing_session? hx c (c.response op status detail body)) c.route
    (envelope (respOp op) c.tag status detail body)
  exact ⟨_, hy, by rw [code]; rfl⟩

/-- The response to a command sets out while its session has a SEQ left (R95, R98). -/
theorem complete_sent (hx : s.session? n = some x) (hc : x.cmds.find? (fun q => decide (q.opcode = op)) = some c) (left : x.seqTx < 2 ^ 64) :
    ∃ w : Bytes, s.sent (s.complete n op status detail body) c.route.port c.route.sub w.length
      (.selid c.route 3 n x.seqTx (envelope (respOp op) c.tag status detail body) w) := by
  rw [complete_eq hx hc]
  obtain ⟨w, h⟩ := sendProtected_sent (completing_session? hx c (c.response op status detail body)) left c.route
    (envelope (respOp op) c.tag status detail body)
  exact ⟨w, h.before ((completing_kept ..).sendsAs (by decide) ..)⟩

end

/-- Of Selid, completing a command changes the sessions alone. -/
theorem complete_selid (n op status detail : Nat) (body : Bytes) (s : State) :
    ∃ l, (s.complete n op status detail body).dev.selid = { s.dev.selid with sessions := l } := by
  have unchanged : ∃ l, s.dev.selid = { s.dev.selid with sessions := l } := ⟨_, rfl⟩
  cases hx : s.session? n with
  | none => simpa [State.complete, hx] using unchanged
  | some x =>
    cases hc : x.cmds.find? (fun q => decide (q.opcode = op)) with
    | none => simpa [State.complete, hx, hc] using unchanged
    | some c =>
      rw [complete_eq hx hc]
      obtain ⟨f, -, h⟩ := sendProtected_selid n c.route (envelope (respOp op) c.tag status detail body)
        (s.completing n c (c.response op status detail body))
      rw [h]
      unfold State.completing State.onSession
      rw [onSelid_selid, recordCmd_selid]
      exact ⟨_, rfl⟩

@[simp] theorem complete_quench (n op status detail : Nat) (body : Bytes) (s : State) :
    (s.complete n op status detail body).dev.selid.quench = s.dev.selid.quench := by
  obtain ⟨l, h⟩ := complete_selid n op status detail body s
  rw [h]

@[simp] theorem complete_qids (n op status detail : Nat) (body : Bytes) (s : State) :
    (s.complete n op status detail body).dev.selid.qids = s.dev.selid.qids := by
  obtain ⟨l, h⟩ := complete_selid n op status detail body s
  rw [h]

@[simp] theorem complete_sinks (n op status detail : Nat) (body : Bytes) (s : State) :
    (s.complete n op status detail body).dev.selid.sinks = s.dev.selid.sinks := by
  obtain ⟨l, h⟩ := complete_selid n op status detail body s
  rw [h]

/-! ### Commands that may run -/

/-- The first command that is a QUENCH or an UNQUENCH is the first with its opcode. -/
theorem find?_quench {l : List Cmd} {q : Cmd} (h : l.find? (fun c => isQuenchOp c.opcode) = some q) :
    l.find? (fun c => decide (c.opcode = q.opcode)) = some q := by
  obtain ⟨hq, before, after, rfl, others⟩ := List.find?_eq_some_iff_append.mp h
  refine List.find?_eq_some_iff_append.mpr ⟨decide_eq_true rfl, before, after, rfl, fun c hc => ?_⟩
  have other : c.opcode ≠ q.opcode := by
    intro same
    have no := others c hc
    rw [same, hq] at no
    cases no
  simp only [decide_eq_false other, Bool.not_false]

/-- A command that may run is the first of its session with its opcode (R99). -/
theorem ready_first {s : State} {n op : Nat} {x : Session} {c : Cmd} (h : s.ready n op = some (x, c)) :
    s.session? n = some x ∧ x.cmds.find? (fun q => decide (q.opcode = op)) = some c := by
  unfold State.ready at h
  split at h
  · cases h
  next y hy =>
  split at h
  · cases h
  split at h
  · split at h
    · next q hq =>
      split at h
      · next code =>
        cases h
        exact ⟨hy, code ▸ find?_quench hq⟩
      · cases h
    · cases h
  · split at h
    · cases h
    · next cmds =>
      split at h
      · next go =>
        cases h
        exact ⟨hy, by rw [cmds, List.find?_cons_of_pos (by simp [go.1])]⟩
      · cases h

theorem command_eq {s : State} {n op : Nat} {x : Session} {c : Cmd} (h : s.ready n op = some (x, c)) (run : Session → Cmd → State → State) :
    s.command n op run = run x c s := by
  unfold State.command
  rw [h]

theorem sized_eq {x : Session} {c : Cmd} {largest : Nat} (h : largest ≤ bodyRoom x c.route) (run : State → State) (s : State) :
    s.sized x c largest run = run s := if_neg (Nat.not_lt.mpr h)

/-- A command that may run is answered when it completes in a state that still has its session (R98 to R100). -/
theorem answered_of_ready {s u : State} {n op status detail : Nat} {x : Session} {c : Cmd} {body : Bytes} (h : s.ready n op = some (x, c))
    (same : u.session? n = s.session? n) : (u.complete n op status detail body).answered n c status detail body :=
  complete_answered (same.trans (ready_first h).1) (ready_first h).2

end Sys2Proof.Machine
end

section
/-! SUPPORT. Addresses answered (O15): requests for a control address, and frames that nothing takes. -/
namespace Sys2Proof.Machine

/-! ### Control addresses -/

section
variable {P : List Part} {s t : State}

theorem Kept.rg (h : Kept P s t) (hP : Part.registers ∉ P) (page off : Nat) : t.dev.rg page off = s.dev.rg page off := by
  unfold Dev.rg
  rw [h.reg hP]

theorem Kept.ctrlMac (h : Kept P s t) (hP : Part.registers ∉ P) (die : Nat) : t.dev.ctrlMac die = s.dev.ctrlMac die := by
  simp only [Dev.ctrlMac, Dev.dieMac, h.rg hP]

theorem Kept.ctrlIp4 (h : Kept P s t) (hP : Part.registers ∉ P) (die : Nat) : t.dev.ctrlIp4 die = s.dev.ctrlIp4 die := by
  simp only [Dev.ctrlIp4, h.rg hP]

theorem Kept.ctrlIp6 (h : Kept P s t) (hP : Part.registers ∉ P) (die : Nat) : t.dev.ctrlIp6 die = s.dev.ctrlIp6 die := by
  simp only [Dev.ctrlIp6, h.rg hP]

end

/-! ### Frames that arrive whole -/

section
variable {s : State} {port sub : Nat} {f : Bytes}

/-- A frame that its sub-port hears, of good FCS and length, goes on (R123). -/
theorem rxCheck_good (hears : s.hears port sub f = true) (fcs : fcsGood f = true) (low : 64 ≤ f.length) (high : f.length ≤ s.maxFrame port) :
    s.rxCheck port sub f = (((s.heard port sub).portCount port sub 0 1).portCount port sub 1 f.length, true) := by
  simp [State.rxCheck, State.rxJudge, hears, fcs, Nat.not_lt.mpr low, Nat.not_lt.mpr high]

/-- The receiver takes a frame off what LOOPBACK has returned, and leaves the sub-port up or down and held as it was (R143). -/
theorem heard_sendsAs (canon : s.dev.canonical = true) (port sub : Nat) : s.SendsAs (s.heard port sub) port sub := by
  unfold State.heard
  split
  · have taken := subp_onSub canon port sub fun x => { x with loop := x.loop.drop 1 }
    refine ⟨rfl, rfl, rfl, rfl, rfl, ?_, ?_⟩
    · unfold State.subUp State.port
      rw [taken]
    · unfold State.port
      rw [taken]
  · exact (Kept.rfl' [] s).sendsAs (by decide) ..

theorem rxCheck_sendsAs (canon : s.dev.canonical = true) (hears : s.hears port sub f = true) (fcs : fcsGood f = true) (low : 64 ≤ f.length)
    (high : f.length ≤ s.maxFrame port) : s.SendsAs (s.rxCheck port sub f).1 port sub := by
  rw [rxCheck_good hears fcs low high]
  exact (heard_sendsAs canon port sub).trans
    ((portCount_kept _ _ _ _ _ (List.Subset.refl _) (portCount_kept _ _ _ _ _ (List.Subset.refl _) (.rfl' _ _))).sendsAs (by decide) ..)

/-- A counter of a sub-port, when another or the same one is advanced (R141). -/
theorem ctr_portCount (canon : s.dev.canonical = true) (port sub k n j : Nat) :
    (s.portCount port sub k n).dev.ctr (pageOf tPort port) (0x100 + 0x80 * sub + 8 * j) =
      if k = j then s.dev.ctr (pageOf tPort port) (0x100 + 0x80 * sub + 8 * j) + BitVec.ofNat 64 n
      else s.dev.ctr (pageOf tPort port) (0x100 + 0x80 * sub + 8 * j) := by
  have same : (addrOf (pageOf tPort port) (0x100 + 0x80 * sub + 8 * k) = addrOf (pageOf tPort port) (0x100 + 0x80 * sub + 8 * j)) ↔ k = j := by
    unfold addrOf
    omega
  unfold State.portCount
  rw [ctr_bump _ _ _ _ canon]
  simp only [same]

/-- A frame that goes on and that nothing takes is counted in RX_DISCARD (R141). -/
theorem rxCheck_discard (canon : s.dev.canonical = true) (hears : s.hears port sub f = true) (fcs : fcsGood f = true) (low : 64 ≤ f.length)
    (high : f.length ≤ s.maxFrame port) :
    ((s.rxCheck port sub f).1.portCount port sub 9 1).dev.ctr (pageOf tPort port) (0x100 + 0x80 * sub + 8 * 9) =
      s.dev.ctr (pageOf tPort port) (0x100 + 0x80 * sub + 8 * 9) + 1 := by
  have heard := heard_kept port sub s (P := [.ports]) (List.Subset.refl _) (.rfl' _ s)
  have one := portCount_kept port sub 0 1 _ (P := [.counters]) (List.Subset.refl _) (.rfl' _ (s.heard port sub))
  have two := portCount_kept port sub 1 f.length _ (List.Subset.refl _) one
  rw [rxCheck_good hears fcs low high, ctr_portCount (two.canon (heard.canon canon)), if_pos rfl, ctr_portCount (one.canon (heard.canon canon)),
    if_neg (by decide), ctr_portCount (heard.canon canon), if_neg (by decide), ctr_congr (heard.frame .counters (by decide)).symm]
  rfl

end

/-! ### Requests for a control address -/

section
variable {s : State} {port sub : Nat} {f : Bytes} {lf : LaneFrame} {kind : LaneKind}

/-- A request that stands first in its die's lane is taken off it (R81, R113). -/
theorem takeProbe_lane (host : isHost port = false) (head : s.laneHead (portDie port) = some lf) (hp : lf.port = port) (hs : lf.sub = sub)
    (hf : lf.frame = f) (hk : lf.kind = kind) : s.takeProbe kind port sub f = ((s.takeHead port sub f).1, some lf.off) := by
  have first : (s.takeHead port sub f).2 = some lf := by
    unfold State.takeHead
    rw [head]
    simp only [hp, hs, hf, and_self, if_true]
  unfold State.takeProbe
  simp only [host, first, hk, Bool.false_eq_true, if_false, if_true]

/-- A request on a host port is taken as it arrives (R81, R125). -/
theorem takeProbe_host (host : isHost port = true) (on : s.hostOn port = true) (hears : s.hears port sub f = true) (fcs : fcsGood f = true)
    (low : 64 ≤ f.length) (high : f.length ≤ s.maxFrame port) (there : s.laneFrame? port sub f = some lf) (hk : lf.kind = kind) :
    s.takeProbe kind port sub f = ((s.rxCheck port sub f).1, some lf.off) := by
  have goesOn : (s.rxCheck port sub f).2 = true := by rw [rxCheck_good hears fcs low high]
  unfold State.takeProbe
  simp only [host, there, on, hk, goesOn, and_self, if_true]

end

section
variable {s u : State} {port sub o : Nat} {f r : Bytes}

/-- The state in which the control complex has sent a frame `r` on a sub-port (R81, R113). -/
def State.replied (port sub : Nat) (r : Bytes) (u : State) : State := u.sendFrom 4 clsControl 0 port sub (.frame port sub r) r.length

/-- A command that replies from a state sends its reply from it, and leaves Selid as it is there. -/
theorem replied_sent {run : Host.Outcome State Fault Refusal} (h : run = .next (u.replied port sub r)) :
    ∃ t, run = .next t ∧ u.sent t port sub r.length (.frame port sub r) ∧ t.dev.selid = u.dev.selid :=
  ⟨_, h, sendFrom_sent .., (sendFrom_kept _ _ _ _ _ _ _ u (List.Subset.refl _) (.rfl' _ u)).selid (by decide)⟩

/-- A reply to a frame that arrives whole and goes on sets out as from the state before it. -/
theorem replied_onArrival {run : Host.Outcome State Fault Refusal} (canon : s.dev.canonical = true) (hears : s.hears port sub f = true)
    (fcs : fcsGood f = true) (low : 64 ≤ f.length) (high : f.length ≤ s.maxFrame port)
    (h : run = .next ((s.rxCheck port sub f).1.replied port sub r)) :
    ∃ t, run = .next t ∧ s.sent t port sub r.length (.frame port sub r) ∧ t.dev.selid = s.dev.selid := by
  obtain ⟨t, ran, sent, selid⟩ := replied_sent h
  exact ⟨t, ran, sent.before (rxCheck_sendsAs canon hears fcs low high),
    selid.trans ((rxCheck_kept port sub f s (List.Subset.refl _) (.rfl' _ s)).selid (by decide))⟩

/-- ARP_REQUEST (R81): a request that is taken is answered with the die's control addresses. -/
theorem arpRequest_run (take : s.takeProbe .arp port sub f = (u, some o))
    (hr : r = padded (arpReply (s.dev.ctrlMac (portDie port)) (s.dev.ctrlIp4 (portDie port)) f o)) :
    exec (.arpRequest port sub f) s = .next (u.replied port sub r) := by
  have kept := takeProbe_kept .arp port sub f s (List.Subset.refl _) (.rfl' _ s)
  rw [take] at kept
  show execArpRequest port sub f s = _
  unfold execArpRequest
  simp only [take, kept.ctrlMac (by decide), kept.ctrlIp4 (by decide), ← hr]
  rfl

/-- NEIGHBOUR_SOLICITATION (R81): a solicitation that is taken is answered with an advertisement. -/
theorem neighbourSolicitation_run (take : s.takeProbe .solicit port sub f = (u, some o))
    (hr : r = padded (neighbourReply (s.dev.ctrlMac (portDie port)) (s.dev.ctrlIp6 (portDie port)) f o)) :
    exec (.neighbourSolicitation port sub f) s = .next (u.replied port sub r) := by
  have kept := takeProbe_kept .solicit port sub f s (List.Subset.refl _) (.rfl' _ s)
  rw [take] at kept
  show execNeighbourSolicitation port sub f s = _
  unfold execNeighbourSolicitation
  simp only [take, kept.ctrlMac (by decide), kept.ctrlIp6 (by decide), ← hr]
  rfl

end

/-! ### Frames that nothing takes -/

section
variable {s : State} {port sub : Nat} {f : Bytes}

theorem isHost_of_isPeer (peer : isPeer port = true) : isHost port = false := by
  simp only [isPeer, isHost, decide_eq_true_eq, decide_eq_false_iff_not] at *
  omega

theorem notLine_of_peerOrHost (h : isPeer port = true ∨ isHost port = true) : isLine port = false ∧ port < 66 := by
  simp only [isPeer, isHost, isLine, decide_eq_true_eq, decide_eq_false_iff_not] at *
  omega

/-- RX_DISCARD (R125 to R127): the frame of a peer port that its role does not take, and that of a host port that is neither a control frame for it
nor a PAUSE frame. -/
theorem rxDiscard_run (hears : s.hears port sub f = true) (fcs : fcsGood f = true) (low : 64 ≤ f.length) (high : f.length ≤ s.maxFrame port)
    (untaken : (isPeer port = true ∧ s.start.takesPeer port f = false) ∨ (isHost port = true ∧ s.laneFrame? port sub f = none ∧
      (s.hostOn port = false ∨ Bytes.be f (skipTags f 12 4) 2 ≠ 0x8808 ∨ Bytes.be f (skipTags f 12 4 + 2) 2 ≠ 1))) :
    exec (.rxDiscard port sub f) s = .next ((s.rxCheck port sub f).1.portCount port sub 9 1) := by
  have goesOn : (s.rxCheck port sub f).2 = true := by rw [rxCheck_good hears fcs low high]
  obtain ⟨line, range⟩ := notLine_of_peerOrHost (untaken.imp And.left And.left)
  show execRxDiscard port sub f s = _
  unfold execRxDiscard
  rw [if_neg (by simp [line, range])]
  simp only [goesOn, Bool.not_true, Bool.false_eq_true, if_false]
  rcases untaken with ⟨peer, untaken⟩ | ⟨host, unrecognised, unpaused⟩
  · simp only [isHost_of_isPeer peer, untaken, Bool.false_eq_true, if_false]
  · have noPause : (s.hostOn port && decide (Bytes.be f (skipTags f 12 4) 2 = 0x8808 ∧ Bytes.be f (skipTags f 12 4 + 2) 2 = 1)) = false := by
      rcases unpaused with off | ty | op
      · simp [off]
      · simp [ty]
      · simp [op]
    simp only [host, unrecognised, noPause, Bool.false_eq_true, if_true, if_false]

end

/-- Settles O15: what takes the request off the lane or the wire, then the answer; and the counter of a frame that nothing takes. -/
theorem addressesAnswered : Obligations.AddressesAnswered := by
  unfold Obligations.AddressesAnswered
  refine fun s port sub f lf canon => ⟨fun host head hp hs hf => ⟨fun kind r hr => ?_, fun kind r hr => ?_⟩,
    fun host on hears fcs low high there => ⟨fun kind r hr => ?_, fun kind r hr => ?_⟩, fun _ hears fcs low high untaken => ?_⟩
  · exact replied_sent (arpRequest_run (takeProbe_lane host head hp hs hf kind) hr)
  · exact replied_sent (neighbourSolicitation_run (takeProbe_lane host head hp hs hf kind) hr)
  · exact replied_onArrival canon hears fcs low high (arpRequest_run (takeProbe_host host on hears fcs low high there kind) hr)
  · exact replied_onArrival canon hears fcs low high (neighbourSolicitation_run (takeProbe_host host on hears fcs low high there kind) hr)
  · exact ⟨_, rxDiscard_run hears fcs low high untaken,
      (portCount_selid ..).trans ((rxCheck_kept port sub f s (List.Subset.refl _) (.rfl' _ s)).selid (by decide)),
      rxCheck_discard canon hears fcs low high⟩

end Sys2Proof.Machine
end

section
/-! SUPPORT. Setup opens sessions (O16). -/
namespace Sys2Proof.Machine

/-! ### Identity signatures -/

@[simp] theorem logWrite_signNext (b : Bool) (kind value : Nat) (bad moved : Bool) (s : State) :
    (s.logWrite b kind value bad moved).1.dev.sec.signNext = s.dev.sec.signNext := by
  unfold State.logWrite
  cases moved <;> simp

@[simp] theorem logBoth_signNext (kind value nor : Nat) (s : State) : (s.logBoth kind value nor).1.dev.sec.signNext = s.dev.sec.signNext :=
  (logWrite_signNext ..).trans (logWrite_signNext ..)

@[simp] theorem prepareTree_signNext (s : State) : s.prepareTree.dev.sec.signNext = s.dev.sec.signNext := by
  unfold State.prepareTree
  dsimp only
  split
  · exact logBoth_signNext ..
  · rfl

/-- A signature that is made uses one index (R475). -/
theorem sign_signNext {s : State} {nor : Nat} (signed : (s.sign nor).2.isSome = true) : (s.sign nor).1.dev.sec.signNext = s.dev.sec.signNext + 1 := by
  unfold State.sign at signed ⊢
  dsimp only at signed ⊢
  generalize (if s.dev.sec.signNext = s.dev.sec.signLimit then s.logBoth 1 (s.dev.sec.signNext + 4096) nor else (s, true)) = commit at signed ⊢
  split at signed
  · cases signed
  next unlocked =>
  rw [if_neg unlocked]
  split at signed
  · cases signed
  next committed =>
  rw [if_neg committed]
  exact prepareTree_signNext _

/-! ### Setup messages -/

/-- A setup message of one fragment is that fragment's payload (R84). -/
theorem setupPayload_whole {h : SelidHead} (index : h.fragIndex = 0) (last : h.fragLast = 0) (r : Route) (s : State) :
    s.setupPayload r h = (s, some h.payload) := by
  unfold State.setupPayload
  rw [if_pos last, if_pos index]

section
variable {s u : State} {port sub ply : Nat} {f : Bytes} {r : Route} {h : SelidHead} (take : s.takeSelid port sub f = (u, some (r, h, ply)))
include take

theorem takeSelid_keeps : Kept [.counters, .selid, .ports, .net] s u := by
  have kept := takeSelid_kept port sub f s (List.Subset.refl _) (.rfl' _ s)
  rwa [take] at kept

theorem hello_run (kind : h.kind = 0) (index : h.fragIndex = 0) (last : h.fragLast = 0) (nor : Nat) :
    exec (.hello port sub f nor) s = .next (u.hello r h.payload nor) := by
  show execHello port sub f nor s = _
  unfold execHello
  simp only [take, kind, index, last, setupPayload_whole index last, ne_eq, not_true, Nat.not_lt_zero, if_false]

theorem accept_run (kind : h.kind = 2) (index : h.fragIndex = 0) (last : h.fragLast = 0) :
    exec (.accept port sub f) s = .next (u.accept r h.session h.payload) := by
  show execAccept port sub f s = _
  unfold execAccept
  simp only [take, kind, index, last, setupPayload_whole index last, ne_eq, not_true, Nat.not_lt_zero, if_false]

/-- SETUP_FRAGMENT (R84): a fragment that leaves its message incomplete is kept. -/
theorem setupFragment_run (kind : h.kind = 0 ∨ h.kind = 2) (several : 0 < h.fragLast) (range : h.fragIndex ≤ h.fragLast)
    (missing : ((u.dev.selid.fragsOf s.now r h).keep s.now h).complete = false) :
    ∃ t, exec (.setupFragment port sub f) s = .next t ∧ (u.dev.selid.fragsOf s.now r h).keep s.now h ∈ t.dev.selid.frags := by
  have taken : ¬((h.kind ≠ 0 ∧ h.kind ≠ 2) ∨ h.fragLast = 0 ∨ h.fragLast < h.fragIndex ∨
      ((u.dev.selid.fragsOf s.now r h).keep s.now h).complete = true) := by
    simp only [missing, Bool.false_eq_true, or_false]
    omega
  refine ⟨u.onSelid fun x => let x := x.dropFrags ((u.dev.selid.fragsOf s.now r h).keep s.now h)
    { x with frags := x.frags ++ [(u.dev.selid.fragsOf s.now r h).keep s.now h] }, ?_, List.mem_append_right _ List.mem_cons_self⟩
  show execSetupFragment port sub f s = _
  unfold execSetupFragment
  simp only [take]
  exact if_neg taken

end

/-! ### HELLO -/

/-- The state in which a half-open session has been entered with an OFFER and its key (R86, R92, R93). -/
def State.offering (r : Route) (p offer dk : Bytes) (s : State) : State :=
  s.onSelid fun x => { x with
    lastNum := s.dev.selid.nextNum, offers := (x.offers.filter fun o => decide (s.now < o + plies1s)) ++ [s.now]
    halfOpen := x.halfOpen ++ [{ num := s.dev.selid.nextNum, hello := p, offer, dk := dk, offerPly := s.now, route := r }] }

/-- A HELLO that nothing refuses is signed for, draws twice, and is answered with an OFFER (R86, R91, R92). -/
theorem hello_eq {s : State} {p : Bytes} {nor : Nat} (good : s.dev.helloBad s.now p = none) (signed : (s.sign nor).2.isSome = true) (r : Route) :
    ∃ offer dk, s.hello r p nor =
      ((s.sign nor).1.draw.2.draw.2.offering r p offer dk).sendOffer r (s.sign nor).1.dev.selid.nextNum (Bytes.le p 32 2) offer := by
  obtain ⟨c, hc⟩ := Option.isSome_iff_exists.mp signed
  unfold State.hello
  simp only [good, hc]
  exact ⟨_, _, rfl⟩

/-- HELLO (R86, R91 to R93): the half-open session that it opens. -/
theorem hello_opens {s : State} {p : Bytes} {nor : Nat} (good : s.dev.helloBad s.now p = none) (signed : (s.sign nor).2.isSome = true) (r : Route) :
    (s.hello r p nor).dev.sec.signNext = s.dev.sec.signNext + 1 ∧ (s.hello r p nor).dev.draws = s.dev.draws + 2 ∧
    (s.hello r p nor).dev.selid.lastNum = s.dev.selid.nextNum ∧
    ∃ o dk, (s.hello r p nor).dev.selid.halfOpen = s.dev.selid.halfOpen ++
      [{ num := s.dev.selid.nextNum, hello := p, offer := o, dk := dk, offerPly := s.now, route := r }] := by
  obtain ⟨o, dk, run⟩ := hello_eq good signed r
  have sign := sign_kept nor s (List.Subset.refl _) (.rfl' _ s)
  have selid : (s.sign nor).1.dev.selid = s.dev.selid := sign.selid (by decide)
  have now : (s.sign nor).1.now = s.now := sign.now
  let v := (s.sign nor).1.draw.2.draw.2.offering r p o dk
  have offer : Kept _ v (s.hello r p nor) := run ▸ sendOffer_kept _ _ _ _ v (List.Subset.refl _) (.rfl' _ v)
  rw [offer.sec (by decide), offer.draws (by decide), offer.selid (by decide)]
  rw [← sign_signNext signed, ← selid, ← now, ← sign.draws (by decide)]
  exact ⟨rfl, rfl, rfl, o, dk, rfl⟩

/-! ### ACCEPT -/

/-- The session that an ACCEPT with payload `p` makes of a half-open one, restricted where the ply began without an owner (R88 to R90, R113). -/
def State.sessionOf (s : State) (x : HalfOpen) (n : Nat) (r : Route) (p : Bytes) : Session :=
  let keys := sessionKeys (Bytes.slice (Config.sha256 (x.hello ++ x.offer ++ p)) 0 32) (Config.kemDecaps x.dk (Bytes.slice p 32 1568))
  { num := n, source := r, latest := r, restricted := !decide (s.start.sec.nvm.lifecycle ≠ 0), maxFrame := Bytes.le x.hello 32 2
    idle := grantIdle (Bytes.le x.hello 34 2), openPly := s.now, lastAccept := s.now, h2d := keys.1, d2h := keys.2 }

/-- The state in which session `y` has taken the place of its half-open session (R88, R92). -/
def State.accepting (y : Session) (s : State) : State :=
  ((s.dropHalf y.num).onSelid fun x => { x with sessions := x.sessions ++ [y] }).bump pgGlobal (0x100 + 8 * 2) 1

section
variable {s : State} {n : Nat} {p : Bytes} {x : HalfOpen}
  (half : (s.dev.selid.halfOpen.find? fun y => decide (y.num = n)) = some x)
  (good : s.dev.acceptBad s.now (decide (s.start.sec.nvm.lifecycle ≠ 0)) (some x) p = none)
  (stays : s.start.sec.nvm.lifecycle ≠ 0 ∨ s.dev.sec.nvm.lifecycle = 0)
include half good stays

/-- An ACCEPT that nothing refuses makes the session, and a message in it says so (R88, R89); the session stays, since no ENROL has completed in a
ply that began without an owner (R480, R497). -/
theorem accept_eq (r : Route) : ∃ m,
    s.accept r n p = (s.accepting (s.sessionOf x n r p)).sendProtected n r m := by
  have stay (m : Bytes) : ¬((!decide (s.start.sec.nvm.lifecycle ≠ 0)) = true ∧
      ((s.accepting (s.sessionOf x n r p)).sendProtected n r m).dev.sec.nvm.lifecycle ≠ 0) := by
    rw [sendProtected_sec]
    rcases stays with owned | unowned
    · simp [owned]
    · exact fun ended => ended.2 unowned
  unfold State.accept
  simp only [half, good]
  exact ⟨_, if_neg (stay _)⟩

/-- ACCEPT (R88 to R92): the half-open session is gone, and the session stands among those that are open. -/
theorem accept_opens (r : Route) :
    (∀ y ∈ (s.accept r n p).dev.selid.halfOpen, y.num ≠ n) ∧
    ∃ a e, { s.sessionOf x n r p with seqTx := a, ending := e } ∈ (s.accept r n p).dev.selid.sessions := by
  obtain ⟨m, run⟩ := accept_eq half good stays r
  obtain ⟨g, hg, selid⟩ := sendProtected_selid n r m (s.accepting (s.sessionOf x n r p))
  obtain ⟨a, e, changed⟩ := hg (s.sessionOf x n r p)
  rw [run, selid]
  refine ⟨fun y hy => of_decide_eq_true (List.mem_filter.mp hy).2, a, e, ?_⟩
  rw [← changed]
  exact List.mem_map.mpr ⟨_, List.mem_append_right _ List.mem_cons_self, if_pos rfl⟩

end

/-- HALF_OPEN_EXPIRE (R92): what is left once the half-open sessions that number `n` and the passing of 1 s name have expired. -/
theorem mem_unexpired (l : List HalfOpen) (n now : Nat) (x : HalfOpen) :
    x ∈ l.filter (fun y => !decide (y.num = n ∧ y.offerPly + plies1s ≤ now)) ↔ x ∈ l ∧ ¬(x.num = n ∧ x.offerPly + plies1s ≤ now) := by
  rw [List.mem_filter, Bool.not_eq_true', decide_eq_false_iff_not]

/-- Settles O16: HELLO and ACCEPT by the half-open session and the session that they leave, the rest by what is filtered. -/
theorem setupOpensSessions : Obligations.SetupOpensSessions := by
  unfold Obligations.SetupOpensSessions
  refine fun s u port sub nor n f r h ply => ⟨?_, ?_, ?_, ?_, ?_⟩
  · intro take kind index last good signed
    have taken := takeSelid_keeps take
    refine ⟨_, hello_run take kind index last nor, ?_⟩
    rw [← taken.sec (by decide), ← taken.draws (by decide), ← taken.now]
    exact hello_opens good signed r
  · intro x take kind index last half good stays
    have taken := takeSelid_keeps take
    obtain ⟨gone, a, e, there⟩ := accept_opens half good stays r
    refine ⟨_, accept_run take kind index last, gone, _, there, rfl, rfl, taken.now, rfl, ?_, rfl⟩
    rw [← taken.start]
    simp [State.sessionOf]
  · exact fun take kind several range missing => setupFragment_run take kind several range missing
  · exact ⟨_, rfl, fun g => by simp⟩
  · exact ⟨_, rfl, fun x => by rw [onSelid_selid, mem_unexpired]⟩

end Sys2Proof.Machine
end

section
/-! SUPPORT. Protected frames carry commands (O17). -/
namespace Sys2Proof.Machine

/-! ### Frames that are dropped -/

theorem authDropped_ctr {u : State} (canon : u.dev.canonical = true) : u.authDropped.dev.ctr pgGlobal 0x100 = u.dev.ctr pgGlobal 0x100 + 1 := by
  unfold State.authDropped
  rw [ctr_bump _ _ _ _ canon, if_pos rfl]
  rfl

/-! ### Commands that are accepted -/

/-- A command that no kept response answers, that repeats none in progress, and that nothing refuses joins the session's queue (R99, R102). -/
theorem acceptCmd_queues {s : State} {n : Nat} {x : Session} {c : Cmd} (open_ : s.session? n = some x) (kept : x.done = [])
    (room : x.cmds.length < 64) (new : ∀ q ∈ x.cmds, q.tag ≠ c.tag) (known : opcodeOk c.opcode = true) (allowed : x.restricted = false) :
    (s.acceptCmd n c).session? n = some { x with cmds := x.cmds ++ [c] } := by
  have unrepeated : (x.cmds.any fun q => decide (q.opcode = c.opcode ∧ q.tag = c.tag ∧ Config.sha256 q.body = Config.sha256 c.body)) = false := by
    simp only [List.any_eq_false, decide_eq_true_eq]
    exact fun q hq same => new q hq same.2.1
  have queued : s.acceptCmd n c = s.onSession n fun y => { y with cmds := y.cmds ++ [c] } := by
    unfold State.acceptCmd
    simp only [open_, kept, List.find?_nil, unrepeated, Nat.not_le.mpr room, known, allowed, Bool.not_true, Bool.false_and, Bool.false_eq_true,
      if_false]
  rw [queued, session?_onSession n (f := fun y => { y with cmds := y.cmds ++ [c] }) fun _ => rfl, open_]
  rfl

/-! ### Protected frames -/

/-- The command that a protected frame's plaintext carries (R98, R109). -/
def commandOf (r : Route) (h : SelidHead) (ply : Nat) (plain : Bytes) : Cmd :=
  { opcode := Bytes.le plain 0 2, tag := Bytes.le plain 2 2, body := plain.drop 12, route := r, ingress := ply, last := decide (h.seq = 2 ^ 64 - 1) }

/-- A session that has accepted a protected frame with SEQ `q` from a route (R95, R97, R112). -/
def Session.accepting (now q : Nat) (r : Route) (y : Session) : Session := { y.noteSeq q with lastAccept := now, latest := r }

/-- What opening a session's protected frame gives (R96). -/
def Session.plaintext (x : Session) (h : SelidHead) : Option Bytes :=
  Config.gcmOpen (x.h2d.take 32) (x.h2d.drop 32 ++ toLE 8 h.seq) h.header h.payload

section
variable {s u : State} {port sub ply : Nat} {f plain : Bytes} {r : Route} {h : SelidHead} {x : Session}
  (take : s.takeSelid port sub f = (u, some (r, h, ply))) (kind : h.kind = 3) (index : h.fragIndex = 0) (last : h.fragLast = 0)
  (open_ : u.session? h.session = some x)
include take kind index last open_

/-- PROTECTED (R95 to R97): a frame of a session that has idled, whose tag does not verify, or which is out of its window or from another source is
dropped and counted. -/
theorem protectedFrame_drops
    (bad : x.idled s.now = true ∨ x.plaintext h = none ∨ x.seqOk h.seq = false ∨ sameSource x.source r = false) :
    exec (.protectedFrame port sub f) s = .next u.authDropped := by
  show execProtected port sub f s = _
  unfold execProtected
  simp only [take, kind, index, last, open_, ne_eq, not_true, or_self, if_false]
  split
  · rfl
  next awake =>
  split
  · rfl
  next plain opened =>
  have refused : (!x.seqOk h.seq || !sameSource x.source r) = true := by
    rcases bad with idle | forged | seq | source
    · exact absurd idle awake
    · exact nomatch forged.symm.trans opened
    · simp [seq]
    · simp [source]
  exact if_pos refused

/-- PROTECTED (R97 to R99): the command of a frame that is accepted, its envelope whole. -/
theorem protectedFrame_accepts (opened : x.plaintext h = some plain) (awake : x.idled s.now = false) (seq : x.seqOk h.seq = true)
    (source : sameSource x.source r = true) (envelope : 12 ≤ plain.length) (len : Bytes.le plain 4 4 = plain.length - 12) :
    exec (.protectedFrame port sub f) s =
      .next ((u.onSession h.session (Session.accepting s.now h.seq r)).acceptCmd h.session (commandOf r h ply plain)) := by
  unfold Session.plaintext at opened
  show execProtected port sub f s = _
  unfold execProtected
  simp only [take, kind, index, last, open_, awake, opened, seq, source, session?_num open_, Nat.not_lt.mpr envelope, len, List.length_drop, ne_eq,
    not_true, or_self, Bool.not_true, Bool.false_eq_true, if_false]
  rfl

/-- PROTECTED (R97 to R99): the command of an accepted frame joins its session's queue, where nothing answers it at once. -/
theorem protectedFrame_queues (opened : x.plaintext h = some plain) (awake : x.idled s.now = false) (seq : x.seqOk h.seq = true)
    (source : sameSource x.source r = true) (envelope : 12 ≤ plain.length) (len : Bytes.le plain 4 4 = plain.length - 12) (kept : x.done = [])
    (room : x.cmds.length < 64) (new : ∀ q ∈ x.cmds, q.tag ≠ Bytes.le plain 2 2) (known : opcodeOk (Bytes.le plain 0 2) = true)
    (allowed : x.restricted = false) :
    ∃ t y, exec (.protectedFrame port sub f) s = .next t ∧ t.session? h.session = some y ∧ y.lastAccept = s.now ∧ y.latest = r ∧
      y.cmds = x.cmds ++ [commandOf r h ply plain] := by
  have noted : (u.onSession h.session (Session.accepting s.now h.seq r)).session? h.session = some (x.accepting s.now h.seq r) := by
    rw [session?_onSession _ (f := Session.accepting s.now h.seq r) fun _ => rfl, open_]
    rfl
  refine ⟨_, { x.accepting s.now h.seq r with cmds := x.cmds ++ [commandOf r h ply plain] },
    protectedFrame_accepts take kind index last open_ opened awake seq source envelope len, ?_, rfl, rfl, rfl⟩
  exact acceptCmd_queues (c := commandOf r h ply plain) noted kept room new known allowed

end

/-- Settles O17, by whether the frame's tag verifies. -/
theorem protectedFramesCarryCommands : Obligations.ProtectedFramesCarryCommands := by
  unfold Obligations.ProtectedFramesCarryCommands
  intro s u port sub f r h ply x canon take kind index last open_
  obtain ⟨t, run, -⟩ : ∃ t, exec (.protectedFrame port sub f) s = .next t ∧ _ := protectedFrame_keepsFootprint port sub f s
  have dropped (bad : x.idled s.now = true ∨ x.plaintext h = none ∨ x.seqOk h.seq = false ∨ sameSource x.source r = false) :
      t.dev.selid = u.dev.selid ∧ t.dev.ctr pgGlobal 0x100 = u.dev.ctr pgGlobal 0x100 + 1 := by
    cases run.symm.trans (protectedFrame_drops take kind index last open_ bad)
    exact ⟨rfl, authDropped_ctr canon⟩
  refine ⟨t, run, fun forged => dropped (.inr (.inl forged)), fun plain opened => ⟨fun outside => dropped (.inr (.inr outside)), ?_⟩⟩
  intro awake seq source envelope len kept room new known allowed
  obtain ⟨v, y, ran, queued⟩ := protectedFrame_queues take kind index last open_ opened awake seq source envelope len kept room new known allowed
  cases run.symm.trans ran
  exact ⟨y, queued⟩

end Sys2Proof.Machine
end

section
/-! SUPPORT. Sessions echo and end (O18). -/
namespace Sys2Proof.Machine

section
variable {s : State} {n : Nat} {x : Session} {c : Cmd}

/-- ECHO (R102): its body comes back, on the route of the command. -/
theorem echo_run (go : s.ready n 0x01 = some (x, c)) (short : c.body.length ≤ 256) (fits : c.body.length ≤ bodyRoom x c.route) :
    exec (.echo n) s = .next (s.complete n 0x01 stOK 0 c.body) := by
  show execEcho n s = _
  unfold execEcho
  rw [command_eq go, if_neg (Nat.not_lt.mpr short), sized_eq fits]

/-- CLOSE (R95, R102): the session ends when the command is answered. -/
theorem close_run (go : s.ready n 0x02 = some (x, c)) (empty : c.body = []) :
    exec (.close n) s = .next ((s.complete n 0x02 stOK 0 []).endSession n) := by
  show execClose n s = _
  unfold execClose
  rw [command_eq go, if_neg (by simp [empty])]

/-- SESSION_IDLE_TIMEOUT (R95): IDLE seconds without an accepted frame have passed. -/
theorem sessionIdleTimeout_run (open_ : s.session? n = some x) (idle : x.lastAccept + x.idle * plies1s ≤ s.now) :
    exec (.sessionIdleTimeout n) s = .next (s.endSession n) := by
  show execSessionIdleTimeout n s = _
  unfold execSessionIdleTimeout
  rw [open_]
  exact if_pos (decide_eq_true idle)

end

/-- Settles O18: ECHO by what a completed command sends, CLOSE and the idle timeout by the end of the session. -/
theorem sessionsEchoAndEnd : Obligations.SessionsEchoAndEnd := by
  unfold Obligations.SessionsEchoAndEnd
  refine fun s n x c => ⟨fun go short fits => ?_, fun go empty => ?_, fun open_ idle => ?_⟩
  · obtain ⟨hx, hc⟩ := ready_first go
    exact ⟨_, echo_run go short fits, complete_answered hx hc, complete_sent hx hc⟩
  · exact ⟨_, close_run go empty, endSession_session? n _⟩
  · exact ⟨_, sessionIdleTimeout_run open_ idle, endSession_session? n s⟩

end Sys2Proof.Machine
end

section
/-! SUPPORT. Quenches and sinks serve (O19). -/
namespace Sys2Proof.Machine

/-! ### Quenches -/

theorem ceaseQuenches_keeps (s : State) : Kept [.selid] s s.ceaseQuenches := ceaseQuenches_kept s (List.Subset.refl _) (.rfl' _ s)

/-- Ending quenches leaves the sessions. -/
theorem endQuenches_session? (l : List Nat) (s : State) (n : Nat) : (State.each l State.endQuench s).session? n = s.session? n := by
  induction l generalizing s with
  | nil => rfl
  | cons q r ih => exact ih (s.endQuench q)

section
variable {s : State} {n q : Nat} {x : Session} {c : Cmd}

/-- A QUENCH of all traffic as it is entered under its QID: it acts from the following ply, for its DURATION if it has one (R107, R109). -/
def State.newQuench (s : State) (b : Bytes) : Quench :=
  { ports := Bytes.le b 0 4, chan := s.chanOf 0, pass := false, effect := s.now + 1
    until_ := if Bytes.le b 16 8 = 0 then none else some (s.now + 1 + Bytes.le b 16 8) }

/-- The state in which the quench of a QUENCH's body has taken QID `q`. -/
def State.quenched (s : State) (b : Bytes) (q : Nat) (pool : Pool) : State :=
  s.ceaseQuenches.onSelid fun y => { y with quench := Table.put y.quench q (s.newQuench b), qids := pool }

/-- QUENCH of all traffic (R107 to R110). -/
theorem quench_run {pool : Pool} (go : s.ready n 0x60 = some (x, c)) (len : c.body.length = 24) (ports : Bytes.le c.body 0 4 ≠ 0)
    (handle : Bytes.le c.body 4 4 = 0) (action : Bytes.at c.body 8 = 0) (reserved : badReserved c.body [(9, 3), (12, 4)] = none)
    (fits : 16 ≤ bodyRoom x c.route) (free : s.ceaseQuenches.dev.selid.qids.take 64 = some (q, pool)) :
    exec (.quench n) s = .next ((s.quenched c.body q pool).complete n 0x60 stOK 0 (toLE 4 q ++ zeros 4 ++ toLE 8 (s.now + 1))) := by
  have kept := ceaseQuenches_keeps s
  have now : s.ceaseQuenches.now = s.now := kept.now
  have chan : s.ceaseQuenches.chanOf 0 = s.chanOf 0 := by
    unfold State.chanOf
    rw [kept.start]
  show execQuench n s = _
  unfold execQuench
  rw [command_eq go]
  simp only [reserved, len, ports, handle, action, sized_eq fits, free, now, chan, ne_eq, not_true, if_false, false_and,
    Nat.not_lt_zero, Nat.zero_ne_one, and_false, or_false, decide_false]
  rfl

/-- UNQUENCH of one QID (R110). -/
theorem unquench_run {z : Quench} (go : s.ready n 0x61 = some (x, c)) (len : c.body.length = 4) (qid : Bytes.le c.body 0 4 = q) (range : q < 64)
    (fits : 8 ≤ bodyRoom x c.route) (there : Table.get? s.ceaseQuenches.dev.selid.quench q = some z) :
    exec (.unquench n) s = .next ((s.ceaseQuenches.endQuench q).complete n 0x61 stOK 0 (toLE 8 s.now)) := by
  have now : s.ceaseQuenches.now = s.now := (ceaseQuenches_keeps s).now
  have one : q ≠ 0xFFFFFFFF := by omega
  show execUnquench n s = _
  unfold execUnquench
  rw [command_eq go]
  simp only [len, qid, Nat.not_le.mpr range, sized_eq fits, one, there, now, ne_eq, not_true, not_false_iff, if_false, and_false,
    Option.isNone_some, Bool.false_eq_true]

/-- QUENCH_EXPIRE (R109): the DURATION has passed. -/
theorem quenchExpire_run {z : Quench} {u : Nat} (there : Table.get? s.dev.selid.quench q = some z) (ends : z.until_ = some u) (passed : u ≤ s.now) :
    exec (.quenchExpire q) s = .next (s.endQuench q) := by
  show execQuenchExpire q s = _
  unfold execQuenchExpire
  rw [there]
  exact if_pos (by simp [Quench.over, ends, passed])

end

/-! ### Sinks -/

/-- The number of a set as the byte of SINK_JOIN and SINK_LEAVE. -/
theorem at_byte {k : Nat} (range : k < 16) (rest : Bytes) : Bytes.at (byte k :: rest) 0 = k := by
  show k % 256 = k
  omega

section
variable {s : State} {n k op : Nat} {x : Session} {c : Cmd}

/-- A command on sink set `k` that nothing in its frame refuses (R111). -/
theorem sinkCommand_eq (go : s.ready n op = some (x, c)) (body : c.body = [byte k, 0, 0, 0]) (range : k < 16) (fits : 4 ≤ bodyRoom x c.route)
    (run : Nat → State → State) : s.sinkCommand n op run = run k s := by
  have set : Bytes.at c.body 0 = k := by rw [body, at_byte range]
  have reserved : Bytes.le c.body 1 3 = 0 := by rw [body]; rfl
  have len : c.body.length = 4 := by rw [body]; rfl
  unfold State.sinkCommand
  rw [command_eq go]
  simp only [reserved, len, set, sized_eq fits, ne_eq, not_true, if_false, Nat.not_lt.mpr (show k ≤ 15 by omega)]

theorem sinkAnswer_sinkSet (sess op k j : Nat) (s : State) : (s.sinkAnswer sess op k).dev.sinkSet j = s.dev.sinkSet j := by
  unfold State.sinkAnswer Dev.sinkSet
  rw [complete_sinks]

/-- The state in which session `n` has joined set `k` as its last sink (R111). -/
def State.joined (n k : Nat) (s : State) : State := s.onSelid fun y => { y with sinks := Table.put y.sinks k (s.dev.sinkSet k ++ [{ sess := n }]) }

theorem joined_sinkSet (n k : Nat) (s : State) : (s.joined n k).dev.sinkSet k = s.dev.sinkSet k ++ [{ sess := n }] := by
  show Table.get [] (Table.put _ _ _) _ = _
  unfold Table.get
  rw [Table.get?_put, if_pos rfl]
  rfl

/-- SINK_JOIN (R111) to a set that has room and not yet the session. -/
theorem sinkJoin_run (go : s.ready n 0x80 = some (x, c)) (body : c.body = [byte k, 0, 0, 0]) (range : k < 16) (fits : 4 ≤ bodyRoom x c.route)
    (new : ∀ y ∈ s.dev.sinkSet k, y.sess ≠ n) (room : (s.dev.sinkSet k).length < 4) :
    exec (.sinkJoin n) s = .next ((s.joined n k).sinkAnswer n 0x80 k) := by
  show execSinkJoin n s = _
  unfold execSinkJoin
  rw [sinkCommand_eq go body range fits]
  dsimp only
  rw [if_neg (by simpa using new), if_neg (Nat.not_le.mpr room)]
  rfl

/-- SINK_LEAVE (R111, R583). -/
theorem sinkLeave_run (go : s.ready n 0x81 = some (x, c)) (body : c.body = [byte k, 0, 0, 0]) (range : k < 16) (fits : 4 ≤ bodyRoom x c.route) :
    exec (.sinkLeave n) s = .next ((s.onSelid fun y =>
      { y with sinks := Table.modify [] y.sinks k fun l => l.filter fun z => decide (z.sess ≠ n) }).sinkAnswer n 0x81 k) := by
  show execSinkLeave n s = _
  unfold execSinkLeave
  rw [sinkCommand_eq go body range fits]

end

/-! ### EVENT messages -/

/-- How many records of a sink go into one EVENT message to its session: at most 32, of successive numbers, and as many as fit (R112). -/
def Sink.sendable (z : Sink) (first : Nat) (x : Session) : Nat := min (min 32 (runLength first z.nums)) ((bodyRoom x x.latest - 8) / 32)

/-- The body of an EVENT message to a sink's session, whose first record has number `first` (R112). -/
def Sink.message (z : Sink) (first : Nat) (x : Session) : Bytes :=
  toLE 4 first ++ [byte (z.sendable first x), 0, 0, 0] ++ ((z.queue.take (z.sendable first x)).map EventRecord.bytes).flatten

/-- The state in which the first `m` records of session `n`'s sink in set `k` have left its queue. -/
def State.unqueued (k n m : Nat) (s : State) : State :=
  s.onSelid fun y => { y with sinks := Table.modify [] y.sinks k fun l => l.map fun z =>
    if z.sess = n then { z with queue := z.queue.drop m, nums := z.nums.drop m } else z }

section
variable {s : State} {k n first : Nat} {more : List Nat} {x : Session} {z : Sink}

theorem sendable_pos (nums : z.nums = first :: more) (fits : 0 < (bodyRoom x x.latest - 8) / 32) : 0 < z.sendable first x := by
  unfold Sink.sendable
  simp only [nums, runLength, if_true]
  omega

/-- EVENT (R112): queued records leave in a message to the latest route of the sink's session. -/
theorem event_run (sink : (s.dev.sinkSet k).find? (fun y => decide (y.sess = n)) = some z) (open_ : s.session? n = some x)
    (nums : z.nums = first :: more) (fits : 0 < (bodyRoom x x.latest - 8) / 32) :
    exec (.event k n) s = .next (((s.unqueued k n (z.sendable first x)).sendProtected n x.latest
      (envelope 0x4001 0 0 0 (z.message first x))).bump pgRouting 0x110 1) := by
  have nonzero : ¬z.sendable first x = 0 := Nat.ne_of_gt (sendable_pos nums fits)
  unfold Sink.message Sink.sendable at *
  show execEvent k n s = _
  unfold execEvent
  simp only [sink, open_]
  rw [nums] at nonzero ⊢
  exact if_neg nonzero

/-- EVENT (R112): the message sets out while the session has a SEQ left. -/
theorem event_sent (sink : (s.dev.sinkSet k).find? (fun y => decide (y.sess = n)) = some z) (open_ : s.session? n = some x)
    (nums : z.nums = first :: more) (fits : 0 < (bodyRoom x x.latest - 8) / 32) (left : x.seqTx < 2 ^ 64) :
    ∃ t, ∃ w : Bytes, exec (.event k n) s = .next t ∧ s.sent t x.latest.port x.latest.sub w.length
      (.selid x.latest 3 n x.seqTx (envelope 0x4001 0 0 0 (z.message first x)) w) := by
  have same : s.SendsAs (s.unqueued k n (z.sendable first x)) x.latest.port x.latest.sub :=
    (onSelid_kept _ (List.Subset.refl _) (.rfl' _ s)).sendsAs (by decide) ..
  obtain ⟨w, sent⟩ := sendProtected_sent (s := s.unqueued k n (z.sendable first x)) open_ left x.latest
    (envelope 0x4001 0 0 0 (z.message first x))
  exact ⟨_, w, event_run sink open_ nums fits, (sent.before same).after rfl rfl rfl⟩

end

/-- Settles O19: quenches and sinks by what each command leaves of Selid, EVENT by what a protected message sends. -/
theorem quenchesAndSinksServe : Obligations.QuenchesAndSinksServe := by
  unfold Obligations.QuenchesAndSinksServe
  refine ⟨fun s n q x c pool z u => ⟨?_, ?_, ?_⟩, fun s n k x c z first more => ⟨?_, ?_, ?_⟩⟩
  · intro go len ports handle action reserved fits free
    refine ⟨_, quench_run go len ports handle action reserved fits free, complete_qids .., ?_, answered_of_ready go (endQuenches_session? _ s n)⟩
    rw [complete_quench]
    exact (Table.get?_put ..).trans (if_pos rfl)
  · intro go len qid range fits there
    exact ⟨_, unquench_run go len qid range fits there, complete_quench .., complete_qids .., answered_of_ready go (endQuenches_session? _ s n)⟩
  · exact fun there ends passed => ⟨_, quenchExpire_run there ends passed, rfl, rfl⟩
  · intro go body range fits new room
    refine ⟨_, sinkJoin_run go body range fits new room, (sinkAnswer_sinkSet ..).trans (joined_sinkSet n k s), ?_⟩
    have members : ((s.joined n k).dev.sinkSet k).length = (s.dev.sinkSet k).length + 1 := by simp [joined_sinkSet]
    unfold State.sinkAnswer
    rw [members]
    exact answered_of_ready go rfl
  · exact fun go body range fits => ⟨_, sinkLeave_run go body range fits, complete_sinks ..⟩
  · exact event_sent

end Sys2Proof.Machine
end

section
/-! SUPPORT. Links and the reference clock come and go (O13): what an operation on one port leaves of the others, and of the flags of the pages. -/
namespace Sys2Proof.Machine

/-! ### Operations over a list -/

section
variable {α : Type} {f : α → State → State}

/-- What each step over a list leads to is reached over the list. -/
theorem each_related {R : State → State → Prop} (refl : ∀ s, R s s) (trans : ∀ {s t u}, R s t → R t u → R s u)
    (step : ∀ a s, R s (f a s)) (l : List α) (s : State) : R s (State.each l f s) := by
  induction l generalizing s with
  | nil => exact refl s
  | cons a r ih => exact trans (step a s) (ih (f a s))

/-- What the step at `a` brings about, and every step keeps, holds after the steps over a list with `a`; `I` is what every step may count on. -/
theorem each_reaches {I Q : State → Prop} (keepsI : ∀ b s, I s → I (f b s)) (keepsQ : ∀ b s, I s → Q s → Q (f b s)) {a : α}
    (brings : ∀ s, I s → Q (f a s)) {l : List α} (there : a ∈ l) {s : State} (start : I s) : Q (State.each l f s) := by
  have stays (r : List α) (u : State) (hI : I u) (hQ : Q u) : Q (State.each r f u) := by
    induction r generalizing u with
    | nil => exact hQ
    | cons b r ih => exact ih _ (keepsI b u hI) (keepsQ b u hI hQ)
  induction l generalizing s with
  | nil => cases there
  | cons b r ih =>
    rcases List.mem_cons.mp there with rfl | there
    · exact stays r _ (keepsI a s start) (brings s start)
    · exact ih there (keepsI b s start)

end

/-! ### Operations on one port -/

/-- Of the ports, what leads from `s` to `t` changes at most port `p`. -/
structure State.OnlyPort (p : Nat) (s t : State) : Prop where
  canon : s.dev.canonical = true → t.dev.canonical = true
  others : s.dev.canonical = true → ∀ q, q ≠ p → t.dev.port q = s.dev.port q

section
variable {P : List Part} {s t u : State} {p : Nat}

theorem State.OnlyPort.trans (a : s.OnlyPort p t) (b : t.OnlyPort p u) : s.OnlyPort p u :=
  ⟨fun c => b.canon (a.canon c), fun c q h => (b.others (a.canon c) q h).trans (a.others c q h)⟩

theorem Kept.ports (h : Kept P s t) (hP : Part.ports ∉ P) : t.dev.ports = s.dev.ports := (h.frame .ports hP).1.symm

theorem Kept.onlyPort (h : Kept P s t) (hP : Part.ports ∉ P) (p : Nat) : s.OnlyPort p t :=
  ⟨h.canon, fun _ q _ => port_of_ports (h.ports hP) q⟩

theorem onPort_onlyPort (p : Nat) {f : Port → Port} (wf : ∀ q : Port, q.wf = true → (f q).wf = true) (s : State) :
    s.OnlyPort p (s.onPort p f) :=
  ⟨(onPort_kept p f (List.Subset.refl _) (.rfl' _ s) wf).canon, fun c q h => (port_onPort p f s c q).trans (if_neg h.symm)⟩

theorem State.OnlyPort.refl (p : Nat) (s : State) : s.OnlyPort p s := (Kept.rfl' [] s).onlyPort (by decide) p

end

/-- A sub-port, when it or another of its port is changed. -/
theorem subp_onSub_ite {s : State} (canon : s.dev.canonical = true) (p j : Nat) (f : SubPort → SubPort) (i : Nat) :
    ((s.onPort p fun q => q.onSub j f).dev.port p).subp i = if j = i then f ((s.dev.port p).subp j) else (s.dev.port p).subp i := by
  rw [port_onPort _ _ _ canon, if_pos rfl]
  simp only [Dev.canonical, Bool.and_eq_true] at canon
  exact Table.get_modify _ _ _ (Port.wf_subs (Port.wf_get canon.2.2.1 p)) i

theorem lane_onLane {s : State} (canon : s.dev.canonical = true) (p i : Nat) (f : PortLane → PortLane) :
    ((s.onPort p fun q => q.onLane i f).dev.port p).lane i = f ((s.dev.port p).lane i) := by
  rw [port_onPort _ _ _ canon, if_pos rfl]
  simp only [Dev.canonical, Bool.and_eq_true] at canon
  exact (Table.get_modify _ _ _ (Port.wf_lanes (Port.wf_get canon.2.2.1 p)) i).trans (if_pos rfl)

/-! ### Flags that stay -/

/-- What leads from `s` to `t` leaves every EVENT bit that is 1 so, and every STATUS.FAULTED as it is. -/
structure State.FlagsStay (s t : State) : Prop where
  canon : s.dev.canonical = true → t.dev.canonical = true
  raised : s.dev.canonical = true → ∀ p b, s.raised p b → t.raised p b
  faulted : s.dev.canonical = true → ∀ p, (t.dev.hdr p).faulted = (s.dev.hdr p).faulted

section
variable {P : List Part} {s t u : State}

theorem State.FlagsStay.trans (a : s.FlagsStay t) (b : t.FlagsStay u) : s.FlagsStay u :=
  ⟨fun c => b.canon (a.canon c), fun c p n r => b.raised (a.canon c) p n (a.raised c p n r),
    fun c p => (b.faulted (a.canon c) p).trans (a.faulted c p)⟩

theorem Kept.flagsStay (h : Kept P s t) (hP : Part.headers ∉ P) : s.FlagsStay t :=
  ⟨h.canon, fun _ _ _ r => h.raised hP r, fun _ p => by rw [hdr_congr (h.frame .headers hP).symm]⟩

theorem State.FlagsStay.refl (s : State) : s.FlagsStay s := (Kept.rfl' [] s).flagsStay (by decide)

/-- A set of EVENT bits leaves a header as it is, or sets the bits in it. -/
theorem hdr_setEvents (q : Nat) (v : Word) (canon : s.dev.canonical = true) (p : Nat) :
    (s.setEvents q v).dev.hdr p = s.dev.hdr p ∨ ∃ n m, (s.setEvents q v).dev.hdr p = PageHdr.setBitsIn n m v (s.dev.hdr p) := by
  unfold State.setEvents
  have touched : Kept [.score] s (if v = 0 then s else s.touchPage q 3) :=
    ite_kept (.rfl' _ s) (touchPage_kept q 3 s (List.Subset.refl _) (.rfl' _ s))
  generalize (if v = 0 then s else s.touchPage q 3) = u at touched
  have same : u.dev.hdr p = s.dev.hdr p := hdr_congr (touched.frame .headers (by decide)).symm p
  dsimp only
  split
  · exact .inl same
  · rw [hdr_onHdr _ _ _ (touched.canon canon)]
    split
    · next h =>
      rw [h, same]
      exact .inr ⟨_, _, rfl⟩
    · exact .inl same

theorem setEvents_flagsStay (q : Nat) (v : Word) (s : State) : s.FlagsStay (s.setEvents q v) := by
  refine ⟨(setEvents_kept q v s (List.Subset.refl _) (.rfl' _ s)).canon, fun c _ _ => raised_setEvents q v c, fun c p => ?_⟩
  rcases hdr_setEvents q v c p with h | ⟨n, m, h⟩
  · rw [h]
  · rw [h]
    rfl

theorem setEvent_flagsStay (q b : Nat) (s : State) : s.FlagsStay (s.setEvent q b) := setEvents_flagsStay q (oneBit b) s

/-- A set of EVENT bits of a page that no reset clears in the ply: each of the bits is 1 after it (R51, R63). -/
theorem setEvents_raised (p b : Nat) {v : Word} (named : v.getLsbD b = true) (clear : s.clearedNow p = false) : (s.setEvents p v).raised p b := by
  have nonzero : v ≠ 0 := by
    rintro rfl
    simp at named
  rw [State.raised, setEvents_event p v s nonzero clear]
  simp [named]

/-- Setting or clearing STATUS.FAULTED changes no other field of a header (R62). -/
theorem hdr_setFaulted (q : Nat) (f : Bool) (canon : s.dev.canonical = true) (clear : s.clearedNow q = false) (p : Nat) :
    (s.setFaulted q f).dev.hdr p = if q = p then { s.dev.hdr q with faulted := f } else s.dev.hdr p := by
  have touched := touchPage_kept q 2 s (List.Subset.refl _) (.rfl' _ s)
  have same (r : Nat) : (s.touchPage q 2).dev.hdr r = s.dev.hdr r := hdr_congr (touched.frame .headers (by decide)).symm r
  cases f with
  | false => exact hdr_onHdr q (fun h => { h with faulted := false }) s canon p
  | true =>
    unfold State.setFaulted State.markFaulted
    rw [if_pos rfl, clear, if_neg Bool.false_ne_true, hdr_onHdr _ _ _ (touched.canon canon), same, same]

theorem setFaulted_faulted (q : Nat) (f : Bool) (canon : s.dev.canonical = true) (clear : s.clearedNow q = false) :
    ((s.setFaulted q f).dev.hdr q).faulted = f := by
  rw [hdr_setFaulted q f canon clear, if_pos rfl]

theorem raised_setFaulted (q : Nat) (f : Bool) (canon : s.dev.canonical = true) (clear : s.clearedNow q = false) {p b : Nat} (r : s.raised p b) :
    (s.setFaulted q f).raised p b := by
  unfold State.raised
  rw [hdr_setFaulted q f canon clear]
  split
  · next h => exact h ▸ r
  · exact r

end

/-! ### Links go down -/

section
variable (p i : Nat) (s : State)

theorem peerDown_flagsStay : s.FlagsStay (s.peerDown p) := by
  have may {c : Prop} [Decidable c] (q b : Nat) (v : State) : v.FlagsStay (if c then v.setEvent q b else v) := by
    split
    · exact setEvent_flagsStay ..
    · exact .refl v
  exact (may pgDeep 4 s).trans (may pgPair 5 _)

/-- A sub-port as it goes down (R136, R143). -/
def SubPort.wentDown (x : SubPort) : SubPort := { x with up := false, anDone := false, trained := false, speed := 0 }

/-- The state in which a sub-port that was up has gone down and LINK_DOWN is set (R136, R143). -/
def State.linkLost : State := (s.onPort p fun q => q.onSub i SubPort.wentDown).setEvent (pageOf tPort p) i

theorem subDown_of_up (up : s.subUp p i = true) :
    s.subDown p i = if isPeer p then (s.linkLost p i).peerDown p else s.linkLost p i := by
  unfold State.subDown
  rw [if_pos up]
  rfl

theorem subDown_of_down (down : s.subUp p i = false) : s.subDown p i = s := by
  unfold State.subDown
  rw [down, if_neg Bool.false_ne_true]

theorem onSub_kept (f : SubPort → SubPort) : Kept [.ports] s (s.onPort p fun q => q.onSub i f) :=
  onPort_kept p _ (List.Subset.refl _) (.rfl' _ s) fun _ => Port.wf_onSub i f

theorem subDown_flagsStay : s.FlagsStay (s.subDown p i) := by
  have lost : s.FlagsStay (s.linkLost p i) := ((onSub_kept p i s _).flagsStay (by decide)).trans (setEvent_flagsStay ..)
  cases up : s.subUp p i with
  | false =>
    rw [subDown_of_down p i s up]
    exact .refl s
  | true =>
    rw [subDown_of_up p i s up]
    split
    · exact lost.trans (peerDown_flagsStay ..)
    · exact lost

/-- A sub-port that was up goes down, and of the ports nothing else changes (R136). -/
theorem subDown_ports (up : s.subUp p i = true) : (s.subDown p i).dev.ports = (s.onPort p fun q => q.onSub i SubPort.wentDown).dev.ports := by
  rw [subDown_of_up p i s up]
  split
  · exact ((peerDown_kept p _ (List.Subset.refl _) (.rfl' _ _)).ports (by decide)).trans (setEvent_ports ..)
  · exact setEvent_ports ..

theorem subDown_onlyPort : s.OnlyPort p (s.subDown p i) := by
  cases up : s.subUp p i with
  | false =>
    rw [subDown_of_down p i s up]
    exact .refl p s
  | true =>
    refine ⟨(subDown_kept p i s (List.Subset.refl _) (.rfl' _ s)).canon, fun c q h => ?_⟩
    rw [port_of_ports (subDown_ports p i s up)]
    exact (onPort_onlyPort p (fun _ => Port.wf_onSub i _) s).others c q h

theorem subDown_lane (canon : s.dev.canonical = true) (k : Nat) : ((s.subDown p i).dev.port p).lane k = (s.dev.port p).lane k := by
  cases up : s.subUp p i with
  | false => rw [subDown_of_down p i s up]
  | true =>
    rw [port_of_ports (subDown_ports p i s up), port_onPort _ _ _ canon, if_pos rfl]
    rfl

theorem subDown_raised (up : s.subUp p i = true) (range : i < 4) (canon : s.dev.canonical = true) (clear : s.clearedNow (pageOf tPort p) = false) :
    (s.subDown p i).raised (pageOf tPort p) i := by
  have kept := onSub_kept p i s SubPort.wentDown
  have lost : (s.linkLost p i).raised (pageOf tPort p) i :=
    setEvent_raised' _ i _ (by omega) ((kept.clearedNow (by decide) (by decide) _).trans clear)
  rw [subDown_of_up p i s up]
  split
  · exact (peerDown_flagsStay p _).raised ((setEvent_flagsStay ..).canon (kept.canon canon)) _ _ lost
  · exact lost

end

/-! ### Autonegotiation begins again -/

section
variable {s t : State} {p : Nat}

/-- A port whose sub-ports advertise anew, with these pause abilities (R122). -/
def Port.advertised (pauses : Bool × Bool) (q : Port) : Port :=
  [0, 1, 2, 3].foldl (fun q i =>
    q.onSub i fun x => { x with advert := if q.squelched || decide (x.lanes = 0) then none else q.advertOf pauses x.lanes }) q

theorem advertise_eq (p : Nat) (s : State) : s.advertise p = s.onPort p (Port.advertised (s.pauses p)) := rfl

theorem Port.wf_advertised (pauses : Bool × Bool) (q : Port) (h : q.wf = true) : (q.advertised pauses).wf = true :=
  Port.wf_fold (fun _ i h => Port.wf_onSub i _ h) _ h

/-- A port that advertises anew stays enabled and squelched as it is. -/
theorem Port.advertised_fields (pauses : Bool × Bool) (q : Port) :
    (q.advertised pauses).enabled = q.enabled ∧ (q.advertised pauses).squelched = q.squelched := by
  simp [Port.advertised, Port.onSub]

theorem advertise_onlyPort (p : Nat) (s : State) : s.OnlyPort p (s.advertise p) := onPort_onlyPort p (Port.wf_advertised _) s

theorem advertise_keeps (p : Nat) (s : State) : Kept [.ports] s (s.advertise p) := advertise_kept p s (List.Subset.refl _) (.rfl' _ s)

/-- What a port advertises is as the registers of the start of the ply say (R48, R122). -/
theorem advertise_ports (ports : t.dev.ports = s.dev.ports) (start : t.start = s.start) (p : Nat) :
    (t.advertise p).dev.ports = (s.advertise p).dev.ports := by
  have pauses : t.pauses p = s.pauses p := by
    unfold State.pauses State.rg
    rw [start]
  rw [advertise_eq, advertise_eq, pauses]
  exact congrArg (Table.modify {} · p _) ports

theorem advertise_fields (canon : s.dev.canonical = true) (p : Nat) :
    ((s.advertise p).dev.port p).enabled = (s.dev.port p).enabled ∧ ((s.advertise p).dev.port p).squelched = (s.dev.port p).squelched := by
  rw [advertise_eq, port_onPort _ _ _ canon, if_pos rfl]
  exact Port.advertised_fields _ _

end

/-! ### Frames of a peer port -/

/-- What sends frames on port `p` changes no other port, takes no link of it up or down, and without LOOPBACK changes nothing of it (R143). -/
structure State.SendsOn (p : Nat) (s t : State) : Prop where
  only : s.OnlyPort p t
  start : t.start = s.start
  up : s.dev.canonical = true → ∀ i, t.subUp p i = s.subUp p i
  quiet : s.loops p = false → t.dev.ports = s.dev.ports

section
variable {P : List Part} {s t u : State} {p : Nat}

theorem State.SendsOn.trans (a : s.SendsOn p t) (b : t.SendsOn p u) : s.SendsOn p u := by
  refine ⟨a.only.trans b.only, b.start.trans a.start, fun c i => (b.up (a.only.canon c) i).trans (a.up c i),
    fun h => (b.quiet ?_).trans (a.quiet h)⟩
  unfold State.loops State.ctl at *
  rw [a.start]
  exact h

theorem Kept.sendsOn (h : Kept P s t) (hP : Part.ports ∉ P) (p : Nat) : s.SendsOn p t :=
  ⟨h.onlyPort hP p, h.start, fun _ _ => by unfold State.subUp State.port; rw [port_of_ports (h.ports hP)], fun _ => h.ports hP⟩

theorem State.SendsOn.refl (p : Nat) (s : State) : s.SendsOn p s := (Kept.rfl' [] s).sendsOn (by decide) p

theorem onTeam_sendsOn (f : Team → Team) (s : State) : s.SendsOn p (s.onTeam f) :=
  (onTeam_kept f (List.Subset.refl _) (.rfl' _ s)).sendsOn (by decide) p

theorem onPair_sendsOn (f : Pair → Pair) (s : State) : s.SendsOn p (s.onPair f) :=
  (onPair_kept f (List.Subset.refl _) (.rfl' _ s)).sendsOn (by decide) p

theorem portCount_sendsOn (sub k n : Nat) (s : State) : s.SendsOn p (s.portCount p sub k n) :=
  (portCount_kept p sub k n s (List.Subset.refl _) (.rfl' _ s)).sendsOn (by decide) p

/-- A frame that leaves: with LOOPBACK it stands before the receiver of its sub-port (R143). -/
theorem leave_sendsOn (p sub : Nat) (o : Out) (s : State) : s.SendsOn p (s.leave p sub o) := by
  have emitted (x : Out) : s.SendsOn p (s.emit x) := (emit_kept x (List.Subset.refl _) (.rfl' _ s)).sendsOn (by decide) p
  unfold State.leave
  split
  · next loops =>
    refine (emitted _).trans ⟨onPort_onlyPort p (fun _ => Port.wf_onSub sub _) _, rfl, fun c i => ?_, fun h => ?_⟩
    · unfold State.subUp State.port
      rw [subp_onSub_ite c]
      split
      · next h => rw [h]
      · rfl
    · exact absurd (show s.loops p = false from h) (by simp [loops])
  · exact emitted o

theorem sendNow_sendsOn (p sub : Nat) (o : Out) (len : Nat) (s : State) : s.SendsOn p (s.sendNow p sub o len) := by
  unfold State.sendNow
  split
  · exact ((leave_sendsOn p sub o s).trans (portCount_sendsOn ..)).trans (portCount_sendsOn ..)
  · exact portCount_sendsOn ..

theorem sendWaiting_sendsOn (w : Waiting) (s : State) : s.SendsOn w.port (s.sendWaiting w) := by
  unfold State.sendWaiting State.sendOut
  split
  · exact (onTraffic_kept _ (List.Subset.refl _) (.rfl' _ s)).sendsOn (by decide) _
  · dsimp only
    split
    · exact (sendNow_sendsOn ..).trans ((bump_kept _ _ _ (List.Subset.refl _) (.rfl' _ _)).sendsOn (by decide) _)
    · exact sendNow_sendsOn ..

theorem sendCross_sendsOn {w : Waiting} (port : w.port = p) (die cls order : Nat) (s : State) : s.SendsOn p (s.sendCross die cls order w) := by
  subst port
  unfold State.sendCross
  split
  · exact sendWaiting_sendsOn { port := w.port, sub := w.sub, len := w.len, out := w.out } s
  · exact (launch_kept _ _ _ _ _ _ s (List.Subset.refl _) (.rfl' _ s)).sendsOn (by decide) _

theorem grantTeam_sendsOn (p m n : Nat) (s : State) : s.SendsOn p (s.grantTeam p m n) :=
  ((onTeam_sendsOn _ s).trans (onTeam_sendsOn _ _)).trans (sendCross_sendsOn (by rfl) ..)

theorem grantPair_sendsOn (p n : Nat) (s : State) : s.SendsOn p (s.grantPair p n) := by
  unfold State.grantPair
  dsimp only
  split
  · exact .refl p s
  · exact ((onPair_sendsOn _ s).trans (onPair_sendsOn _ _)).trans (sendCross_sendsOn (by rfl) ..)

/-- A peer port whose link comes up sends its first credit, on that port (R357, R519). -/
theorem peerUp_sendsOn (p : Nat) (s : State) : s.SendsOn p (s.peerUp p) := by
  have may {c : Prop} [Decidable c] {a b : State} (h : b.SendsOn p a) : b.SendsOn p (if c then a else b) := by
    split
    · exact h
    · exact .refl p b
  unfold State.peerUp
  dsimp only
  refine ((onTeam_sendsOn _ s).trans (may ?_)).trans (may ((onPair_sendsOn _ _).trans (grantPair_sendsOn ..)))
  exact each_related (State.SendsOn.refl p) State.SendsOn.trans (fun m v => grantTeam_sendsOn p m _ v) _ _

end

/-! ### LINK_DOWN, LINK_UP and LANE_FAILURE -/

section
variable {s : State} {port sub : Nat}

/-- The state in which a sub-port has come up, with the flags that its link sets (R136, R122, R139). -/
def State.linkedUp (port sub : Nat) (s : State) : State :=
  let lanes := ((s.dev.port port).subp sub).lanes
  ((s.advertise port).onPort port (Port.comeUp s.now sub lanes)).setEvents (pageOf tPort port)
    (oneBit (4 + sub) ||| if (breakoutSubs (s.dev.port port).breakout).any fun e => decide (e.1 = sub ∧ e.2 ≠ lanes) then oneBit 12 else 0)

theorem linkUp_eq (enabled : (s.dev.port port).enabled = true) (squelched : (s.dev.port port).squelched = false) (down : s.subUp port sub = false)
    (lanes : (laneList ((s.dev.port port).subp sub).lanes).isEmpty = false) :
    exec (.linkUp port sub) s = .next (if isPeer port then (s.linkedUp port sub).peerUp port else s.linkedUp port sub) := by
  have goes : ¬(!(s.dev.port port).enabled || (s.dev.port port).squelched || ((s.dev.port port).subp sub).up ||
      (laneList ((s.dev.port port).subp sub).lanes).isEmpty) = true := by
    simp [enabled, squelched, lanes, show ((s.dev.port port).subp sub).up = false from down]
  show execLinkUp port sub s = _
  unfold execLinkUp
  exact if_neg goes

theorem comeUp_kept (port sub lanes : Nat) (s : State) : Kept [.ports] s ((s.advertise port).onPort port (Port.comeUp s.now sub lanes)) :=
  onPort_kept port _ (List.Subset.refl _) (advertise_keeps port s) fun _ => Port.wf_comeUp _ _ _

theorem linkedUp_ports (port sub : Nat) (s : State) : (s.linkedUp port sub).dev.ports =
    ((s.advertise port).onPort port (Port.comeUp s.now sub ((s.dev.port port).subp sub).lanes)).dev.ports := setEvents_ports ..

theorem linkedUp_keeps (port sub : Nat) (s : State) : Kept [.headers, .ports, .score] s (s.linkedUp port sub) :=
  setEvents_kept _ _ _ (by decide) (onPort_kept port _ (by decide) (advertise_kept port s (by decide) (.rfl' _ s)) fun _ => Port.wf_comeUp _ _ _)

theorem linkedUp_onlyPort (port sub : Nat) (s : State) : s.OnlyPort port (s.linkedUp port sub) :=
  ((advertise_onlyPort port s).trans (onPort_onlyPort port (fun _ => Port.wf_comeUp _ _ _) _)).trans
    ((setEvents_kept _ _ _ (List.Subset.refl _) (.rfl' _ _)).onlyPort (by decide) port)

theorem linkedUp_port (canon : s.dev.canonical = true) :
    (s.linkedUp port sub).dev.port port = ((s.advertise port).dev.port port).comeUp s.now sub ((s.dev.port port).subp sub).lanes := by
  rw [port_of_ports (linkedUp_ports port sub s), port_onPort _ _ _ ((advertise_keeps port s).canon canon), if_pos rfl]

theorem linkedUp_subUp (canon : s.dev.canonical = true) : (s.linkedUp port sub).subUp port sub = true := by
  unfold State.subUp State.port
  rw [port_of_ports (linkedUp_ports port sub s)]
  exact congrArg SubPort.up (subp_onSub ((advertise_keeps port s).canon canon) ..)

theorem linkedUp_raised (range : sub < 4) (clear : s.clearedNow (pageOf tPort port) = false) :
    (s.linkedUp port sub).raised (pageOf tPort port) (4 + sub) := by
  refine setEvents_raised _ _ ?_ (((comeUp_kept port sub _ s).clearedNow (by decide) (by decide) _).trans clear)
  simp [oneBit, show 4 + sub < 32 by omega]

end

section
variable {s : State} {port sub lane : Nat} (canon : s.dev.canonical = true) (clear : s.clearedNow (pageOf tPort port) = false)
include canon clear

/-- LINK_DOWN (R136, R122): what went down advertises anew, and LINK_DOWN is set. -/
theorem linkDown_run (range : sub < 4) (up : s.subUp port sub = true) :
    ∃ t, exec (.linkDown port sub) s = .next t ∧
      t.dev.port port = ((s.onPort port fun q => q.onSub sub SubPort.wentDown).advertise port).dev.port port ∧
      t.raised (pageOf tPort port) sub ∧ ∀ q, q ≠ port → t.dev.port q = s.dev.port q := by
  have down := subDown_kept port sub s (List.Subset.refl _) (.rfl' _ s)
  refine ⟨_, rfl, ?_, ?_, ?_⟩
  · exact port_of_ports (advertise_ports (subDown_ports port sub s up) down.start port) port
  · exact (advertise_keeps port _).raised (by decide) (subDown_raised port sub s up range canon clear)
  · exact ((subDown_onlyPort port sub s).trans (advertise_onlyPort port _)).others canon

/-- LINK_UP (R136, R122, R139): the sub-port is up, and LINK_UP is set; a peer port with LOOPBACK hears its own first credit (R143). -/
theorem linkUp_run (range : sub < 4) (enabled : (s.dev.port port).enabled = true) (squelched : (s.dev.port port).squelched = false)
    (down : s.subUp port sub = false) (lanes : (laneList ((s.dev.port port).subp sub).lanes).isEmpty = false) :
    ∃ t, exec (.linkUp port sub) s = .next t ∧ ((t.dev.port port).subp sub).up = true ∧
      (isPeer port = false ∨ s.loops port = false →
        t.dev.port port = ((s.advertise port).dev.port port).comeUp s.now sub ((s.dev.port port).subp sub).lanes) ∧
      t.raised (pageOf tPort port) (4 + sub) ∧ ∀ q, q ≠ port → t.dev.port q = s.dev.port q := by
  have linked := linkedUp_keeps port sub s
  have sends : (s.linkedUp port sub).SendsOn port (if isPeer port then (s.linkedUp port sub).peerUp port else s.linkedUp port sub) := by
    split
    · exact peerUp_sendsOn ..
    · exact .refl ..
  refine ⟨_, linkUp_eq enabled squelched down lanes, (sends.up (linked.canon canon) sub).trans (linkedUp_subUp canon), fun plain => ?_, ?_,
    ((linkedUp_onlyPort port sub s).trans sends.only).others canon⟩
  · rw [← linkedUp_port canon]
    rcases plain with line | noLoop
    · rw [line, if_neg Bool.false_ne_true]
    · refine port_of_ports (sends.quiet ?_) port
      unfold State.loops State.ctl
      rw [linked.start]
      exact noLoop
  · have raised := linkedUp_raised range clear
    split
    · exact (peerUp_kept port _ (List.Subset.refl _) (.rfl' _ _)).raised (by decide) raised
    · exact raised

end

section
variable (port lane : Nat) (s : State)

/-- The state in which a lane is out of use (R138). -/
def State.laneUnused : State := s.onPort port fun q => q.onLane lane fun l => { l with failed := true, tuning := false }

/-- The state in which a lane has failed, on its port's page a flag and a fault (R138). -/
def State.laneLost : State := ((s.laneUnused port lane).setEvent (pageOf tPort port) (8 + lane)).setFaulted (pageOf tPort port) true

theorem laneUnused_keeps : Kept [.ports] s (s.laneUnused port lane) :=
  onPort_kept port _ (List.Subset.refl _) (.rfl' _ s) fun _ => Port.wf_onLane _ _

theorem laneLost_keeps : Kept [.headers, .score] (s.laneUnused port lane) (s.laneLost port lane) :=
  setFaulted_kept _ _ _ (List.Subset.refl _) (setEvent_kept _ _ _ (List.Subset.refl _) (.rfl' _ _))

theorem laneLost_onlyPort : s.OnlyPort port (s.laneLost port lane) :=
  (onPort_onlyPort port (fun _ => Port.wf_onLane _ _) s).trans ((laneLost_keeps port lane s).onlyPort (by decide) port)

/-- A lane that fails takes its sub-port, if it is in one, down, and that narrows or stays down (R138, R139). -/
theorem laneFail_cases (healthy : ((s.dev.port port).lane lane).failed = false) (range : lane < 4) :
    s.laneFail port lane = s.laneLost port lane ∨
      ∃ i, ∃ f : Port → Port, (∀ q : Port, q.wf = true → (f q).wf = true) ∧ (∀ q, (f q).lanes = q.lanes) ∧
        s.laneFail port lane = ((s.laneLost port lane).subDown port i).onPort port f := by
  unfold State.laneFail
  rw [if_neg (by simp [show ((s.port port).lane lane).failed = false from healthy, range])]
  dsimp only
  split
  · exact .inl rfl
  · next i _ =>
    refine .inr ⟨i, ?_⟩
    split
    · refine ⟨_, ?_, ?_, rfl⟩
      · exact fun _ => Port.wf_onSubRun _ _ _
      · exact fun _ => rfl
    · refine ⟨_, ?_, ?_, rfl⟩
      · exact fun _ => Port.wf_onSub _ _
      · exact fun _ => rfl

end

section
variable {s : State} {port sub lane : Nat} (canon : s.dev.canonical = true) (clear : s.clearedNow (pageOf tPort port) = false)
include canon clear

theorem laneLost_run (range : lane < 4) : (((s.laneLost port lane).dev.port port).lane lane).failed = true ∧
    (s.laneLost port lane).raised (pageOf tPort port) (8 + lane) ∧ ((s.laneLost port lane).dev.hdr (pageOf tPort port)).faulted = true := by
  have out := laneUnused_keeps port lane s
  have flagged := setEvent_kept (pageOf tPort port) (8 + lane) (s.laneUnused port lane) (List.Subset.refl _) (.rfl' _ _)
  have clear1 := (out.clearedNow (by decide) (by decide) (pageOf tPort port)).trans clear
  have clear2 := (flagged.clearedNow (by decide) (by decide) (pageOf tPort port)).trans clear1
  have canon2 := flagged.canon (out.canon canon)
  refine ⟨?_, raised_setFaulted _ _ canon2 clear2 (setEvent_raised' _ _ _ (by omega) clear1), setFaulted_faulted _ _ canon2 clear2⟩
  rw [port_of_ports ((laneLost_keeps port lane s).ports (by decide))]
  exact congrArg PortLane.failed (lane_onLane canon ..)

/-- LANE_FAILURE (R138, R139). -/
theorem laneFailure_run (range : lane < 4) (healthy : ((s.dev.port port).lane lane).failed = false) :
    ∃ t, exec (.laneFailure port lane) s = .next t ∧ ((t.dev.port port).lane lane).failed = true ∧
      t.raised (pageOf tPort port) (8 + lane) ∧ (t.dev.hdr (pageOf tPort port)).faulted = true ∧
      ∀ q, q ≠ port → t.dev.port q = s.dev.port q := by
  obtain ⟨failed, raised, faulted⟩ := laneLost_run canon clear range
  have others := laneLost_onlyPort port lane s
  have lost := others.canon canon
  refine ⟨s.laneFail port lane, rfl, ?_⟩
  rcases laneFail_cases port lane s healthy range with h | ⟨i, f, wf, lanes, h⟩
  · rw [h]
    exact ⟨failed, raised, faulted, others.others canon⟩
  · have down := subDown_flagsStay port i (s.laneLost port lane)
    have flags := down.trans ((onPort_kept port f (List.Subset.refl _) (.rfl' _ _) wf).flagsStay (by decide))
    rw [h]
    refine ⟨?_, flags.raised lost _ _ raised, (flags.faulted lost _).trans faulted,
      ((others.trans (subDown_onlyPort port i _)).trans (onPort_onlyPort port wf _)).others canon⟩
    rw [port_onPort _ _ _ (down.canon lost), if_pos rfl, Port.lane, lanes]
    exact (congrArg PortLane.failed (subDown_lane port i _ lost lane)).trans failed

end

/-! ### Transmitters -/

theorem mem_allPorts {p : Nat} (range : p < 66) : p ∈ allPorts := List.mem_range.mpr range

/-- The state in which the transmitters of port `p` are squelched as `g` says, and its sub-ports advertise accordingly (R122, R140). -/
def State.transmitters (p : Nat) (g : Port → Bool) (s : State) : State := (s.onPort p fun q => { q with squelched := g q }).advertise p

/-- What the end of holdover does to port `p` (R140). -/
def State.squelch (p : Nat) (s : State) : State := (s.portDown p).transmitters p fun _ => true

/-- What the return of the reference does to port `p` after the end of holdover (R140, R446, R510). -/
def State.unsquelch (p : Nat) (s : State) : State := s.transmitters p fun q => !q.enabled || s.dev.halted || (isLine p && s.dev.linesHeld)

section
variable (p : Nat) (g : Port → Bool) (s : State)

theorem Port.wf_squelched (b : Bool) {q : Port} (h : q.wf = true) : ({ q with squelched := b } : Port).wf = true :=
  Port.wf_by (Port.wf_subs h) (Port.wf_lanes h) rfl rfl

theorem onSquelched_kept : Kept [.ports] s (s.onPort p fun q => { q with squelched := g q }) :=
  onPort_kept p _ (List.Subset.refl _) (.rfl' _ s) fun _ => Port.wf_squelched _

theorem transmitters_keeps : Kept [.ports] s (s.transmitters p g) := (onSquelched_kept p g s).trans (advertise_keeps p _)

theorem transmitters_onlyPort : s.OnlyPort p (s.transmitters p g) :=
  (onPort_onlyPort p (fun _ => Port.wf_squelched _) s).trans (advertise_onlyPort p _)

theorem transmitters_fields (canon : s.dev.canonical = true) : ((s.transmitters p g).dev.port p).enabled = (s.dev.port p).enabled ∧
    ((s.transmitters p g).dev.port p).squelched = g (s.dev.port p) := by
  obtain ⟨enabled, squelched⟩ := advertise_fields ((onSquelched_kept p g s).canon canon) p
  unfold State.transmitters
  rw [enabled, squelched, port_onPort _ _ _ canon, if_pos rfl]
  exact ⟨rfl, rfl⟩

theorem unsquelch_keeps : Kept [.ports] s (s.unsquelch p) := transmitters_keeps p _ s

theorem squelch_keeps : Kept [.headers, .ports, .score] s (s.squelch p) :=
  advertise_kept _ _ (by decide) (onPort_kept _ _ (by decide) (portDown_kept p s (List.Subset.refl _) (.rfl' _ s)) fun _ => Port.wf_squelched _)

theorem squelch_onlyPort : s.OnlyPort p (s.squelch p) :=
  (each_related (.refl p) .trans (subDown_onlyPort p) _ s).trans (transmitters_onlyPort p _ _)

theorem squelch_squelched (canon : s.dev.canonical = true) : ((s.squelch p).dev.port p).squelched = true :=
  (transmitters_fields p _ _ ((portDown_kept p s (List.Subset.refl _) (.rfl' _ s)).canon canon)).2

theorem squelchAll_keeps : Kept [.headers, .ports, .score] s (State.each allPorts State.squelch s) :=
  each_kept (fun p v h => h.trans (squelch_keeps p v)) (.rfl' _ s)

/-- The end of holdover squelches every port. -/
theorem squelchAll_squelched {p : Nat} (canon : s.dev.canonical = true) (range : p < 66) :
    ((State.each allPorts State.squelch s).dev.port p).squelched = true := by
  refine each_reaches (I := Kept [.headers, .ports, .score] s) (Q := fun v => (v.dev.port p).squelched = true) (a := p)
    (fun q v h => h.trans (squelch_keeps q v)) (fun q v h done => ?_) (fun v h => squelch_squelched p v (h.canon canon)) (mem_allPorts range)
    (.rfl' _ s)
  by_cases same : p = q
  · exact same ▸ squelch_squelched p v (h.canon canon)
  · rw [(squelch_onlyPort q v).others (h.canon canon) p same]
    exact done

end

section
variable {P : List Part} {s t u : State} {p : Nat}

theorem Kept.halted (h : Kept P s t) (hP : Part.power ∉ P ∧ Part.startUp ∉ P) : t.dev.halted = s.dev.halted := by
  obtain ⟨power, startUp⟩ := hP
  unfold Dev.halted
  rw [← h.frame .power power, ← h.frame .startUp startUp]

theorem Kept.linesHeld (h : Kept P s t) (hP : Part.pair ∉ P) : t.dev.linesHeld = s.dev.linesHeld := by
  unfold Dev.linesHeld
  rw [← h.frame .pair hP]

/-- A port that is enabled stays so when the reference returns to it or to another port, and it transmits again, when the reference returns to it,
where neither the device's halt nor a standby's lines squelch it (R140, R446, R510). -/
theorem unsquelch_port (canon : s.dev.canonical = true) (enabled : (s.dev.port p).enabled = true) (running : s.dev.halted = false)
    (free : s.dev.linesHeld = false) (q : Nat) : ((s.unsquelch q).dev.port p).enabled = true ∧
      ((s.unsquelch q).dev.port p).squelched = if p = q then false else (s.dev.port p).squelched := by
  by_cases same : p = q
  · subst same
    obtain ⟨stays, squelched⟩ := transmitters_fields p (fun q => !q.enabled || s.dev.halted || (isLine p && s.dev.linesHeld)) s canon
    refine ⟨stays.trans enabled, squelched.trans ?_⟩
    simp [enabled, running, free]
  · rw [if_neg same, State.unsquelch, (transmitters_onlyPort q _ s).others canon p same]
    exact ⟨enabled, rfl⟩

/-- The reference returns to every port: each that is enabled transmits again. -/
theorem unsquelchAll_squelched (canon : u.dev.canonical = true) (range : p < 66) (enabled : (u.dev.port p).enabled = true)
    (running : u.dev.halted = false) (free : u.dev.linesHeld = false) : ((State.each allPorts State.unsquelch u).dev.port p).squelched = false := by
  have onPort (q : Nat) (v : State) (h : Kept [.ports] u v ∧ (v.dev.port p).enabled = true) :=
    unsquelch_port (h.1.canon canon) h.2 ((h.1.halted (by decide)).trans running) ((h.1.linesHeld (by decide)).trans free) q
  refine each_reaches (f := State.unsquelch) (I := fun v => Kept [.ports] u v ∧ (v.dev.port p).enabled = true)
    (Q := fun v => (v.dev.port p).squelched = false) (fun q v h => ⟨h.1.trans (unsquelch_keeps q v), (onPort q v h).1⟩)
    (fun q v h r => ?_) (fun v h => ?_) (mem_allPorts range) ⟨.rfl' _ u, enabled⟩
  · rw [(onPort q v h).2, r, ite_self]
  · rw [(onPort p v h).2, if_pos rfl]

end

/-! ### REF_LOSS, REF_HOLDOVER_END and REF_RETURN -/

/-- The reference clock found lost, in holdover (R37, R140). -/
def RefClock.lostAt (now : Nat) : RefClock := { lost := true, lostPly := now, holdover := true, expired := false }

/-- The state in which the reference clock is as given, and the global control page has a flag and its fault set or cleared (R37, R62). -/
def State.refNow (r : RefClock) (b : Nat) (f : Bool) (s : State) : State := ((s.onRef fun _ => r).setEvent pgGlobal b).setFaulted pgGlobal f

/-- What the loss of the reference sets on the page of port `p` (R140). -/
def State.refLostOn (p : Nat) (s : State) : State := s.setEvent (pageOf tPort p) 17

/-- What the return of the reference does to port `p`, after the end of holdover or before it (R140). -/
def State.refBackOn (expired : Bool) (p : Nat) (s : State) : State := if expired then s.unsquelch p else s

section
variable (s : State)

theorem refNow_keeps (r : RefClock) (b : Nat) (f : Bool) : Kept [.headers, .ref, .score] s (s.refNow r b f) :=
  setFaulted_kept _ _ _ (by decide) (setEvent_kept _ _ _ (by decide) (onRef_kept _ (by decide) (.rfl' _ s)))

theorem refNow_ref (r : RefClock) (b : Nat) (f : Bool) : (s.refNow r b f).dev.ref = r := (setFaulted_ref ..).trans (setEvent_ref ..)

theorem refLostOn_keeps (p : Nat) : Kept [.headers, .score] s (s.refLostOn p) := setEvent_kept _ _ _ (List.Subset.refl _) (.rfl' _ s)

theorem refLostAll_keeps : Kept [.headers, .score] s (State.each allPorts State.refLostOn s) :=
  each_kept (fun p v h => h.trans (refLostOn_keeps v p)) (.rfl' _ s)

theorem refLostAll_flagsStay : s.FlagsStay (State.each allPorts State.refLostOn s) :=
  each_related .refl .trans (fun _ v => setEvent_flagsStay _ _ v) _ _

theorem refBackAll_keeps (expired : Bool) : Kept [.ports] s (State.each allPorts (State.refBackOn expired) s) :=
  each_kept (fun p v h => ite_kept (h.trans (unsquelch_keeps p v)) h) (.rfl' _ s)

end

section
variable {s : State} (canon : s.dev.canonical = true) (clear : ∀ p, s.clearedNow p = false)

theorem refLoss_eq (held : s.dev.ref.lost = false) :
    exec .refLoss s = .next (State.each allPorts State.refLostOn (s.refNow (.lostAt s.now) 0 true)) := by
  show execRefLoss s = _
  unfold execRefLoss
  rw [held]
  rfl

theorem refHoldoverEnd_eq (lost : s.dev.ref.lost = true) (before : s.dev.ref.expired = false) (due : s.dev.ref.lostPly + 10 * plies1ms ≤ s.now) :
    exec .refHoldoverEnd s = .next (State.each allPorts State.squelch (s.onRef fun r => { r with expired := true })) := by
  show execRefHoldoverEnd s = _
  unfold execRefHoldoverEnd
  dsimp only
  rw [if_neg (by simp [lost, before, Nat.not_lt.mpr due])]
  rfl

theorem refReturn_eq (lost : s.dev.ref.lost = true) :
    exec .refReturn s = .next (State.each allPorts (State.refBackOn s.dev.ref.expired) (s.refNow {} 1 (decide (s.dev.reliab.stopped ≠ 0)))) := by
  show execRefReturn s = _
  unfold execRefReturn
  rw [lost]
  rfl

include canon

/-- REF_HOLDOVER_END (R140): every transmitter is squelched. -/
theorem refHoldoverEnd_run (lost : s.dev.ref.lost = true) (before : s.dev.ref.expired = false) (due : s.dev.ref.lostPly + 10 * plies1ms ≤ s.now) :
    ∃ t, exec .refHoldoverEnd s = .next t ∧ t.dev.ref = { s.dev.ref with expired := true } ∧ ∀ p, p < 66 → (t.dev.port p).squelched = true :=
  ⟨_, refHoldoverEnd_eq lost before due, ((squelchAll_keeps _).frame .ref (by decide)).symm, fun _ => squelchAll_squelched _ canon⟩

include clear

theorem refNow_flags (r : RefClock) {b : Nat} (range : b < 32) (f : Bool) :
    (s.refNow r b f).raised pgGlobal b ∧ ((s.refNow r b f).dev.hdr pgGlobal).faulted = f := by
  have flagged := setEvent_kept pgGlobal b (s.onRef fun _ => r) (P := [.headers, .ref, .score]) (by decide) (onRef_kept _ (by decide) (.rfl' _ s))
  have clear1 : (s.onRef fun _ => r).clearedNow pgGlobal = false := clear pgGlobal
  have clear2 := (flagged.clearedNow (by decide) (by decide) pgGlobal).trans (clear pgGlobal)
  exact ⟨raised_setFaulted _ _ (flagged.canon canon) clear2 (setEvent_raised' _ _ _ range clear1),
    setFaulted_faulted _ _ (flagged.canon canon) clear2⟩

/-- The loss of the reference is told on every port's page. -/
theorem refLostAll_raised {p : Nat} (range : p < 66) : (State.each allPorts State.refLostOn s).raised (pageOf tPort p) 17 := by
  refine each_reaches (I := Kept [.headers, .score] s) (Q := fun v => v.raised (pageOf tPort p) 17) (fun q v h => h.trans (refLostOn_keeps v q))
    (fun _ _ h told => raised_setEvent _ _ (h.canon canon) told) (fun v h => ?_) (mem_allPorts range) (.rfl' _ s)
  exact setEvent_raised' _ _ v (by decide) ((h.clearedNow (by decide) (by decide) _).trans (clear _))

/-- REF_LOSS (R37, R140): holdover begins, and every port's page says so. -/
theorem refLoss_run (held : s.dev.ref.lost = false) :
    ∃ t, exec .refLoss s = .next t ∧ t.dev.ref = .lostAt s.now ∧
      t.raised pgGlobal 0 ∧ (t.dev.hdr pgGlobal).faulted = true ∧ ∀ p, p < 66 → t.raised (pageOf tPort p) 17 := by
  have kept := refNow_keeps s (.lostAt s.now) 0 true
  have canon' := kept.canon canon
  obtain ⟨raised, faulted⟩ := refNow_flags canon clear (.lostAt s.now) (b := 0) (by decide) true
  have stay := refLostAll_flagsStay (s.refNow (.lostAt s.now) 0 true)
  refine ⟨_, refLoss_eq held, ?_, stay.raised canon' _ _ raised, (stay.faulted canon' _).trans faulted, fun p range => ?_⟩
  · exact ((refLostAll_keeps _).frame .ref (by decide)).symm.trans (refNow_ref ..)
  · exact refLostAll_raised canon' (fun q => (kept.clearedNow (by decide) (by decide) q).trans (clear q)) range

/-- REF_RETURN (R37, R140): the ports that the end of holdover squelched transmit again, as far as nothing else squelches them. -/
theorem refReturn_run (lost : s.dev.ref.lost = true) :
    ∃ t, exec .refReturn s = .next t ∧ t.dev.ref = {} ∧ t.raised pgGlobal 1 ∧
      (t.dev.hdr pgGlobal).faulted = decide (s.dev.reliab.stopped ≠ 0) ∧
      ∀ p, p < 66 → s.dev.ref.expired = true → (s.dev.port p).enabled = true → s.dev.halted = false → s.dev.linesHeld = false →
        (t.dev.port p).squelched = false := by
  have kept := refNow_keeps s {} 1 (decide (s.dev.reliab.stopped ≠ 0))
  obtain ⟨raised, faulted⟩ := refNow_flags canon clear {} (b := 1) (by decide) (decide (s.dev.reliab.stopped ≠ 0))
  have back := refBackAll_keeps (s.refNow {} 1 (decide (s.dev.reliab.stopped ≠ 0))) s.dev.ref.expired
  have stay := back.flagsStay (by decide)
  refine ⟨_, refReturn_eq lost, (back.frame .ref (by decide)).symm.trans (refNow_ref ..), stay.raised (kept.canon canon) _ _ raised,
    (stay.faulted (kept.canon canon) _).trans faulted, fun p range expired enabled running free => ?_⟩
  rw [show State.refBackOn s.dev.ref.expired = State.unsquelch by rw [expired]; rfl]
  refine unsquelchAll_squelched (kept.canon canon) range ?_ ((kept.halted (by decide)).trans running) ((kept.linesHeld (by decide)).trans free)
  rw [port_of_ports (kept.ports (by decide))]
  exact enabled

end

/-- Settles O13: links by the state that each command leaves of its port and its port's page, the reference clock by what it does port by port. -/
theorem linksAndReferenceComeAndGo : Obligations.LinksAndReferenceComeAndGo := by
  unfold Obligations.LinksAndReferenceComeAndGo
  refine ⟨fun s port sub lane canon clear => ⟨?_, ?_, ?_⟩, fun s canon clear => ⟨?_, ?_, ?_⟩⟩
  · exact linkDown_run canon clear
  · exact linkUp_run canon clear
  · exact laneFailure_run canon clear
  · exact refLoss_run canon clear
  · exact refHoldoverEnd_run canon
  · exact refReturn_run canon clear

end Sys2Proof.Machine
end

section
/-! SUPPORT. Pauses hold and end (O14): received PAUSE and PFC frames, and the holds, storms and XOFFs of a sub-port. -/
namespace Sys2Proof.Machine

/-! ### PAUSE_FRAME and PFC_FRAME -/

/-- The state in which a PAUSE or PFC frame has been received and counted in RX_PAUSE (R123, R141). -/
def State.pauseHeard (port sub : Nat) (f : Bytes) (s : State) : State := (s.rxCheck port sub f).1.portCount port sub 6 1

/-- A change of one sub-port by what a received PAUSE or PFC frame says, after the frame (R131, R132). -/
def State.pausedBy (port sub : Nat) (f : Bytes) (g : SubPort → SubPort) (s : State) : State :=
  (s.pauseHeard port sub f).onPort port fun q => q.onSub sub g

section
variable {s : State} {port sub : Nat} {f : Bytes} (hears : s.hears port sub f = true) (fcs : fcsGood f = true) (low : 64 ≤ f.length)
  (high : f.length ≤ s.maxFrame port)

theorem pauseHeard_keeps (port sub : Nat) (f : Bytes) (s : State) : Kept [.counters, .ports] s (s.pauseHeard port sub f) :=
  portCount_kept _ _ _ _ _ (by decide) (rxCheck_kept port sub f s (List.Subset.refl _) (.rfl' _ s))

include hears fcs low high

theorem rxCheck_goesOn : (s.rxCheck port sub f).2 = true := by rw [rxCheck_good hears fcs low high]

/-- Of the ports, a frame that arrives and goes on changes what its receiver takes it from alone (R143). -/
theorem pausedBy_ports (g : SubPort → SubPort) :
    (s.pausedBy port sub f g).dev.ports = Table.modify {} (s.heard port sub).dev.ports port fun q => q.onSub sub g := by
  have ports : (s.pauseHeard port sub f).dev.ports = (s.heard port sub).dev.ports := by
    unfold State.pauseHeard
    rw [rxCheck_good hears fcs low high, portCount_ports, portCount_ports, portCount_ports]
  exact congrArg (Table.modify {} · port _) ports

variable (type : Bytes.be f (skipTags f 12 4) 2 = 0x8808)
include type

/-- PAUSE_FRAME (R131): with PAUSE_RX 1 and no PFC bit set, every priority is held for the frame's time, or resumes. -/
theorem pauseFrame_run (peer : isPeer port = false) (op : Bytes.be f (skipTags f 12 4 + 2) 2 = 1)
    (noPfc : pfcOn (s.start.rg (pageOf tPort port) 0x44) = false) (rx : bit (s.start.rg (pageOf tPort port) 0x44) 16 = true) :
    exec (.pauseFrame port sub f) s = .next (s.pausedBy port sub f fun x => (List.range 8).foldl
      (fun x p => x.holdPrio s.now (Bytes.be f (skipTags f 12 4 + 4) 2 * quantumPlies x.speed) p) x) := by
  have kept := pauseHeard_keeps port sub f s
  have heeded : (pfcOn ((s.pauseHeard port sub f).start.rg (pageOf tPort port) 0x44) ||
      !bit ((s.pauseHeard port sub f).start.rg (pageOf tPort port) 0x44) 16) = false := by
    rw [kept.start, noPfc, rx]
    rfl
  show execPauseFrame port sub f s = _
  unfold execPauseFrame
  rw [if_neg (by simp [peer, type, op])]
  simp only [rxCheck_goesOn hears fcs low high, Bool.not_true, Bool.false_eq_true, if_false]
  refine (if_neg (by rw [Bool.not_eq_true]; exact heeded)).trans ?_
  unfold State.pausedBy
  rw [← kept.now]
  rfl

/-- PFC_FRAME (R132, R134): each priority that the frame names and whose PFC_RX bit is set is held, or resumes. -/
theorem pfcFrame_run (line : isLine port = true) (op : Bytes.be f (skipTags f 12 4 + 2) 2 = 0x0101) :
    exec (.pfcFrame port sub f) s = .next (s.pausedBy port sub f fun x => (List.range 8).foldl
      (SubPort.pfc s.now (s.start.rg (pageOf tPort port) 0x44 / 16777216 * plies1ms)
        (s.start.rg (pageOf tPort port) 0x44) (Bytes.be f (skipTags f 12 4 + 4) 2) fun p => Bytes.be f (skipTags f 12 4 + 6 + 2 * p) 2) x) := by
  have kept := pauseHeard_keeps port sub f s
  show execPfcFrame port sub f s = _
  unfold execPfcFrame
  rw [if_neg (by simp [line, type, op])]
  simp only [rxCheck_goesOn hears fcs low high, Bool.not_true, Bool.false_eq_true, if_false]
  unfold State.pausedBy
  rw [← kept.now, ← kept.start]
  rfl

end

/-! ### PAUSE_QUANTA_EXPIRE and PFC_STORM -/

section
variable {s : State} {port sub prio t0 : Nat}

/-- PAUSE_QUANTA_EXPIRE (R131, R132): the holds that are left are those whose time has not come. -/
theorem pauseQuantaExpire_run (canon : s.dev.canonical = true) (port sub : Nat) :
    ∃ t, exec (.pauseQuantaExpire port sub) s = .next t ∧
      ∀ p u, (p, u) ∈ ((t.dev.port port).subp sub).hold ↔ (p, u) ∈ ((s.dev.port port).subp sub).hold ∧ s.now < u := by
  refine ⟨_, rfl, fun p u => ?_⟩
  rw [subp_onSub canon]
  simp only [List.mem_filter, decide_eq_true_eq]

/-- PFC_STORM (R134): whether or not STORM_RELEASE then ends the hold, the flag is set. -/
theorem pfcStorm_run (held : Table.get? ((s.dev.port port).subp sub).since prio = some t0) (range : prio < 8)
    (on : 0 < s.rg (pageOf tPort port) 0x44 / 16777216) (passed : t0 + s.rg (pageOf tPort port) 0x44 / 16777216 * plies1ms ≤ s.now)
    (pfc : pfcOn (s.rg (pageOf tPort port) 0x44) = true) (clear : s.clearedNow (pageOf tPort port) = false) :
    ∃ t, exec (.pfcStorm port sub prio) s = .next t ∧ t.raised (pageOf tPort port) 13 := by
  have flagged : (s.setEvent (pageOf tPort port) 13).raised (pageOf tPort port) 13 := setEvent_raised' _ _ s (by decide) clear
  have storm : ¬(s.rg (pageOf tPort port) 0x44 / 16777216 = 0 ∨ s.now < t0 + s.rg (pageOf tPort port) 0x44 / 16777216 * plies1ms ∨
      pfcOn (s.rg (pageOf tPort port) 0x44) = false ∨ 8 ≤ prio) := by
    simp [Nat.ne_of_gt on, Nat.not_lt.mpr passed, pfc, Nat.not_le.mpr range]
  show ∃ t, execPfcStorm port sub prio s = _ ∧ _
  unfold execPfcStorm
  dsimp only
  rw [show Table.get? ((s.port port).subp sub).since prio = some t0 from held]
  dsimp only
  rw [if_neg storm]
  split
  · exact ⟨_, rfl, raised_of_hdr rfl flagged⟩
  · exact ⟨_, rfl, raised_of_hdr rfl flagged⟩

end

/-! ### PAUSE_RESEND -/

section
variable {s : State} {port sub key t0 : Nat} {f : Bytes} (inForce : Table.get? ((s.dev.port port).subp sub).xoff key = some t0)

theorem sendPause_out (up : s.subUp port sub = true) (key quanta : Nat) (hf : f = pauseFrame (s.dev.ctrlMac (portDie port)) key quanta) :
    (s.sendPause port sub key quanta).dev.out = s.dev.out ++ [if s.loops port then .looped port sub f else .frame port sub f] := by
  unfold State.sendPause
  dsimp only
  rw [if_pos up, portCount_out, sendNow_out, if_pos up, ← hf]
  rfl

include inForce

/-- PAUSE_RESEND (R133): the XOFF in force leaves again, and its time is noted. -/
theorem pauseResend_run (canon : s.dev.canonical = true) (hf : f = pauseFrame (s.dev.ctrlMac (portDie port)) key 0xFFFF)
    (up : s.subUp port sub = true) (on : pauseOn (s.rg (pageOf tPort port) 0x44) key = true) :
    ∃ t, exec (.pauseResend port sub key) s = .next t ∧
      t.dev.out = s.dev.out ++ [if s.loops port then .looped port sub f else .frame port sub f] ∧
      Table.get? ((t.dev.port port).subp sub).xoff key = some s.now := by
  have run : exec (.pauseResend port sub key) s = .next ((s.sendPause port sub key 0xFFFF).onPort port fun q => q.onSub sub fun x =>
      { x with xoff := Table.put x.xoff key s.now }) := by
    show execPauseResend port sub key s = _
    unfold execPauseResend
    rw [show Table.get? ((s.port port).subp sub).xoff key = some t0 from inForce]
    dsimp only
    rw [if_neg (by simp [on])]
  refine ⟨_, run, sendPause_out up key 0xFFFF hf, ?_⟩
  rw [subp_onSub ((sendPause_kept port sub key 0xFFFF s (List.Subset.refl _) (.rfl' _ s)).canon canon), Table.get?_put, if_pos rfl]

/-- PAUSE_RESEND (R131, R132): nothing is sent once PFC_CFG lets the device send no XOFF for the key. -/
theorem pauseResend_off (off : pauseOn (s.rg (pageOf tPort port) 0x44) key = false) : exec (.pauseResend port sub key) s = .next s := by
  show execPauseResend port sub key s = _
  unfold execPauseResend
  rw [show Table.get? ((s.port port).subp sub).xoff key = some t0 from inForce]
  dsimp only
  rw [if_pos (by simp [off])]

end

/-- Settles O14: received frames by the change they make of their sub-port, the rest by what each command leaves of the holds, the flags and the
output. -/
theorem pausesHoldAndEnd : Obligations.PausesHoldAndEnd := by
  unfold Obligations.PausesHoldAndEnd
  refine ⟨fun s port sub f hears fcs low high type => ⟨fun peer op noPfc rx => ?_, fun line op => ?_⟩,
    fun s port sub prio canon => ⟨?_, fun t0 held range on passed pfc clear => ?_, fun t0 f inForce hf => ⟨fun up on => ?_, fun off => ?_⟩⟩⟩
  · exact ⟨_, pauseFrame_run hears fcs low high type peer op noPfc rx, pausedBy_ports hears fcs low high _⟩
  · exact ⟨_, pfcFrame_run hears fcs low high type line op, pausedBy_ports hears fcs low high _⟩
  · exact pauseQuantaExpire_run canon port sub
  · exact pfcStorm_run held range on passed pfc clear
  · exact pauseResend_run inForce canon hf up on
  · exact pauseResend_off inForce off

end Sys2Proof.Machine
end

section
/-! SUPPORT. Frames become packets (O27): the frames of an inline pair that reach channel selection, and the packets that the buffer takes. A header
vector sets out as one transfer of 128 bytes, which is the model's choice (log entry 126). -/
namespace Sys2Proof.Machine

/-! ### Frames that pass the checks -/

/-- What ingress knows of a frame without a shim that starts on an inline pair (R145). -/
def State.inlineArrival (s : State) (port sub : Nat) (f : Bytes) : Arrival :=
  let body := f.take (f.length - 4)
  { port, sub, inline := true, wire := f, frame := body, parsed := body, last := body.length, frameLen := body.length + 4
    firstTs := Bytes.be body 22 6, stampGen := Bytes.at body 19
    good := fcsGood f && decide (64 ≤ f.length ∧ f.length ≤ s.maxFrame port) }

/-- FRAME_START (R145): a frame that no check of steps 2 to 5 takes goes on to the parser. -/
theorem frameStart_ingress {s : State} {port sub : Nat} {f : Bytes} (passes : s.framePasses port sub f) :
    exec (.frameStart port sub f) s = .next (s.ingress (s.inlineArrival port sub f)) := by
  obtain ⟨line, hears, up, idle, notSelid, notArp, notSolicit, notControl, inline, way, bare, -, -⟩ := passes
  have traffic : s.laneFrame? port sub f = none := by simp only [State.laneFrame?, notSelid, notArp, notSolicit]
  show execFrameStart port sub f s = _
  unfold execFrameStart
  dsimp only
  rw [if_neg (by simp [line, hears, up, idle]), traffic]
  dsimp only
  rw [if_neg notControl, if_pos inline, if_neg (by simp [way]), bare]
  rfl

/-! ### Packets that the buffer takes -/

/-- The record of a new packet is listed, and its sub-port receives it until its tail (R145). -/
def State.addPacket (id : Nat) (a : Arrival) (pk : Packet) (s : State) : State :=
  (s.onTraffic fun t => { t with packets := Table.put t.packets id pk, nextPacket := id + 1 }).rxAs a.port a.sub (.packet id) a.wire

theorem Kept.net {P : List Part} {s t : State} (h : Kept P s t) (hP : Part.net ∉ P) : t.dev.net = s.dev.net := (h.frame .net hP).symm

theorem holdBytes_net (port sub prio : Nat) (f : Nat → Nat) (s : State) : (s.holdBytes port sub prio f).dev.net = s.dev.net :=
  (holdBytes_kept port sub prio f s (List.Subset.refl _) (.rfl' _ s)).net (by decide)

/-- The buffer holds a new packet's frame, and its vector sets out for its core's die (R15, R19, R135, R158). -/
def State.bufferVector (id : Nat) (a : Arrival) (pk : Packet) (s : State) : State :=
  ((s.addPacket id a pk).launch clsPawn pk.deadline vectorBytes (dieRoute (portDieNo a.port) (coreDie pk.core)) (portDieNo a.port)
    (.vector id)).holdBytes a.port a.sub pk.prio (· + pk.buffered)

/-- The buffer holds a new packet's frame, as the model has it of one that passes too (log entry 38), and the empty verdict is applied to it (R135, R156). -/
def State.bufferPassed (id : Nat) (a : Arrival) (pk : Packet) (s : State) : State :=
  ((s.addPacket id a pk).apply id {}).holdBytes a.port a.sub pk.prio (· + pk.buffered)

theorem rxAs_traffic (port sub : Nat) (kind : RxKind) (f : Bytes) (s : State) :
    ∃ rx, (s.rxAs port sub kind f).dev.traffic = { s.dev.traffic with rx } := by
  have heard : (s.heard port sub).dev.traffic = s.dev.traffic := (heard_kept port sub s (List.Subset.refl _) (.rfl' _ s)).traffic (by decide)
  unfold State.rxAs
  rw [onTraffic_traffic, heard]
  exact ⟨_, rfl⟩

section
variable (id : Nat) (a : Arrival) (pk : Packet) (s : State)

theorem addPacket_keeps : Kept [.ports, .traffic] s (s.addPacket id a pk) :=
  rxAs_kept _ _ _ _ _ (List.Subset.refl _) (onTraffic_kept _ (by decide) (.rfl' _ s))

theorem addPacket_traffic :
    ∃ rx, (s.addPacket id a pk).dev.traffic = { s.dev.traffic with rx, packets := Table.put s.dev.traffic.packets id pk, nextPacket := id + 1 } :=
  rxAs_traffic ..

theorem addPacket_packet? : (s.addPacket id a pk).dev.packet? id = some pk := by
  obtain ⟨rx, traffic⟩ := addPacket_traffic id a pk s
  unfold Dev.packet?
  rw [traffic, Table.get?_put, if_pos rfl]

theorem bufferPassed_packet? (replay : pk.replay = false) (inline : pk.inline = true) (gone : pk.gone = false) :
    (s.bufferPassed id a pk).dev.packet? id = some { pk with applied := some (s.now, {}) } := by
  have applied := packet?_apply (addPacket_packet? id a pk s) replay inline gone {}
  rw [(addPacket_keeps id a pk s).now] at applied
  exact (packet?_of_traffic (holdBytes_traffic ..) id).trans applied

theorem bufferVector_traffic : (s.bufferVector id a pk).dev.traffic = (s.addPacket id a pk).dev.traffic := holdBytes_traffic ..

theorem bufferVector_packet? : (s.bufferVector id a pk).dev.packet? id = some pk :=
  (packet?_of_traffic (bufferVector_traffic ..) id).trans (addPacket_packet? ..)

theorem bufferVector_nextPacket : (s.bufferVector id a pk).dev.traffic.nextPacket = id + 1 := by
  obtain ⟨rx, traffic⟩ := addPacket_traffic id a pk s
  rw [bufferVector_traffic, traffic]

theorem bufferVector_flits : (s.bufferVector id a pk).dev.net.flits = s.dev.net.flits ++
    [{ cls := clsPawn, order := pk.deadline, die := portDieNo a.port, route := dieRoute (portDieNo a.port) (coreDie pk.core), ready := s.now
       bytes := vectorBytes, cargo := .vector id }] := by
  have added := addPacket_keeps id a pk s
  unfold State.bufferVector
  rw [holdBytes_net, State.launch, onNet_net, added.net (by decide), added.now]

end

/-- What the buffer admits depends on the ports and the packets alone (R135). -/
theorem admits_of_kept {P : List Part} {s t : State} (h : Kept P s t) (hp : Part.ports ∉ P) (ht : Part.traffic ∉ P) (port maxFrame : Nat) :
    t.dev.admits port maxFrame = s.dev.admits port maxFrame := by
  have reads (d : Dev) : d.admits port maxFrame = ({ ports := d.ports, traffic := d.traffic } : Dev).admits port maxFrame := rfl
  rw [reads t.dev, reads s.dev, h.ports hp, h.traffic ht]

/-- The packet of an arriving inline frame, its buffer taken at MAX_FRAME, before a channel is known (R135, R144). -/
def State.newPacket (s : State) (a : Arrival) : Packet :=
  { port := a.port, sub := a.sub, frame := a.frame, start := s.now, firstPly := s.now, shim := s.start.shimEtype a.port, prio := framePrio a.frame
    buffered := s.maxFrame a.port }

/-- The same packet with what its channel gives it, its vector `v` on its way to its core (R153, R157, R158). -/
def State.steeredPacket (s : State) (a : Arrival) (n : Nat) (c : Channel) (key v : Bytes) : Packet :=
  { s.newPacket a with
    chan := some (n, c.hgen), gen := c.gen, deadline := (s.now + s.start.genBound n c.gen) % 2 ^ 48, vector := v, core := c.steer key
    order := c.steerOrder key, stage := .vector }

/-- What the parser reads of an inline frame, which ends before its FCS (R148). -/
abbrev State.frameParse (s : State) (port : Nat) (f : Bytes) : Parse := s.inlineParse port (f.take (f.length - 4))

/-- The exceptions of a frame are counted (R170). -/
def State.parsedIn (s : State) (port : Nat) (f : Bytes) : State := s.countExc (portDie port) (s.frameParse port f).exc

/-- The frame is counted in its channel and recorded, and a partial key is counted (R154, R170, R529). -/
def State.assignedIn (s : State) (port sub : Nat) (f : Bytes) (n : Nat) (c : Channel) : State :=
  let u := ((s.parsedIn port f).chanCount n 0 1).recordIngress (s.inlineArrival port sub f) s.now (s.start.chanHandle n)
  if ((s.frameParse port f).flowKey c).2.2 then u.countExc (portDie port) (2 ^ xKeyPartial) else u

/-- The frame is counted as one that no channel takes (R156, R170). -/
def State.unmatchedIn (s : State) (port : Nat) (f : Bytes) : State := (s.parsedIn port f).bump (parserPage (portDie port)) (0x100 + 8 * 14) 1

theorem parsedIn_keeps (s : State) (port : Nat) (f : Bytes) : Kept [.counters, .score] s (s.parsedIn port f) :=
  countExc_kept _ _ _ (by decide) (.rfl' _ s)

theorem parsedIn_nextPacket (s : State) (port : Nat) (f : Bytes) : (s.parsedIn port f).dev.traffic.nextPacket = s.dev.traffic.nextPacket :=
  congrArg Traffic.nextPacket ((parsedIn_keeps s port f).traffic (by decide))

theorem unmatchedIn_keeps (s : State) (port : Nat) (f : Bytes) : Kept [.counters, .score] s (s.unmatchedIn port f) :=
  bump_kept _ _ _ (by decide) (parsedIn_keeps s port f)

theorem assignedIn_keeps (s : State) (port sub : Nat) (f : Bytes) (n : Nat) (c : Channel) :
    Kept [.counters, .score] s (s.assignedIn port sub f n c) := by
  have recorded := recordIngress_kept (s.inlineArrival port sub f) s.now (s.start.chanHandle n) _ (by decide)
    (chanCount_kept n 0 1 _ (by decide) (parsedIn_keeps s port f))
  exact ite_kept (countExc_kept _ _ _ (by decide) recorded) recorded

/-! ### FRAME_START -/

section
variable {s : State} {port sub : Nat} {f : Bytes} (passes : s.framePasses port sub f)
include passes

/-- No exception drops the frame (R151). -/
theorem framePasses_noDrop : ¬((List.range 16).any fun i =>
    bit (s.frameParse port f).exc i && bit (s.start.pairCfg port / 65536) i) = true := by
  obtain ⟨-, -, -, -, -, -, -, -, -, -, -, kept, -⟩ := passes
  simpa using kept

/-- What is counted and recorded before leaves the buffer's admission as it was (R135). -/
theorem framePasses_admits {t : State} (h : Kept [.counters, .score] s t) : t.dev.admits port (s.maxFrame port) = true := by
  obtain ⟨-, -, -, -, -, -, -, -, -, -, -, -, admits⟩ := passes
  exact (admits_of_kept h (by decide) (by decide) _ _).trans admits

/-- Steps 6 to 10 of R145 for a frame that a channel takes. -/
theorem ingress_matched {n : Nat} {c : Channel}
    (hit : s.start.select s.now port ((s.frameParse port f).selectorKey 0) = some (n, c)) (kind : c.keyKind ≠ 2)
    (free : s.start.quenched s.now port (some n) = none) :
    ∃ v, s.ingress (s.inlineArrival port sub f) =
      (s.assignedIn port sub f n c).bufferVector s.dev.traffic.nextPacket (s.inlineArrival port sub f)
        (s.steeredPacket (s.inlineArrival port sub f) n c ((s.frameParse port f).flowKey c).1 v) := by
  have admits := framePasses_admits passes (assignedIn_keeps s port sub f n c)
  rw [← parsedIn_nextPacket s port f]
  unfold State.ingress
  -- the names are those of `State.ingress`
  extract_lets st now die cfg tp p exc exc1 exc2 count drop s1 s2 id' hit' base q maxFrame buffer add s3 first
  have found : hit' = some (n, c) := hit
  have unquenched : q = none := (congrArg (fun h : Option (Nat × Channel) => s.start.quenched s.now port (h.map Prod.fst)) found).trans free
  rw [if_neg (by exact framePasses_noDrop passes), found]
  dsimp -zeta only
  rw [decide_eq_false kind]
  extract_lets s3' ans gen moved s4 b direct ans2 fk lv part key lv2 late part2 exc3 exc4 s5 s6 v pk dflt
  rw [if_neg (by simp [unquenched]), if_neg (by simp [unquenched]), if_neg (by exact Bool.false_ne_true)]
  refine ⟨v, (if_neg (by simp [State.inlineArrival])).trans ((if_pos admits).trans ?_)⟩
  rfl

/-- Steps 6 to 9 of R145 for a frame that no channel takes. -/
theorem ingress_unmatched (miss : s.start.select s.now port ((s.frameParse port f).selectorKey 0) = none)
    (pass : bit (s.start.pairCfg port) 10 = false) (free : s.start.quenched s.now port none = none) :
    s.ingress (s.inlineArrival port sub f) =
      (s.unmatchedIn port f).bufferPassed s.dev.traffic.nextPacket (s.inlineArrival port sub f)
        { s.newPacket (s.inlineArrival port sub f) with bypass := true } := by
  have admits := framePasses_admits passes (unmatchedIn_keeps s port f)
  rw [← parsedIn_nextPacket s port f]
  unfold State.ingress
  extract_lets st now die cfg tp p exc exc1 exc2 count drop s1 s2 id' hit base q maxFrame buffer add s3 first
  have found : hit = none := miss
  have unquenched : q = none := (congrArg (fun h : Option (Nat × Channel) => s.start.quenched s.now port (h.map Prod.fst)) found).trans free
  rw [if_neg (by exact framePasses_noDrop passes), found]
  dsimp -zeta only
  rw [if_neg (by rw [Bool.not_eq_true]; exact pass), if_neg (by simp [unquenched]), if_neg (by exact Bool.false_ne_true)]
  exact (if_neg (by simp [State.inlineArrival])).trans (if_pos admits)

/-- FRAME_START of a frame that a channel takes (R145, R155, R157, R158): its vector sets out for its core's die. -/
theorem frameStart_matched {n : Nat} {c : Channel}
    (hit : s.start.select s.now port ((s.frameParse port f).selectorKey 0) = some (n, c)) (kind : c.keyKind ≠ 2)
    (free : s.start.quenched s.now port (some n) = none) :
    ∃ t pk, exec (.frameStart port sub f) s = .next t ∧ t.dev.packet? s.dev.traffic.nextPacket = some pk ∧
      t.dev.traffic.nextPacket = s.dev.traffic.nextPacket + 1 ∧ pk.chan = some (n, c.hgen) ∧ pk.stage = .vector ∧ pk.applied = none ∧
      pk.frame = f.take (f.length - 4) ∧ pk.gen = c.gen ∧ pk.firstPly = s.now ∧ pk.deadline = (s.now + s.start.genBound n c.gen) % 2 ^ 48 ∧
      pk.core = c.steer ((s.frameParse port f).flowKey c).1 ∧
      pk.buffered = bits (s.start.rg (pageOf tPort port) 0x40) 29 16 ∧ t.dev.net.flits = s.dev.net.flits ++
        [{ cls := clsPawn, order := pk.deadline, die := portDieNo port, route := dieRoute (portDieNo port) (coreDie pk.core), ready := s.now
           bytes := vectorBytes, cargo := .vector s.dev.traffic.nextPacket }] := by
  obtain ⟨v, taken⟩ := ingress_matched passes hit kind free
  have kept := assignedIn_keeps s port sub f n c
  refine ⟨_, _, (frameStart_ingress passes).trans (congrArg _ taken), bufferVector_packet? .., bufferVector_nextPacket .., rfl, rfl, rfl, rfl, rfl,
    rfl, rfl, rfl, rfl, ?_⟩
  rw [bufferVector_flits, kept.net (by decide), kept.now]
  rfl

/-- FRAME_START of a frame that no channel takes, where such frames pass (R156): the empty verdict is applied in its first ply. -/
theorem frameStart_unmatched (miss : s.start.select s.now port ((s.frameParse port f).selectorKey 0) = none)
    (pass : bit (s.start.pairCfg port) 10 = false) (free : s.start.quenched s.now port none = none) :
    ∃ t pk, exec (.frameStart port sub f) s = .next t ∧ t.dev.packet? s.dev.traffic.nextPacket = some pk ∧ pk.chan = none ∧
      pk.frame = f.take (f.length - 4) ∧ pk.applied = some (s.now, {}) ∧ pk.gone = false := by
  refine ⟨_, _, (frameStart_ingress passes).trans (congrArg _ (ingress_unmatched passes miss pass free)),
    bufferPassed_packet? _ _ _ _ rfl rfl rfl, rfl, rfl, ?_, rfl⟩
  rw [(unmatchedIn_keeps s port f).now]

end

/-- Settles O27: a frame that passes the checks goes to the parser, and the buffer takes its packet with what its channel gives it, or with the
empty verdict. -/
theorem framesBecomePackets : Obligations.FramesBecomePackets := by
  unfold Obligations.FramesBecomePackets
  exact fun s port sub f passes => ⟨fun n c => frameStart_matched passes, frameStart_unmatched passes⟩

end Sys2Proof.Machine
end

section
/-! SUPPORT. Rings report (O25): what a change to one ring leaves in it. -/
namespace Sys2Proof.Machine

/-! ### Changes to one ring -/

/-- A change of an entry to another value than the default is what the table then gives, whatever the order of its keys. -/
theorem Table.get_modify_same {α : Type} [DecidableEq α] (d : α) (t : Table α) (k : Nat) {f : α → α} (other : f (Table.get d t k) ≠ d) :
    Table.get d (Table.modify d t k f) k = f (Table.get d t k) := by
  unfold Table.modify Table.set
  rw [if_neg other, Table.get, Table.get?_put, if_pos rfl]
  rfl

theorem ring_onRing {s : State} {n : Nat} {f : Ring → Ring} (used : (f (s.ring n)).use ≠ .free) : (s.onRing n f).ring n = f (s.ring n) := by
  have other : f (s.ring n) ≠ {} := fun free => used (congrArg Ring.use free)
  exact Table.get_modify_same {} s.dev.objects.rings n other

theorem Kept.objects {P : List Part} {s t : State} (h : Kept P s t) (hP : Part.objects ∉ P) : t.dev.objects = s.dev.objects :=
  (h.frame .objects hP).symm

theorem Kept.ring {P : List Part} {s t : State} (h : Kept P s t) (hP : Part.objects ∉ P) (n : Nat) : t.ring n = s.ring n :=
  congrArg (fun o : Objects => Table.get ({} : Ring) o.rings n) (h.objects hP)

/-- Overwriting acknowledged items leaves the use of the ring (R194). -/
@[simp] theorem overwrite_use (n : Nat) (r : Ring) : (r.overwrite n).use = r.use := by
  have go (fuel : Nat) (r : Ring) : (Ring.overwrite.go n fuel r).use = r.use := by
    induction fuel generalizing r with
    | zero => rfl
    | succ k ih =>
      unfold Ring.overwrite.go
      split
      · split
        · exact ih _
        · rfl
      · rfl
  exact go ..

@[simp] theorem hold_use (p : Nat) (i : Item) (r : Ring) : (r.hold p i).use = r.use := overwrite_use ..

/-! ### FLAG_FALL -/

/-- Does the ring hold an item in the ready state (R191)? -/
def Ring.holdsReady (r : Ring) : Bool := r.held.any fun i => decide (i.state = .ready)

/-- A ring `x` whose limit has ended as the start of the ply found it, in `r`, unless its timer has restarted in the ply (R191, R196). -/
def Ring.limitEnded (r x : Ring) : Ring := if x.timer = r.timer then { x with flagged := r.holdsReady, lapsed := !r.holdsReady } else x

/-- The state in which the flag-fall limit of ring `n` has ended. -/
def State.limitEnded (n : Nat) (s : State) : State := s.onRing n (Ring.limitEnded (s.start.ring n))

section
variable {s : State} {n : Nat}

theorem Ring.limitEnded_use (r x : Ring) : (r.limitEnded x).use = x.use := by
  unfold Ring.limitEnded
  split <;> rfl

theorem limitEnded_keeps : Kept [.objects] s (s.limitEnded n) := onRing_kept n _ s (List.Subset.refl _) (.rfl' _ s)

theorem limitEnded_ring (used : (s.ring n).use ≠ .free) : (s.limitEnded n).ring n = (s.start.ring n).limitEnded (s.ring n) :=
  ring_onRing (by rwa [Ring.limitEnded_use])

/-- FLAG_FALL (R191) at the end of the limit: FLAG_FALL is set where the ring held a ready item. -/
theorem flagFall_run (due : s.flagDue n = true) :
    exec (.flagFall n) s = .next (if (s.start.ring n).holdsReady then (s.limitEnded n).setEvent (ringPage n) (n % 8) else s.limitEnded n) := by
  show execFlagFall n s = _
  unfold execFlagFall
  rw [if_neg (by simp [due])]
  rfl

/-- What FLAG_FALL leaves of the ring and its page (R191). -/
theorem flagFall_reports (due : s.flagDue n = true) (used : (s.ring n).use ≠ .free) :
    ∃ t, exec (.flagFall n) s = .next t ∧
      ((s.ring n).timer = (s.start.ring n).timer →
        (t.ring n).flagged = (s.start.ring n).holdsReady ∧ (t.ring n).lapsed = !(s.start.ring n).holdsReady) ∧
      ((s.start.ring n).holdsReady = true → s.clearedNow (ringPage n) = false → t.raised (ringPage n) (n % 8)) ∧
      ((s.start.ring n).holdsReady = false → t.dev.regs = s.dev.regs) := by
  have ended (running : (s.ring n).timer = (s.start.ring n).timer) : ((s.limitEnded n).ring n).flagged = (s.start.ring n).holdsReady ∧
      ((s.limitEnded n).ring n).lapsed = !(s.start.ring n).holdsReady := by
    rw [limitEnded_ring used, Ring.limitEnded, if_pos running]
    exact ⟨rfl, rfl⟩
  have run := flagFall_run due
  cases ready : (s.start.ring n).holdsReady with
  | true =>
    rw [ready] at ended run
    refine ⟨_, run, ?_, fun _ clear => ?_, nofun⟩
    · rw [if_pos rfl, (setEvent_kept _ _ _ (List.Subset.refl _) (.rfl' _ _)).ring (by decide)]
      exact ended
    · exact setEvent_raised' _ _ _ (by omega) ((limitEnded_keeps.clearedNow (by decide) (by decide) _).trans clear)
  | false =>
    rw [ready] at ended run
    exact ⟨_, run, ended, nofun, fun _ => rfl⟩

/-! ### PENDING_GAP -/

/-- PENDING_GAP (R190): with a word free, the pending gap is held as a gap marker with its count. -/
theorem pendingGap_run (used : (s.ring n).use ≠ .free) (pending : 0 < (s.ring n).pendingGap) (room : 1 ≤ (s.ring n).freeAt s.now) :
    ∃ t, exec (.pendingGap n) s = .next t ∧
      t.ring n = Ring.hold s.now { kind := 1, info := min (s.ring n).pendingGap (2 ^ 32 - 1) } { s.ring n with pendingGap := 0 } := by
  have run : exec (.pendingGap n) s = .next ((s.onRing n fun r =>
      Ring.hold s.now { kind := 1, info := min r.pendingGap (2 ^ 32 - 1) } { r with pendingGap := 0 }).ringMark n (s.ring n).markLost) :=
    if_neg (by omega)
  refine ⟨_, run, ?_⟩
  exact ((ringMark_kept _ _ _ (List.Subset.refl _) (.rfl' _ _)).ring (by decide) n).trans (ring_onRing (by simpa using used))

end

/-- Settles O25: FLAG_FALL by what the end of the limit leaves of the ring, PENDING_GAP by the marker that the ring then holds. -/
theorem ringsReport : Obligations.RingsReport := by
  unfold Obligations.RingsReport
  refine fun s n => ⟨fun r start startUsed used startFlag flag startLapse lapse limit passed => ?_, pendingGap_run⟩
  subst start
  refine flagFall_reports ?_ used
  have nonzero : s.flagLimit n ≠ 0 := by
    unfold State.flagLimit
    omega
  have ended : (s.start.ring n).timer + s.flagLimit n ≤ s.now := passed
  simp [State.flagDue, nonzero, startUsed, used, ended, startFlag, flag, startLapse, lapse]

end Sys2Proof.Machine
end

section
/-! SUPPORT. Channels live (O26): what rings, generations and staging operations leave of the channels, and the life of a slot. -/
namespace Sys2Proof.Machine

/-! ### Changes to one channel -/

theorem chan_onChan {s : State} {n : Nat} {f : Channel → Channel} (used : (f (s.chan n)).state ≠ .free) :
    (s.onChan n f).chan n = f (s.chan n) := by
  have other : f (s.chan n) ≠ {} := fun free => used (congrArg Channel.state free)
  exact Table.get_modify_same {} s.dev.objects.channels n other

theorem chanHandle_eq (s : State) (n : Nat) : s.dev.chanHandle n = handleOf 1 (s.chan n).hgen n := rfl

/-- What leads from `s` to `t` leaves the channel slots and their pool. -/
structure State.SameChannels (s t : State) : Prop where
  channels : t.dev.objects.channels = s.dev.objects.channels
  pool : t.dev.objects.chanPool = s.dev.objects.chanPool

section
variable {P : List Part} {s t u : State}

theorem State.SameChannels.refl (s : State) : s.SameChannels s := ⟨rfl, rfl⟩

theorem State.SameChannels.trans (a : s.SameChannels t) (b : t.SameChannels u) : s.SameChannels u :=
  ⟨b.channels.trans a.channels, b.pool.trans a.pool⟩

theorem State.SameChannels.chan (h : s.SameChannels t) (n : Nat) : t.chan n = s.chan n :=
  congrArg (fun l : Table Channel => Table.get ({} : Channel) l n) h.channels

theorem Kept.sameChannels (h : Kept P s t) (hP : Part.objects ∉ P) : s.SameChannels t :=
  ⟨congrArg Objects.channels (h.objects hP), congrArg Objects.chanPool (h.objects hP)⟩

theorem onObjects_sameChannels {f : Objects → Objects} (channels : (f s.dev.objects).channels = s.dev.objects.channels)
    (pool : (f s.dev.objects).chanPool = s.dev.objects.chanPool) : s.SameChannels (s.onObjects f) := ⟨channels, pool⟩

theorem onCompute_sameChannels (f : Compute → Compute) (s : State) : s.SameChannels (s.onCompute f) := ⟨rfl, rfl⟩

theorem setReg_sameChannels (a : Nat) (v : Word) (s : State) : s.SameChannels (s.setReg a v) :=
  (setReg_kept a v (List.Subset.refl _) (.rfl' _ s)).sameChannels (by decide)

theorem allocRing_sameChannels (die : Nat) (use : RingUse) (v : Nat) (host : Bool) (s : State) :
    s.SameChannels (s.allocRing die use v host).1 := by
  unfold State.allocRing
  dsimp only
  split
  · exact .refl s
  · exact (onObjects_sameChannels rfl rfl).trans (setReg_sameChannels ..)

theorem chanRing_sameChannels (die : Nat) (use : RingUse) (v : Nat) (host : Bool) (s : State) :
    s.SameChannels (s.chanRing die use v host).1 := by
  unfold State.chanRing
  split
  · exact .refl s
  · exact allocRing_sameChannels ..

theorem freeRing_sameChannels (n : Nat) (s : State) : s.SameChannels (s.freeRing n) :=
  (onObjects_sameChannels rfl rfl).trans (setReg_sameChannels ..)

theorem zeroChan_keeps (n : Nat) (s : State) : Kept [.counters] s (s.zeroChan n) := zeroChan_kept n s (List.Subset.refl _) (.rfl' _ s)

theorem complete_sameChannels (n opcode status detail : Nat) (body : Bytes) (s : State) :
    s.SameChannels (s.complete n opcode status detail body) := (complete_kept _ _ _ _ _ _ (List.Subset.refl _) (.rfl' _ s)).sameChannels (by decide)

theorem retireGen_sameChannels (deep : Bool) (target gen : Nat) (s : State) : s.SameChannels (s.retireGen deep target gen) := by
  unfold State.retireGen
  dsimp only
  refine .trans ?_ ((setEvent_kept _ _ _ (List.Subset.refl _) (.rfl' _ _)).sameChannels (by decide))
  exact ⟨rfl, rfl⟩

theorem endQuench_sameChannels (q : Nat) (s : State) : s.SameChannels (s.endQuench q) := ⟨rfl, rfl⟩

theorem discardStage_sameChannels (k : Nat) (s : State) : s.SameChannels (s.discardStage k) := by
  unfold State.discardStage
  dsimp only
  split
  · exact .refl s
  · exact ⟨rfl, rfl⟩
  · exact ⟨rfl, rfl⟩

theorem each_sameChannels {α : Type} {f : α → State → State} (step : ∀ (a : α) (s : State), s.SameChannels (f a s)) (l : List α) (s : State) :
    s.SameChannels (State.each l f s) := each_related .refl .trans step l s

end

/-! ### CHANNEL_CREATE -/

/-- The slot of a channel that has been set up keeps its handle generation, and takes the rings that the descriptor asks for (R173, R178, R182). -/
theorem setupChan_chan (n : Nat) (b : Bytes) (s : State) :
    (∃ result log input, (s.setupChan n b).chan n = { newChannel b with hgen := (s.chan n).hgen, result, log, input }) ∧
      (s.setupChan n b).dev.objects.chanPool = s.dev.objects.chanPool := by
  unfold State.setupChan
  extract_lets new ans1 s1 result ans2 s2 log ans3 s3 input s4
  have rings : s.SameChannels s3 :=
    ((chanRing_sameChannels ..).trans (chanRing_sameChannels ..)).trans (chanRing_sameChannels ..)
  have zeroed : (s3.onChan n fun q => { new with hgen := q.hgen, result, log, input }).SameChannels s4 :=
    (zeroChan_keeps ..).sameChannels (by decide)
  have kept (f : Compute → Compute) : (s3.onChan n fun q => { new with hgen := q.hgen, result, log, input }).SameChannels (s4.onCompute f) :=
    zeroed.trans (onCompute_sameChannels f s4)
  refine ⟨⟨result, log, input, ?_⟩, (kept _).pool.trans rings.pool⟩
  have made : (s3.onChan n fun q => { new with hgen := q.hgen, result, log, input }).chan n =
      { new with hgen := (s3.chan n).hgen, result, log, input } := chan_onChan nofun
  rw [rings.chan n] at made
  exact ((kept _).chan n).trans made

section
variable {s : State} {sess n p : Nat} {x : Session} {c : Cmd} {pool : Pool}

/-- The state in which slot `n` has been taken from the pool, and the channel of a descriptor has been set up in it (R174, R178). -/
def State.opened (n : Nat) (pool : Pool) (b : Bytes) (s : State) : State := (s.onObjects fun o => { o with chanPool := pool }).setupChan n b

/-- The state in which the record of the new channel has been formed for the partner too (R517). -/
def State.created (n : Nat) (pool : Pool) (b : Bytes) (s : State) : State :=
  (s.opened n pool b).mirror 1 0 (toLE 4 ((s.opened n pool b).dev.chanHandle n) ++ zeros 4 ++ b)

theorem mirror_keeps (ty whr : Nat) (b : Bytes) (s : State) :
    Kept [.counters, .ports, .traffic, .net, .pair, .out] s (s.mirror ty whr b) := mirror_kept _ _ _ _ (List.Subset.refl _) (.rfl' _ s)

theorem opened_keeps (n : Nat) (pool : Pool) (b : Bytes) (s : State) :
    Kept [.registers, .counters, .objects, .compute] s (s.opened n pool b) :=
  setupChan_kept _ _ _ (List.Subset.refl _) (onObjects_kept _ (by decide) (.rfl' _ s))

theorem created_session? (m : Nat) (b : Bytes) : (s.created n pool b).session? m = s.session? m :=
  ((mirror_keeps ..).session? (by decide) m).trans ((opened_keeps n pool b s).session? (by decide) m)

theorem created_chan (n : Nat) (pool : Pool) (b : Bytes) (s : State) :
    (∃ result log input, (s.created n pool b).chan n = { newChannel b with hgen := (s.chan n).hgen, result, log, input }) ∧
      (s.created n pool b).dev.objects.chanPool = pool := by
  obtain ⟨⟨result, log, input, chan⟩, taken⟩ := setupChan_chan n b (s.onObjects fun o => { o with chanPool := pool })
  have mirrored : (s.opened n pool b).SameChannels (s.created n pool b) := (mirror_keeps ..).sameChannels (by decide)
  exact ⟨⟨result, log, input, (mirrored.chan n).trans chan⟩, mirrored.pool.trans taken⟩

/-- CHANNEL_CREATE (R178) with a descriptor that passes its checks, and with room. -/
theorem channelCreate_run (go : s.ready sess 0x20 = some (x, c)) (active : s.dev.pair.role ≠ .standby) (len : Bytes.le c.body 0 4 = 144)
    (whole : c.body.length = 148) (good : s.dev.descBad (c.body.drop 4) = none) (fits : 4 ≤ bodyRoom x c.route)
    (slot : s.dev.objects.chanPool.take 4096 = some (n, pool)) (room : s.dev.noRoom (c.body.drop 4) = false) :
    exec (.channelCreate sess) s = .next ((s.created n pool (c.body.drop 4)).complete sess 0x20 stOK 0
      (toLE 4 ((s.created n pool (c.body.drop 4)).dev.chanHandle n))) := by
  show execChannelCreate sess s = _
  unfold execChannelCreate
  rw [command_eq go]
  simp only [active, len, whole, good, sized_eq fits, slot, room, ne_eq, not_true, or_self, if_false, Bool.false_eq_true]
  rfl

/-! ### CHANNEL_DESTROY -/

/-- CHANNEL_DESTROY (R181) of a channel that a command of the same ply has destroyed already. -/
theorem channelDestroy_again (go : s.ready sess 0x21 = some (x, c)) (active : s.dev.pair.role ≠ .standby) (whole : c.body.length = 4)
    (current : s.chanOf (Bytes.le c.body 0 4) = some n) (gone : (s.chan n).live = false) :
    exec (.channelDestroy sess) s = .next (s.complete sess 0x21 stOK 0 []) := by
  show execChannelDestroy sess s = _
  unfold execChannelDestroy
  rw [command_eq go]
  simp only [active, whole, current, gone, ne_eq, not_true, if_false, Bool.not_false, if_true]

/-- The state in which channel `n` drains, and the record of it has set out to the partner (R181, R517). -/
def State.destroyed (n : Nat) (s : State) : State := (s.mirror 2 0 (toLE 4 (s.dev.chanHandle n) ++ zeros 4)).destroyChan n

/-- CHANNEL_DESTROY (R181) of a live channel. -/
theorem channelDestroy_run (go : s.ready sess 0x21 = some (x, c)) (active : s.dev.pair.role ≠ .standby) (whole : c.body.length = 4)
    (current : s.chanOf (Bytes.le c.body 0 4) = some n) (live : (s.chan n).live = true) :
    exec (.channelDestroy sess) s = .next ((s.destroyed n).complete sess 0x21 stOK 0 []) := by
  show execChannelDestroy sess s = _
  unfold execChannelDestroy
  rw [command_eq go]
  simp only [active, whole, current, live, ne_eq, not_true, if_false, Bool.not_true, Bool.false_eq_true]
  rfl

/-- A channel that is destroyed drains from now on (R181). -/
theorem destroyChan_chan (n : Nat) (s : State) : (s.destroyChan n).chan n = { s.chan n with state := .draining, destroyed := some s.now } := by
  unfold State.destroyChan
  extract_lets s1 s2
  have quenches : s1.SameChannels s2 := each_sameChannels endQuench_sameChannels _ s1
  have stages := each_sameChannels discardStage_sameChannels
    ((s2.dev.objects.stages.filter fun e => decide (e.2.chan = some n ∧ e.2.state ≠ .free)).map (·.1)) s2
  exact ((quenches.trans stages).chan n).trans (chan_onChan nofun)

theorem destroyChan_session? (n m : Nat) (s : State) : (s.destroyChan n).session? m = s.session? m := by
  unfold State.destroyChan
  extract_lets s1 s2
  have stages := each_kept (fun k u => discardStage_kept k u (List.Subset.refl _)) (.rfl' [.counters, .objects] s2)
    (l := (s2.dev.objects.stages.filter fun e => decide (e.2.chan = some n ∧ e.2.state ≠ .free)).map (·.1))
  have quenches : s2.session? m = s1.session? m := endQuenches_session? _ s1 m
  exact (stages.session? (by decide) m).trans quenches

theorem destroyed_chan (n : Nat) (s : State) : (s.destroyed n).chan n = { s.chan n with state := .draining, destroyed := some s.now } := by
  have mirrored := mirror_keeps 2 0 (toLE 4 (s.dev.chanHandle n) ++ zeros 4) s
  rw [State.destroyed, destroyChan_chan, mirrored.now, (mirrored.sameChannels (by decide)).chan]

theorem destroyed_session? (n m : Nat) (s : State) : (s.destroyed n).session? m = s.session? m :=
  (destroyChan_session? ..).trans ((mirror_keeps ..).session? (by decide) m)

/-! ### CHANNEL_DRAINED -/

/-- A ring that a channel has, if it has one, is released (R181, R182). -/
def State.freeRingOf (r : Option Nat) (s : State) : State := match r with
  | some k => s.freeRing k
  | none => s

theorem freeRingOf_sameChannels (r : Option Nat) (s : State) : s.SameChannels (s.freeRingOf r) := by
  cases r with
  | none => exact .refl s
  | some k => exact freeRing_sameChannels k s

theorem freeRingOf_kept (r : Option Nat) (s : State) {P : List Part} {s0 : State} (hP : [.registers, .objects] ⊆ P) (hk : Kept P s0 s) :
    Kept P s0 (s.freeRingOf r) := by
  cases r with
  | none => exact hk
  | some k => exact freeRing_kept k s hP hk

/-- The state in which the generations of channel `n` are retired and its rings are released (R181). -/
def State.drained (n : Nat) (s : State) : State :=
  State.each [(s.chan n).result, (s.chan n).log, (s.chan n).input] State.freeRingOf
    (State.each (s.dev.chanGens n) (fun g s => s.retireGen false n g.gen) s)

/-- The state in which slot `n` is free under its next handle generation, its counters at 0 (R173, R174, R199). -/
def State.slotFreed (n : Nat) (s : State) : State :=
  ((s.drained n).onObjects fun o =>
    { o with channels := Table.set {} o.channels n { hgen := ((s.chan n).hgen + 1) % 4096 }, chanPool := o.chanPool.release n }).zeroChan n

theorem drained_sameChannels (n : Nat) (s : State) : s.SameChannels (s.drained n) := by
  have retired : s.SameChannels (State.each (s.dev.chanGens n) (fun g s => s.retireGen false n g.gen) s) :=
    each_sameChannels (fun (g : Generation) u => retireGen_sameChannels false n g.gen u) _ s
  exact retired.trans (each_sameChannels freeRingOf_sameChannels _ _)

/-- CHANNEL_DRAINED (R181) in a ply after the destroy, with no packet of the channel left. -/
theorem channelDrained_run (since : (s.chan n).destroyed = some p) (draining : (s.chan n).state = .draining) (later : p < s.now)
    (idle : s.dev.chanBusy n (s.chan n).hgen = false) :
    exec (.channelDrained n) s = .next ((s.slotFreed n).setEvent (channelPage n) 2) := by
  show execChannelDrained n s = _
  unfold execChannelDrained State.drainEnds
  simp only [since, draining, idle, Nat.not_le.mpr later, ne_eq, not_true, Bool.false_eq_true, false_and, or_self, if_false]
  rfl

theorem slotFreed_channels (n : Nat) (s : State) :
    (s.slotFreed n).dev.objects.channels = Table.set {} s.dev.objects.channels n { hgen := ((s.chan n).hgen + 1) % 4096 } ∧
      (s.slotFreed n).dev.objects.chanPool = s.dev.objects.chanPool.release n := by
  have same := drained_sameChannels n s
  have zeroed : Kept [.counters] _ (s.slotFreed n) := zeroChan_keeps n _
  rw [zeroed.objects (by decide), onObjects_objects, same.channels, same.pool]
  exact ⟨rfl, rfl⟩

theorem slotFreed_keeps (n : Nat) (s : State) : Kept [.headers, .registers, .counters, .objects, .compute, .score] s (s.slotFreed n) := by
  have retired := each_kept (fun g u => retireGen_kept false n g.gen u (by decide))
    (.rfl' [.headers, .registers, .counters, .objects, .compute, .score] s) (l := s.dev.chanGens n)
  exact zeroChan_kept _ _ (by decide) (onObjects_kept _ (by decide) (each_kept (fun r u => freeRingOf_kept r u (by decide)) retired))

end

/-- Settles O26: CHANNEL_CREATE by the slot that is set up, CHANNEL_DESTROY by whether the channel still lives, CHANNEL_DRAINED by the slot that is
freed. -/
theorem channelsLive : Obligations.ChannelsLive := by
  unfold Obligations.ChannelsLive
  refine fun s sess n p x c pool => ⟨?_, ?_, ?_⟩
  · intro go active len whole good fits slot room
    obtain ⟨⟨result, log, input, chan⟩, taken⟩ := created_chan n pool (c.body.drop 4) s
    have handle : (s.created n pool (c.body.drop 4)).dev.chanHandle n = handleOf 1 (s.chan n).hgen n := by
      rw [chanHandle_eq, chan]
    have answer := complete_sameChannels sess 0x20 stOK 0 (toLE 4 (handleOf 1 (s.chan n).hgen n)) (s.created n pool (c.body.drop 4))
    have run := channelCreate_run go active len whole good fits slot room
    rw [handle] at run
    refine ⟨_, run, answer.pool.trans taken, ?_⟩
    rw [answer.chan, chan]
    refine ⟨rfl, rfl, ?_, rfl, answered_of_ready go (created_session? ..)⟩
    simp only [newChannel, List.drop_drop]
  · intro go active whole current
    cases live : (s.chan n).live with
    | true =>
      refine ⟨_, channelDestroy_run go active whole current live, answered_of_ready go (destroyed_session? ..), fun _ => ?_, nofun⟩
      rw [(complete_sameChannels ..).chan, destroyed_chan]
      exact ⟨rfl, rfl⟩
    | false =>
      exact ⟨_, channelDestroy_again go active whole current live, answered_of_ready go rfl, nofun, fun _ => complete_objects ..⟩
  · intro since draining later idle clear
    refine ⟨_, channelDrained_run since draining later idle, ?_, ?_⟩
    · exact setEvent_raised' _ _ _ (by decide) (((slotFreed_keeps n s).clearedNow (by decide) (by decide) _).trans clear)
    · rw [setEvent_objects]
      exact slotFreed_channels n s

end Sys2Proof.Machine
end

section
/-! SUPPORT. A statement that fails on a table of slices whose keys do not rise (O43).

As in the statements on tokens, batches and works above, the canonical form says nothing of the table of the slices, and `Table.erase` leaves a key that
stands behind a larger one. A slice of which nothing is left but a free move latch is the default, so freeing the latch is such an erasure. -/
namespace Sys2Proof.Machine

/-! ### A slice whose latch stays -/

/-- An entry of channel 0 whose key is all 0. -/
def zeroKeyEntry : Bytes := sealEntry (zeros 42 ++ toLE 2 4096 ++ zeros 20)

/-- TABLE_DELETE of that key of channel 0. -/
def deleteZeroKey : Cmd := { opcode := 0x34, body := zeros 4 ++ toLE 4 (handleOf 1 0 0) ++ zeros 48 }

/-- A session with that command. -/
def deletingSession : Session := { num := 1, cmds := [deleteZeroKey] }

/-- The slice of core 0, whose latch moves the entry from the first place of the stash to the second, stands behind that of core 1. -/
def slicesUnordered : State :=
  let d : Dev :=
    { selid := { sessions := [deletingSession] }
      objects := { channels := [(0, { state := .bound, cores := [0] })] }
      flow :=
        { exact := [(4 * nb 0, zeroKeyEntry)]
          slices := [(1, { latch := some (0, 1, 0) }), (0, { latch := some (4 * nb 0, 4 * nb 0 + 1, 0) })] } }
  { dev := d, start := d }

/-- The move latch of core 0's slice after a command. -/
def latchAfter : Host.Outcome State Fault Refusal → Option (Nat × Nat × Nat)
  | .next t => (t.dev.slice 0).latch
  | _ => none

/-- Refutes O43, in its clause on TABLE_DELETE of an entry in the move latch: both places are of the stash, so the slice notes no freed slot, what is left
of it is to be erased, and the latch is still read. -/
theorem not_tablesAnswer : ¬ Obligations.TablesAnswer := by
  unfold Obligations.TablesAnswer
  intro claim
  obtain ⟨-, deletes, -⟩ := claim slicesUnordered 1 0 0 deletingSession deleteZeroKey (zeros 48) (by decide +kernel)
  have ready : slicesUnordered.tableReady 1 0x34 56 0 deletingSession deleteZeroKey := by decide +kernel
  obtain ⟨found, -⟩ := deletes (by decide +kernel) (by decide +kernel) (by decide +kernel) ready (by decide +kernel)
  obtain ⟨-, latched⟩ := found (.exact 0 (4 * nb 0)) 0 false (by decide +kernel)
  obtain ⟨t, run, -, -, free, -⟩ := latched (4 * nb 0) (4 * nb 0 + 1) 0 (by decide +kernel) rfl (by decide) (by decide) (by decide)
  have held : latchAfter (exec (.tableDelete 1 false false) slicesUnordered) = some (4 * nb 0, 4 * nb 0 + 1, 0) := by decide +kernel
  rw [run] at held
  exact nomatch held.symm.trans free

end Sys2Proof.Machine
end

section
/-! SUPPORT. The feature stage's host items, host slots and window ends (O37): the item taken and sent on the links or refused, the slots written, the
window noted and the shift stepped. -/
namespace Sys2Proof.Machine

theorem Kept.compute {P : List Part} {s t : State} (h : Kept P s t) (hP : Part.compute ∉ P) : t.dev.compute = s.dev.compute :=
  (h.frame .compute hP).symm

theorem Kept.core {P : List Part} {s t : State} (h : Kept P s t) (hP : Part.compute ∉ P) (k : Nat) : t.dev.core k = s.dev.core k :=
  congrArg (fun c : Compute => Table.get ({} : CoreState) c.cores k) (h.compute hP)

/-! ### HOST_FEATURE_ITEM -/

/-- The port die has consumed the oldest item of a feature ring, the one of this ply (R249). -/
def State.itemTaken (r : Nat) (s : State) : State := (s.ringConsume r).1.onRing r fun x => { x with tookPly := some s.now }

/-- An item of a feature ring is on its way from the ring's port die to a compute die (R15, R19). -/
def State.itemToDie (r : Nat) (i : Item) (die : Nat) (s : State) : State := s.sendParcel clsControl 0 (16 * i.len) (4 + r / 32768) die

/-- The item is taken, and on its way to the dies of the channel's cores (R249). -/
def State.itemSent (chan r : Nat) (i : Item) (s : State) : State :=
  State.each (((s.chan chan).cores.map coreDie).eraseDups) (State.itemToDie r i) (s.itemTaken r)

/-- The values of an item, due 4,096 plies after its consumption. -/
def State.itemInFlight (chan : Nat) (i : Item) (s : State) : HostItem :=
  { chan, hgen := (s.chan chan).hgen, due := s.now + 4096, first := Bytes.at i.body 0,
    values := (List.range (Bytes.at i.body 1)).map fun j => Bytes.le i.body (4 + 4 * j) 4 }

/-- A malformed item is consumed, its ring named and the item counted (R249, R254). -/
def State.itemRefused (r : Nat) (s : State) : State :=
  ((s.itemTaken r).setReg (addrOf pgFeature 0x44) (BitVec.ofNat 32 (s.dev.ringHandle r))).bump pgFeature (0x80 + 8 * 6) 1

theorem itemTaken_keeps (r : Nat) (s : State) : Kept [.objects] s (s.itemTaken r) :=
  onRing_kept _ _ _ (List.Subset.refl _) (ringConsume_kept _ _ (List.Subset.refl _) (.rfl' _ s))

theorem itemSent_keeps (chan r : Nat) (i : Item) (s : State) : Kept [.net] (s.itemTaken r) (s.itemSent chan r i) :=
  each_kept (fun _ _ h => sendParcel_kept _ _ _ _ _ _ (List.Subset.refl _) h) (.rfl' _ _)

theorem itemRefused_keeps (r : Nat) (s : State) : Kept [.registers, .counters] (s.itemTaken r) (s.itemRefused r) :=
  bump_kept _ _ _ (by decide) (setReg_kept _ _ (by decide) (.rfl' _ _))

section
variable {s : State} {chan r : Nat} {i : Item} (input : (s.chan chan).input = some r) (oldest : (s.ringConsume r).2 = some i)
  (first : (s.ring r).tookPly ≠ some s.now)

include input oldest first

/-- HOST_FEATURE_ITEM with an item there, the ring's first of the ply (R249). -/
theorem hostFeatureItem_run :
    exec (.hostFeatureItem chan) s = .next (
      if hostItemGood i then (s.itemSent chan r i).onCompute fun x => { x with hostItems := x.hostItems ++ [s.itemInFlight chan i] }
      else (s.itemRefused r).setEvent pgFeature 1) := by
  show Host.Outcome.next (s.hostItem chan) = _
  simp only [State.hostItem, input, oldest, if_neg first]
  rfl

theorem hostFeatureItem_good (good : hostItemGood i = true) :
    ∃ t, exec (.hostFeatureItem chan) s = .next t ∧ t.dev.objects = (s.itemTaken r).dev.objects ∧
      t.dev.compute.hostItems = s.dev.compute.hostItems ++ [s.itemInFlight chan i] := by
  refine ⟨_, (hostFeatureItem_run input oldest first).trans (congrArg Host.Outcome.next (if_pos good)), ?_, ?_⟩
  · exact (itemSent_keeps chan r i s).objects (by decide)
  · have compute : (s.itemSent chan r i).dev.compute = s.dev.compute :=
      ((itemSent_keeps chan r i s).compute (by decide)).trans ((itemTaken_keeps r s).compute (by decide))
    rw [onCompute_compute, compute]

theorem hostFeatureItem_bad (bad : hostItemGood i = false) (clear : s.clearedNow pgFeature = false) :
    ∃ t, exec (.hostFeatureItem chan) s = .next t ∧ t.dev.objects = (s.itemTaken r).dev.objects ∧
      t.dev.compute.hostItems = s.dev.compute.hostItems ∧ t.raised pgFeature 1 := by
  have taken := itemTaken_keeps r s
  have refused := itemRefused_keeps r s
  refine ⟨_, (hostFeatureItem_run input oldest first).trans (congrArg Host.Outcome.next (if_neg (by simp [bad]))), ?_, ?_, ?_⟩
  · exact (setEvent_objects ..).trans (refused.objects (by decide))
  · rw [setEvent_compute, refused.compute (by decide), taken.compute (by decide)]
  · exact setEvent_raised' _ _ _ (by decide)
      ((refused.clearedNow (by decide) (by decide) _).trans ((taken.clearedNow (by decide) (by decide) _).trans clear))

end

/-! ### HOST_SLOT_APPLY -/

/-- The oldest item in flight, due and of a channel that is still the same, writes its slots (R249). -/
theorem hostSlotApply_due {s : State} {i : HostItem} {rest : List HostItem} (oldest : s.dev.compute.hostItems = i :: rest) (due : i.due ≤ s.now)
    (used : (s.chan i.chan).state ≠ .free) (same : (s.chan i.chan).hgen = i.hgen) :
    ∃ t, exec .hostSlotApply s = .next t ∧ t.dev.compute.hostItems = rest ∧
      t.dev.compute.hostSlots = writeSlots s.dev.compute.hostSlots (i.chan * 64 + i.first) i.values := by
  have live : ¬((s.chan i.chan).state = .free ∨ (s.chan i.chan).hgen ≠ i.hgen) := not_or.mpr ⟨used, fun differs => differs same⟩
  have run : exec .hostSlotApply s = .next (((s.onCompute fun x => { x with hostItems := rest }).onCompute fun x =>
      { x with hostSlots := writeSlots x.hostSlots (i.chan * 64 + i.first) i.values }).bump pgFeature (0x80 + 8 * 5) 1) := by
    show Host.Outcome.next s.applySlots = _
    simp only [State.applySlots, oldest, if_neg (Nat.not_lt.mpr due)]
    exact congrArg Host.Outcome.next (if_neg live)
  exact ⟨_, run, rfl, rfl⟩

/-! ### FEATURE_WINDOW_END -/

/-- A ply that ends a window of the generation is noted, and the core decides at its end (R251). -/
theorem featureWindowEnd_last {s : State} {core chan gen : Nat} {g : Generation} (there : s.dev.gen? false chan gen = some g)
    (windowed : g.windowLog ≠ 0) (last : (s.now + 1) % 2 ^ g.windowLog = 0) :
    exec (.featureWindowEnd core chan gen) s = .next (s.onCompute fun x => { x with windows := x.windows ++ [(core, chan, gen)] }) := by
  have ends : lastOfWindow g.windowLog s.now = true := decide_eq_true ⟨windowed, last⟩
  show execFeatureWindowEnd core chan gen s = _
  simp only [execFeatureWindowEnd, there, ends, Bool.not_true, Bool.false_eq_true, if_false]

/-- The feature page counts a step up or down of a shift (R251, R254). -/
def State.countStep (d : Int) (s : State) : State :=
  if d = 1 then s.bump pgFeature 0x88 1 else if d = -1 then s.bump pgFeature 0x90 1 else s

theorem countStep_keeps (d : Int) (s : State) : Kept [.counters] s (s.countStep d) :=
  ite_kept (bump_kept _ _ _ (by decide) (.rfl' _ s)) (ite_kept (bump_kept _ _ _ (by decide) (.rfl' _ s)) (.rfl' _ s))

/-- The step a feature's shift takes at the end of its window (R251). -/
def Dev.shiftStep (d : Dev) (core key : Nat) (g : Generation) (i : Nat) : Int := windowStep (d.featState core key g i) (g.ft i 17 1) (g.ft i 18 1)

/-- At the end of a window the shift of a feature steps, and what its core had observed is forgotten (R251). -/
def State.stepShift (core key : Nat) (g : Generation) (i : Nat) (s : State) : State :=
  (s.countStep (s.dev.shiftStep core key g i)).onCore core fun x =>
    { x with feat := Table.modify { shift := g.ftParam i } x.feat (key * 256 + i) (Adapt.renew (s.dev.shiftStep core key g i)) }

theorem windowEnd_eq {s : State} {chan gen : Nat} {g : Generation} (there : s.dev.gen? false chan gen = some g) (core : Nat) :
    s.windowEnd core chan gen = State.each ((List.range g.featCount).filter fun i => g.ftAdapt i) (State.stepShift core (genKey false chan gen) g)
      (s.bump pgFeature 0x80 (s.dev.flatWindows core chan (genKey false chan gen) g).length) := by
  simp only [State.windowEnd, there]
  rfl

theorem stepShift_feat {s : State} (canon : s.dev.canonical = true) (core key : Nat) (g : Generation) (i : Nat) :
    ((s.stepShift core key g i).dev.core core).feat =
      Table.modify { shift := g.ftParam i } (s.dev.core core).feat (key * 256 + i) (Adapt.renew (s.dev.shiftStep core key g i)) := by
  have counted := countStep_keeps (s.dev.shiftStep core key g i) s
  rw [State.stepShift, core_onCore _ _ _ (counted.canon canon), if_pos rfl, counted.core (by decide)]

/-- The end of a window of the only adaptive feature of a generation. -/
theorem windowEnd_feat {s : State} {chan gen i : Nat} {g : Generation} (canon : s.dev.canonical = true)
    (there : s.dev.gen? false chan gen = some g) (only : ((List.range g.featCount).filter fun i => g.ftAdapt i) = [i]) (core : Nat) :
    ((s.windowEnd core chan gen).dev.core core).feat = Table.modify { shift := g.ftParam i } (s.dev.core core).feat
      (genKey false chan gen * 256 + i) (Adapt.renew (s.dev.shiftStep core (genKey false chan gen) g i)) := by
  rw [windowEnd_eq there, only]
  exact stepShift_feat ((bump_kept _ _ _ (List.Subset.refl _) (.rfl' _ s)).canon canon) core _ g i

/-- Settles O37: an item of a feature ring by what sending or refusing it leaves, the slots by the item in flight that is due, the window by the step of
its one adaptive feature. -/
theorem featuresFollow : Obligations.FeaturesFollow := by
  unfold Obligations.FeaturesFollow
  intro s canon
  refine ⟨fun chan r i input oldest first => ?_, fun i rest => hostSlotApply_due, fun core chan gen g i there => ?_⟩
  · exact ⟨hostFeatureItem_good input oldest first, hostFeatureItem_bad input oldest first⟩
  · exact ⟨fun windowed last => ⟨_, featureWindowEnd_last there windowed last, rfl, rfl⟩, fun only => windowEnd_feat canon there only core⟩

end Sys2Proof.Machine
end

section
/-! SUPPORT. A statement that fails on a table of the dies that lists one twice (O34).

As in the statements on tokens, batches, works and slices above, the canonical form says nothing of the table of the dies. Where it lists a die twice, the
first entry is read; a grant of no energy leaves that entry the default, which `Table.modify` erases, and the second is read from then on. -/
namespace Sys2Proof.Machine

/-! ### A die listed twice -/

/-- A context at its ARRAY entry, whose layer's descriptor stands at the start of the scratchpad. -/
def arrayCtx : Ctx := { state := .running, task := { sched := 2 ^ 28, cls := 0, ba := [2 ^ 63], items := [0] } }

/-- Core 0 runs that context: its table has one ARRAY entry of no energy, and its layer a batch of one slot and no rows. Die 0 is listed as after a reset,
and again with a step of 99 reported for its first site. -/
def dieTwice : State :=
  let d : Dev :=
    { objects := { gens := [(genKey false 0 0, { image := [(2, 1), (32, 1)] })], siteMap := [(0, some 0)] }
      reliab := { sites := [(0, { state := .active })] }
      power := { dies := [(0, {}), (0, { steps := [(0, 99)] })] }
      compute := { cores := [(0, { ctxs := [(0, arrayCtx)], scratch := [(16, 1)] })] } }
  { ply := 1, dev := d, start := d }

/-- When the pass of context 0 of core 0 is ready for the rescale unit, after a command. -/
def readyAfter : Host.Outcome State Fault Refusal → Option Nat
  | .next t => ((t.dev.core 0).runOf 0).map ArrayRun.ready
  | _ => none

/-- Refutes O34, in its clause on a pass that ARRAY begins: the pass takes its three steps at the 99 sixteenths that the second entry of die 0 gives, once
the grant has erased the first, and not at the 25 that the core's step was before. -/
theorem not_arraysCompute : ¬ Obligations.ArraysCompute := by
  unfold Obligations.ArraysCompute
  intro claim
  obtain ⟨begins, -⟩ := claim dieTwice 0 0 0 arrayCtx { op := 1 } ((dieTwice.grant 0 0 0).get (by decide +kernel)) (by decide +kernel) rfl
  obtain ⟨takesRegion, -⟩ := begins _ (by decide +kernel) rfl rfl (by decide +kernel) rfl
  obtain ⟨t, run, -, -, pass⟩ := takesRegion 0 0 1 (by decide +kernel) (by decide +kernel) (by decide +kernel)
  have stated : readyAfter (.next t) = some (16 + 3 * 25) := by
    rw [readyAfter, pass]
    decide +kernel
  have taken : readyAfter (exec (.array 0 0) dieTwice) = some (16 + 3 * 99) := by decide +kernel
  rw [run] at taken
  exact absurd (taken.symm.trans stated) (by decide)

end Sys2Proof.Machine
end

section
/-! SUPPORT. Passes stop and adapt (O36): what reports on a core's passes leave of its tasks, a pass that stops at a tile and is sealed, one that a fault
aborts, and the steps of adaptation. -/
namespace Sys2Proof.Machine

/-! ### Contexts and passes of a core -/

section
variable {s : State} (canon : s.dev.canonical = true) {core ctx : Nat}
include canon

theorem core_onCore_same (f : CoreState → CoreState) : (s.onCore core f).dev.core core = f (s.dev.core core) :=
  (core_onCore core f s canon core).trans (if_pos rfl)

theorem core_onCtx (f : Ctx → Ctx) : (s.onCtx core ctx f).dev.core core = (s.dev.core core).onCtx ctx f := core_onCore_same canon _

/-- A context that is changed to another than a free one. -/
theorem ctx_onCtx {f : Ctx → Ctx} (other : f (s.ctx core ctx) ≠ {}) : (s.onCtx core ctx f).ctx core ctx = f (s.ctx core ctx) :=
  (congrArg (CoreState.ctx · ctx) (core_onCtx canon f)).trans (Table.get_modify_same ({} : Ctx) (s.dev.core core).ctxs ctx (f := f) other)

end

theorem ctx_of_ctxs {s t : State} {core : Nat} (h : (t.dev.core core).ctxs = (s.dev.core core).ctxs) (ctx : Nat) : t.ctx core ctx = s.ctx core ctx :=
  congrArg (fun c => Table.get ({} : Ctx) c ctx) h

theorem runOf_of_running {x y : CoreState} (h : y.running = x.running) (ctx : Nat) : y.runOf ctx = x.runOf ctx := by
  unfold CoreState.runOf
  rw [h]

@[simp] theorem unseal_ctxs (ctx : Nat) (x : CoreState) : (x.unseal ctx).ctxs = x.ctxs := by
  unfold CoreState.unseal
  split <;> rfl

@[simp] theorem unseal_running (ctx : Nat) (x : CoreState) : (x.unseal ctx).running = x.running := by
  unfold CoreState.unseal
  split <;> rfl

theorem unseal_adjourn (ctx : Nat) (x : CoreState) : (x.unseal ctx).adjourn ≠ some ctx := by
  unfold CoreState.unseal
  split
  · exact Option.some_ne_none _ ∘ Eq.symm
  · assumption

@[simp] theorem onArray_ctxs (a : Nat) (f : ArrayState → ArrayState) (x : CoreState) : (x.onArray a f).ctxs = x.ctxs := by
  unfold CoreState.onArray
  split <;> rfl

@[simp] theorem onArray_running (a : Nat) (f : ArrayState → ArrayState) (x : CoreState) : (x.onArray a f).running = x.running := by
  unfold CoreState.onArray
  split <;> rfl

@[simp] theorem keep_ctxs (l : LayerD) (j arr region : Nat) (slots : List Nat) (p : Pass) (x : CoreState) :
    (x.keep l j arr region slots p).ctxs = x.ctxs := by
  unfold CoreState.keep
  dsimp only
  repeat' split
  all_goals simp

@[simp] theorem keep_running (l : LayerD) (j arr region : Nat) (slots : List Nat) (p : Pass) (x : CoreState) :
    (x.keep l j arr region slots p).running = x.running := by
  unfold CoreState.keep
  dsimp only
  repeat' split
  all_goals simp

@[simp] theorem scrap_ctxs (r : ArrayRun) (x : CoreState) : (x.scrap r).ctxs = x.ctxs := by
  unfold CoreState.scrap
  dsimp only
  repeat' split
  all_goals simp

/-- The pass of a context that goes on as `f` says. -/
theorem runOf_onRun {x : CoreState} {ctx : Nat} {r : ArrayRun} (there : x.runOf ctx = some r) {f : ArrayRun → ArrayRun}
    (same : ∀ q, (f q).ctx = q.ctx) : (x.onRun ctx f).runOf ctx = some (f r) := by
  have there : x.running.find? (fun q => decide (q.ctx = ctx)) = some r := there
  have own : r.ctx = ctx := by simpa using List.find?_some there
  have context (q : ArrayRun) : (if q.ctx = ctx then f q else q).ctx = q.ctx := by
    split
    · exact same q
    · rfl
  simp only [CoreState.runOf, CoreState.onRun, List.find?_map, Function.comp_def, context]
  rw [there, Option.map_some, if_pos own]

/-- A pass that has left its region is under way no more. -/
theorem runOf_dropRun (ctx : Nat) (x : CoreState) : (x.dropRun ctx).runOf ctx = none := by
  simp [CoreState.runOf, CoreState.dropRun]

theorem runOf_onCtx (ctx t : Nat) (f : Ctx → Ctx) (x : CoreState) : (x.onCtx t f).runOf ctx = x.runOf ctx := rfl

section
variable {s : State} (canon : s.dev.canonical = true) (core : Nat) (r : ArrayRun) (scrap : Bool)
include canon

theorem leaveRegion_ctx (ctx : Nat) : (s.leaveRegion core r scrap).ctx core ctx = s.ctx core ctx := by
  refine ctx_of_ctxs ?_ ctx
  rw [State.leaveRegion, core_onCore_same canon]
  cases scrap <;> simp [CoreState.dropRun]

theorem leaveRegion_runOf : ((s.leaveRegion core r scrap).dev.core core).runOf r.ctx = none := by
  rw [State.leaveRegion, core_onCore_same canon, runOf_of_running (unseal_running _ _), runOf_dropRun]

end

/-! ### Reports on a core's passes -/

/-- What leads from `s` to `t` reports on a core's passes: it leaves the core's contexts and passes as they are, and raised flags up. -/
structure State.Reports (core : Nat) (s t : State) : Prop where
  kept : Kept [.headers, .registers, .counters, .compute, .power, .score] s t
  ctxs : s.dev.canonical = true → (t.dev.core core).ctxs = (s.dev.core core).ctxs
  running : s.dev.canonical = true → (t.dev.core core).running = (s.dev.core core).running
  raised : s.dev.canonical = true → ∀ p b, s.raised p b → t.raised p b

section
variable {core : Nat} {s t u : State}

theorem State.Reports.trans (a : s.Reports core t) (b : t.Reports core u) : s.Reports core u :=
  ⟨a.kept.trans b.kept, fun c => (b.ctxs (a.kept.canon c)).trans (a.ctxs c), fun c => (b.running (a.kept.canon c)).trans (a.running c),
    fun c p n h => b.raised (a.kept.canon c) p n (a.raised c p n h)⟩

theorem State.Reports.of_core (kept : Kept [.headers, .registers, .counters, .compute, .power, .score] s t)
    (same : t.dev.compute = s.dev.compute) (raised : s.dev.canonical = true → ∀ p b, s.raised p b → t.raised p b) : s.Reports core t := by
  have same : t.dev.core core = s.dev.core core := congrArg (fun c : Compute => Table.get ({} : CoreState) c.cores core) same
  exact ⟨kept, fun _ => by rw [same], fun _ => by rw [same], raised⟩

/-- Counters, registers and the pools of energy say nothing of a core's tasks. -/
theorem Kept.reports (kept : Kept [.registers, .counters, .power] s t) : s.Reports core t :=
  .of_core ⟨kept.pending, kept.start, kept.ply, fun p h => kept.frame p fun m => h (by revert m; cases p <;> decide), kept.canon, kept.keepsSeal⟩
    (kept.compute (by decide)) fun _ _ _ => kept.raised (by decide)

theorem State.Reports.refl (core : Nat) (s : State) : s.Reports core s := (Kept.rfl' _ s).reports

theorem State.Reports.ite {c : Prop} [Decidable c] (a : s.Reports core t) (b : s.Reports core u) : s.Reports core (if c then t else u) := by
  split
  · exact a
  · exact b

theorem State.Reports.canon (h : s.Reports core t) (c : s.dev.canonical = true) : t.dev.canonical = true := h.kept.canon c

theorem State.Reports.ctx (h : s.Reports core t) (c : s.dev.canonical = true) (k : Nat) : t.ctx core k = s.ctx core k := ctx_of_ctxs (h.ctxs c) k

theorem State.Reports.runOf (h : s.Reports core t) (c : s.dev.canonical = true) (k : Nat) :
    (t.dev.core core).runOf k = (s.dev.core core).runOf k := runOf_of_running (h.running c) k

theorem Kept.corePage {P : List Part} (h : Kept P s t) (hP : Part.objects ∉ P) (type c : Nat) : t.dev.corePage type c = s.dev.corePage type c := by
  unfold Dev.corePage Dev.siteOf
  rw [h.objects hP]

/-- A change of a core that leaves its contexts and passes alone. -/
theorem onCore_reports {f : CoreState → CoreState} (ctxs : ∀ y, (f y).ctxs = y.ctxs) (running : ∀ y, (f y).running = y.running) (s : State) :
    s.Reports core (s.onCore core f) :=
  ⟨onCore_kept core f (by decide) (.rfl' _ s), fun c => by rw [core_onCore_same c, ctxs], fun c => by rw [core_onCore_same c, running],
    fun _ _ _ h => raised_of_hdr rfl h⟩

theorem setEvent_reports (page b : Nat) (s : State) : s.Reports core (s.setEvent page b) :=
  .of_core (setEvent_kept page b s (by decide) (.rfl' _ s)) (setEvent_compute ..) fun c _ _ => raised_setEvent page b c

theorem setFaulted_reports (page : Nat) (s : State) : s.Reports core (s.setFaulted page true) := by
  refine .of_core (setFaulted_kept page true s (by decide) (.rfl' _ s)) (setFaulted_compute ..) fun c p b h => ?_
  cases clear : s.clearedNow page with
  | false => exact raised_setFaulted page true c clear h
  | true =>
    rw [State.setFaulted, if_pos rfl, clear, if_pos rfl]
    exact h

theorem coreEvent_reports (type b : Nat) (s : State) : s.Reports core (s.coreEvent type core b) := by
  unfold State.coreEvent
  split
  · exact setEvent_reports _ b s
  · exact .refl core s

theorem coreEvent_raised {type b p : Nat} (bit : b < 32) (page : s.dev.corePage type core = some p) (clear : s.clearedNow p = false) :
    (s.coreEvent type core b).raised p b := by
  rw [State.coreEvent, page]
  exact setEvent_raised' p b s bit clear

theorem arrayCount_reports (e n : Nat) (s : State) : s.Reports core (s.arrayCount core e n) :=
  (arrayCount_kept core e n s (by decide) (.rfl' _ s)).reports

theorem arrayNote_reports (e b n : Nat) (s : State) : s.Reports core (s.arrayNote core e b n) :=
  .ite (.refl core s) (.trans (Kept.reports (coreBump_kept _ _ _ _ _ (by decide) (.rfl' _ s))) (coreEvent_reports _ _ _))

theorem arrayNote_raised {e b n p : Nat} (shown : n ≠ 0) (bit : b < 32) (page : s.dev.corePage tArray core = some p) (clear : s.clearedNow p = false) :
    (s.arrayNote core e b n).raised p b := by
  have counted := coreBump_kept tArray core (0x80 + 8 * e) n s (List.Subset.refl _) (.rfl' _ s)
  rw [State.arrayNote, if_neg shown]
  exact coreEvent_raised bit ((counted.corePage (by decide) ..).trans page) ((counted.clearedNow (by decide) (by decide) p).trans clear)

theorem passRan_reports (l : LayerD) (j arr region : Nat) (slots : List Nat) (p : Pass) (s : State) :
    s.Reports core (s.passRan core l j arr region slots p) :=
  (onCore_reports (keep_ctxs l j arr region slots p) (keep_running l j arr region slots p) s).trans <|
    (arrayNote_reports ..).trans <| (arrayNote_reports ..).trans <| (arrayNote_reports ..).trans (arrayNote_reports ..)

theorem markSuspect_reports (arr : Nat) (s : State) : s.Reports core (s.markSuspect core arr) := by
  have marked := onCore_reports (core := core) (fun y => onArray_ctxs arr (fun a => { a with suspect := true }) y) (onArray_running arr _) s
  unfold State.markSuspect
  dsimp only
  split
  · exact marked.trans (setFaulted_reports _ _)
  · exact marked

theorem struckTiles_reports (kind : Nat) (r : ArrayRun) (x : Ctx) (e : Entry) (s : State) : s.Reports core (s.struckTiles core kind r x e) :=
  .ite (.refl core s) (passRan_reports ..)

/-- A grant of energy, where the pools have it. -/
theorem grant_reports (cls n : Nat) (s : State) : s.Reports core ((s.grant core cls n).getD s) := by
  have drawn (f : Tempo → Tempo) : s.Reports core (s.onTempo (coreDie core) f) := (onTempo_kept _ _ _ (by decide) (.rfl' _ s)).reports
  have counted (t : State) : t.Reports core (t.tempoCount (coreDie core) 1 n) := (tempoCount_kept _ _ _ _ (by decide) (.rfl' _ t)).reports
  unfold State.grant
  dsimp only
  split
  · rw [Option.getD_some]
    refine (drawn _).trans (.trans (onCore_reports ?_ ?_ _) (counted _)) <;> exact fun _ => rfl
  split
  · exact (drawn _).trans (counted _)
  · exact .refl core s

end

/-! ### ADJOURNMENT -/

/-- The sealed move of a pass that stops before reduction tile `tiles` (R322, R323). -/
def State.moveOf (core ctx : Nat) (x : Ctx) (e : Entry) (r : ArrayRun) (tiles : Nat) (s : State) : SealedMove :=
  let l := s.dev.layerAt core x (x.addr e)
  { mode := l.mode, regions := l.regions, array := r.arr, region := r.region, slots := x.passBatch l, nextTile := tiles, colTile := x.tile e
    cols := (l.channels (x.tile e)).length, thread := ctx, layer := x.addr e, acc := (s.runPass core x e r.arr r.region tiles).acc }

/-- The pass has run its tiles before tile `tiles`. -/
def State.ranTo (core : Nat) (x : Ctx) (e : Entry) (r : ArrayRun) (tiles : Nat) (s : State) : State :=
  let l := s.dev.layerAt core x (x.addr e)
  s.passRan core l (x.tile e) r.arr r.region (x.passSlots e l) (s.runPass core x e r.arr r.region tiles)

/-- A pass that writes move `m` until `ends` (R322). -/
def ArrayRun.seals (m : SealedMove) (ends : Nat) (r : ArrayRun) : ArrayRun := { r with sealing := some m, ends := some ends }

/-- The pass is being sealed, and what was asked of the core is done. -/
def CoreState.seals (ctx : Nat) (m : SealedMove) (ends : Nat) (x : CoreState) : CoreState := (x.onRun ctx (ArrayRun.seals m ends)).unseal ctx

theorem seals_ctxs (ctx : Nat) (m : SealedMove) (ends : Nat) (x : CoreState) : (x.seals ctx m ends).ctxs = x.ctxs := unseal_ctxs ctx _

theorem seals_runOf {ctx : Nat} {r : ArrayRun} {x : CoreState} (pass : x.runOf ctx = some r) (m : SealedMove) (ends : Nat) :
    (x.seals ctx m ends).runOf ctx = some (r.seals m ends) :=
  (runOf_of_running (unseal_running ctx _) ctx).trans (runOf_onRun pass fun _ => rfl)

/-- When the last word of the move is written. -/
def State.sealEnds (core ctx : Nat) (x : Ctx) (e : Entry) (r : ArrayRun) (tiles : Nat) (s : State) : Nat :=
  s.clock + ((s.dev.layerAt core x (x.addr e)).d + 2 + (s.moveOf core ctx x e r tiles).steps) * s.dev.stepOf core

/-- The pass stops before tile `tiles`, its task is charged for the move, and the move is written (R322, R455). -/
def State.stopped (core ctx : Nat) (x : Ctx) (e : Entry) (r : ArrayRun) (tiles : Nat) (s : State) : State :=
  (((s.ranTo core x e r tiles).charge core ctx (s.moveOf core ctx x e r tiles).units).onCore core
    (CoreState.seals ctx (s.moveOf core ctx x e r tiles) (s.sealEnds core ctx x e r tiles))).tempoCount
      (coreDie core) 5 (b2n (decide ((s.dev.core core).adjourn ≠ some ctx)))

theorem SealedMove.units_pos (m : SealedMove) : 0 < m.units := by
  unfold SealedMove.units SealedMove.len
  omega

section
variable {s : State} {core ctx : Nat} {x : Ctx} {e : Entry} {r : ArrayRun} {tiles : Nat}

theorem charge_ctx (canon : s.dev.canonical = true) {n : Nat} (some : 0 < n) :
    (s.charge core ctx n).ctx core ctx = { s.ctx core ctx with energy := (s.ctx core ctx).energy + n } := by
  have granted := grant_reports (core := core) (s.ctx core ctx).task.cls n s
  rw [State.charge, ctx_onCtx (granted.canon canon), granted.ctx canon]
  intro free
  have none : (s.ctx core ctx).energy + n = 0 := granted.ctx canon ctx ▸ congrArg Ctx.energy free
  omega

theorem charge_runOf (canon : s.dev.canonical = true) (n : Nat) : ((s.charge core ctx n).dev.core core).runOf ctx = (s.dev.core core).runOf ctx := by
  have granted := grant_reports (core := core) (s.ctx core ctx).task.cls n s
  rw [State.charge, core_onCtx (granted.canon canon), runOf_onCtx, granted.runOf canon]

/-- ADJOURNMENT of a pass that is asked to stop, at a tile that it may stop at (R322, R453, R454). -/
theorem adjournment_run (stands : s.ctx core ctx = x) (next : s.dev.entryOf x = some e) (pass : (s.dev.core core).runOf ctx = some r)
    (array : r.mvec = false) (sealable : s.canSeal r = true) (uncancelled : x.cancel = false) (sound : x.fault = none) {done : Nat}
    (doneIs : done = x.firstTile + (s.dev.layerAt core x (x.addr e)).tilesIn (x.passSlots e (s.dev.layerAt core x (x.addr e))).length x.firstTile
      (s.stepsTaken core r - r.lead)) (short : tiles < (s.dev.layerAt core x (x.addr e)).tiles) (least : done ≤ tiles) (most : tiles ≤ done + 1)
    (asked : (s.dev.core core).adjourn = some ctx ∨ s.clockAsks core ctx = true) :
    exec (.adjournment core ctx tiles) s = .next (s.stopped core ctx x e r tiles) := by
  subst doneIs
  show execAdjournment core ctx tiles s = _
  simp only [execAdjournment, pass, stands, next]
  refine if_neg ?_
  simp only [array, sealable, uncancelled, sound, Nat.not_le.mpr short, Nat.not_lt.mpr least, Nat.not_lt.mpr most, Bool.not_true, Option.isSome_none,
    decide_false, Bool.or_false, Bool.false_or]
  simpa using asked.resolve_left

theorem ranTo_reports : s.Reports core (s.ranTo core x e r tiles) := passRan_reports ..

section
variable (canon : s.dev.canonical = true)
include canon

theorem stopped_core : (s.stopped core ctx x e r tiles).dev.core core =
    (((s.ranTo core x e r tiles).charge core ctx (s.moveOf core ctx x e r tiles).units).dev.core core).seals ctx (s.moveOf core ctx x e r tiles)
      (s.sealEnds core ctx x e r tiles) := by
  have charged := charge_kept core ctx (s.moveOf core ctx x e r tiles).units _ (List.Subset.refl _) (.rfl' _ (s.ranTo core x e r tiles))
  rw [State.stopped, (tempoCount_kept _ _ _ _ (List.Subset.refl _) (.rfl' _ _)).core (by decide),
    core_onCore_same (charged.canon (ranTo_reports.canon canon))]

theorem stopped_ctx : (s.stopped core ctx x e r tiles).ctx core ctx =
    { s.ctx core ctx with energy := (s.ctx core ctx).energy + (s.moveOf core ctx x e r tiles).units } := by
  rw [ctx_of_ctxs ((congrArg CoreState.ctxs (stopped_core canon)).trans (seals_ctxs ..)),
    charge_ctx (ranTo_reports.canon canon) (SealedMove.units_pos _), ranTo_reports.ctx canon]

theorem stopped_runOf (pass : (s.dev.core core).runOf ctx = some r) : ((s.stopped core ctx x e r tiles).dev.core core).runOf ctx =
    some (r.seals (s.moveOf core ctx x e r tiles) (s.sealEnds core ctx x e r tiles)) := by
  rw [stopped_core canon]
  refine seals_runOf ?_ _ _
  rw [charge_runOf (ranTo_reports.canon canon), ranTo_reports.runOf canon, pass]

theorem stopped_adjourn : ((s.stopped core ctx x e r tiles).dev.core core).adjourn ≠ some ctx := by
  rw [stopped_core canon]
  exact unseal_adjourn ctx _

end

end

/-! ### The last word of a sealed move -/

section
variable {s : State} {core : Nat} {r : ArrayRun} {m : SealedMove}

/-- The task of a pass is adjourned, with its move sealed (R322, R323, R451). -/
def Ctx.adjourned (m : SealedMove) (x : Ctx) : Ctx := { x with state := .adjourned, move := some { m with check := m.sum }, rate := 0 }

theorem runEnds_of_sealing (sealing : r.sealing = some m) : s.runEnds core r =
    ((((s.arrayCount core 0 (s.stepsTaken core r)).leaveRegion core r true).onCtx core r.ctx (Ctx.adjourned { m with sealPly := s.now })).arrayCount
      core 11 1) := by
  unfold State.runEnds
  rw [sealing]
  rfl

theorem runEnds_adjourns (canon : s.dev.canonical = true) (sealing : r.sealing = some m) :
    (s.runEnds core r).ctx core r.ctx = (s.ctx core r.ctx).adjourned { m with sealPly := s.now } ∧
      ((s.runEnds core r).dev.core core).runOf r.ctx = none := by
  have counted := arrayCount_reports (core := core) 0 (s.stepsTaken core r) s
  have left := leaveRegion_kept core r true _ (List.Subset.refl _) (.rfl' _ (s.arrayCount core 0 (s.stepsTaken core r)))
  have leftCanon := left.canon (counted.canon canon)
  have changed := onCtx_kept core r.ctx (Ctx.adjourned { m with sealPly := s.now }) _ (List.Subset.refl _)
    (.rfl' _ ((s.arrayCount core 0 (s.stepsTaken core r)).leaveRegion core r true))
  have last := arrayCount_reports (core := core) 11 1
    (((s.arrayCount core 0 (s.stepsTaken core r)).leaveRegion core r true).onCtx core r.ctx (Ctx.adjourned { m with sealPly := s.now }))
  rw [runEnds_of_sealing sealing, last.ctx (changed.canon leftCanon), last.runOf (changed.canon leftCanon), core_onCtx leftCanon, runOf_onCtx,
    leaveRegion_runOf (counted.canon canon), ctx_onCtx leftCanon, leaveRegion_ctx (counted.canon canon), counted.ctx canon]
  · exact ⟨rfl, rfl⟩
  · exact fun free => nomatch congrArg Ctx.state free

end

/-! ### ARRAY_FAULT -/

/-- FAULT_LAST of a fault of the pass of a context (R330). -/
def faultLast (ctx kind arr region : Nat) : Word :=
  BitVec.ofNat 32 (kind * 2 ^ 28 + arr * 2 ^ 27 + region % 4 * 2 ^ 25 + b2n (decide (kind = 3 ∨ kind = 4)) * 2 ^ 24 + ctx % 16)

/-- The fault is named on the page of the arrays, which is FAULTED (R62, R330). -/
def State.faultNamed (ctx kind arr region p : Nat) (s : State) : State :=
  (if s.setThisPly p 5 && !(s.dev.reg (addrOf p 0x48)).getLsbD 27 && decide (arr = 1) then s
  else s.setReg (addrOf p 0x48) (faultLast ctx kind arr region)).setFaulted p true

/-- What a fault that has been counted shows by its kind: a failed comparison makes both arrays suspect (R311, R325, R327). -/
def State.kindShown (core kind : Nat) (s : State) : State :=
  let compared := if kind = 4 then ((s.arrayNote core 14 8 1).markSuspect core 0).markSuspect core 1 else s
  if kind = 5 then compared.arrayNote core 13 7 1 else compared

/-- The fault is named and counted, and has struck no pass yet. -/
def State.faultShown (core ctx kind arr region p : Nat) (s : State) : State :=
  ((s.faultNamed ctx kind arr region p).arrayNote core 9 5 1).kindShown core kind

/-- A pass is discarded, and its task stands at its entry as before (R326). -/
def Ctx.restarted (x : Ctx) : Ctx := { x with move := none, restarts := x.restarts + 1 }

/-- A task whose pass may not be tried again ends (R327). -/
def Ctx.failed (x : Ctx) : Ctx := { x with fault := if x.fault.isNone then some 1 else x.fault }

/-- The pass that a fault struck has been counted and discarded. -/
def State.discarded (core kind : Nat) (r : ArrayRun) (s : State) : State :=
  let shown := match s.dev.entryOf (s.ctx core r.ctx) with
    | some e => s.struckTiles core kind r (s.ctx core r.ctx) e
    | none => s
  ((shown.arrayCount core 0 (s.stepsTaken core r)).leaveRegion core r true).onCtx core r.ctx Ctx.restarted

/-- The task of the pass is aborted (R327). -/
def State.taskFailed (core kind : Nat) (r : ArrayRun) (s : State) : State := (s.discarded core kind r).onCtx core r.ctx Ctx.failed

section
variable {s : State} {core kind arr : Nat} {r : ArrayRun}

theorem abortRun_eq (limit : Nat) : s.abortRun core kind arr limit r =
    if limit ≤ (s.ctx core r.ctx).restarts then
      ((s.taskFailed core kind r).coreEvent tArray core 6).markSuspect core arr
    else (s.discarded core kind r).arrayCount core 10 1 := rfl

theorem discarded_shown : ∃ u, s.Reports core u ∧ s.discarded core kind r = (u.leaveRegion core r true).onCtx core r.ctx Ctx.restarted := by
  refine ⟨_, ?_, rfl⟩
  refine .trans ?_ (arrayCount_reports ..)
  split
  · exact struckTiles_reports ..
  · exact .refl core s

theorem discarded_kept (core kind : Nat) (r : ArrayRun) (s : State) : Kept [.headers, .counters, .compute, .score] s (s.discarded core kind r) := by
  refine onCtx_kept _ _ _ _ (by decide) (leaveRegion_kept _ _ _ _ (by decide) (arrayCount_kept _ _ _ _ (by decide) ?_))
  split
  · exact struckTiles_kept _ _ _ _ _ _ (List.Subset.refl _) (.rfl' _ s)
  · exact .rfl' _ s

section
variable (canon : s.dev.canonical = true)
include canon

theorem discarded_raised {p b : Nat} (up : s.raised p b) : (s.discarded core kind r).raised p b := by
  obtain ⟨u, shown, eq⟩ := discarded_shown (s := s) (core := core) (kind := kind) (r := r)
  rw [eq]
  exact (onCtx_kept _ _ _ _ (List.Subset.refl _) (leaveRegion_kept _ _ _ _ (List.Subset.refl _) (.rfl' _ u))).raised (by decide)
    (shown.raised canon p b up)

theorem discarded_ctx : (s.discarded core kind r).ctx core r.ctx = (s.ctx core r.ctx).restarted := by
  obtain ⟨u, shown, eq⟩ := discarded_shown (s := s) (core := core) (kind := kind) (r := r)
  have left := leaveRegion_kept core r true u (List.Subset.refl _) (.rfl' _ u)
  rw [eq, ctx_onCtx (left.canon (shown.canon canon)), leaveRegion_ctx (shown.canon canon), shown.ctx canon]
  exact fun free => nomatch congrArg Ctx.restarts free

theorem discarded_runOf : ((s.discarded core kind r).dev.core core).runOf r.ctx = none := by
  obtain ⟨u, shown, eq⟩ := discarded_shown (s := s) (core := core) (kind := kind) (r := r)
  have left := leaveRegion_kept core r true u (List.Subset.refl _) (.rfl' _ u)
  rw [eq, core_onCtx (left.canon (shown.canon canon)), runOf_onCtx, leaveRegion_runOf (shown.canon canon)]

theorem taskFailed_ctx : (s.taskFailed core kind r).ctx core r.ctx = (s.ctx core r.ctx).restarted.failed := by
  rw [State.taskFailed, ctx_onCtx ((discarded_kept core kind r s).canon canon), discarded_ctx canon]
  rw [discarded_ctx canon]
  exact fun free => nomatch congrArg Ctx.restarts free

theorem taskFailed_runOf : ((s.taskFailed core kind r).dev.core core).runOf r.ctx = none := by
  rw [State.taskFailed, core_onCtx ((discarded_kept core kind r s).canon canon), runOf_onCtx, discarded_runOf canon]

/-- Below the limit, a pass that a fault aborts may be tried again (R326, R327). -/
theorem abortRun_retries {limit : Nat} (below : (s.ctx core r.ctx).restarts < limit) :
    (s.abortRun core kind arr limit r).ctx core r.ctx = (s.ctx core r.ctx).restarted ∧
      ((s.abortRun core kind arr limit r).dev.core core).runOf r.ctx = none ∧
      ∀ p b, s.raised p b → (s.abortRun core kind arr limit r).raised p b := by
  have counted := arrayCount_reports (core := core) 10 1 (s.discarded core kind r)
  have canon' := (discarded_kept core kind r s).canon canon
  rw [abortRun_eq, if_neg (Nat.not_le.mpr below), counted.ctx canon', counted.runOf canon']
  exact ⟨discarded_ctx canon, discarded_runOf canon, fun p b up => counted.raised canon' p b (discarded_raised canon up)⟩

/-- At the limit, its task is aborted (R327). -/
theorem abortRun_ends {limit : Nat} (reached : limit ≤ (s.ctx core r.ctx).restarts) :
    (s.abortRun core kind arr limit r).ctx core r.ctx = (s.ctx core r.ctx).restarted.failed ∧
      ((s.abortRun core kind arr limit r).dev.core core).runOf r.ctx = none ∧
      (∀ p b, s.raised p b → (s.abortRun core kind arr limit r).raised p b) ∧
      ∀ p, s.dev.corePage tArray core = some p → s.clearedNow p = false → (s.abortRun core kind arr limit r).raised p 6 := by
  have failed : Kept [.headers, .counters, .compute, .score] s (s.taskFailed core kind r) :=
    onCtx_kept _ _ _ _ (by decide) (discarded_kept core kind r s)
  have canon' := failed.canon canon
  have event := coreEvent_reports (core := core) tArray 6 (s.taskFailed core kind r)
  have suspect := markSuspect_reports (core := core) arr ((s.taskFailed core kind r).coreEvent tArray core 6)
  have reports := event.trans suspect
  rw [abortRun_eq, if_pos reached, reports.ctx canon', reports.runOf canon']
  refine ⟨taskFailed_ctx canon, taskFailed_runOf canon, fun p b up => reports.raised canon' p b ?_, fun p page clear => ?_⟩
  · exact (onCtx_kept _ _ _ _ (List.Subset.refl _) (.rfl' _ _)).raised (by decide) (discarded_raised canon up)
  · refine suspect.raised (event.canon canon') p 6 (coreEvent_raised (by decide) ?_ ?_)
    · rwa [failed.corePage (by decide)]
    · rwa [failed.clearedNow (by decide) (by decide)]

end

end

section
variable {s : State} {core ctx kind arr region p : Nat}

theorem passFails_eq (page : s.dev.corePage tArray core = some p) : s.passFails core ctx kind arr region =
    State.each (((s.faultShown core ctx kind arr region p).dev.core core).arrayRuns.filter fun r => decide (r.ctx = ctx ∨ (kind = 3 ∧ r.onArray arr)))
      (State.abortRun core kind arr (s.start.rg p 0x4C % 16)) (s.faultShown core ctx kind arr region p) := by
  unfold State.passFails
  simp only [page]
  rfl

theorem faultNamed_reports : s.Reports core (s.faultNamed ctx kind arr region p) :=
  .trans (.ite (.refl core s) (Kept.reports (setReg_kept _ _ (by decide) (.rfl' _ s)))) (setFaulted_reports p _)

theorem kindShown_reports : s.Reports core (s.kindShown core kind) := by
  have compared : s.Reports core (if kind = 4 then ((s.arrayNote core 14 8 1).markSuspect core 0).markSuspect core 1 else s) :=
    .ite ((arrayNote_reports ..).trans ((markSuspect_reports ..).trans (markSuspect_reports ..))) (.refl core s)
  exact .ite (compared.trans (arrayNote_reports ..)) compared

theorem faultShown_reports : s.Reports core (s.faultShown core ctx kind arr region p) :=
  faultNamed_reports.trans ((arrayNote_reports ..).trans kindShown_reports)

/-- The fault shows in ARRAY_FAULT of the page (R325). -/
theorem faultShown_raised (canon : s.dev.canonical = true) (page : s.dev.corePage tArray core = some p) (clear : s.clearedNow p = false) :
    (s.faultShown core ctx kind arr region p).raised p 5 := by
  have named := faultNamed_reports (s := s) (core := core) (ctx := ctx) (kind := kind) (arr := arr) (region := region) (p := p)
  have counted := arrayNote_reports (core := core) 9 5 1 (s.faultNamed ctx kind arr region p)
  refine kindShown_reports.raised (counted.canon (named.canon canon)) p 5 (arrayNote_raised (by decide) (by decide) ?_ ?_)
  · rwa [named.kept.corePage (by decide)]
  · rwa [named.kept.clearedNow (by decide) (by decide)]

theorem ctx_of_only {l : List ArrayRun} {r : ArrayRun} (only : l.filter (fun q => decide (q.ctx = ctx)) = [r]) : r.ctx = ctx := by
  have mem : r ∈ l.filter (fun q => decide (q.ctx = ctx)) := only ▸ List.mem_singleton_self r
  simpa using (List.mem_filter.mp mem).2

/-- The pass that a fault strikes: the only one of its context, and the only one of all where the fault is of a whole array. -/
theorem struckRuns_eq {x : CoreState} {r : ArrayRun} (only : x.running.filter (fun q => decide (q.ctx = ctx)) = [r]) (array : r.mvec = false)
    (alone : kind = 3 → x.running = [r]) : (x.arrayRuns.filter fun q => decide (q.ctx = ctx ∨ (kind = 3 ∧ q.onArray arr))) = [r] := by
  by_cases whole : kind = 3
  · simp [CoreState.arrayRuns, alone whole, array, ctx_of_only only]
  · simp only [whole, false_and, or_false, CoreState.arrayRuns]
    rw [List.filter_filter, List.filter_congr (fun _ _ => Bool.and_comm _ _), ← List.filter_filter, only]
    simp [array]

/-- ARRAY_FAULT strikes one pass, which it aborts after the fault is shown (R325, R326). -/
theorem arrayFault_run {x : Ctx} {e : Entry} {r : ArrayRun} (canon : s.dev.canonical = true) (stands : s.ctx core ctx = x)
    (next : s.dev.entryOf x = some e) (only : (s.dev.core core).running.filter (fun q => decide (q.ctx = ctx)) = [r])
    (strikes : r.strikes (decide ((s.dev.layerAt core x (x.addr e)).mode = 1) && (s.dev.layerAt core x (x.addr e)).twinCheck) x.move.isSome kind arr
      region = true) (alone : kind = 3 → (s.dev.core core).running = [r]) (page : s.dev.corePage tArray core = some p) :
    exec (.arrayFault core ctx kind arr region) s =
      .next ((s.faultShown core ctx kind arr region p).abortRun core kind arr (s.start.rg p 0x4C % 16) r) := by
  have pass : (s.dev.core core).runOf ctx = some r := by rw [CoreState.runOf, ← List.head?_filter, only, List.head?_cons]
  have array : r.mvec = false := by
    simp only [ArrayRun.strikes, Bool.and_eq_true, Bool.not_eq_true'] at strikes
    exact strikes.1.1.1.1.1
  have running := faultShown_reports (core := core) (ctx := ctx) (kind := kind) (arr := arr) (region := region) (p := p).running canon
  show execArrayFault core ctx kind arr region s = _
  simp only [execArrayFault, pass, stands, next, strikes, if_true]
  rw [passFails_eq page, struckRuns_eq (running.symm ▸ only) array (running.symm ▸ alone)]
  rfl

/-- What the abort of the struck pass leaves of its task, and of the flags of the page. -/
theorem faultShown_abortRun {r : ArrayRun} (canon : s.dev.canonical = true) (own : r.ctx = ctx) (page : s.dev.corePage tArray core = some p)
    (clear : s.clearedNow p = false) (limit : Nat) :
    let t := (s.faultShown core ctx kind arr region p).abortRun core kind arr limit r
    (t.dev.core core).runOf ctx = none ∧ t.raised p 5 ∧
      ((s.ctx core ctx).restarts < limit ∧ t.ctx core ctx = (s.ctx core ctx).restarted ∨
        limit ≤ (s.ctx core ctx).restarts ∧ t.ctx core ctx = (s.ctx core ctx).restarted.failed ∧ t.raised p 6) := by
  subst own
  have shown := faultShown_reports (s := s) (core := core) (ctx := r.ctx) (kind := kind) (arr := arr) (region := region) (p := p)
  have up := faultShown_raised (core := core) (ctx := r.ctx) (kind := kind) (arr := arr) (region := region) canon page clear
  rw [← shown.ctx canon]
  rcases Nat.lt_or_ge ((s.faultShown core r.ctx kind arr region p).ctx core r.ctx).restarts limit with below | reached
  · obtain ⟨task, ended, flags⟩ := abortRun_retries (kind := kind) (arr := arr) (shown.canon canon) below
    exact ⟨ended, flags p 5 up, .inl ⟨below, task⟩⟩
  · obtain ⟨task, ended, flags, aborted⟩ := abortRun_ends (kind := kind) (arr := arr) (shown.canon canon) reached
    refine ⟨ended, flags p 5 up, .inr ⟨reached, task, aborted p ?_ ?_⟩⟩
    · rwa [shown.kept.corePage (by decide)]
    · rwa [shown.kept.clearedNow (by decide) (by decide)]

end

/-! ### Steps of adaptation -/

/-- A ply that ends a step of the layer is noted, and the core judges the layer's channels at its end (R297, R298, R320). -/
theorem rescaleStepEnd_last {s : State} {core target gen a : Nat} {deep : Bool} {g : Generation} {rd : Nat → Byte} {l : LayerD}
    (there : s.dev.gen? deep target gen = some g) (reads : rd = s.dev.taskByte core ((if deep then 2 else 1) * 2 ^ 28 + target * 65536) gen)
    (layer : l = layerD ((List.range 64).map fun i => rd (a + i))) (adaptive : l.adaptLog ≠ 0) (last : (s.now + 1) % 2 ^ l.adaptLog = 0) :
    exec (.rescaleStepEnd core deep target gen a) s =
      .next (s.onCompute fun x => { x with steps := x.steps ++ [(core, scaleKey g.key l.scale 0, l.n)] }) := by
  have ends : lastOfWindow l.adaptLog s.now = true := decide_eq_true ⟨adaptive, last⟩
  subst reads layer
  show execRescaleStepEnd core deep target gen a s = _
  simp only [execRescaleStepEnd, there, ends, Bool.not_true, Bool.false_eq_true, if_false]

/-- A channel's shift takes its step (R297). -/
theorem stepEnd_scale {s : State} {core k : Nat} {c : ScaleCopy} (canon : s.dev.canonical = true) (there : Table.get? (s.dev.core core).scale k = some c) :
    ((s.stepEnd core k).dev.core core).scale =
      Table.put (s.dev.core core).scale k { c with bits := c.bits.renew (scaleStep c.bits c.lo c.hi) } := by
  have counted : Kept [.counters] s ((s.arrayCount core 7 (b2n (decide (scaleStep c.bits c.lo c.hi = 1)))).arrayCount core 8
      (b2n (decide (scaleStep c.bits c.lo c.hi = -1)))) :=
    arrayCount_kept _ _ _ _ (List.Subset.refl _) (arrayCount_kept _ _ _ _ (List.Subset.refl _) (.rfl' _ s))
  have there : Table.get? (s.core core).scale k = some c := there
  simp only [State.stepEnd, there]
  rw [core_onCore_same (counted.canon canon), counted.core (by decide)]

/-- Settles O36: a pass that stops by what its sealing leaves of its core, one that a fault strikes by the two ways in which its abort ends, and the steps
of adaptation by the one update that each makes. -/
theorem passesStopAndAdapt : Obligations.PassesStopAndAdapt := by
  unfold Obligations.PassesStopAndAdapt
  intro s core ctx x e canon
  refine ⟨?_, ?_, ?_, ?_, fun k c => stepEnd_scale canon⟩
  · rintro tiles a l r done rfl next pass rfl rfl array sealable uncancelled sound doneIs short least most asked
    exact ⟨_, _, adjournment_run rfl next pass array sealable uncancelled sound doneIs short least most asked, stopped_ctx canon, stopped_runOf canon pass,
      stopped_adjourn canon, rfl, rfl, rfl, rfl, rfl, rfl, rfl, rfl, rfl, rfl, rfl⟩
  · rintro r m t sealing rfl
    obtain ⟨task, ended⟩ := runEnds_adjourns canon sealing
    rw [task]
    exact ⟨rfl, rfl, rfl, rfl, ended⟩
  · rintro kind arr region p r rfl next only strikes alone page clear
    obtain ⟨ended, up, task⟩ := faultShown_abortRun (kind := kind) (arr := arr) (region := region) canon (ctx_of_only only) page clear
      (s.start.rg p 0x4C % 16)
    refine ⟨_, arrayFault_run canon rfl next only strikes alone page, ?_⟩
    rcases task with ⟨below, task⟩ | ⟨reached, task, aborted⟩
    · rw [task]
      exact ⟨rfl, rfl, rfl, up, ended, fun _ => rfl, fun reached => absurd below (Nat.not_lt.mpr reached)⟩
    · rw [task]
      refine ⟨rfl, rfl, rfl, up, ended, fun below => absurd below (Nat.not_lt.mpr reached), fun _ => ⟨fun sound => ?_, aborted⟩⟩
      simp [Ctx.failed, Ctx.restarted, sound]
  · intro deep target gen a g rd l there reads layer adaptive last
    exact ⟨_, rescaleStepEnd_last there reads layer adaptive last, rfl, rfl⟩

end Sys2Proof.Machine
end
